-- ==== Sys2Proof/Word.lean ====
section
/-! DEFINITION. The widths the manual uses (R10): bytes, 32-bit and 64-bit words, and 128-bit
generator states. Multi-byte values are little-endian; that is decided in Machine/Bytes.lean. -/

namespace Sys2Proof

/-- One byte of a frame, a record, a slot or memory. -/
abbrev Byte := BitVec 8

/-- A draw, an FP32 encoding, half of a register. -/
abbrev W32 := BitVec 32

/-- A register of BAR0 (R10: registers are 64 bits wide). -/
abbrev W64 := BitVec 64

/-- A generator state (R184). -/
abbrev W128 := BitVec 128

end Sys2Proof
end

