-- ==== Sys2Proof/Machine/Bytes.lean ====
section
/-! DEFINITION. Little-endian byte strings (R10): the one place that decides the byte order of
multi-byte fields of frames, records, plan sections and contexts. -/

namespace Sys2Proof.Machine

/-- The little-endian value of a byte string. -/
def leNat : List Byte → Nat
  | [] => 0
  | b :: bs => b.toNat + 256 * leNat bs

/-- `n` as `k` bytes, least significant first. -/
def natLe (n : Nat) : Nat → List Byte
  | 0 => []
  | k + 1 => BitVec.ofNat 8 n :: natLe (n / 256) k

/-- `k` zero bytes. -/
def zeros (k : Nat) : List Byte := List.replicate k 0

/-- Bytes `off` to `off + len - 1`. -/
def slice (bs : List Byte) (off len : Nat) : List Byte := (bs.drop off).take len

/-- The little-endian field of `len` bytes at `off`. -/
def fieldAt (bs : List Byte) (off len : Nat) : Nat := leNat (slice bs off len)

/-- Every byte of the string is zero. -/
def allZero (bs : List Byte) : Bool := bs.all (· == 0)

/-- Bytes `off` to `off + len - 1` exist and are zero. -/
def zeroAt (bs : List Byte) (off len : Nat) : Bool := allZero (slice bs off len)

/-- `bs` with `new` written at `off`; bytes past the end of `bs` are dropped. -/
def overlay (bs : List Byte) (off : Nat) (new : List Byte) : List Byte :=
  (bs.take off ++ new).take bs.length ++ bs.drop (off + new.length)

/-- `bs` padded with zeros to a multiple of `k` bytes. -/
def padTo (k : Nat) (bs : List Byte) : List Byte :=
  bs ++ zeros ((k - bs.length % k) % k)

/-- The length `n` rounded up to a multiple of `k`. -/
def roundUp (n k : Nat) : Nat := (n + k - 1) / k * k

/-- ⌈a / b⌉. -/
def ceilDiv (a b : Nat) : Nat := (a + b - 1) / b

/-- A two's-complement field of `w` bits (R10, signed values). -/
def signedOf (w n : Nat) : Int := (BitVec.ofNat w n).toInt

/-- The encoding of `z` in two's complement of `w` bits. -/
def encSigned (w : Nat) (z : Int) : Nat := (BitVec.ofInt w z).toNat

/-- `a + b`, held at `2 ^ w - 1` (a saturating counter of `w` bits). -/
def satAdd (w a b : Nat) : Nat := min (a + b) (2 ^ w - 1)

/-- Bits `lo` to `lo + w - 1` of `n`. -/
def bitsOf (n lo w : Nat) : Nat := n / 2 ^ lo % 2 ^ w

/-! ## Sorting -/

/-- An element goes in front of the first that it may precede. -/
def insertBy {α : Type} (le : α → α → Bool) (x : α) : List α → List α
  | [] => [x]
  | y :: ys => if le x y then x :: y :: ys else y :: insertBy le x ys

/-- A list in ascending order; elements that tie stay in the order they stood in. -/
def sortBy {α : Type} (le : α → α → Bool) (l : List α) : List α := l.foldr (insertBy le) []

/-- Numbers in ascending order. -/
def sortNats (l : List Nat) : List Nat := sortBy (fun a b => a ≤ b) l

end Sys2Proof.Machine
end

