-- ==== Sys2Proof/Machine/Regs.lean ====
section
/-! DEFINITION. The BAR0 registers (R428): their names, offsets, field maps, access types and values
after cold reset, as the manual's field tables give them, and the fields by name. A register that
R422 keeps once per port has a second constructor whose name ends in `_MGMT`. -/

namespace Sys2Proof.Machine

/-- The two ports that reach BAR0 (R333, R422). -/
inductive Port where
  | host | mgmt
  deriving DecidableEq, Repr

/-- The access types of R11. -/
inductive Access where
  | rw | ro | w1c | wo | rw1s
  deriving DecidableEq, Repr

/-- One row of a field table: low bit, width and access type. -/
structure FieldSpec where
  lo : Nat
  w : Nat
  acc : Access
  deriving DecidableEq, Repr

/-- The registers of R428; those ending in `_MGMT` are the management port's copies (R422). -/
inductive Reg where
  | DEV_ID | DEV_STEPPING | DEV_GRADE | DEV_SHAPE | DEV_CAPS | DEV_STAT | DEV_RESET | DEV_BOOT | DEV_ACCESS 
  | STEP_SRC | STEP_CTL | STEP_NOW | STEP_PHASE | STEP_ADVANCE | STEP_HOLDOVER | STEP_SKEW_COMP 
  | STEP_WATCHDOG | STEP_STAT | STEP_OVERRUNS | STEP_AT_LIMIT | INTAKE_CTL | INTAKE_NEXT_SEQ | RECEIPT_BASE 
  | RECEIPT_SIZE | RECEIPT_HEAD | DURABILITY_POLICY | INTAKE_STAT | INTAKE_AT_LIMIT | INTAKE_COUNTS 
  | RUN_NEXT_STEP | MODE_CTL | LOAD_BALANCE | MODE_STAT | MODE_SINCE | MODE_UNCOVERED | DIGEST_STEP 
  | DIGEST_VALUE | DIGEST_FLAGS | MODE_COUNTS | SEL_CORE | CORE_INFO | SAMP_SWEEPS | SAMP_CHANGES 
  | SAMP_CONFLICTS | SAMP_MALA | SAMP_STAT | ANNEAL_SWEEP | ANNEAL_TEMP | ANNEAL_STAT | ANNEAL_BEST 
  | ANNEAL_BEST_INFO | ANNEAL_SEL | ANNEAL_GROUP | ANNEAL_SWAP | ANNEAL_SLOT | ARITH_STAT | ARITH_STICKY 
  | ARITH_SLICES | STRM_SEED | STRM_SEED_INFO | STRM_SEL | STRM_POS | STRM_STATE_LO | STRM_STATE_HI 
  | STRM_POLY | STRM_ROM_SEL | STRM_ROM_LO | STRM_ROM_HI | MESH_ROUTER | MESH_GHOST | MESH_MCAST | MESH_PLAN 
  | MESH_PAD | SEL_MPORT | MPORT_STAT | MPORT_LEVEL | MPORT_ECC | MPORT_TILE | MPORT_SCRUB | MPORT_MERGE 
  | MPORT_ADMIT | MPORT_CVU_CTL | MPORT_CVU_BASE | MPORT_CVU_LIMIT | MPORT_CVU_VALUE | MPORT_CVU_BYTES 
  | SEL_LANE | LANE_STAT | LANE_ERR | LANE_CTL | HOST_LINK | HOST_ERR | HOST_WIN | MGMT_WDOG | MGMT_STAT 
  | MGMT_AT_LIMIT | MODULE_ENV | JRNL_CTL | JRNL_STAT | JRNL_NEXT_FSEQ | JRNL_J0_ACKED | JRNL_J1_ACKED 
  | JRNL_RETX | JRNL_AT_LIMIT | CKPT_STAT | CKPT_LAST | TRNG_CTL | TRNG_STAT | TRNG_WORD | TRNG_RCT_FAILS 
  | TRNG_APT_FAILS | TRNG_EMPTY_READS | TRNG_SRC_MAP | TRNG_SEL | TRNG_SRC_FAILS | TRNG_DRBG | BELFRY_CTL 
  | BELFRY_STAT | BELFRY_TOTAL | BELFRY_SEL_AREA | BELFRY_INDEX | BELFRY_REC0 | BELFRY_REC1 | BELFRY_REC2 
  | BELFRY_REC3 | BELFRY_REC_STAT | BELFRY_PENDING | BELFRY_AT_LIMIT | BELFRY_TALLY | SEC_LIFECYCLE 
  | DBG_LEVEL | DBG_CHALLENGE | DBG_CTL | DBG_STAT | PWR_STATE | PWR_CAP | PWR_STAT | SEC_FW | SEC_COUNTS 
  | SPARE_BUDGET | SPARE_SEL | SPARE_MAP | SPARE_CTL | SPARE_STAT | SPARE_WDOG | SPARE_AT_LIMIT 
  | SPARE_COUNTS | SPARE_UNITS | INT_STAT | INT_ENABLE | INT_SET | INT_MOD | INT_COUNT | INT_AT_LIMIT 
  | OCU_CTL | OCU_TRIG_STEP | OCU_TRIG_ITEM | OCU_STAT | OCU_SEL | OCU_DATA | SEL_CORE_MGMT | ANNEAL_SEL_MGMT 
  | STRM_SEL_MGMT | STRM_ROM_SEL_MGMT | SEL_MPORT_MGMT | SEL_LANE_MGMT | TRNG_SEL_MGMT | SPARE_SEL_MGMT 
  | BELFRY_SEL_AREA_MGMT | BELFRY_INDEX_MGMT | BELFRY_REC0_MGMT | BELFRY_REC1_MGMT | BELFRY_REC2_MGMT 
  | BELFRY_REC3_MGMT | BELFRY_REC_STAT_MGMT | OCU_SEL_MGMT | DIGEST_VALUE_MGMT | DIGEST_FLAGS_MGMT 
  deriving DecidableEq, Repr

/-- How many registers State stores: those of R428 and the second copies of R422. -/
def Reg.count : Nat := 178

/-- A register's place in the register file. -/
def Reg.idx : Reg → Fin Reg.count
  | .DEV_ID => ⟨0, by decide⟩
  | .DEV_STEPPING => ⟨1, by decide⟩
  | .DEV_GRADE => ⟨2, by decide⟩
  | .DEV_SHAPE => ⟨3, by decide⟩
  | .DEV_CAPS => ⟨4, by decide⟩
  | .DEV_STAT => ⟨5, by decide⟩
  | .DEV_RESET => ⟨6, by decide⟩
  | .DEV_BOOT => ⟨7, by decide⟩
  | .DEV_ACCESS => ⟨8, by decide⟩
  | .STEP_SRC => ⟨9, by decide⟩
  | .STEP_CTL => ⟨10, by decide⟩
  | .STEP_NOW => ⟨11, by decide⟩
  | .STEP_PHASE => ⟨12, by decide⟩
  | .STEP_ADVANCE => ⟨13, by decide⟩
  | .STEP_HOLDOVER => ⟨14, by decide⟩
  | .STEP_SKEW_COMP => ⟨15, by decide⟩
  | .STEP_WATCHDOG => ⟨16, by decide⟩
  | .STEP_STAT => ⟨17, by decide⟩
  | .STEP_OVERRUNS => ⟨18, by decide⟩
  | .STEP_AT_LIMIT => ⟨19, by decide⟩
  | .INTAKE_CTL => ⟨20, by decide⟩
  | .INTAKE_NEXT_SEQ => ⟨21, by decide⟩
  | .RECEIPT_BASE => ⟨22, by decide⟩
  | .RECEIPT_SIZE => ⟨23, by decide⟩
  | .RECEIPT_HEAD => ⟨24, by decide⟩
  | .DURABILITY_POLICY => ⟨25, by decide⟩
  | .INTAKE_STAT => ⟨26, by decide⟩
  | .INTAKE_AT_LIMIT => ⟨27, by decide⟩
  | .INTAKE_COUNTS => ⟨28, by decide⟩
  | .RUN_NEXT_STEP => ⟨29, by decide⟩
  | .MODE_CTL => ⟨30, by decide⟩
  | .LOAD_BALANCE => ⟨31, by decide⟩
  | .MODE_STAT => ⟨32, by decide⟩
  | .MODE_SINCE => ⟨33, by decide⟩
  | .MODE_UNCOVERED => ⟨34, by decide⟩
  | .DIGEST_STEP => ⟨35, by decide⟩
  | .DIGEST_VALUE => ⟨36, by decide⟩
  | .DIGEST_FLAGS => ⟨37, by decide⟩
  | .MODE_COUNTS => ⟨38, by decide⟩
  | .SEL_CORE => ⟨39, by decide⟩
  | .CORE_INFO => ⟨40, by decide⟩
  | .SAMP_SWEEPS => ⟨41, by decide⟩
  | .SAMP_CHANGES => ⟨42, by decide⟩
  | .SAMP_CONFLICTS => ⟨43, by decide⟩
  | .SAMP_MALA => ⟨44, by decide⟩
  | .SAMP_STAT => ⟨45, by decide⟩
  | .ANNEAL_SWEEP => ⟨46, by decide⟩
  | .ANNEAL_TEMP => ⟨47, by decide⟩
  | .ANNEAL_STAT => ⟨48, by decide⟩
  | .ANNEAL_BEST => ⟨49, by decide⟩
  | .ANNEAL_BEST_INFO => ⟨50, by decide⟩
  | .ANNEAL_SEL => ⟨51, by decide⟩
  | .ANNEAL_GROUP => ⟨52, by decide⟩
  | .ANNEAL_SWAP => ⟨53, by decide⟩
  | .ANNEAL_SLOT => ⟨54, by decide⟩
  | .ARITH_STAT => ⟨55, by decide⟩
  | .ARITH_STICKY => ⟨56, by decide⟩
  | .ARITH_SLICES => ⟨57, by decide⟩
  | .STRM_SEED => ⟨58, by decide⟩
  | .STRM_SEED_INFO => ⟨59, by decide⟩
  | .STRM_SEL => ⟨60, by decide⟩
  | .STRM_POS => ⟨61, by decide⟩
  | .STRM_STATE_LO => ⟨62, by decide⟩
  | .STRM_STATE_HI => ⟨63, by decide⟩
  | .STRM_POLY => ⟨64, by decide⟩
  | .STRM_ROM_SEL => ⟨65, by decide⟩
  | .STRM_ROM_LO => ⟨66, by decide⟩
  | .STRM_ROM_HI => ⟨67, by decide⟩
  | .MESH_ROUTER => ⟨68, by decide⟩
  | .MESH_GHOST => ⟨69, by decide⟩
  | .MESH_MCAST => ⟨70, by decide⟩
  | .MESH_PLAN => ⟨71, by decide⟩
  | .MESH_PAD => ⟨72, by decide⟩
  | .SEL_MPORT => ⟨73, by decide⟩
  | .MPORT_STAT => ⟨74, by decide⟩
  | .MPORT_LEVEL => ⟨75, by decide⟩
  | .MPORT_ECC => ⟨76, by decide⟩
  | .MPORT_TILE => ⟨77, by decide⟩
  | .MPORT_SCRUB => ⟨78, by decide⟩
  | .MPORT_MERGE => ⟨79, by decide⟩
  | .MPORT_ADMIT => ⟨80, by decide⟩
  | .MPORT_CVU_CTL => ⟨81, by decide⟩
  | .MPORT_CVU_BASE => ⟨82, by decide⟩
  | .MPORT_CVU_LIMIT => ⟨83, by decide⟩
  | .MPORT_CVU_VALUE => ⟨84, by decide⟩
  | .MPORT_CVU_BYTES => ⟨85, by decide⟩
  | .SEL_LANE => ⟨86, by decide⟩
  | .LANE_STAT => ⟨87, by decide⟩
  | .LANE_ERR => ⟨88, by decide⟩
  | .LANE_CTL => ⟨89, by decide⟩
  | .HOST_LINK => ⟨90, by decide⟩
  | .HOST_ERR => ⟨91, by decide⟩
  | .HOST_WIN => ⟨92, by decide⟩
  | .MGMT_WDOG => ⟨93, by decide⟩
  | .MGMT_STAT => ⟨94, by decide⟩
  | .MGMT_AT_LIMIT => ⟨95, by decide⟩
  | .MODULE_ENV => ⟨96, by decide⟩
  | .JRNL_CTL => ⟨97, by decide⟩
  | .JRNL_STAT => ⟨98, by decide⟩
  | .JRNL_NEXT_FSEQ => ⟨99, by decide⟩
  | .JRNL_J0_ACKED => ⟨100, by decide⟩
  | .JRNL_J1_ACKED => ⟨101, by decide⟩
  | .JRNL_RETX => ⟨102, by decide⟩
  | .JRNL_AT_LIMIT => ⟨103, by decide⟩
  | .CKPT_STAT => ⟨104, by decide⟩
  | .CKPT_LAST => ⟨105, by decide⟩
  | .TRNG_CTL => ⟨106, by decide⟩
  | .TRNG_STAT => ⟨107, by decide⟩
  | .TRNG_WORD => ⟨108, by decide⟩
  | .TRNG_RCT_FAILS => ⟨109, by decide⟩
  | .TRNG_APT_FAILS => ⟨110, by decide⟩
  | .TRNG_EMPTY_READS => ⟨111, by decide⟩
  | .TRNG_SRC_MAP => ⟨112, by decide⟩
  | .TRNG_SEL => ⟨113, by decide⟩
  | .TRNG_SRC_FAILS => ⟨114, by decide⟩
  | .TRNG_DRBG => ⟨115, by decide⟩
  | .BELFRY_CTL => ⟨116, by decide⟩
  | .BELFRY_STAT => ⟨117, by decide⟩
  | .BELFRY_TOTAL => ⟨118, by decide⟩
  | .BELFRY_SEL_AREA => ⟨119, by decide⟩
  | .BELFRY_INDEX => ⟨120, by decide⟩
  | .BELFRY_REC0 => ⟨121, by decide⟩
  | .BELFRY_REC1 => ⟨122, by decide⟩
  | .BELFRY_REC2 => ⟨123, by decide⟩
  | .BELFRY_REC3 => ⟨124, by decide⟩
  | .BELFRY_REC_STAT => ⟨125, by decide⟩
  | .BELFRY_PENDING => ⟨126, by decide⟩
  | .BELFRY_AT_LIMIT => ⟨127, by decide⟩
  | .BELFRY_TALLY => ⟨128, by decide⟩
  | .SEC_LIFECYCLE => ⟨129, by decide⟩
  | .DBG_LEVEL => ⟨130, by decide⟩
  | .DBG_CHALLENGE => ⟨131, by decide⟩
  | .DBG_CTL => ⟨132, by decide⟩
  | .DBG_STAT => ⟨133, by decide⟩
  | .PWR_STATE => ⟨134, by decide⟩
  | .PWR_CAP => ⟨135, by decide⟩
  | .PWR_STAT => ⟨136, by decide⟩
  | .SEC_FW => ⟨137, by decide⟩
  | .SEC_COUNTS => ⟨138, by decide⟩
  | .SPARE_BUDGET => ⟨139, by decide⟩
  | .SPARE_SEL => ⟨140, by decide⟩
  | .SPARE_MAP => ⟨141, by decide⟩
  | .SPARE_CTL => ⟨142, by decide⟩
  | .SPARE_STAT => ⟨143, by decide⟩
  | .SPARE_WDOG => ⟨144, by decide⟩
  | .SPARE_AT_LIMIT => ⟨145, by decide⟩
  | .SPARE_COUNTS => ⟨146, by decide⟩
  | .SPARE_UNITS => ⟨147, by decide⟩
  | .INT_STAT => ⟨148, by decide⟩
  | .INT_ENABLE => ⟨149, by decide⟩
  | .INT_SET => ⟨150, by decide⟩
  | .INT_MOD => ⟨151, by decide⟩
  | .INT_COUNT => ⟨152, by decide⟩
  | .INT_AT_LIMIT => ⟨153, by decide⟩
  | .OCU_CTL => ⟨154, by decide⟩
  | .OCU_TRIG_STEP => ⟨155, by decide⟩
  | .OCU_TRIG_ITEM => ⟨156, by decide⟩
  | .OCU_STAT => ⟨157, by decide⟩
  | .OCU_SEL => ⟨158, by decide⟩
  | .OCU_DATA => ⟨159, by decide⟩
  | .SEL_CORE_MGMT => ⟨160, by decide⟩
  | .ANNEAL_SEL_MGMT => ⟨161, by decide⟩
  | .STRM_SEL_MGMT => ⟨162, by decide⟩
  | .STRM_ROM_SEL_MGMT => ⟨163, by decide⟩
  | .SEL_MPORT_MGMT => ⟨164, by decide⟩
  | .SEL_LANE_MGMT => ⟨165, by decide⟩
  | .TRNG_SEL_MGMT => ⟨166, by decide⟩
  | .SPARE_SEL_MGMT => ⟨167, by decide⟩
  | .BELFRY_SEL_AREA_MGMT => ⟨168, by decide⟩
  | .BELFRY_INDEX_MGMT => ⟨169, by decide⟩
  | .BELFRY_REC0_MGMT => ⟨170, by decide⟩
  | .BELFRY_REC1_MGMT => ⟨171, by decide⟩
  | .BELFRY_REC2_MGMT => ⟨172, by decide⟩
  | .BELFRY_REC3_MGMT => ⟨173, by decide⟩
  | .BELFRY_REC_STAT_MGMT => ⟨174, by decide⟩
  | .OCU_SEL_MGMT => ⟨175, by decide⟩
  | .DIGEST_VALUE_MGMT => ⟨176, by decide⟩
  | .DIGEST_FLAGS_MGMT => ⟨177, by decide⟩

/-- The registers with an offset of their own. -/
def Reg.all : List Reg := [
  .DEV_ID, .DEV_STEPPING, .DEV_GRADE, .DEV_SHAPE, .DEV_CAPS, .DEV_STAT, .DEV_RESET, .DEV_BOOT, .DEV_ACCESS, 
  .STEP_SRC, .STEP_CTL, .STEP_NOW, .STEP_PHASE, .STEP_ADVANCE, .STEP_HOLDOVER, .STEP_SKEW_COMP, 
  .STEP_WATCHDOG, .STEP_STAT, .STEP_OVERRUNS, .STEP_AT_LIMIT, .INTAKE_CTL, .INTAKE_NEXT_SEQ, .RECEIPT_BASE, 
  .RECEIPT_SIZE, .RECEIPT_HEAD, .DURABILITY_POLICY, .INTAKE_STAT, .INTAKE_AT_LIMIT, .INTAKE_COUNTS, 
  .RUN_NEXT_STEP, .MODE_CTL, .LOAD_BALANCE, .MODE_STAT, .MODE_SINCE, .MODE_UNCOVERED, .DIGEST_STEP, 
  .DIGEST_VALUE, .DIGEST_FLAGS, .MODE_COUNTS, .SEL_CORE, .CORE_INFO, .SAMP_SWEEPS, .SAMP_CHANGES, 
  .SAMP_CONFLICTS, .SAMP_MALA, .SAMP_STAT, .ANNEAL_SWEEP, .ANNEAL_TEMP, .ANNEAL_STAT, .ANNEAL_BEST, 
  .ANNEAL_BEST_INFO, .ANNEAL_SEL, .ANNEAL_GROUP, .ANNEAL_SWAP, .ANNEAL_SLOT, .ARITH_STAT, .ARITH_STICKY, 
  .ARITH_SLICES, .STRM_SEED, .STRM_SEED_INFO, .STRM_SEL, .STRM_POS, .STRM_STATE_LO, .STRM_STATE_HI, 
  .STRM_POLY, .STRM_ROM_SEL, .STRM_ROM_LO, .STRM_ROM_HI, .MESH_ROUTER, .MESH_GHOST, .MESH_MCAST, .MESH_PLAN, 
  .MESH_PAD, .SEL_MPORT, .MPORT_STAT, .MPORT_LEVEL, .MPORT_ECC, .MPORT_TILE, .MPORT_SCRUB, .MPORT_MERGE, 
  .MPORT_ADMIT, .MPORT_CVU_CTL, .MPORT_CVU_BASE, .MPORT_CVU_LIMIT, .MPORT_CVU_VALUE, .MPORT_CVU_BYTES, 
  .SEL_LANE, .LANE_STAT, .LANE_ERR, .LANE_CTL, .HOST_LINK, .HOST_ERR, .HOST_WIN, .MGMT_WDOG, .MGMT_STAT, 
  .MGMT_AT_LIMIT, .MODULE_ENV, .JRNL_CTL, .JRNL_STAT, .JRNL_NEXT_FSEQ, .JRNL_J0_ACKED, .JRNL_J1_ACKED, 
  .JRNL_RETX, .JRNL_AT_LIMIT, .CKPT_STAT, .CKPT_LAST, .TRNG_CTL, .TRNG_STAT, .TRNG_WORD, .TRNG_RCT_FAILS, 
  .TRNG_APT_FAILS, .TRNG_EMPTY_READS, .TRNG_SRC_MAP, .TRNG_SEL, .TRNG_SRC_FAILS, .TRNG_DRBG, .BELFRY_CTL, 
  .BELFRY_STAT, .BELFRY_TOTAL, .BELFRY_SEL_AREA, .BELFRY_INDEX, .BELFRY_REC0, .BELFRY_REC1, .BELFRY_REC2, 
  .BELFRY_REC3, .BELFRY_REC_STAT, .BELFRY_PENDING, .BELFRY_AT_LIMIT, .BELFRY_TALLY, .SEC_LIFECYCLE, 
  .DBG_LEVEL, .DBG_CHALLENGE, .DBG_CTL, .DBG_STAT, .PWR_STATE, .PWR_CAP, .PWR_STAT, .SEC_FW, .SEC_COUNTS, 
  .SPARE_BUDGET, .SPARE_SEL, .SPARE_MAP, .SPARE_CTL, .SPARE_STAT, .SPARE_WDOG, .SPARE_AT_LIMIT, 
  .SPARE_COUNTS, .SPARE_UNITS, .INT_STAT, .INT_ENABLE, .INT_SET, .INT_MOD, .INT_COUNT, .INT_AT_LIMIT, 
  .OCU_CTL, .OCU_TRIG_STEP, .OCU_TRIG_ITEM, .OCU_STAT, .OCU_SEL, .OCU_DATA] 

/-- Every stored register, in the order of the register file. -/
def Reg.every : List Reg := Reg.all ++ [.SEL_CORE_MGMT,
  .ANNEAL_SEL_MGMT,
  .STRM_SEL_MGMT,
  .STRM_ROM_SEL_MGMT,
  .SEL_MPORT_MGMT,
  .SEL_LANE_MGMT,
  .TRNG_SEL_MGMT,
  .SPARE_SEL_MGMT,
  .BELFRY_SEL_AREA_MGMT,
  .BELFRY_INDEX_MGMT,
  .BELFRY_REC0_MGMT,
  .BELFRY_REC1_MGMT,
  .BELFRY_REC2_MGMT,
  .BELFRY_REC3_MGMT,
  .BELFRY_REC_STAT_MGMT,
  .OCU_SEL_MGMT,
  .DIGEST_VALUE_MGMT,
  .DIGEST_FLAGS_MGMT]

/-- The offset in BAR0 (R428); a second copy has its first copy's. -/
def Reg.offset : Reg → Nat
  | .DEV_ID => 0x00000
  | .DEV_STEPPING => 0x00008
  | .DEV_GRADE => 0x00010
  | .DEV_SHAPE => 0x00018
  | .DEV_CAPS => 0x00020
  | .DEV_STAT => 0x00028
  | .DEV_RESET => 0x00030
  | .DEV_BOOT => 0x00038
  | .DEV_ACCESS => 0x00040
  | .STEP_SRC => 0x10000
  | .STEP_CTL => 0x10008
  | .STEP_NOW => 0x10010
  | .STEP_PHASE => 0x10018
  | .STEP_ADVANCE => 0x10020
  | .STEP_HOLDOVER => 0x10028
  | .STEP_SKEW_COMP => 0x10030
  | .STEP_WATCHDOG => 0x10038
  | .STEP_STAT => 0x10040
  | .STEP_OVERRUNS => 0x10048
  | .STEP_AT_LIMIT => 0x10050
  | .INTAKE_CTL => 0x20000
  | .INTAKE_NEXT_SEQ => 0x20008
  | .RECEIPT_BASE => 0x20010
  | .RECEIPT_SIZE => 0x20018
  | .RECEIPT_HEAD => 0x20020
  | .DURABILITY_POLICY => 0x20028
  | .INTAKE_STAT => 0x20030
  | .INTAKE_AT_LIMIT => 0x20038
  | .INTAKE_COUNTS => 0x20040
  | .RUN_NEXT_STEP => 0x20048
  | .MODE_CTL => 0x30000
  | .LOAD_BALANCE => 0x30008
  | .MODE_STAT => 0x30010
  | .MODE_SINCE => 0x30018
  | .MODE_UNCOVERED => 0x30020
  | .DIGEST_STEP => 0x30028
  | .DIGEST_VALUE => 0x30030
  | .DIGEST_FLAGS => 0x30038
  | .MODE_COUNTS => 0x30040
  | .SEL_CORE => 0x40000
  | .CORE_INFO => 0x40008
  | .SAMP_SWEEPS => 0x40100
  | .SAMP_CHANGES => 0x40108
  | .SAMP_CONFLICTS => 0x40110
  | .SAMP_MALA => 0x40118
  | .SAMP_STAT => 0x40120
  | .ANNEAL_SWEEP => 0x40200
  | .ANNEAL_TEMP => 0x40208
  | .ANNEAL_STAT => 0x40210
  | .ANNEAL_BEST => 0x40218
  | .ANNEAL_BEST_INFO => 0x40220
  | .ANNEAL_SEL => 0x40228
  | .ANNEAL_GROUP => 0x40230
  | .ANNEAL_SWAP => 0x40238
  | .ANNEAL_SLOT => 0x40240
  | .ARITH_STAT => 0x40300
  | .ARITH_STICKY => 0x40308
  | .ARITH_SLICES => 0x40310
  | .STRM_SEED => 0x40400
  | .STRM_SEED_INFO => 0x40408
  | .STRM_SEL => 0x40410
  | .STRM_POS => 0x40418
  | .STRM_STATE_LO => 0x40420
  | .STRM_STATE_HI => 0x40428
  | .STRM_POLY => 0x40430
  | .STRM_ROM_SEL => 0x40438
  | .STRM_ROM_LO => 0x40440
  | .STRM_ROM_HI => 0x40448
  | .MESH_ROUTER => 0x40500
  | .MESH_GHOST => 0x40508
  | .MESH_MCAST => 0x40510
  | .MESH_PLAN => 0x40518
  | .MESH_PAD => 0x40520
  | .SEL_MPORT => 0x50000
  | .MPORT_STAT => 0x50008
  | .MPORT_LEVEL => 0x50010
  | .MPORT_ECC => 0x50018
  | .MPORT_TILE => 0x50020
  | .MPORT_SCRUB => 0x50028
  | .MPORT_MERGE => 0x50030
  | .MPORT_ADMIT => 0x50038
  | .MPORT_CVU_CTL => 0x50040
  | .MPORT_CVU_BASE => 0x50048
  | .MPORT_CVU_LIMIT => 0x50050
  | .MPORT_CVU_VALUE => 0x50058
  | .MPORT_CVU_BYTES => 0x50060
  | .SEL_LANE => 0x60000
  | .LANE_STAT => 0x60008
  | .LANE_ERR => 0x60010
  | .LANE_CTL => 0x60018
  | .HOST_LINK => 0x60040
  | .HOST_ERR => 0x60048
  | .HOST_WIN => 0x60050
  | .MGMT_WDOG => 0x60060
  | .MGMT_STAT => 0x60068
  | .MGMT_AT_LIMIT => 0x60070
  | .MODULE_ENV => 0x60080
  | .JRNL_CTL => 0x70000
  | .JRNL_STAT => 0x70008
  | .JRNL_NEXT_FSEQ => 0x70010
  | .JRNL_J0_ACKED => 0x70018
  | .JRNL_J1_ACKED => 0x70020
  | .JRNL_RETX => 0x70028
  | .JRNL_AT_LIMIT => 0x70030
  | .CKPT_STAT => 0x70038
  | .CKPT_LAST => 0x70040
  | .TRNG_CTL => 0x80000
  | .TRNG_STAT => 0x80008
  | .TRNG_WORD => 0x80010
  | .TRNG_RCT_FAILS => 0x80018
  | .TRNG_APT_FAILS => 0x80020
  | .TRNG_EMPTY_READS => 0x80028
  | .TRNG_SRC_MAP => 0x80030
  | .TRNG_SEL => 0x80038
  | .TRNG_SRC_FAILS => 0x80040
  | .TRNG_DRBG => 0x80048
  | .BELFRY_CTL => 0x90000
  | .BELFRY_STAT => 0x90008
  | .BELFRY_TOTAL => 0x90010
  | .BELFRY_SEL_AREA => 0x90018
  | .BELFRY_INDEX => 0x90020
  | .BELFRY_REC0 => 0x90028
  | .BELFRY_REC1 => 0x90030
  | .BELFRY_REC2 => 0x90038
  | .BELFRY_REC3 => 0x90040
  | .BELFRY_REC_STAT => 0x90048
  | .BELFRY_PENDING => 0x90050
  | .BELFRY_AT_LIMIT => 0x90058
  | .BELFRY_TALLY => 0x90060
  | .SEC_LIFECYCLE => 0xA0000
  | .DBG_LEVEL => 0xA0008
  | .DBG_CHALLENGE => 0xA0010
  | .DBG_CTL => 0xA0018
  | .DBG_STAT => 0xA0020
  | .PWR_STATE => 0xA0028
  | .PWR_CAP => 0xA0030
  | .PWR_STAT => 0xA0038
  | .SEC_FW => 0xA0040
  | .SEC_COUNTS => 0xA0048
  | .SPARE_BUDGET => 0xB0000
  | .SPARE_SEL => 0xB0008
  | .SPARE_MAP => 0xB0010
  | .SPARE_CTL => 0xB0018
  | .SPARE_STAT => 0xB0020
  | .SPARE_WDOG => 0xB0028
  | .SPARE_AT_LIMIT => 0xB0030
  | .SPARE_COUNTS => 0xB0038
  | .SPARE_UNITS => 0xB0040
  | .INT_STAT => 0xC0000
  | .INT_ENABLE => 0xC0008
  | .INT_SET => 0xC0010
  | .INT_MOD => 0xC0018
  | .INT_COUNT => 0xC0020
  | .INT_AT_LIMIT => 0xC0028
  | .OCU_CTL => 0xD0000
  | .OCU_TRIG_STEP => 0xD0008
  | .OCU_TRIG_ITEM => 0xD0010
  | .OCU_STAT => 0xD0018
  | .OCU_SEL => 0xD0020
  | .OCU_DATA => 0xD0028
  | .SEL_CORE_MGMT => 0x40000
  | .ANNEAL_SEL_MGMT => 0x40228
  | .STRM_SEL_MGMT => 0x40410
  | .STRM_ROM_SEL_MGMT => 0x40438
  | .SEL_MPORT_MGMT => 0x50000
  | .SEL_LANE_MGMT => 0x60000
  | .TRNG_SEL_MGMT => 0x80038
  | .SPARE_SEL_MGMT => 0xB0008
  | .BELFRY_SEL_AREA_MGMT => 0x90018
  | .BELFRY_INDEX_MGMT => 0x90020
  | .BELFRY_REC0_MGMT => 0x90028
  | .BELFRY_REC1_MGMT => 0x90030
  | .BELFRY_REC2_MGMT => 0x90038
  | .BELFRY_REC3_MGMT => 0x90040
  | .BELFRY_REC_STAT_MGMT => 0x90048
  | .OCU_SEL_MGMT => 0xD0020
  | .DIGEST_VALUE_MGMT => 0x30030
  | .DIGEST_FLAGS_MGMT => 0x30038

/-- The register at an offset, if any (R419). -/
def Reg.ofOffset (o : Nat) : Option Reg := Reg.all.find? fun r => r.offset == o

/-- The management port's copy of a register that R422 keeps once per port. -/
def Reg.mgmtCopy : Reg → Option Reg
  | .SEL_CORE => some .SEL_CORE_MGMT
  | .ANNEAL_SEL => some .ANNEAL_SEL_MGMT
  | .STRM_SEL => some .STRM_SEL_MGMT
  | .STRM_ROM_SEL => some .STRM_ROM_SEL_MGMT
  | .SEL_MPORT => some .SEL_MPORT_MGMT
  | .SEL_LANE => some .SEL_LANE_MGMT
  | .TRNG_SEL => some .TRNG_SEL_MGMT
  | .SPARE_SEL => some .SPARE_SEL_MGMT
  | .BELFRY_SEL_AREA => some .BELFRY_SEL_AREA_MGMT
  | .BELFRY_INDEX => some .BELFRY_INDEX_MGMT
  | .BELFRY_REC0 => some .BELFRY_REC0_MGMT
  | .BELFRY_REC1 => some .BELFRY_REC1_MGMT
  | .BELFRY_REC2 => some .BELFRY_REC2_MGMT
  | .BELFRY_REC3 => some .BELFRY_REC3_MGMT
  | .BELFRY_REC_STAT => some .BELFRY_REC_STAT_MGMT
  | .OCU_SEL => some .OCU_SEL_MGMT
  | .DIGEST_VALUE => some .DIGEST_VALUE_MGMT
  | .DIGEST_FLAGS => some .DIGEST_FLAGS_MGMT
  | _ => none

/-- The register a port reaches under a name (R422). -/
def Reg.at (p : Port) (r : Reg) : Reg :=
  match p with
  | .host => r
  | .mgmt => r.mgmtCopy.getD r

/-- Held on the management die (R421, R428); every other register is held on the compute die. -/
def Reg.onM (r : Reg) : Bool :=
  r.offset < 0x10000 || (0x90000 ≤ r.offset && r.offset < 0xC0000) ||
  (0x60060 ≤ r.offset && r.offset < 0x60088)

/-- The registers that show a selected item (R422) and so are views of other state, not stored. -/
def Reg.windowed : Reg → Bool
  | .CORE_INFO => true
  | .SAMP_SWEEPS => true
  | .SAMP_CHANGES => true
  | .SAMP_CONFLICTS => true
  | .SAMP_MALA => true
  | .SAMP_STAT => true
  | .ANNEAL_SWEEP => true
  | .ANNEAL_TEMP => true
  | .ANNEAL_STAT => true
  | .ANNEAL_BEST => true
  | .ANNEAL_BEST_INFO => true
  | .ANNEAL_GROUP => true
  | .ANNEAL_SWAP => true
  | .ANNEAL_SLOT => true
  | .ARITH_STAT => true
  | .ARITH_STICKY => true
  | .ARITH_SLICES => true
  | .STRM_POS => true
  | .STRM_STATE_LO => true
  | .STRM_STATE_HI => true
  | .STRM_POLY => true
  | .STRM_ROM_LO => true
  | .STRM_ROM_HI => true
  | .MESH_ROUTER => true
  | .MESH_GHOST => true
  | .MESH_MCAST => true
  | .MESH_PAD => true
  | .MPORT_STAT => true
  | .MPORT_LEVEL => true
  | .MPORT_ECC => true
  | .MPORT_TILE => true
  | .MPORT_SCRUB => true
  | .MPORT_MERGE => true
  | .MPORT_ADMIT => true
  | .MPORT_CVU_CTL => true
  | .MPORT_CVU_BASE => true
  | .MPORT_CVU_LIMIT => true
  | .MPORT_CVU_VALUE => true
  | .MPORT_CVU_BYTES => true
  | .LANE_STAT => true
  | .LANE_ERR => true
  | .TRNG_SRC_FAILS => true
  | .SPARE_MAP => true
  | .OCU_DATA => true
  | _ => false

/-- The field table of a register, reserved fields left out: they read 0 and ignore writes (R13). -/
def Reg.layout : Reg → List FieldSpec
  | .DEV_ID => [⟨0, 16, .ro⟩, ⟨16, 16, .ro⟩, ⟨32, 16, .ro⟩]
  | .DEV_STEPPING => [⟨0, 8, .ro⟩]
  | .DEV_GRADE => [⟨0, 4, .ro⟩, ⟨4, 1, .ro⟩, ⟨5, 1, .ro⟩]
  | .DEV_SHAPE => [⟨0, 10, .ro⟩, ⟨16, 10, .ro⟩, ⟨32, 8, .ro⟩, ⟨40, 8, .ro⟩, ⟨48, 2, .ro⟩]
  | .DEV_CAPS => [⟨0, 4, .ro⟩, ⟨8, 8, .ro⟩, ⟨16, 16, .ro⟩, ⟨32, 16, .ro⟩, ⟨48, 4, .ro⟩]
  | .DEV_STAT => [⟨0, 1, .ro⟩, ⟨1, 1, .ro⟩, ⟨2, 1, .ro⟩, ⟨3, 1, .ro⟩, ⟨4, 1, .ro⟩]
  | .DEV_RESET => [⟨0, 1, .rw1s⟩, ⟨1, 1, .rw1s⟩, ⟨8, 4, .ro⟩, ⟨16, 16, .ro⟩, ⟨32, 16, .ro⟩]
  | .DEV_BOOT => [⟨0, 4, .ro⟩, ⟨4, 1, .ro⟩, ⟨8, 8, .ro⟩, ⟨16, 32, .ro⟩]
  | .DEV_ACCESS => [⟨0, 32, .ro⟩, ⟨32, 26, .ro⟩, ⟨58, 1, .ro⟩]
  | .STEP_SRC => [⟨0, 2, .rw⟩, ⟨4, 1, .rw⟩, ⟨5, 1, .rw⟩]
  | .STEP_CTL => [⟨0, 40, .rw⟩, ⟨40, 5, .rw⟩, ⟨48, 5, .rw⟩]
  | .STEP_NOW => [⟨0, 64, .ro⟩]
  | .STEP_PHASE => [⟨0, 16, .ro⟩, ⟨16, 5, .ro⟩, ⟨24, 8, .ro⟩, ⟨32, 32, .ro⟩]
  | .STEP_ADVANCE => [⟨0, 32, .wo⟩]
  | .STEP_HOLDOVER => [⟨0, 16, .rw⟩, ⟨16, 16, .ro⟩, ⟨32, 32, .ro⟩]
  | .STEP_SKEW_COMP => [⟨0, 16, .ro⟩, ⟨16, 16, .ro⟩, ⟨32, 16, .ro⟩, ⟨48, 8, .rw⟩, ⟨63, 1, .rw1s⟩]
  | .STEP_WATCHDOG => [⟨0, 32, .rw⟩]
  | .STEP_STAT => [⟨0, 1, .ro⟩, ⟨1, 1, .ro⟩, ⟨2, 1, .ro⟩, ⟨3, 1, .ro⟩, ⟨4, 1, .ro⟩, ⟨5, 1, .ro⟩, ⟨6, 1, .w1c⟩, ⟨32, 32, .ro⟩]
  | .STEP_OVERRUNS => [⟨0, 32, .ro⟩, ⟨32, 32, .ro⟩]
  | .STEP_AT_LIMIT => [⟨0, 32, .ro⟩, ⟨32, 32, .ro⟩]
  | .INTAKE_CTL => [⟨0, 1, .rw⟩, ⟨1, 1, .rw1s⟩, ⟨2, 1, .rw1s⟩, ⟨8, 32, .rw⟩]
  | .INTAKE_NEXT_SEQ => [⟨0, 64, .rw⟩]
  | .RECEIPT_BASE => [⟨12, 52, .rw⟩]
  | .RECEIPT_SIZE => [⟨0, 5, .rw⟩]
  | .RECEIPT_HEAD => [⟨0, 32, .ro⟩, ⟨32, 32, .rw⟩]
  | .DURABILITY_POLICY => [⟨0, 2, .rw⟩, ⟨2, 1, .rw⟩]
  | .INTAKE_STAT => [⟨0, 1, .ro⟩, ⟨1, 1, .ro⟩, ⟨2, 1, .ro⟩, ⟨3, 1, .ro⟩, ⟨4, 1, .ro⟩, ⟨5, 1, .ro⟩, ⟨6, 1, .ro⟩, ⟨16, 13, .ro⟩, ⟨32, 32, .ro⟩]
  | .INTAKE_AT_LIMIT => [⟨0, 32, .ro⟩]
  | .INTAKE_COUNTS => [⟨0, 32, .ro⟩, ⟨32, 32, .ro⟩]
  | .RUN_NEXT_STEP => [⟨0, 64, .ro⟩]
  | .MODE_CTL => [⟨0, 1, .rw⟩]
  | .LOAD_BALANCE => [⟨0, 1, .rw⟩]
  | .MODE_STAT => [⟨0, 1, .ro⟩, ⟨1, 1, .ro⟩, ⟨2, 1, .ro⟩, ⟨3, 1, .ro⟩]
  | .MODE_SINCE => [⟨0, 64, .ro⟩]
  | .MODE_UNCOVERED => [⟨0, 64, .ro⟩]
  | .DIGEST_STEP => [⟨0, 64, .ro⟩]
  | .DIGEST_VALUE => [⟨0, 64, .ro⟩]
  | .DIGEST_FLAGS => [⟨0, 16, .ro⟩, ⟨16, 1, .ro⟩]
  | .MODE_COUNTS => [⟨0, 32, .ro⟩, ⟨32, 32, .ro⟩]
  | .SEL_CORE => [⟨0, 10, .rw⟩, ⟨12, 2, .rw⟩, ⟨16, 1, .rw⟩]
  | .CORE_INFO => [⟨0, 10, .ro⟩, ⟨16, 10, .ro⟩, ⟨26, 2, .ro⟩, ⟨28, 1, .ro⟩]
  | .SAMP_SWEEPS => [⟨0, 64, .ro⟩]
  | .SAMP_CHANGES => [⟨0, 64, .ro⟩]
  | .SAMP_CONFLICTS => [⟨0, 32, .ro⟩, ⟨32, 32, .ro⟩]
  | .SAMP_MALA => [⟨0, 32, .ro⟩, ⟨32, 32, .ro⟩]
  | .SAMP_STAT => [⟨0, 32, .ro⟩, ⟨32, 1, .ro⟩, ⟨33, 1, .ro⟩]
  | .ANNEAL_SWEEP => [⟨0, 64, .ro⟩]
  | .ANNEAL_TEMP => [⟨0, 32, .ro⟩, ⟨32, 32, .ro⟩]
  | .ANNEAL_STAT => [⟨0, 16, .ro⟩, ⟨16, 5, .ro⟩, ⟨32, 32, .ro⟩]
  | .ANNEAL_BEST => [⟨0, 64, .ro⟩]
  | .ANNEAL_BEST_INFO => [⟨0, 48, .ro⟩, ⟨48, 8, .ro⟩, ⟨56, 1, .ro⟩, ⟨57, 1, .ro⟩]
  | .ANNEAL_SEL => [⟨0, 32, .rw⟩, ⟨32, 8, .rw⟩, ⟨40, 8, .rw⟩, ⟨48, 8, .rw⟩]
  | .ANNEAL_GROUP => [⟨0, 1, .ro⟩, ⟨1, 1, .ro⟩, ⟨2, 8, .ro⟩, ⟨16, 16, .ro⟩, ⟨32, 32, .ro⟩]
  | .ANNEAL_SWAP => [⟨0, 32, .ro⟩, ⟨32, 32, .ro⟩]
  | .ANNEAL_SLOT => [⟨0, 8, .ro⟩, ⟨8, 8, .ro⟩]
  | .ARITH_STAT => [⟨0, 32, .ro⟩, ⟨32, 16, .ro⟩, ⟨48, 16, .ro⟩]
  | .ARITH_STICKY => [⟨0, 1, .w1c⟩, ⟨1, 1, .w1c⟩, ⟨2, 1, .w1c⟩, ⟨3, 1, .w1c⟩, ⟨4, 1, .w1c⟩]
  | .ARITH_SLICES => [⟨0, 9, .ro⟩, ⟨16, 9, .ro⟩, ⟨32, 1, .ro⟩, ⟨33, 1, .ro⟩, ⟨34, 1, .ro⟩, ⟨35, 1, .ro⟩]
  | .STRM_SEED => [⟨0, 64, .ro⟩]
  | .STRM_SEED_INFO => [⟨0, 1, .ro⟩, ⟨1, 1, .ro⟩, ⟨2, 1, .ro⟩]
  | .STRM_SEL => [⟨0, 48, .rw⟩]
  | .STRM_POS => [⟨0, 64, .ro⟩]
  | .STRM_STATE_LO => [⟨0, 64, .ro⟩]
  | .STRM_STATE_HI => [⟨0, 64, .ro⟩]
  | .STRM_POLY => [⟨0, 16, .ro⟩, ⟨16, 1, .ro⟩, ⟨17, 1, .ro⟩]
  | .STRM_ROM_SEL => [⟨0, 16, .rw⟩]
  | .STRM_ROM_LO => [⟨0, 64, .ro⟩]
  | .STRM_ROM_HI => [⟨0, 64, .ro⟩]
  | .MESH_ROUTER => [⟨0, 1, .ro⟩, ⟨1, 1, .ro⟩, ⟨2, 1, .ro⟩, ⟨3, 1, .ro⟩, ⟨16, 10, .ro⟩]
  | .MESH_GHOST => [⟨0, 32, .ro⟩, ⟨32, 32, .ro⟩]
  | .MESH_MCAST => [⟨0, 32, .ro⟩, ⟨32, 4, .ro⟩, ⟨36, 4, .ro⟩]
  | .MESH_PLAN => [⟨0, 32, .ro⟩, ⟨32, 32, .ro⟩]
  | .MESH_PAD => [⟨0, 16, .ro⟩]
  | .SEL_MPORT => [⟨0, 5, .rw⟩]
  | .MPORT_STAT => [⟨0, 2, .ro⟩, ⟨2, 1, .ro⟩, ⟨3, 1, .ro⟩, ⟨4, 1, .ro⟩, ⟨5, 1, .ro⟩, ⟨16, 10, .ro⟩]
  | .MPORT_LEVEL => [⟨0, 16, .ro⟩, ⟨16, 16, .ro⟩, ⟨32, 16, .ro⟩, ⟨48, 16, .ro⟩]
  | .MPORT_ECC => [⟨0, 32, .ro⟩, ⟨32, 32, .ro⟩]
  | .MPORT_TILE => [⟨0, 32, .ro⟩, ⟨32, 9, .ro⟩]
  | .MPORT_SCRUB => [⟨0, 40, .ro⟩, ⟨40, 24, .ro⟩]
  | .MPORT_MERGE => [⟨0, 48, .ro⟩, ⟨48, 7, .ro⟩]
  | .MPORT_ADMIT => [⟨0, 32, .ro⟩, ⟨32, 32, .ro⟩]
  | .MPORT_CVU_CTL => [⟨0, 1, .rw⟩, ⟨1, 2, .rw⟩]
  | .MPORT_CVU_BASE => [⟨0, 48, .rw⟩]
  | .MPORT_CVU_LIMIT => [⟨0, 48, .rw⟩]
  | .MPORT_CVU_VALUE => [⟨0, 64, .ro⟩]
  | .MPORT_CVU_BYTES => [⟨0, 64, .ro⟩]
  | .SEL_LANE => [⟨0, 3, .rw⟩, ⟨8, 5, .rw⟩]
  | .LANE_STAT => [⟨0, 2, .ro⟩, ⟨2, 1, .ro⟩, ⟨3, 1, .ro⟩, ⟨4, 1, .ro⟩, ⟨8, 5, .ro⟩, ⟨16, 16, .ro⟩]
  | .LANE_ERR => [⟨0, 32, .ro⟩, ⟨32, 16, .ro⟩, ⟨48, 16, .ro⟩]
  | .LANE_CTL => [⟨0, 1, .rw1s⟩]
  | .HOST_LINK => [⟨0, 2, .ro⟩, ⟨2, 5, .ro⟩, ⟨7, 1, .ro⟩, ⟨32, 32, .ro⟩]
  | .HOST_ERR => [⟨0, 32, .ro⟩, ⟨32, 32, .ro⟩]
  | .HOST_WIN => [⟨0, 1, .rw⟩, ⟨30, 34, .rw⟩]
  | .MGMT_WDOG => [⟨0, 32, .rw⟩]
  | .MGMT_STAT => [⟨0, 1, .ro⟩, ⟨1, 1, .ro⟩, ⟨2, 1, .ro⟩, ⟨3, 1, .ro⟩, ⟨8, 8, .ro⟩, ⟨16, 7, .ro⟩]
  | .MGMT_AT_LIMIT => [⟨0, 32, .ro⟩]
  | .MODULE_ENV => [⟨0, 16, .ro⟩, ⟨16, 16, .ro⟩, ⟨32, 16, .ro⟩, ⟨48, 16, .ro⟩]
  | .JRNL_CTL => [⟨0, 32, .rw⟩, ⟨32, 8, .rw⟩, ⟨40, 1, .rw1s⟩, ⟨41, 1, .rw1s⟩]
  | .JRNL_STAT => [⟨0, 2, .ro⟩, ⟨2, 2, .ro⟩, ⟨16, 32, .ro⟩, ⟨48, 16, .ro⟩]
  | .JRNL_NEXT_FSEQ => [⟨0, 64, .ro⟩]
  | .JRNL_J0_ACKED => [⟨0, 64, .ro⟩]
  | .JRNL_J1_ACKED => [⟨0, 64, .ro⟩]
  | .JRNL_RETX => [⟨0, 32, .ro⟩, ⟨32, 32, .ro⟩]
  | .JRNL_AT_LIMIT => [⟨0, 32, .ro⟩, ⟨32, 32, .ro⟩]
  | .CKPT_STAT => [⟨0, 1, .ro⟩, ⟨1, 1, .ro⟩, ⟨16, 32, .ro⟩]
  | .CKPT_LAST => [⟨0, 64, .ro⟩]
  | .TRNG_CTL => [⟨0, 1, .rw⟩, ⟨16, 16, .rw⟩, ⟨32, 16, .rw⟩]
  | .TRNG_STAT => [⟨0, 1, .ro⟩, ⟨1, 1, .w1c⟩, ⟨2, 1, .ro⟩, ⟨3, 1, .ro⟩, ⟨4, 1, .ro⟩, ⟨8, 5, .ro⟩, ⟨16, 10, .ro⟩]
  | .TRNG_WORD => [⟨0, 64, .ro⟩]
  | .TRNG_RCT_FAILS => [⟨0, 32, .ro⟩]
  | .TRNG_APT_FAILS => [⟨0, 32, .ro⟩]
  | .TRNG_EMPTY_READS => [⟨0, 32, .ro⟩]
  | .TRNG_SRC_MAP => [⟨0, 16, .ro⟩, ⟨16, 16, .ro⟩, ⟨32, 16, .ro⟩]
  | .TRNG_SEL => [⟨0, 4, .rw⟩]
  | .TRNG_SRC_FAILS => [⟨0, 32, .ro⟩, ⟨32, 32, .ro⟩]
  | .TRNG_DRBG => [⟨0, 25, .ro⟩, ⟨32, 32, .ro⟩]
  | .BELFRY_CTL => [⟨0, 1, .rw⟩, ⟨16, 16, .rw⟩, ⟨32, 8, .rw⟩, ⟨40, 8, .rw⟩]
  | .BELFRY_STAT => [⟨0, 1, .ro⟩, ⟨1, 1, .ro⟩, ⟨2, 1, .ro⟩, ⟨3, 1, .ro⟩, ⟨16, 9, .ro⟩, ⟨32, 17, .ro⟩]
  | .BELFRY_TOTAL => [⟨0, 48, .ro⟩, ⟨48, 13, .ro⟩]
  | .BELFRY_SEL_AREA => [⟨0, 1, .rw⟩, ⟨1, 2, .rw⟩]
  | .BELFRY_INDEX => [⟨0, 17, .rw⟩]
  | .BELFRY_REC0 => [⟨0, 64, .ro⟩]
  | .BELFRY_REC1 => [⟨0, 64, .ro⟩]
  | .BELFRY_REC2 => [⟨0, 64, .ro⟩]
  | .BELFRY_REC3 => [⟨0, 64, .ro⟩]
  | .BELFRY_REC_STAT => [⟨0, 1, .ro⟩, ⟨1, 1, .ro⟩, ⟨2, 1, .ro⟩, ⟨3, 1, .ro⟩, ⟨4, 1, .ro⟩]
  | .BELFRY_PENDING => [⟨0, 32, .ro⟩, ⟨32, 9, .ro⟩]
  | .BELFRY_AT_LIMIT => [⟨0, 32, .ro⟩, ⟨32, 32, .ro⟩]
  | .BELFRY_TALLY => [⟨0, 8, .ro⟩, ⟨8, 10, .ro⟩, ⟨18, 1, .ro⟩, ⟨19, 1, .ro⟩, ⟨32, 24, .ro⟩]
  | .SEC_LIFECYCLE => [⟨0, 2, .ro⟩, ⟨8, 5, .ro⟩, ⟨16, 1, .ro⟩]
  | .DBG_LEVEL => [⟨0, 2, .ro⟩, ⟨2, 1, .ro⟩, ⟨32, 32, .ro⟩]
  | .DBG_CHALLENGE => [⟨0, 1, .ro⟩, ⟨1, 1, .ro⟩, ⟨32, 32, .ro⟩]
  | .DBG_CTL => [⟨0, 1, .rw1s⟩, ⟨1, 1, .rw1s⟩, ⟨2, 1, .rw1s⟩, ⟨3, 1, .rw1s⟩]
  | .DBG_STAT => [⟨0, 1, .ro⟩, ⟨1, 1, .ro⟩, ⟨8, 56, .ro⟩]
  | .PWR_STATE => [⟨0, 3, .rw⟩, ⟨4, 3, .ro⟩, ⟨7, 1, .ro⟩]
  | .PWR_CAP => [⟨0, 16, .rw⟩]
  | .PWR_STAT => [⟨0, 11, .ro⟩, ⟨11, 1, .ro⟩, ⟨12, 1, .ro⟩, ⟨16, 16, .ro⟩, ⟨32, 32, .ro⟩]
  | .SEC_FW => [⟨0, 1, .rw1s⟩, ⟨1, 1, .ro⟩, ⟨32, 16, .ro⟩, ⟨48, 16, .ro⟩]
  | .SEC_COUNTS => [⟨0, 16, .ro⟩, ⟨16, 16, .ro⟩, ⟨32, 32, .ro⟩]
  | .SPARE_BUDGET => [⟨0, 60, .ro⟩]
  | .SPARE_SEL => [⟨0, 10, .rw⟩]
  | .SPARE_MAP => [⟨0, 2, .ro⟩, ⟨2, 3, .ro⟩, ⟨5, 1, .ro⟩, ⟨6, 1, .ro⟩, ⟨8, 4, .ro⟩, ⟨16, 2, .ro⟩, ⟨18, 10, .ro⟩]
  | .SPARE_CTL => [⟨0, 1, .rw1s⟩, ⟨8, 8, .rw⟩]
  | .SPARE_STAT => [⟨0, 8, .ro⟩, ⟨8, 8, .ro⟩, ⟨16, 8, .ro⟩, ⟨24, 8, .ro⟩, ⟨32, 8, .ro⟩, ⟨40, 8, .ro⟩, ⟨48, 1, .ro⟩, ⟨49, 1, .ro⟩]
  | .SPARE_WDOG => [⟨0, 32, .rw⟩]
  | .SPARE_AT_LIMIT => [⟨0, 32, .ro⟩]
  | .SPARE_COUNTS => [⟨0, 16, .ro⟩, ⟨16, 16, .ro⟩, ⟨32, 32, .ro⟩]
  | .SPARE_UNITS => [⟨0, 12, .ro⟩, ⟨12, 12, .ro⟩, ⟨24, 4, .ro⟩, ⟨28, 4, .ro⟩, ⟨32, 4, .ro⟩, ⟨36, 4, .ro⟩, ⟨40, 1, .ro⟩, ⟨44, 20, .ro⟩]
  | .INT_STAT => [⟨0, 16, .w1c⟩]
  | .INT_ENABLE => [⟨0, 16, .rw⟩]
  | .INT_SET => [⟨0, 16, .wo⟩]
  | .INT_MOD => [⟨0, 16, .rw⟩, ⟨16, 32, .rw⟩]
  | .INT_COUNT => [⟨0, 32, .ro⟩, ⟨32, 32, .ro⟩]
  | .INT_AT_LIMIT => [⟨0, 32, .ro⟩]
  | .OCU_CTL => [⟨0, 1, .rw1s⟩, ⟨1, 1, .rw⟩]
  | .OCU_TRIG_STEP => [⟨0, 64, .rw⟩]
  | .OCU_TRIG_ITEM => [⟨0, 34, .rw⟩, ⟨34, 3, .rw⟩, ⟨40, 24, .rw⟩]
  | .OCU_STAT => [⟨0, 1, .w1c⟩, ⟨1, 1, .w1c⟩, ⟨2, 1, .w1c⟩, ⟨3, 1, .w1c⟩, ⟨4, 4, .ro⟩, ⟨8, 4, .ro⟩, ⟨16, 10, .ro⟩, ⟨32, 10, .ro⟩]
  | .OCU_SEL => [⟨0, 6, .rw⟩, ⟨8, 4, .rw⟩, ⟨12, 2, .rw⟩]
  | .OCU_DATA => [⟨0, 64, .ro⟩]
  | .SEL_CORE_MGMT => [⟨0, 10, .rw⟩, ⟨12, 2, .rw⟩, ⟨16, 1, .rw⟩]
  | .ANNEAL_SEL_MGMT => [⟨0, 32, .rw⟩, ⟨32, 8, .rw⟩, ⟨40, 8, .rw⟩, ⟨48, 8, .rw⟩]
  | .STRM_SEL_MGMT => [⟨0, 48, .rw⟩]
  | .STRM_ROM_SEL_MGMT => [⟨0, 16, .rw⟩]
  | .SEL_MPORT_MGMT => [⟨0, 5, .rw⟩]
  | .SEL_LANE_MGMT => [⟨0, 3, .rw⟩, ⟨8, 5, .rw⟩]
  | .TRNG_SEL_MGMT => [⟨0, 4, .rw⟩]
  | .SPARE_SEL_MGMT => [⟨0, 10, .rw⟩]
  | .BELFRY_SEL_AREA_MGMT => [⟨0, 1, .rw⟩, ⟨1, 2, .rw⟩]
  | .BELFRY_INDEX_MGMT => [⟨0, 17, .rw⟩]
  | .BELFRY_REC0_MGMT => [⟨0, 64, .ro⟩]
  | .BELFRY_REC1_MGMT => [⟨0, 64, .ro⟩]
  | .BELFRY_REC2_MGMT => [⟨0, 64, .ro⟩]
  | .BELFRY_REC3_MGMT => [⟨0, 64, .ro⟩]
  | .BELFRY_REC_STAT_MGMT => [⟨0, 1, .ro⟩, ⟨1, 1, .ro⟩, ⟨2, 1, .ro⟩, ⟨3, 1, .ro⟩, ⟨4, 1, .ro⟩]
  | .OCU_SEL_MGMT => [⟨0, 6, .rw⟩, ⟨8, 4, .rw⟩, ⟨12, 2, .rw⟩]
  | .DIGEST_VALUE_MGMT => [⟨0, 64, .ro⟩]
  | .DIGEST_FLAGS_MGMT => [⟨0, 16, .ro⟩, ⟨16, 1, .ro⟩]

/-- The value after cold reset of a KZ-DJ1-F-JC of stepping B0 (R428; the fused identity is log 3).
A windowed register stores nothing and its place stays 0. -/
def Reg.resetValue : Reg → W64
  | .DEV_ID => 0x100014B5A#64
  | .DEV_STEPPING => 0x10#64
  | .DEV_GRADE => 0x31#64
  | .DEV_SHAPE => 0x3C8C01B801B8#64
  | .DEV_CAPS => 0x1012002001008#64
  | .STEP_SRC => 0x21#64
  | .STEP_CTL => 0x80C00001E8480#64
  | .STEP_PHASE => 0xC0000#64
  | .STEP_HOLDOVER => 0x10#64
  | .STEP_WATCHDOG => 0x30D40#64
  | .INTAKE_CTL => 0x1E848000#64
  | .INTAKE_NEXT_SEQ => 0x1#64
  | .RECEIPT_SIZE => 0xA#64
  | .DURABILITY_POLICY => 0x1#64
  | .INTAKE_STAT => 0x10000000#64
  | .RUN_NEXT_STEP => 0xFFFFFFFFFFFFFFFF#64
  | .LOAD_BALANCE => 0x1#64
  | .MODE_UNCOVERED => 0xFFFFFFFFFFFFFFFF#64
  | .HOST_WIN => 0x1#64
  | .MGMT_STAT => 0x5#64
  | .JRNL_CTL => 0x800030D40#64
  | .JRNL_STAT => 0x5#64
  | .JRNL_NEXT_FSEQ => 0x1#64
  | .BELFRY_CTL => 0x200200A00000#64
  | .BELFRY_TALLY => 0x100000000#64
  | .SEC_LIFECYCLE => 0x101#64
  | .PWR_CAP => 0x4B0#64
  | .PWR_STAT => 0x100#64
  | .SPARE_BUDGET => 0xFFFFFFFFFFFFFFF#64
  | .SPARE_CTL => 0x1000#64
  | .SPARE_STAT => 0x143C#64
  | .SPARE_WDOG => 0xF4240#64
  | .INT_MOD => 0x1#64
  | _ => 0#64

/-- A named field of a register. -/
structure Field where
  reg : Reg
  lo : Nat
  w : Nat
  deriving DecidableEq, Repr

namespace Fld

/-- DEV_ID.VENDOR_CODE (R32). -/
def DEV_ID_VENDOR_CODE : Field := ⟨.DEV_ID, 0, 16⟩
/-- DEV_ID.FAMILY (R32). -/
def DEV_ID_FAMILY : Field := ⟨.DEV_ID, 16, 16⟩
/-- DEV_ID.DEVICE (R32). -/
def DEV_ID_DEVICE : Field := ⟨.DEV_ID, 32, 16⟩
/-- DEV_STEPPING.STEPPING (R32). -/
def DEV_STEPPING_STEPPING : Field := ⟨.DEV_STEPPING, 0, 8⟩
/-- DEV_GRADE.GRADE (R32). -/
def DEV_GRADE_GRADE : Field := ⟨.DEV_GRADE, 0, 4⟩
/-- DEV_GRADE.OPT_J (R32). -/
def DEV_GRADE_OPT_J : Field := ⟨.DEV_GRADE, 4, 1⟩
/-- DEV_GRADE.OPT_C (R32). -/
def DEV_GRADE_OPT_C : Field := ⟨.DEV_GRADE, 5, 1⟩
/-- DEV_SHAPE.M_CORES (R32). -/
def DEV_SHAPE_M_CORES : Field := ⟨.DEV_SHAPE, 0, 10⟩
/-- DEV_SHAPE.M_CORES_DELIVERED (R32). -/
def DEV_SHAPE_M_CORES_DELIVERED : Field := ⟨.DEV_SHAPE, 16, 10⟩
/-- DEV_SHAPE.V_CORES (R32). -/
def DEV_SHAPE_V_CORES : Field := ⟨.DEV_SHAPE, 32, 8⟩
/-- DEV_SHAPE.S_CORES (R32). -/
def DEV_SHAPE_S_CORES : Field := ⟨.DEV_SHAPE, 40, 8⟩
/-- DEV_SHAPE.SHAPE_SEL (R32). -/
def DEV_SHAPE_SHAPE_SEL : Field := ⟨.DEV_SHAPE, 48, 2⟩
/-- DEV_CAPS.HBM_STACKS (R33). -/
def DEV_CAPS_HBM_STACKS : Field := ⟨.DEV_CAPS, 0, 4⟩
/-- DEV_CAPS.LPDDR_PORTS (R33). -/
def DEV_CAPS_LPDDR_PORTS : Field := ⟨.DEV_CAPS, 8, 8⟩
/-- DEV_CAPS.LPDDR_GB (R33). -/
def DEV_CAPS_LPDDR_GB : Field := ⟨.DEV_CAPS, 16, 16⟩
/-- DEV_CAPS.HBM_GB (R33). -/
def DEV_CAPS_HBM_GB : Field := ⟨.DEV_CAPS, 32, 16⟩
/-- DEV_CAPS.PLAN_FMT (R33). -/
def DEV_CAPS_PLAN_FMT : Field := ⟨.DEV_CAPS, 48, 4⟩
/-- DEV_STAT.READY (R33). -/
def DEV_STAT_READY : Field := ⟨.DEV_STAT, 0, 1⟩
/-- DEV_STAT.PLAN_LOADED (R33). -/
def DEV_STAT_PLAN_LOADED : Field := ⟨.DEV_STAT, 1, 1⟩
/-- DEV_STAT.RUNNING (R33). -/
def DEV_STAT_RUNNING : Field := ⟨.DEV_STAT, 2, 1⟩
/-- DEV_STAT.SHAPE_REDUCED (R33). -/
def DEV_STAT_SHAPE_REDUCED : Field := ⟨.DEV_STAT, 3, 1⟩
/-- DEV_STAT.MEM_DEGRADED (R33). -/
def DEV_STAT_MEM_DEGRADED : Field := ⟨.DEV_STAT, 4, 1⟩
/-- DEV_RESET.WARM (R416). -/
def DEV_RESET_WARM : Field := ⟨.DEV_RESET, 0, 1⟩
/-- DEV_RESET.COLD (R416). -/
def DEV_RESET_COLD : Field := ⟨.DEV_RESET, 1, 1⟩
/-- DEV_RESET.CAUSE (R416). -/
def DEV_RESET_CAUSE : Field := ⟨.DEV_RESET, 8, 4⟩
/-- DEV_RESET.WARM_COUNT (R416). -/
def DEV_RESET_WARM_COUNT : Field := ⟨.DEV_RESET, 16, 16⟩
/-- DEV_RESET.HOT_COUNT (R416). -/
def DEV_RESET_HOT_COUNT : Field := ⟨.DEV_RESET, 32, 16⟩
/-- DEV_BOOT.STAGE (R416). -/
def DEV_BOOT_STAGE : Field := ⟨.DEV_BOOT, 0, 4⟩
/-- DEV_BOOT.FAILED (R416). -/
def DEV_BOOT_FAILED : Field := ⟨.DEV_BOOT, 4, 1⟩
/-- DEV_BOOT.DETAIL (R416). -/
def DEV_BOOT_DETAIL : Field := ⟨.DEV_BOOT, 8, 8⟩
/-- DEV_BOOT.ELAPSED (R416). -/
def DEV_BOOT_ELAPSED : Field := ⟨.DEV_BOOT, 16, 32⟩
/-- DEV_ACCESS.BAD_ACCESSES (R423). -/
def DEV_ACCESS_BAD_ACCESSES : Field := ⟨.DEV_ACCESS, 0, 32⟩
/-- DEV_ACCESS.LAST_OFFSET (R423). -/
def DEV_ACCESS_LAST_OFFSET : Field := ⟨.DEV_ACCESS, 32, 26⟩
/-- DEV_ACCESS.LAST_PORT (R423). -/
def DEV_ACCESS_LAST_PORT : Field := ⟨.DEV_ACCESS, 58, 1⟩
/-- STEP_SRC.SEL (R60). -/
def STEP_SRC_SEL : Field := ⟨.STEP_SRC, 0, 2⟩
/-- STEP_SRC.DRIVE_OUT (R60). -/
def STEP_SRC_DRIVE_OUT : Field := ⟨.STEP_SRC, 4, 1⟩
/-- STEP_SRC.BARRIER (R60). -/
def STEP_SRC_BARRIER : Field := ⟨.STEP_SRC, 5, 1⟩
/-- STEP_CTL.PERIOD (R60). -/
def STEP_CTL_PERIOD : Field := ⟨.STEP_CTL, 0, 40⟩
/-- STEP_CTL.PHASES_LOG2 (R60). -/
def STEP_CTL_PHASES_LOG2 : Field := ⟨.STEP_CTL, 40, 5⟩
/-- STEP_CTL.STRIDE_LOG2 (R60). -/
def STEP_CTL_STRIDE_LOG2 : Field := ⟨.STEP_CTL, 48, 5⟩
/-- STEP_NOW.STEP (R60). -/
def STEP_NOW_STEP : Field := ⟨.STEP_NOW, 0, 64⟩
/-- STEP_PHASE.PHASE (R60). -/
def STEP_PHASE_PHASE : Field := ⟨.STEP_PHASE, 0, 16⟩
/-- STEP_PHASE.PHASES_LOG2 (R60). -/
def STEP_PHASE_PHASES_LOG2 : Field := ⟨.STEP_PHASE, 16, 5⟩
/-- STEP_PHASE.SRC_AHEAD (R60). -/
def STEP_PHASE_SRC_AHEAD : Field := ⟨.STEP_PHASE, 24, 8⟩
/-- STEP_PHASE.LAG (R60). -/
def STEP_PHASE_LAG : Field := ⟨.STEP_PHASE, 32, 32⟩
/-- STEP_ADVANCE.COUNT (R60). -/
def STEP_ADVANCE_COUNT : Field := ⟨.STEP_ADVANCE, 0, 32⟩
/-- STEP_HOLDOVER.LIMIT (R60). -/
def STEP_HOLDOVER_LIMIT : Field := ⟨.STEP_HOLDOVER, 0, 16⟩
/-- STEP_HOLDOVER.USED (R60). -/
def STEP_HOLDOVER_USED : Field := ⟨.STEP_HOLDOVER, 16, 16⟩
/-- STEP_HOLDOVER.ENTRIES (R60). -/
def STEP_HOLDOVER_ENTRIES : Field := ⟨.STEP_HOLDOVER, 32, 32⟩
/-- STEP_SKEW_COMP.HOP_DELAY (R60). -/
def STEP_SKEW_COMP_HOP_DELAY : Field := ⟨.STEP_SKEW_COMP, 0, 16⟩
/-- STEP_SKEW_COMP.ACC_DELAY (R60). -/
def STEP_SKEW_COMP_ACC_DELAY : Field := ⟨.STEP_SKEW_COMP, 16, 16⟩
/-- STEP_SKEW_COMP.APPLIED (R60). -/
def STEP_SKEW_COMP_APPLIED : Field := ⟨.STEP_SKEW_COMP, 32, 16⟩
/-- STEP_SKEW_COMP.TRIM (R60). -/
def STEP_SKEW_COMP_TRIM : Field := ⟨.STEP_SKEW_COMP, 48, 8⟩
/-- STEP_SKEW_COMP.RETRAIN (R60). -/
def STEP_SKEW_COMP_RETRAIN : Field := ⟨.STEP_SKEW_COMP, 63, 1⟩
/-- STEP_WATCHDOG.MARGIN (R60). -/
def STEP_WATCHDOG_MARGIN : Field := ⟨.STEP_WATCHDOG, 0, 32⟩
/-- STEP_STAT.LINK_UP (R60). -/
def STEP_STAT_LINK_UP : Field := ⟨.STEP_STAT, 0, 1⟩
/-- STEP_STAT.LOCKED (R60). -/
def STEP_STAT_LOCKED : Field := ⟨.STEP_STAT, 1, 1⟩
/-- STEP_STAT.HOLDOVER (R60). -/
def STEP_STAT_HOLDOVER : Field := ⟨.STEP_STAT, 2, 1⟩
/-- STEP_STAT.HELD (R60). -/
def STEP_STAT_HELD : Field := ⟨.STEP_STAT, 3, 1⟩
/-- STEP_STAT.OVERRUN (R60). -/
def STEP_STAT_OVERRUN : Field := ⟨.STEP_STAT, 4, 1⟩
/-- STEP_STAT.BARRIER_WAIT (R60). -/
def STEP_STAT_BARRIER_WAIT : Field := ⟨.STEP_STAT, 5, 1⟩
/-- STEP_STAT.ADV_SAT (R60). -/
def STEP_STAT_ADV_SAT : Field := ⟨.STEP_STAT, 6, 1⟩
/-- STEP_STAT.ADV_CREDIT (R60). -/
def STEP_STAT_ADV_CREDIT : Field := ⟨.STEP_STAT, 32, 32⟩
/-- STEP_OVERRUNS.COUNT (R60). -/
def STEP_OVERRUNS_COUNT : Field := ⟨.STEP_OVERRUNS, 0, 32⟩
/-- STEP_OVERRUNS.MAX_LAG (R60). -/
def STEP_OVERRUNS_MAX_LAG : Field := ⟨.STEP_OVERRUNS, 32, 32⟩
/-- STEP_AT_LIMIT.MARK (R60). -/
def STEP_AT_LIMIT_MARK : Field := ⟨.STEP_AT_LIMIT, 0, 32⟩
/-- STEP_AT_LIMIT.BARRIER (R60). -/
def STEP_AT_LIMIT_BARRIER : Field := ⟨.STEP_AT_LIMIT, 32, 32⟩
/-- INTAKE_CTL.ENABLE (R291). -/
def INTAKE_CTL_ENABLE : Field := ⟨.INTAKE_CTL, 0, 1⟩
/-- INTAKE_CTL.RESUME (R291). -/
def INTAKE_CTL_RESUME : Field := ⟨.INTAKE_CTL, 1, 1⟩
/-- INTAKE_CTL.FORCE_OPEN (R291). -/
def INTAKE_CTL_FORCE_OPEN : Field := ⟨.INTAKE_CTL, 2, 1⟩
/-- INTAKE_CTL.SEAL_TIMEOUT (R291). -/
def INTAKE_CTL_SEAL_TIMEOUT : Field := ⟨.INTAKE_CTL, 8, 32⟩
/-- INTAKE_NEXT_SEQ.NEXT (R291). -/
def INTAKE_NEXT_SEQ_NEXT : Field := ⟨.INTAKE_NEXT_SEQ, 0, 64⟩
/-- RECEIPT_BASE.ADDR (R291). -/
def RECEIPT_BASE_ADDR : Field := ⟨.RECEIPT_BASE, 12, 52⟩
/-- RECEIPT_SIZE.LOG2 (R291). -/
def RECEIPT_SIZE_LOG2 : Field := ⟨.RECEIPT_SIZE, 0, 5⟩
/-- RECEIPT_HEAD.PRODUCED (R291). -/
def RECEIPT_HEAD_PRODUCED : Field := ⟨.RECEIPT_HEAD, 0, 32⟩
/-- RECEIPT_HEAD.CONSUMED (R291). -/
def RECEIPT_HEAD_CONSUMED : Field := ⟨.RECEIPT_HEAD, 32, 32⟩
/-- DURABILITY_POLICY.POLICY (R291). -/
def DURABILITY_POLICY_POLICY : Field := ⟨.DURABILITY_POLICY, 0, 2⟩
/-- DURABILITY_POLICY.ON_LOSS (R291). -/
def DURABILITY_POLICY_ON_LOSS : Field := ⟨.DURABILITY_POLICY, 2, 1⟩
/-- INTAKE_STAT.OPEN (R291). -/
def INTAKE_STAT_OPEN : Field := ⟨.INTAKE_STAT, 0, 1⟩
/-- INTAKE_STAT.HELD (R291). -/
def INTAKE_STAT_HELD : Field := ⟨.INTAKE_STAT, 1, 1⟩
/-- INTAKE_STAT.RECOVERING (R291). -/
def INTAKE_STAT_RECOVERING : Field := ⟨.INTAKE_STAT, 2, 1⟩
/-- INTAKE_STAT.DUR_HOLD (R291). -/
def INTAKE_STAT_DUR_HOLD : Field := ⟨.INTAKE_STAT, 3, 1⟩
/-- INTAKE_STAT.DUR_DEGRADED (R291). -/
def INTAKE_STAT_DUR_DEGRADED : Field := ⟨.INTAKE_STAT, 4, 1⟩
/-- INTAKE_STAT.LOG_FULL (R291). -/
def INTAKE_STAT_LOG_FULL : Field := ⟨.INTAKE_STAT, 5, 1⟩
/-- INTAKE_STAT.JOURNAL_FULL (R291). -/
def INTAKE_STAT_JOURNAL_FULL : Field := ⟨.INTAKE_STAT, 6, 1⟩
/-- INTAKE_STAT.FREE_SLOTS (R291). -/
def INTAKE_STAT_FREE_SLOTS : Field := ⟨.INTAKE_STAT, 16, 13⟩
/-- INTAKE_STAT.UNRELEASED (R291). -/
def INTAKE_STAT_UNRELEASED : Field := ⟨.INTAKE_STAT, 32, 32⟩
/-- INTAKE_AT_LIMIT.SEAL (R291). -/
def INTAKE_AT_LIMIT_SEAL : Field := ⟨.INTAKE_AT_LIMIT, 0, 32⟩
/-- INTAKE_COUNTS.REJECTED (R291). -/
def INTAKE_COUNTS_REJECTED : Field := ⟨.INTAKE_COUNTS, 0, 32⟩
/-- INTAKE_COUNTS.LATE_WRITES (R291). -/
def INTAKE_COUNTS_LATE_WRITES : Field := ⟨.INTAKE_COUNTS, 32, 32⟩
/-- RUN_NEXT_STEP.STEP (R291). -/
def RUN_NEXT_STEP_STEP : Field := ⟨.RUN_NEXT_STEP, 0, 64⟩
/-- MODE_CTL.MODE (R258). -/
def MODE_CTL_MODE : Field := ⟨.MODE_CTL, 0, 1⟩
/-- LOAD_BALANCE.ENABLE (R258). -/
def LOAD_BALANCE_ENABLE : Field := ⟨.LOAD_BALANCE, 0, 1⟩
/-- MODE_STAT.MODE (R258). -/
def MODE_STAT_MODE : Field := ⟨.MODE_STAT, 0, 1⟩
/-- MODE_STAT.PENDING (R258). -/
def MODE_STAT_PENDING : Field := ⟨.MODE_STAT, 1, 1⟩
/-- MODE_STAT.LB_ACTIVE (R258). -/
def MODE_STAT_LB_ACTIVE : Field := ⟨.MODE_STAT, 2, 1⟩
/-- MODE_STAT.UNCOVERED (R258). -/
def MODE_STAT_UNCOVERED : Field := ⟨.MODE_STAT, 3, 1⟩
/-- MODE_SINCE.STEP (R258). -/
def MODE_SINCE_STEP : Field := ⟨.MODE_SINCE, 0, 64⟩
/-- MODE_UNCOVERED.FIRST (R258). -/
def MODE_UNCOVERED_FIRST : Field := ⟨.MODE_UNCOVERED, 0, 64⟩
/-- DIGEST_STEP.STEP (R258). -/
def DIGEST_STEP_STEP : Field := ⟨.DIGEST_STEP, 0, 64⟩
/-- DIGEST_VALUE.DIGEST (R258). -/
def DIGEST_VALUE_DIGEST : Field := ⟨.DIGEST_VALUE, 0, 64⟩
/-- DIGEST_FLAGS.FLAGS (R258). -/
def DIGEST_FLAGS_FLAGS : Field := ⟨.DIGEST_FLAGS, 0, 16⟩
/-- DIGEST_FLAGS.VALID (R258). -/
def DIGEST_FLAGS_VALID : Field := ⟨.DIGEST_FLAGS, 16, 1⟩
/-- MODE_COUNTS.THROUGHPUT_STEPS (R258). -/
def MODE_COUNTS_THROUGHPUT_STEPS : Field := ⟨.MODE_COUNTS, 0, 32⟩
/-- MODE_COUNTS.TAINTED_STEPS (R258). -/
def MODE_COUNTS_TAINTED_STEPS : Field := ⟨.MODE_COUNTS, 32, 32⟩
/-- SEL_CORE.INDEX (R423). -/
def SEL_CORE_INDEX : Field := ⟨.SEL_CORE, 0, 10⟩
/-- SEL_CORE.KIND (R423). -/
def SEL_CORE_KIND : Field := ⟨.SEL_CORE, 12, 2⟩
/-- SEL_CORE.PHYS (R423). -/
def SEL_CORE_PHYS : Field := ⟨.SEL_CORE, 16, 1⟩
/-- ANNEAL_SEL.GROUP (R141). -/
def ANNEAL_SEL_GROUP : Field := ⟨.ANNEAL_SEL, 0, 32⟩
/-- ANNEAL_SEL.CHAIN (R141). -/
def ANNEAL_SEL_CHAIN : Field := ⟨.ANNEAL_SEL, 32, 8⟩
/-- ANNEAL_SEL.PAIR (R141). -/
def ANNEAL_SEL_PAIR : Field := ⟨.ANNEAL_SEL, 40, 8⟩
/-- ANNEAL_SEL.SLOT (R141). -/
def ANNEAL_SEL_SLOT : Field := ⟨.ANNEAL_SEL, 48, 8⟩
/-- STRM_SEED.SEED (R204). -/
def STRM_SEED_SEED : Field := ⟨.STRM_SEED, 0, 64⟩
/-- STRM_SEED_INFO.VALID (R204). -/
def STRM_SEED_INFO_VALID : Field := ⟨.STRM_SEED_INFO, 0, 1⟩
/-- STRM_SEED_INFO.FRESH (R204). -/
def STRM_SEED_INFO_FRESH : Field := ⟨.STRM_SEED_INFO, 1, 1⟩
/-- STRM_SEED_INFO.SEEDED (R204). -/
def STRM_SEED_INFO_SEEDED : Field := ⟨.STRM_SEED_INFO, 2, 1⟩
/-- STRM_SEL.ID (R204). -/
def STRM_SEL_ID : Field := ⟨.STRM_SEL, 0, 48⟩
/-- STRM_ROM_SEL.INDEX (R204). -/
def STRM_ROM_SEL_INDEX : Field := ⟨.STRM_ROM_SEL, 0, 16⟩
/-- MESH_PLAN.OVER_SLACK (R239). -/
def MESH_PLAN_OVER_SLACK : Field := ⟨.MESH_PLAN, 0, 32⟩
/-- MESH_PLAN.MAX_LAG (R239). -/
def MESH_PLAN_MAX_LAG : Field := ⟨.MESH_PLAN, 32, 32⟩
/-- SEL_MPORT.PORT (R240). -/
def SEL_MPORT_PORT : Field := ⟨.SEL_MPORT, 0, 5⟩
/-- SEL_LANE.PORT (R344). -/
def SEL_LANE_PORT : Field := ⟨.SEL_LANE, 0, 3⟩
/-- SEL_LANE.LANE (R344). -/
def SEL_LANE_LANE : Field := ⟨.SEL_LANE, 8, 5⟩
/-- LANE_CTL.RETRAIN (R344). -/
def LANE_CTL_RETRAIN : Field := ⟨.LANE_CTL, 0, 1⟩
/-- HOST_LINK.RATE (R344). -/
def HOST_LINK_RATE : Field := ⟨.HOST_LINK, 0, 2⟩
/-- HOST_LINK.WIDTH (R344). -/
def HOST_LINK_WIDTH : Field := ⟨.HOST_LINK, 2, 5⟩
/-- HOST_LINK.FLIT (R344). -/
def HOST_LINK_FLIT : Field := ⟨.HOST_LINK, 7, 1⟩
/-- HOST_LINK.RECOVERIES (R344). -/
def HOST_LINK_RECOVERIES : Field := ⟨.HOST_LINK, 32, 32⟩
/-- HOST_ERR.READ_FAILS (R344). -/
def HOST_ERR_READ_FAILS : Field := ⟨.HOST_ERR, 0, 32⟩
/-- HOST_ERR.BAR2_DROPPED (R344). -/
def HOST_ERR_BAR2_DROPPED : Field := ⟨.HOST_ERR, 32, 32⟩
/-- HOST_WIN.TIER (R344). -/
def HOST_WIN_TIER : Field := ⟨.HOST_WIN, 0, 1⟩
/-- HOST_WIN.BASE (R344). -/
def HOST_WIN_BASE : Field := ⟨.HOST_WIN, 30, 34⟩
/-- MGMT_WDOG.PERIOD (R344). -/
def MGMT_WDOG_PERIOD : Field := ⟨.MGMT_WDOG, 0, 32⟩
/-- MGMT_STAT.I3C (R344). -/
def MGMT_STAT_I3C : Field := ⟨.MGMT_STAT, 0, 1⟩
/-- MGMT_STAT.BMC_LOST (R344). -/
def MGMT_STAT_BMC_LOST : Field := ⟨.MGMT_STAT, 1, 1⟩
/-- MGMT_STAT.ALERT (R344). -/
def MGMT_STAT_ALERT : Field := ⟨.MGMT_STAT, 2, 1⟩
/-- MGMT_STAT.PRESENT (R344). -/
def MGMT_STAT_PRESENT : Field := ⟨.MGMT_STAT, 3, 1⟩
/-- MGMT_STAT.EID (R344). -/
def MGMT_STAT_EID : Field := ⟨.MGMT_STAT, 8, 8⟩
/-- MGMT_STAT.DYN_ADDR (R344). -/
def MGMT_STAT_DYN_ADDR : Field := ⟨.MGMT_STAT, 16, 7⟩
/-- MGMT_AT_LIMIT.HEARTBEAT (R344). -/
def MGMT_AT_LIMIT_HEARTBEAT : Field := ⟨.MGMT_AT_LIMIT, 0, 32⟩
/-- MODULE_ENV.DIE_TEMP (R344). -/
def MODULE_ENV_DIE_TEMP : Field := ⟨.MODULE_ENV, 0, 16⟩
/-- MODULE_ENV.INLET_TEMP (R344). -/
def MODULE_ENV_INLET_TEMP : Field := ⟨.MODULE_ENV, 16, 16⟩
/-- MODULE_ENV.OUTLET_TEMP (R344). -/
def MODULE_ENV_OUTLET_TEMP : Field := ⟨.MODULE_ENV, 32, 16⟩
/-- MODULE_ENV.MAIN_VOLTS (R344). -/
def MODULE_ENV_MAIN_VOLTS : Field := ⟨.MODULE_ENV, 48, 16⟩
/-- JRNL_CTL.ACK_TIMEOUT (R291). -/
def JRNL_CTL_ACK_TIMEOUT : Field := ⟨.JRNL_CTL, 0, 32⟩
/-- JRNL_CTL.RETRIES (R291). -/
def JRNL_CTL_RETRIES : Field := ⟨.JRNL_CTL, 32, 8⟩
/-- JRNL_CTL.RETRAIN_J0 (R291). -/
def JRNL_CTL_RETRAIN_J0 : Field := ⟨.JRNL_CTL, 40, 1⟩
/-- JRNL_CTL.RETRAIN_J1 (R291). -/
def JRNL_CTL_RETRAIN_J1 : Field := ⟨.JRNL_CTL, 41, 1⟩
/-- JRNL_STAT.J0_STATE (R291). -/
def JRNL_STAT_J0_STATE : Field := ⟨.JRNL_STAT, 0, 2⟩
/-- JRNL_STAT.J1_STATE (R291). -/
def JRNL_STAT_J1_STATE : Field := ⟨.JRNL_STAT, 2, 2⟩
/-- JRNL_STAT.SEGMENT (R291). -/
def JRNL_STAT_SEGMENT : Field := ⟨.JRNL_STAT, 16, 32⟩
/-- JRNL_STAT.LOCAL_USED (R291). -/
def JRNL_STAT_LOCAL_USED : Field := ⟨.JRNL_STAT, 48, 16⟩
/-- JRNL_NEXT_FSEQ.FSEQ (R291). -/
def JRNL_NEXT_FSEQ_FSEQ : Field := ⟨.JRNL_NEXT_FSEQ, 0, 64⟩
/-- JRNL_J0_ACKED.ACKED (R291). -/
def JRNL_J0_ACKED_ACKED : Field := ⟨.JRNL_J0_ACKED, 0, 64⟩
/-- JRNL_J1_ACKED.ACKED (R291). -/
def JRNL_J1_ACKED_ACKED : Field := ⟨.JRNL_J1_ACKED, 0, 64⟩
/-- JRNL_RETX.J0 (R291). -/
def JRNL_RETX_J0 : Field := ⟨.JRNL_RETX, 0, 32⟩
/-- JRNL_RETX.J1 (R291). -/
def JRNL_RETX_J1 : Field := ⟨.JRNL_RETX, 32, 32⟩
/-- JRNL_AT_LIMIT.J0 (R291). -/
def JRNL_AT_LIMIT_J0 : Field := ⟨.JRNL_AT_LIMIT, 0, 32⟩
/-- JRNL_AT_LIMIT.J1 (R291). -/
def JRNL_AT_LIMIT_J1 : Field := ⟨.JRNL_AT_LIMIT, 32, 32⟩
/-- CKPT_STAT.VALID (R291). -/
def CKPT_STAT_VALID : Field := ⟨.CKPT_STAT, 0, 1⟩
/-- CKPT_STAT.IN_PROGRESS (R291). -/
def CKPT_STAT_IN_PROGRESS : Field := ⟨.CKPT_STAT, 1, 1⟩
/-- CKPT_STAT.SKIPPED (R291). -/
def CKPT_STAT_SKIPPED : Field := ⟨.CKPT_STAT, 16, 32⟩
/-- CKPT_LAST.NEXT_STEP (R291). -/
def CKPT_LAST_NEXT_STEP : Field := ⟨.CKPT_LAST, 0, 64⟩
/-- TRNG_CTL.SRC (R387). -/
def TRNG_CTL_SRC : Field := ⟨.TRNG_CTL, 0, 1⟩
/-- TRNG_CTL.ALERT_THRESH (R387). -/
def TRNG_CTL_ALERT_THRESH : Field := ⟨.TRNG_CTL, 16, 16⟩
/-- TRNG_CTL.RETIRE (R387). -/
def TRNG_CTL_RETIRE : Field := ⟨.TRNG_CTL, 32, 16⟩
/-- TRNG_STAT.VALID (R387). -/
def TRNG_STAT_VALID : Field := ⟨.TRNG_STAT, 0, 1⟩
/-- TRNG_STAT.EMPTY_READ (R387). -/
def TRNG_STAT_EMPTY_READ : Field := ⟨.TRNG_STAT, 1, 1⟩
/-- TRNG_STAT.STARTUP (R387). -/
def TRNG_STAT_STARTUP : Field := ⟨.TRNG_STAT, 2, 1⟩
/-- TRNG_STAT.EXP_STALL (R387). -/
def TRNG_STAT_EXP_STALL : Field := ⟨.TRNG_STAT, 3, 1⟩
/-- TRNG_STAT.STRETCHED (R387). -/
def TRNG_STAT_STRETCHED : Field := ⟨.TRNG_STAT, 4, 1⟩
/-- TRNG_STAT.SOURCES_IN_USE (R387). -/
def TRNG_STAT_SOURCES_IN_USE : Field := ⟨.TRNG_STAT, 8, 5⟩
/-- TRNG_STAT.FIFO_LEVEL (R387). -/
def TRNG_STAT_FIFO_LEVEL : Field := ⟨.TRNG_STAT, 16, 10⟩
/-- TRNG_WORD.WORD (R387). -/
def TRNG_WORD_WORD : Field := ⟨.TRNG_WORD, 0, 64⟩
/-- TRNG_RCT_FAILS.FAILS (R387). -/
def TRNG_RCT_FAILS_FAILS : Field := ⟨.TRNG_RCT_FAILS, 0, 32⟩
/-- TRNG_APT_FAILS.FAILS (R387). -/
def TRNG_APT_FAILS_FAILS : Field := ⟨.TRNG_APT_FAILS, 0, 32⟩
/-- TRNG_EMPTY_READS.COUNT (R387). -/
def TRNG_EMPTY_READS_COUNT : Field := ⟨.TRNG_EMPTY_READS, 0, 32⟩
/-- TRNG_SRC_MAP.IN_USE (R387). -/
def TRNG_SRC_MAP_IN_USE : Field := ⟨.TRNG_SRC_MAP, 0, 16⟩
/-- TRNG_SRC_MAP.STARTUP_FAILED (R387). -/
def TRNG_SRC_MAP_STARTUP_FAILED : Field := ⟨.TRNG_SRC_MAP, 16, 16⟩
/-- TRNG_SRC_MAP.RETIRED (R387). -/
def TRNG_SRC_MAP_RETIRED : Field := ⟨.TRNG_SRC_MAP, 32, 16⟩
/-- TRNG_SEL.SOURCE (R387). -/
def TRNG_SEL_SOURCE : Field := ⟨.TRNG_SEL, 0, 4⟩
/-- TRNG_DRBG.REQUESTS (R387). -/
def TRNG_DRBG_REQUESTS : Field := ⟨.TRNG_DRBG, 0, 25⟩
/-- TRNG_DRBG.RESEEDS (R387). -/
def TRNG_DRBG_RESEEDS : Field := ⟨.TRNG_DRBG, 32, 32⟩
/-- BELFRY_CTL.FREEZE (R401). -/
def BELFRY_CTL_FREEZE : Field := ⟨.BELFRY_CTL, 0, 1⟩
/-- BELFRY_CTL.FREEZE_LIMIT (R401). -/
def BELFRY_CTL_FREEZE_LIMIT : Field := ⟨.BELFRY_CTL, 16, 16⟩
/-- BELFRY_CTL.RATE_TICKS (R401). -/
def BELFRY_CTL_RATE_TICKS : Field := ⟨.BELFRY_CTL, 32, 8⟩
/-- BELFRY_CTL.BURST (R401). -/
def BELFRY_CTL_BURST : Field := ⟨.BELFRY_CTL, 40, 8⟩
/-- BELFRY_STAT.CLEAR_PENDING (R401). -/
def BELFRY_STAT_CLEAR_PENDING : Field := ⟨.BELFRY_STAT, 0, 1⟩
/-- BELFRY_STAT.COPY0_FAILED (R401). -/
def BELFRY_STAT_COPY0_FAILED : Field := ⟨.BELFRY_STAT, 1, 1⟩
/-- BELFRY_STAT.COPY1_FAILED (R401). -/
def BELFRY_STAT_COPY1_FAILED : Field := ⟨.BELFRY_STAT, 2, 1⟩
/-- BELFRY_STAT.LOG_LOST (R401). -/
def BELFRY_STAT_LOG_LOST : Field := ⟨.BELFRY_STAT, 3, 1⟩
/-- BELFRY_STAT.PENDING (R401). -/
def BELFRY_STAT_PENDING : Field := ⟨.BELFRY_STAT, 16, 9⟩
/-- BELFRY_STAT.LAST_COUNT (R401). -/
def BELFRY_STAT_LAST_COUNT : Field := ⟨.BELFRY_STAT, 32, 17⟩
/-- BELFRY_TOTAL.TOTAL (R401). -/
def BELFRY_TOTAL_TOTAL : Field := ⟨.BELFRY_TOTAL, 0, 48⟩
/-- BELFRY_TOTAL.FIRST_COUNT (R401). -/
def BELFRY_TOTAL_FIRST_COUNT : Field := ⟨.BELFRY_TOTAL, 48, 13⟩
/-- BELFRY_SEL_AREA.AREA (R401). -/
def BELFRY_SEL_AREA_AREA : Field := ⟨.BELFRY_SEL_AREA, 0, 1⟩
/-- BELFRY_SEL_AREA.COPY (R401). -/
def BELFRY_SEL_AREA_COPY : Field := ⟨.BELFRY_SEL_AREA, 1, 2⟩
/-- BELFRY_INDEX.INDEX (R401). -/
def BELFRY_INDEX_INDEX : Field := ⟨.BELFRY_INDEX, 0, 17⟩
/-- BELFRY_REC0.DATA (R401). -/
def BELFRY_REC0_DATA : Field := ⟨.BELFRY_REC0, 0, 64⟩
/-- BELFRY_REC1.DATA (R401). -/
def BELFRY_REC1_DATA : Field := ⟨.BELFRY_REC1, 0, 64⟩
/-- BELFRY_REC2.DATA (R401). -/
def BELFRY_REC2_DATA : Field := ⟨.BELFRY_REC2, 0, 64⟩
/-- BELFRY_REC3.DATA (R401). -/
def BELFRY_REC3_DATA : Field := ⟨.BELFRY_REC3, 0, 64⟩
/-- BELFRY_REC_STAT.VALID (R401). -/
def BELFRY_REC_STAT_VALID : Field := ⟨.BELFRY_REC_STAT, 0, 1⟩
/-- BELFRY_REC_STAT.BAD (R401). -/
def BELFRY_REC_STAT_BAD : Field := ⟨.BELFRY_REC_STAT, 1, 1⟩
/-- BELFRY_REC_STAT.COPY (R401). -/
def BELFRY_REC_STAT_COPY : Field := ⟨.BELFRY_REC_STAT, 2, 1⟩
/-- BELFRY_REC_STAT.REPAIRED (R401). -/
def BELFRY_REC_STAT_REPAIRED : Field := ⟨.BELFRY_REC_STAT, 3, 1⟩
/-- BELFRY_REC_STAT.OUT_OF_RANGE (R401). -/
def BELFRY_REC_STAT_OUT_OF_RANGE : Field := ⟨.BELFRY_REC_STAT, 4, 1⟩
/-- BELFRY_PENDING.OVERFLOW (R401). -/
def BELFRY_PENDING_OVERFLOW : Field := ⟨.BELFRY_PENDING, 0, 32⟩
/-- BELFRY_PENDING.MAX_LEVEL (R401). -/
def BELFRY_PENDING_MAX_LEVEL : Field := ⟨.BELFRY_PENDING, 32, 9⟩
/-- BELFRY_AT_LIMIT.FREEZE (R401). -/
def BELFRY_AT_LIMIT_FREEZE : Field := ⟨.BELFRY_AT_LIMIT, 0, 32⟩
/-- BELFRY_AT_LIMIT.UNLOGGED (R401). -/
def BELFRY_AT_LIMIT_UNLOGGED : Field := ⟨.BELFRY_AT_LIMIT, 32, 32⟩
/-- BELFRY_TALLY.LOG_LOST (R401). -/
def BELFRY_TALLY_LOG_LOST : Field := ⟨.BELFRY_TALLY, 0, 8⟩
/-- BELFRY_TALLY.LOG_CLEARS (R401). -/
def BELFRY_TALLY_LOG_CLEARS : Field := ⟨.BELFRY_TALLY, 8, 10⟩
/-- BELFRY_TALLY.COPY0_LOST (R401). -/
def BELFRY_TALLY_COPY0_LOST : Field := ⟨.BELFRY_TALLY, 18, 1⟩
/-- BELFRY_TALLY.COPY1_LOST (R401). -/
def BELFRY_TALLY_COPY1_LOST : Field := ⟨.BELFRY_TALLY, 19, 1⟩
/-- BELFRY_TALLY.POWER_CYCLES (R401). -/
def BELFRY_TALLY_POWER_CYCLES : Field := ⟨.BELFRY_TALLY, 32, 24⟩
/-- SEC_LIFECYCLE.STATE (R375). -/
def SEC_LIFECYCLE_STATE : Field := ⟨.SEC_LIFECYCLE, 0, 2⟩
/-- SEC_LIFECYCLE.USED (R375). -/
def SEC_LIFECYCLE_USED : Field := ⟨.SEC_LIFECYCLE, 8, 5⟩
/-- SEC_LIFECYCLE.OWNER (R375). -/
def SEC_LIFECYCLE_OWNER : Field := ⟨.SEC_LIFECYCLE, 16, 1⟩
/-- DBG_LEVEL.LEVEL (R375). -/
def DBG_LEVEL_LEVEL : Field := ⟨.DBG_LEVEL, 0, 2⟩
/-- DBG_LEVEL.PORT (R375). -/
def DBG_LEVEL_PORT : Field := ⟨.DBG_LEVEL, 2, 1⟩
/-- DBG_LEVEL.KEY_ID (R375). -/
def DBG_LEVEL_KEY_ID : Field := ⟨.DBG_LEVEL, 32, 32⟩
/-- DBG_CHALLENGE.HOST_NONCE (R375). -/
def DBG_CHALLENGE_HOST_NONCE : Field := ⟨.DBG_CHALLENGE, 0, 1⟩
/-- DBG_CHALLENGE.MGMT_NONCE (R375). -/
def DBG_CHALLENGE_MGMT_NONCE : Field := ⟨.DBG_CHALLENGE, 1, 1⟩
/-- DBG_CHALLENGE.ISSUED (R375). -/
def DBG_CHALLENGE_ISSUED : Field := ⟨.DBG_CHALLENGE, 32, 32⟩
/-- DBG_CTL.HALT (R375). -/
def DBG_CTL_HALT : Field := ⟨.DBG_CTL, 0, 1⟩
/-- DBG_CTL.SWEEP (R375). -/
def DBG_CTL_SWEEP : Field := ⟨.DBG_CTL, 1, 1⟩
/-- DBG_CTL.RESUME (R375). -/
def DBG_CTL_RESUME : Field := ⟨.DBG_CTL, 2, 1⟩
/-- DBG_CTL.END (R375). -/
def DBG_CTL_END : Field := ⟨.DBG_CTL, 3, 1⟩
/-- DBG_STAT.HALTED (R375). -/
def DBG_STAT_HALTED : Field := ⟨.DBG_STAT, 0, 1⟩
/-- DBG_STAT.HALT_PENDING (R375). -/
def DBG_STAT_HALT_PENDING : Field := ⟨.DBG_STAT, 1, 1⟩
/-- DBG_STAT.W (R375). -/
def DBG_STAT_W : Field := ⟨.DBG_STAT, 8, 56⟩
/-- PWR_STATE.REQ (R375). -/
def PWR_STATE_REQ : Field := ⟨.PWR_STATE, 0, 3⟩
/-- PWR_STATE.STATE (R375). -/
def PWR_STATE_STATE : Field := ⟨.PWR_STATE, 4, 3⟩
/-- PWR_STATE.PENDING (R375). -/
def PWR_STATE_PENDING : Field := ⟨.PWR_STATE, 7, 1⟩
/-- PWR_CAP.CAP_W (R375). -/
def PWR_CAP_CAP_W : Field := ⟨.PWR_CAP, 0, 16⟩
/-- PWR_STAT.STRETCH (R375). -/
def PWR_STAT_STRETCH : Field := ⟨.PWR_STAT, 0, 11⟩
/-- PWR_STAT.CAP (R375). -/
def PWR_STAT_CAP : Field := ⟨.PWR_STAT, 11, 1⟩
/-- PWR_STAT.THERMAL (R375). -/
def PWR_STAT_THERMAL : Field := ⟨.PWR_STAT, 12, 1⟩
/-- PWR_STAT.POWER_W (R375). -/
def PWR_STAT_POWER_W : Field := ⟨.PWR_STAT, 16, 16⟩
/-- PWR_STAT.AT_MAX (R375). -/
def PWR_STAT_AT_MAX : Field := ⟨.PWR_STAT, 32, 32⟩
/-- SEC_FW.LOAD (R375). -/
def SEC_FW_LOAD : Field := ⟨.SEC_FW, 0, 1⟩
/-- SEC_FW.RECOVERY (R375). -/
def SEC_FW_RECOVERY : Field := ⟨.SEC_FW, 1, 1⟩
/-- SEC_FW.SVN (R375). -/
def SEC_FW_SVN : Field := ⟨.SEC_FW, 32, 16⟩
/-- SEC_FW.FUSED_SVN (R375). -/
def SEC_FW_FUSED_SVN : Field := ⟨.SEC_FW, 48, 16⟩
/-- SEC_COUNTS.DEBUG_FIELD (R375). -/
def SEC_COUNTS_DEBUG_FIELD : Field := ⟨.SEC_COUNTS, 0, 16⟩
/-- SEC_COUNTS.TOKENS_REJECTED (R375). -/
def SEC_COUNTS_TOKENS_REJECTED : Field := ⟨.SEC_COUNTS, 16, 16⟩
/-- SEC_COUNTS.OCULUS_REFUSED (R375). -/
def SEC_COUNTS_OCULUS_REFUSED : Field := ⟨.SEC_COUNTS, 32, 32⟩
/-- SPARE_BUDGET.ROWS (R316). -/
def SPARE_BUDGET_ROWS : Field := ⟨.SPARE_BUDGET, 0, 60⟩
/-- SPARE_SEL.SITE (R316). -/
def SPARE_SEL_SITE : Field := ⟨.SPARE_SEL, 0, 10⟩
/-- SPARE_CTL.RE_QUALIFY (R316). -/
def SPARE_CTL_RE_QUALIFY : Field := ⟨.SPARE_CTL, 0, 1⟩
/-- SPARE_CTL.LOW (R316). -/
def SPARE_CTL_LOW : Field := ⟨.SPARE_CTL, 8, 8⟩
/-- SPARE_STAT.M_FREE (R316). -/
def SPARE_STAT_M_FREE : Field := ⟨.SPARE_STAT, 0, 8⟩
/-- SPARE_STAT.U_FREE (R316). -/
def SPARE_STAT_U_FREE : Field := ⟨.SPARE_STAT, 8, 8⟩
/-- SPARE_STAT.M_IDLE (R316). -/
def SPARE_STAT_M_IDLE : Field := ⟨.SPARE_STAT, 16, 8⟩
/-- SPARE_STAT.FAILED (R316). -/
def SPARE_STAT_FAILED : Field := ⟨.SPARE_STAT, 24, 8⟩
/-- SPARE_STAT.BYPASSES (R316). -/
def SPARE_STAT_BYPASSES : Field := ⟨.SPARE_STAT, 32, 8⟩
/-- SPARE_STAT.HOLES (R316). -/
def SPARE_STAT_HOLES : Field := ⟨.SPARE_STAT, 40, 8⟩
/-- SPARE_STAT.PAUSED (R316). -/
def SPARE_STAT_PAUSED : Field := ⟨.SPARE_STAT, 48, 1⟩
/-- SPARE_STAT.REQUAL_BUSY (R316). -/
def SPARE_STAT_REQUAL_BUSY : Field := ⟨.SPARE_STAT, 49, 1⟩
/-- SPARE_WDOG.CYCLES (R316). -/
def SPARE_WDOG_CYCLES : Field := ⟨.SPARE_WDOG, 0, 32⟩
/-- SPARE_AT_LIMIT.WDOG (R316). -/
def SPARE_AT_LIMIT_WDOG : Field := ⟨.SPARE_AT_LIMIT, 0, 32⟩
/-- SPARE_COUNTS.SUBSTITUTIONS (R316). -/
def SPARE_COUNTS_SUBSTITUTIONS : Field := ⟨.SPARE_COUNTS, 0, 16⟩
/-- SPARE_COUNTS.ROLLBACKS (R316). -/
def SPARE_COUNTS_ROLLBACKS : Field := ⟨.SPARE_COUNTS, 16, 16⟩
/-- SPARE_COUNTS.REEXECUTIONS (R316). -/
def SPARE_COUNTS_REEXECUTIONS : Field := ⟨.SPARE_COUNTS, 32, 32⟩
/-- SPARE_UNITS.SRAM_BANKS (R316). -/
def SPARE_UNITS_SRAM_BANKS : Field := ⟨.SPARE_UNITS, 0, 12⟩
/-- SPARE_UNITS.VAULT_SLICES (R316). -/
def SPARE_UNITS_VAULT_SLICES : Field := ⟨.SPARE_UNITS, 12, 12⟩
/-- SPARE_UNITS.OPT_LANES (R316). -/
def SPARE_UNITS_OPT_LANES : Field := ⟨.SPARE_UNITS, 24, 4⟩
/-- SPARE_UNITS.PLL (R316). -/
def SPARE_UNITS_PLL : Field := ⟨.SPARE_UNITS, 28, 4⟩
/-- SPARE_UNITS.VR_PHASES (R316). -/
def SPARE_UNITS_VR_PHASES : Field := ⟨.SPARE_UNITS, 32, 4⟩
/-- SPARE_UNITS.NOISE (R316). -/
def SPARE_UNITS_NOISE : Field := ⟨.SPARE_UNITS, 36, 4⟩
/-- SPARE_UNITS.LPDDR_SPARE (R316). -/
def SPARE_UNITS_LPDDR_SPARE : Field := ⟨.SPARE_UNITS, 40, 1⟩
/-- SPARE_UNITS.HBM_REPAIRS (R316). -/
def SPARE_UNITS_HBM_REPAIRS : Field := ⟨.SPARE_UNITS, 44, 20⟩
/-- INT_STAT.CAUSE (R427). -/
def INT_STAT_CAUSE : Field := ⟨.INT_STAT, 0, 16⟩
/-- INT_ENABLE.ENABLE (R427). -/
def INT_ENABLE_ENABLE : Field := ⟨.INT_ENABLE, 0, 16⟩
/-- INT_SET.SET (R427). -/
def INT_SET_SET : Field := ⟨.INT_SET, 0, 16⟩
/-- INT_MOD.COUNT (R427). -/
def INT_MOD_COUNT : Field := ⟨.INT_MOD, 0, 16⟩
/-- INT_MOD.TIME (R427). -/
def INT_MOD_TIME : Field := ⟨.INT_MOD, 16, 32⟩
/-- INT_COUNT.SENT (R427). -/
def INT_COUNT_SENT : Field := ⟨.INT_COUNT, 0, 32⟩
/-- INT_COUNT.PENDED (R427). -/
def INT_COUNT_PENDED : Field := ⟨.INT_COUNT, 32, 32⟩
/-- INT_AT_LIMIT.RECEIPT (R427). -/
def INT_AT_LIMIT_RECEIPT : Field := ⟨.INT_AT_LIMIT, 0, 32⟩
/-- OCU_CTL.ARM (R181). -/
def OCU_CTL_ARM : Field := ⟨.OCU_CTL, 0, 1⟩
/-- OCU_CTL.MODE (R181). -/
def OCU_CTL_MODE : Field := ⟨.OCU_CTL, 1, 1⟩
/-- OCU_TRIG_STEP.STEP (R181). -/
def OCU_TRIG_STEP_STEP : Field := ⟨.OCU_TRIG_STEP, 0, 64⟩
/-- OCU_TRIG_ITEM.PARCEL (R181). -/
def OCU_TRIG_ITEM_PARCEL : Field := ⟨.OCU_TRIG_ITEM, 0, 34⟩
/-- OCU_TRIG_ITEM.PASS (R181). -/
def OCU_TRIG_ITEM_PASS : Field := ⟨.OCU_TRIG_ITEM, 34, 3⟩
/-- OCU_TRIG_ITEM.SWEEP (R181). -/
def OCU_TRIG_ITEM_SWEEP : Field := ⟨.OCU_TRIG_ITEM, 40, 24⟩
/-- OCU_STAT.CAPTURED (R181). -/
def OCU_STAT_CAPTURED : Field := ⟨.OCU_STAT, 0, 1⟩
/-- OCU_STAT.MISSED (R181). -/
def OCU_STAT_MISSED : Field := ⟨.OCU_STAT, 1, 1⟩
/-- OCU_STAT.REEXEC (R181). -/
def OCU_STAT_REEXEC : Field := ⟨.OCU_STAT, 2, 1⟩
/-- OCU_STAT.PARITY (R181). -/
def OCU_STAT_PARITY : Field := ⟨.OCU_STAT, 3, 1⟩
/-- OCU_STAT.SHIFT (R181). -/
def OCU_STAT_SHIFT : Field := ⟨.OCU_STAT, 4, 4⟩
/-- OCU_STAT.RETRIES (R181). -/
def OCU_STAT_RETRIES : Field := ⟨.OCU_STAT, 8, 4⟩
/-- OCU_STAT.SITE (R181). -/
def OCU_STAT_SITE : Field := ⟨.OCU_STAT, 16, 10⟩
/-- OCU_STAT.CORE (R181). -/
def OCU_STAT_CORE : Field := ⟨.OCU_STAT, 32, 10⟩
/-- OCU_SEL.COLUMN (R181). -/
def OCU_SEL_COLUMN : Field := ⟨.OCU_SEL, 0, 6⟩
/-- OCU_SEL.LIMB (R181). -/
def OCU_SEL_LIMB : Field := ⟨.OCU_SEL, 8, 4⟩
/-- OCU_SEL.WHAT (R181). -/
def OCU_SEL_WHAT : Field := ⟨.OCU_SEL, 12, 2⟩

end Fld

end Sys2Proof.Machine
end

