-- ==== Sys2Proof/Syntax.lean ====
section
/-! DEFINITION. The commands of the block: one constructor per row of the opcode table, with the
operands each needs (the table gives none, log 1). -/

namespace Sys2Proof

open Machine

/-- Which part of a register a BAR0 access covers (R418). -/
inductive Half where
  | whole | low | high
  deriving DecidableEq, Repr

/-- One register access: the port that makes it (R333, R422), the part it covers and the value. -/
structure RegAcc where
  port : Port
  half : Half
  value : W64
  deriving DecidableEq, Repr

/-- A change of MSI-X masking: a vector's mask bit, the function mask, MSI-X Enable (R425). -/
inductive MsixCtl where
  | vector (v : Nat) (mask : Bool)
  | function (mask : Bool)
  | enable (on : Bool)
  deriving DecidableEq, Repr

/-- SOURCE of a Belfry record (R388): the compute die, the DMC, the boot ROM, a host-port register
write or order, the management port. -/
inductive Source where
  | die | dmc | rom | host | mgmt
  deriving DecidableEq, Repr

/-- What a core's checks find while it runs a sequencer entry (R146, R150, R296): nothing, a residue
mismatch, a parity mismatch in one limb of one of the 8 columns of a Vault slice, an SRAM word corrected or not
correctable, or that the core's step shadow can no longer be read, in its own shadow area or as the mirror (R299). -/
inductive CoreFault where
  | ok
  | residue
  | parity (bankB : Bool) (slice : Nat) (col : Nat) (limb : Nat)
  | corrected (bank : Nat)
  | uncorrectable (bank : Nat)
  | shadow (mirror : Bool)
  deriving DecidableEq, Repr

/-- The registers that INTAKE_CONFIG_WRITE names (R291). -/
inductive IntakeReg where
  | nextSeq | base | size
  deriving DecidableEq, Repr

/-- What reading a tile finds (R231, R232, R296): nothing, an error that the HBM3E device corrects, a tile check
mismatch, an uncorrectable error that the device reports, or an error in the port's own SRAM, single-bit or double-bit.
`content` is what the damaged tile holds where no residence does (R307, R429): 0 plan sections, 1 chain state written
in the step, 2 chain state that entered the step, 3 a journal ring, 4 a context copy, else nothing of these. -/
inductive TileFault where
  | ok
  | corrected
  | mismatch (content : Nat)
  | uncorrectable (content : Nat)
  | sram (double : Bool)
  deriving DecidableEq, Repr

/-- A tile behind a memory port, and what reading it finds. -/
structure TileCheck where
  port : Nat
  tile : Nat
  fault : TileFault
  deriving DecidableEq, Repr

/-- A slot or an order, by its number, and what reading the tiles of its image finds (R88). -/
structure ImageTiles where
  num : Nat
  tiles : List TileCheck
  deriving DecidableEq, Repr

/-- The order in which the heads and the tails of a reduction's partials arrive (R241). -/
structure Arrivals where
  heads : List Nat
  tails : List Nat
  deriving DecidableEq, Repr

/-- What a SYNC entry signals, a flag or its arrival at a barrier, and the router at which its flit's parity fails, if one
does (R80, R217, R296). -/
structure Signal where
  flag : Bool
  parity : Option Nat
  deriving DecidableEq, Repr

/-- What a step boundary finds: whether the step's self-test passed, and the stacks in which the HBM3E standard's repairs
are made (R292, R314). -/
structure AtBoundary where
  selfOk : Bool
  repairs : List Nat
  deriving DecidableEq, Repr

/-- The targets of a free-slot packet, and whether a port or ring node sends it (R215, R218). -/
structure Targets where
  node : Bool
  sites : List Nat
  deriving DecidableEq, Repr

/-- The flits of a free-slot packet, and the router at which their parity fails, if one does (R218, R296). -/
structure Flits where
  count : Nat
  parity : Option Nat
  deriving DecidableEq, Repr

/-- The site that acknowledges, and the router at which its flit's parity fails, if one does (R220, R296). -/
structure AckFlit where
  site : Nat
  parity : Option Nat
  deriving DecidableEq, Repr

/-- The bytes of a write through BAR2, and what verifying the tiles it writes in part finds (R230, R322). -/
structure WindowWrite where
  bytes : List Byte
  faults : List TileCheck
  deriving DecidableEq, Repr

/-- Whether each copy of the field spare map can be read (R295). -/
structure MapCopies where
  a : Bool
  b : Bool
  deriving DecidableEq, Repr

/-- The commands: one constructor per row of the opcode table. The first operand `t` is the reference
cycle at which the command lands (log 1). -/
inductive Instr where
  /-- INTAKE_SLOT_WRITE (R259). -/
  | intakeSlotWrite (t : Nat) (slot : Nat) (off : Nat) (data : List Byte)
  /-- SEAL_TIMEOUT (R262). -/
  | sealTimeout (t : Nat) (slot : Nat)
  /-- ORDER_ACCEPTANCE (R263). -/
  | orderAcceptance (t : Nat) (slot : ImageTiles)
  /-- ACCEPTED (R263). -/
  | accepted (t : Nat) (seq : Nat)
  /-- RECEIPT_POST (R269). -/
  | receiptPost (t : Nat) (seq : Nat)
  /-- RECEIPT_CONSUMED (R270). -/
  | receiptConsumed (t : Nat) (acc : RegAcc)
  /-- INTAKE_ENABLE (R278). -/
  | intakeEnable (t : Nat) (acc : RegAcc)
  /-- INTAKE_RESUME (R267). -/
  | intakeResume (t : Nat) (acc : RegAcc)
  /-- FORCE_OPEN (R277). -/
  | forceOpen (t : Nat) (acc : RegAcc)
  /-- INTAKE_CONFIG_WRITE (R291). -/
  | intakeConfigWrite (t : Nat) (reg : IntakeReg) (acc : RegAcc)
  /-- DURABILITY_POLICY_WRITE (R273). -/
  | durabilityPolicyWrite (t : Nat) (acc : RegAcc)
  /-- PLAN_LOAD (R88). -/
  | planLoad (t : Nat) (seq : ImageTiles)
  /-- DATA_BIND (R77). -/
  | dataBind (t : Nat) (seq : Nat)
  /-- SEED_SET (R188). -/
  | seedSet (t : Nat) (seq : Nat)
  /-- RUN (R266). -/
  | run (t : Nat) (seq : Nat)
  /-- CHECKPOINT (R267). -/
  | checkpoint (t : Nat) (seq : Nat)
  /-- RESTORE (R289). -/
  | restore (t : Nat) (seq : Nat)
  /-- MODE_SET (R243). -/
  | modeSet (t : Nat) (seq : Nat)
  /-- ROW_SAMPLE (R118). -/
  | rowSample (t : Nat) (seq : Nat)
  /-- QUIESCE (R266). -/
  | quiesce (t : Nat) (seq : Nat)
  /-- PROBE_CHALLENGE (R349). -/
  | probeChallenge (t : Nat) (seq : Nat)
  /-- PROBE_TOKEN (R352). -/
  | probeToken (t : Nat) (seq : Nat)
  /-- PROBE_END (R356). -/
  | probeEnd (t : Nat) (seq : Nat)
  /-- PROBE_HALT (R357). -/
  | probeHalt (t : Nat) (seq : Nat)
  /-- PROBE_SWEEP (R357). -/
  | probeSweep (t : Nat) (seq : Nat)
  /-- PROBE_RESUME (R357). -/
  | probeResume (t : Nat) (seq : Nat)
  /-- STATE_WRITE (R359). -/
  | stateWrite (t : Nat) (seq : Nat)
  /-- PROBE_QUOTE (R369). -/
  | probeQuote (t : Nat) (seq : Nat)
  /-- MARK_FRAME (R40). -/
  | markFrame (t : Nat) (pairB : Bool) (bytes : List Byte)
  /-- MARK_APPLY (R53). -/
  | markApply (t : Nat)
  /-- PHASE_FRAME (R41). -/
  | phaseFrame (t : Nat) (pairB : Bool) (bytes : List Byte)
  /-- READY_FRAME (R50). -/
  | readyFrame (t : Nat) (bytes : List Byte)
  /-- WAIT_FRAME (R52). -/
  | waitFrame (t : Nat) (pairB : Bool) (bytes : List Byte)
  /-- MARK_GENERATE (R39). -/
  | markGenerate (t : Nat)
  /-- STEP_ADVANCE (R38). -/
  | stepAdvance (t : Nat) (acc : RegAcc)
  /-- WAIT_SEND (R52). -/
  | waitSend (t : Nat)
  /-- BARRIER_SLOW (R51). -/
  | barrierSlow (t : Nat)
  /-- REFERENCE_LOST (R54). -/
  | referenceLost (t : Nat)
  /-- CAMPANILE_LOSS_OF_LIGHT (R54). -/
  | campanileLossOfLight (t : Nat)
  /-- HOLDOVER_MARK (R55). -/
  | holdoverMark (t : Nat)
  /-- DOWNSTREAM_DOWN (R50). -/
  | downstreamDown (t : Nat)
  /-- CAMPANILE_FAILOVER (R329). -/
  | campanileFailover (t : Nat) (outPort : Bool)
  /-- STEP_RETRAIN (R53). -/
  | stepRetrain (t : Nat) (acc : RegAcc)
  /-- ECHO_RECEIVED (R330). -/
  | echoReceived (t : Nat) (fromUp : Bool) (pairB : Bool) (id : Nat)
  /-- ECHO_RETURN (R330). -/
  | echoReturn (t : Nat)
  /-- STEP_CONFIG_WRITE (R36). -/
  | stepConfigWrite (t : Nat) (ctl : Bool) (acc : RegAcc)
  /-- STEP_START (R45). -/
  | stepStart (t : Nat)
  /-- PHASE_BEGIN (R43). -/
  | phaseBegin (t : Nat)
  /-- GATHER (R110). -/
  | gather (t : Nat) (node : Nat) (fault : CoreFault)
  /-- MAC (R151). -/
  | mac (t : Nat) (node : Nat) (fault : CoreFault)
  /-- DRAIN (R157). -/
  | drain (t : Nat) (node : Nat) (fault : CoreFault)
  /-- UPDATE (R98). -/
  | update (t : Nat) (node : Nat)
  /-- WRITEBACK (R250). -/
  | writeback (t : Nat) (node : Nat)
  /-- REDUCE (R171). -/
  | reduce (t : Nat) (node : Nat) (order : Arrivals)
  /-- LANGEVIN (R112). -/
  | langevin (t : Nat) (node : Nat)
  /-- GROUP (R133). -/
  | group (t : Nat)
  /-- SWAP (R135). -/
  | swap (t : Nat)
  /-- ANNEAL (R128). -/
  | anneal (t : Nat) (moves : List (Nat × Nat × Nat))
  /-- SYNC (R217). -/
  | sync (t : Nat) (node : Nat) (flag : Signal)
  /-- END (R80). -/
  | endEntry (t : Nat) (node : Nat)
  /-- SLOT_END (R103). -/
  | slotEnd (t : Nat)
  /-- BARRIER_RELEASE (R217). -/
  | barrierRelease (t : Nat)
  /-- CORE_WATCHDOG (R298). -/
  | coreWatchdog (t : Nat) (barrier : Nat)
  /-- ISLAND_MONITOR (R296). -/
  | islandMonitor (t : Nat) (site : Nat) (router : Bool)
  /-- BOUNDARY_ACTIONS (R28). -/
  | boundaryActions (t : Nat) (found : AtBoundary)
  /-- CONTEXT_COMPLETE (R286). -/
  | contextComplete (t : Nat)
  /-- HOP_INJECT (R213). -/
  | hopInject (t : Nat) (hop : Nat) (site : Nat)
  /-- HOP_DELIVERY (R212). -/
  | hopDelivery (t : Nat) (hop : Nat) (parity : Option Nat)
  /-- FREE_SLOT_PACKET (R218). -/
  | freeSlotPacket (t : Nat) (id : Nat) (site : Nat) (targets : Targets) (flits : Flits)
  /-- CREDIT_RETURN (R219). -/
  | creditReturn (t : Nat) (site : Nat) (dir : Nat)
  /-- FREE_SLOT_ACK (R220). -/
  | freeSlotAck (t : Nat) (id : Nat) (target : AckFlit)
  /-- MPORT_REQUEST (R225). -/
  | mportRequest (t : Nat) (port : Nat) (id : Nat) (write : Bool) (addr : Nat) (len : Nat) (data : List Byte)
  /-- MPORT_ADMIT (R223). -/
  | mportAdmit (t : Nat) (port : Nat) (faults : List TileCheck)
  /-- MPORT_READ_DELIVERY (R231). -/
  | mportReadDelivery (t : Nat) (port : Nat) (faults : List TileCheck)
  /-- MPORT_WRITE_ACK (R222). -/
  | mportWriteAck (t : Nat) (port : Nat)
  /-- MERGE_ENTRY_CLOSE (R225). -/
  | mergeEntryClose (t : Nat) (port : Nat)
  /-- SCRUB_READ (R233). -/
  | scrubRead (t : Nat) (port : Nat) (fault : TileFault)
  /-- ATOMIC_ADD (R227). -/
  | atomicAdd (t : Nat) (port : Nat) (addr : Nat) (value : W64) (faults : List TileCheck)
  /-- FREE_SLOT_REQUEST (R228). -/
  | freeSlotRequest (t : Nat) (port : Nat) (write : Bool) (addr : Nat) (len : Nat) (data : List Byte)
    (faults : List TileCheck)
  /-- CVU_ARM (R236). -/
  | cvuArm (t : Nat) (acc : RegAcc)
  /-- JOURNAL_FRAME_SEND (R281). -/
  | journalFrameSend (t : Nat) (port : Nat)
  /-- JOURNAL_ACK (R283). -/
  | journalAck (t : Nat) (port : Nat) (bytes : List Byte)
  /-- JOURNAL_CREDIT (R281). -/
  | journalCredit (t : Nat) (port : Nat) (bytes : List Byte)
  /-- JOURNAL_LINK_UP (R282). -/
  | journalLinkUp (t : Nat) (port : Nat)
  /-- TRAIN_REPLY (R282). -/
  | trainReply (t : Nat) (port : Nat) (bytes : List Byte)
  /-- REPLAY (R277). -/
  | replay (t : Nat) (port : Nat) (bytes : List Byte)
  /-- JOURNAL_ACK_TIMEOUT (R283). -/
  | journalAckTimeout (t : Nat) (port : Nat)
  /-- JOURNAL_LOSS_OF_LIGHT (R283). -/
  | journalLossOfLight (t : Nat) (port : Nat)
  /-- JRNL_RETRAIN (R283). -/
  | jrnlRetrain (t : Nat) (acc : RegAcc)
  /-- RECOVERY (R277). -/
  | recovery (t : Nat)
  /-- HOST_READ_COMPLETION (R324). -/
  | hostReadCompletion (t : Nat) (seq : Nat) (slot : Nat) (data : List Byte) (err : Nat)
  /-- BAR2_READ (R322). -/
  | bar2Read (t : Nat) (addr : Nat) (size : Nat) (faults : List TileCheck)
  /-- BAR2_WRITE (R322). -/
  | bar2Write (t : Nat) (addr : Nat) (data : WindowWrite)
  /-- BAR0_BAD_ACCESS (R418). -/
  | bar0BadAccess (t : Nat) (port : Port) (write : Bool) (off : Nat)
  /-- REGISTER_WRITE (R13). -/
  | registerWrite (t : Nat) (off : Nat) (acc : RegAcc)
  /-- LANE_FAILED (R323). -/
  | laneFailed (t : Nat) (port : Nat) (lane : Nat)
  /-- HOST_LINK_RECOVERED (R323). -/
  | hostLinkRecovered (t : Nat)
  /-- LANE_RETRAIN (R344). -/
  | laneRetrain (t : Nat) (acc : RegAcc)
  /-- I3C_DYNAMIC_ADDRESS (R331). -/
  | i3cDynamicAddress (t : Nat) (legacy : Bool) (addr : Nat)
  /-- SET_ENDPOINT_ID (R332). -/
  | setEndpointId (t : Nat) (eid : Nat)
  /-- GET_ENDPOINT_ID (R332). -/
  | getEndpointId (t : Nat)
  /-- GET_MCTP_VERSION_SUPPORT (R332). -/
  | getMctpVersionSupport (t : Nat)
  /-- GET_MESSAGE_TYPE_SUPPORT (R332). -/
  | getMessageTypeSupport (t : Nat)
  /-- GET_VENDOR_MESSAGE_SUPPORT (R332). -/
  | getVendorMessageSupport (t : Nat)
  /-- REG_READ (R333). -/
  | regRead (t : Nat) (off : Nat)
  /-- REG_WRITE (R333). -/
  | regWrite (t : Nat) (off : Nat) (value : W64)
  /-- SLOT_WRITE (R333). -/
  | slotWrite (t : Nat) (slot : Nat) (off : Nat) (data : List Byte)
  /-- RECEIPT_GET (R332). -/
  | receiptGet (t : Nat) (seq : Nat)
  /-- HEARTBEAT (R335). -/
  | heartbeat (t : Nat)
  /-- MGMT_WDOG_EXPIRED (R335). -/
  | mgmtWdogExpired (t : Nat)
  /-- MGMT_WDOG_WRITE (R335). -/
  | mgmtWdogWrite (t : Nat) (acc : RegAcc)
  /-- MGMT_STAT_READ (R337). -/
  | mgmtStatRead (t : Nat)
  /-- CHALLENGE (R349). -/
  | challenge (t : Nat)
  /-- TOKEN_PUT (R373). -/
  | tokenPut (t : Nat) (off : Nat) (data : List Byte)
  /-- TOKEN_SUBMIT (R352). -/
  | tokenSubmit (t : Nat)
  /-- QUOTE (R369). -/
  | quote (t : Nat) (nonce : List Byte)
  /-- QUOTE_FORMED (R369). -/
  | quoteFormed (t : Nat)
  /-- QUOTE_READ (R373). -/
  | quoteRead (t : Nat) (off : Nat)
  /-- DEBUG_CTL_END (R356). -/
  | debugCtlEnd (t : Nat)
  /-- DEBUG_CTL_HALT (R357). -/
  | debugCtlHalt (t : Nat)
  /-- DEBUG_CTL_SWEEP (R357). -/
  | debugCtlSweep (t : Nat)
  /-- DEBUG_CTL_RESUME (R357). -/
  | debugCtlResume (t : Nat)
  /-- KEY_LIST (R373). -/
  | keyList (t : Nat) (slot : Nat)
  /-- CERT_READ (R373). -/
  | certRead (t : Nat) (off : Nat)
  /-- GET_TID (R334). -/
  | getTid (t : Nat)
  /-- SET_TID (R334). -/
  | setTid (t : Nat) (tid : Nat)
  /-- GET_PLDM_VERSION (R334). -/
  | getPldmVersion (t : Nat) (typ : Nat)
  /-- GET_PLDM_TYPES (R334). -/
  | getPldmTypes (t : Nat)
  /-- GET_PLDM_COMMANDS (R334). -/
  | getPldmCommands (t : Nat) (typ : Nat)
  /-- GET_PDR_REPOSITORY_INFO (R334). -/
  | getPdrRepositoryInfo (t : Nat)
  /-- GET_PDR (R334). -/
  | getPdr (t : Nat) (handle : Nat)
  /-- GET_SENSOR_READING (R334). -/
  | getSensorReading (t : Nat) (sensor : Nat)
  /-- GET_STATE_SENSOR_READINGS (R334). -/
  | getStateSensorReadings (t : Nat) (sensor : Nat)
  /-- SET_NUMERIC_EFFECTER_VALUE (R334). -/
  | setNumericEffecterValue (t : Nat) (effecter : Nat) (value : Nat)
  /-- GET_NUMERIC_EFFECTER_VALUE (R334). -/
  | getNumericEffecterValue (t : Nat) (effecter : Nat)
  /-- SET_EVENT_RECEIVER (R334). -/
  | setEventReceiver (t : Nat) (eid : Nat)
  /-- POLL_FOR_PLATFORM_EVENT (R334). -/
  | pollForPlatformEvent (t : Nat)
  /-- QUERY_DEVICE_IDENTIFIERS (R334). -/
  | queryDeviceIdentifiers (t : Nat)
  /-- GET_FIRMWARE_PARAMETERS (R334). -/
  | getFirmwareParameters (t : Nat)
  /-- REQUEST_UPDATE (R334). -/
  | requestUpdate (t : Nat)
  /-- PASS_COMPONENT_TABLE (R334). -/
  | passComponentTable (t : Nat)
  /-- UPDATE_COMPONENT (R334). -/
  | updateComponent (t : Nat) (size : Nat)
  /-- REQUEST_FIRMWARE_DATA (R334). -/
  | requestFirmwareData (t : Nat) (off : Nat) (data : List Byte)
  /-- TRANSFER_COMPLETE (R334). -/
  | transferComplete (t : Nat)
  /-- VERIFY_COMPLETE (R372). -/
  | verifyComplete (t : Nat)
  /-- APPLY_COMPLETE (R372). -/
  | applyComplete (t : Nat)
  /-- ACTIVATE_FIRMWARE (R372). -/
  | activateFirmware (t : Nat)
  /-- DMC_RESTART_DONE (R372). -/
  | dmcRestartDone (t : Nat)
  /-- GET_STATUS (R334). -/
  | getStatus (t : Nat)
  /-- CANCEL_UPDATE_COMPONENT (R334). -/
  | cancelUpdateComponent (t : Nat)
  /-- CANCEL_UPDATE (R334). -/
  | cancelUpdate (t : Nat)
  /-- SEC_FW_LOAD (R371). -/
  | secFwLoad (t : Nat) (acc : RegAcc)
  /-- DBG_CTL_HALT (R357). -/
  | dbgCtlHalt (t : Nat) (acc : RegAcc)
  /-- DBG_CTL_SWEEP (R357). -/
  | dbgCtlSweep (t : Nat) (acc : RegAcc)
  /-- DBG_CTL_RESUME (R357). -/
  | dbgCtlResume (t : Nat) (acc : RegAcc)
  /-- DBG_CTL_END (R356). -/
  | dbgCtlEnd (t : Nat) (acc : RegAcc)
  /-- OCULUS_ARM (R176). -/
  | oculusArm (t : Nat) (acc : RegAcc)
  /-- DIGEST_STEP_READ (R258). -/
  | digestStepRead (t : Nat) (port : Port)
  /-- MODE_CTL_WRITE (R243). -/
  | modeCtlWrite (t : Nat) (lb : Bool) (acc : RegAcc)
  /-- RE_QUALIFY (R313). -/
  | reQualify (t : Nat) (acc : RegAcc)
  /-- PWR_REQ_P0 (R361). -/
  | pwrReqP0 (t : Nat) (acc : RegAcc)
  /-- PWR_REQ_P2 (R361). -/
  | pwrReqP2 (t : Nat) (acc : RegAcc)
  /-- PWR_REQ_P3 (R362). -/
  | pwrReqP3 (t : Nat) (acc : RegAcc)
  /-- PWR_REQ_P4 (R410). -/
  | pwrReqP4 (t : Nat) (acc : RegAcc)
  /-- POWER_STATE_RETURN (R361). -/
  | powerStateReturn (t : Nat)
  /-- P4_EXIT (R410). -/
  | p4Exit (t : Nat)
  /-- PWR_CAP_WRITE (R365). -/
  | pwrCapWrite (t : Nat) (acc : RegAcc)
  /-- POWER_MEASUREMENT (R365). -/
  | powerMeasurement (t : Nat) (watts : Nat)
  /-- POWER_MANAGER_ADJUST (R365). -/
  | powerManagerAdjust (t : Nat) (delta : Int)
  /-- THERMAL_THROTTLE (R342). -/
  | thermalThrottle (t : Nat) (deg : Int) (stretch : Nat)
  /-- THERMAL_TRIP (R342). -/
  | thermalTrip (t : Nat) (deg : Int)
  /-- COOLANT_HIGH (R342). -/
  | coolantHigh (t : Nat) (deg : Int)
  /-- MAIN_INPUT_RANGE (R341). -/
  | mainInputRange (t : Nat) (millivolts : Nat)
  /-- MAIN_EN_CHANGE (R341). -/
  | mainEnChange (t : Nat) (high : Bool)
  /-- AUX_POWER_RISE (R402). -/
  | auxPowerRise (t : Nat)
  /-- BOOT_ROM_VERIFY (R371). -/
  | bootRomVerify (t : Nat)
  /-- MAIN_RAILS_SEQUENCED (R402). -/
  | mainRailsSequenced (t : Nat) (bad : Option Nat)
  /-- PLL_LOCK (R402). -/
  | pllLock (t : Nat) (one : List Nat) (dead : List Nat)
  /-- SPARE_MAP_APPLIED (R402). -/
  | spareMapApplied (t : Nat) (readable : MapCopies)
  /-- START_UP_SELF_TEST (R405). -/
  | startUpSelfTest (t : Nat) (failed : List Nat) (routers : List Nat) (banks : List (Nat × Nat)) (slices : List (Nat × Bool × Nat))
  /-- MEMORY_TRAINING (R402). -/
  | memoryTraining (t : Nat) (failed : List Nat)
  /-- OPTICAL_BRING_UP (R402). -/
  | opticalBringUp (t : Nat) (failed : List (Nat × Nat))
  /-- FLR (R411). -/
  | flr (t : Nat)
  /-- HOT_RESET (R411). -/
  | hotReset (t : Nat) (lost : Bool)
  /-- WARM_RST_N (R406). -/
  | warmRstN (t : Nat)
  /-- DEV_RESET_WARM (R407). -/
  | devResetWarm (t : Nat) (acc : RegAcc)
  /-- DEV_RESET_COLD (R407). -/
  | devResetCold (t : Nat) (acc : RegAcc)
  /-- NOISE_SAMPLE (R378). -/
  | noiseSample (t : Nat) (src : Nat) (bit : Bool)
  /-- ENTROPY_SETTLED (R382). -/
  | entropySettled (t : Nat)
  /-- CONDITIONED_BLOCK (R380). -/
  | conditionedBlock (t : Nat) (raw : List W64)
  /-- EXPANDER_REQUEST (R383). -/
  | expanderRequest (t : Nat)
  /-- EXPANDER_RESEED (R383). -/
  | expanderReseed (t : Nat)
  /-- TRNG_WORD_READ (R384). -/
  | trngWordRead (t : Nat) (port : Port)
  /-- TRNG_CTL_WRITE (R384). -/
  | trngCtlWrite (t : Nat) (acc : RegAcc)
  /-- BELFRY_EVENT (R391). -/
  | belfryEvent (t : Nat) (code : Nat) (payload : Nat) (src : Source) (fail0 : Bool) (fail1 : Bool)
  /-- OPERATING_HOURS_TICK (R389). -/
  | operatingHoursTick (t : Nat)
  /-- BELFRY_REFILL (R391). -/
  | belfryRefill (t : Nat)
  /-- BELFRY_FREEZE_SET (R398). -/
  | belfryFreezeSet (t : Nat) (acc : RegAcc)
  /-- BELFRY_FREEZE_CLEAR (R398). -/
  | belfryFreezeClear (t : Nat) (acc : RegAcc)
  /-- FREEZE_EXPIRED (R398). -/
  | freezeExpired (t : Nat)
  /-- BELFRY_INDEX_WRITE (R397). -/
  | belfryIndexWrite (t : Nat) (acc : RegAcc)
  /-- BELFRY_CLEARED (R399). -/
  | belfryCleared (t : Nat)
  /-- INT_STAT_CLEAR (R425). -/
  | intStatClear (t : Nat) (acc : RegAcc)
  /-- INT_ENABLE_WRITE (R425). -/
  | intEnableWrite (t : Nat) (acc : RegAcc)
  /-- INT_SET (R427). -/
  | intSet (t : Nat) (acc : RegAcc)
  /-- INT_MOD_WRITE (R426). -/
  | intModWrite (t : Nat) (acc : RegAcc)
  /-- RECEIPT_MODERATION_TIMER (R426). -/
  | receiptModerationTimer (t : Nat)
  /-- MSIX_UNMASK (R425). -/
  | msixUnmask (t : Nat) (ctl : MsixCtl)
  /-- AUX_POWER_LOSS (R276). -/
  | auxPowerLoss (t : Nat)
  /-- CAMPANILE_LINK_UP (R330). -/
  | campanileLinkUp (t : Nat) (outPort : Bool) (pairB : Bool)
  /-- HOST_LINK_UP (R323). -/
  | hostLinkUp (t : Nat) (rate : Nat) (flit : Bool)
  /-- BUS_MASTER_ENABLE (R411). -/
  | busMasterEnable (t : Nat)
  /-- PLL_SWITCH (R292). -/
  | pllSwitch (t : Nat) (field : Nat)
  /-- REGULATOR_SWITCH (R292). -/
  | regulatorSwitch (t : Nat)
  /-- RE_QUALIFICATION_DONE (R313). -/
  | reQualificationDone (t : Nat) (pass : Bool)
  deriving DecidableEq, Repr

end Sys2Proof
end

