-- ==== Sys2Proof/Decode.lean ====
section
/-! DEFINITION. The reader of table words. No row of the opcode table gives bits, so a word spells no command. -/

namespace Sys2Proof

/-- The command that a word spells by the table's bits: none, since the table gives its rows no bits. -/
def decodeTableWord (_nbits _w : Nat) : Option Instr := none

end Sys2Proof
end

