-- ==== Sys2Proof/Config.lean ====
section
/-! DEFINITION. What the spec leaves to the implementation or to an external standard: constants
without a body, so that no proof can rest on a value of them. -/

namespace Sys2Proof.Config

/-- SLH-DSA-SHAKE-256s verification (R74, R348): public key, message, signature. FIPS 205 is not part
of the spec, so its verdict is left uninterpreted (log 7). PRESUMED, safe. -/
opaque slhDsaVerify : List Byte → List Byte → List Byte → Bool

/-- The SLH-DSA-SHAKE-256f signature that the attestation key makes over a quote body (R369): the
private part never leaves the management die. Free value, log 7. -/
opaque slhDsaSign : List Byte → List Byte

/-- A value the spec leaves open, numbered by the state's counter of such values (log 5). -/
opaque freeValue : Nat → BitVec 64

/-- R218's credits: how many packets the next router along an output can hold beyond those it forwards.
The spec gives no number; by site, direction. Free value, log 5. -/
opaque routerCredit : Nat → Nat → Nat

/-- The number that payload bits 3:0 of code 0x6010 give each kind of spared unit (R315 names the kinds
and numbers none): 0 bank, 1 slice, 2 lane, 3 PLL, 4 regulator phase, 5 HBM3E repair. Free value, log 5. -/
opaque unitKind : Nat → BitVec 4

/-- The code of the Belfry record of a configuration change (R36, R93): the spec names none. Free value, log 11. -/
opaque configCode : Nat

/-- The step size of a continuous parcel that no drain configuration converts (R112 gives none): by the first bytes of
the plan's digest and the parcel. Free value, log 19. -/
opaque stepSize : Nat → Nat → BitVec 32

/-- The bias that a Potts unary block's table gives a fill that is no Potts pass (R158 gives none): by block and lane,
in units of 2^−298. Free value, log 30. -/
opaque tableBias : Nat → Nat → Int

end Sys2Proof.Config
end

