-- ==== Sys2Proof/Machine/Crc.lean ====
section
/-! DEFINITION. The four check-value polynomials of R234 and shift-combining (R235). -/

namespace Sys2Proof.Machine

/-- One row of the table of R234. -/
structure CrcSpec where
  width : Nat
  poly : Nat
  init : Nat
  reflect : Bool
  xorout : Nat
  deriving DecidableEq, Repr

/-- POLY 0. -/
def crc32c : CrcSpec := ⟨32, 0x1EDC6F41, 0xFFFFFFFF, true, 0xFFFFFFFF⟩
/-- POLY 1. -/
def crc32ieee : CrcSpec := ⟨32, 0x04C11DB7, 0xFFFFFFFF, true, 0xFFFFFFFF⟩
/-- POLY 2. -/
def crc64ecma : CrcSpec := ⟨64, 0x42F0E1EBA9EA3693, 0, false, 0⟩
/-- POLY 3. -/
def crc16ccitt : CrcSpec := ⟨16, 0x1021, 0xFFFF, false, 0⟩

/-- The polynomial that a POLY code selects. -/
def crcOfPoly : Nat → CrcSpec
  | 0 => crc32c
  | 1 => crc32ieee
  | 2 => crc64ecma
  | _ => crc16ccitt

/-- The low `w` bits of `n` in reverse order. -/
def reflectBits (w n : Nat) : Nat :=
  (List.range w).foldl (fun acc i => acc * 2 + n / 2 ^ i % 2) 0

/-- One bit through the register, most significant bit first. -/
def crcShift (c : CrcSpec) (r : Nat) : Nat :=
  if r.testBit (c.width - 1) then Nat.xor (r * 2 % 2 ^ c.width) c.poly else r * 2 % 2 ^ c.width

/-- One byte through the register. -/
def crcByte (c : CrcSpec) (r : Nat) (b : Byte) : Nat :=
  let x := if c.reflect then reflectBits 8 b.toNat else b.toNat
  let r := Nat.xor r (x * 2 ^ (c.width - 8))
  (List.range 8).foldl (fun r _ => crcShift c r) r

/-- The register after a byte string, from a given register. -/
def crcRun (c : CrcSpec) (r : Nat) (bs : List Byte) : Nat := bs.foldl (crcByte c) r

/-- The value read from a register: reflected where the row says so, with XOROUT applied. -/
def crcOut (c : CrcSpec) (r : Nat) : Nat :=
  Nat.xor (if c.reflect then reflectBits c.width r else r) c.xorout

/-- The CRC of a byte string. -/
def crc (c : CrcSpec) (bs : List Byte) : Nat := crcOut c (crcRun c c.init bs)

/-- R235: the register after `A ‖ B`, from the registers of `A` and of `B` (each begun at INIT) and
the length of `B`: shifting through zeros is linear, so the INIT part of `B` is taken out first. -/
def crcCombine (c : CrcSpec) (ra rb lenB : Nat) : Nat :=
  Nat.xor (crcRun c (Nat.xor ra c.init) (zeros lenB)) rb

end Sys2Proof.Machine
end

