-- ==== Sys2Proof/Machine/Shake.lean ====
section
/-! DEFINITION. SHAKE256 (R73, R187, R260, R349, R368, R380): the extendable-output function of
FIPS 202, which the spec names and does not restate. PRESUMED from that standard, log 8. -/

namespace Sys2Proof.Machine

/-- The rotation of lane x + 5y in the ρ step. -/
def keccakRot : List Nat :=
  [0, 1, 62, 28, 27, 36, 44, 6, 55, 20, 3, 10, 43, 25, 39, 41, 45, 15, 21, 8, 18, 2, 61, 56, 14]

/-- The round constants of the ι step. -/
def keccakRC : List W64 :=
  [0x0000000000000001, 0x0000000000008082, 0x800000000000808A, 0x8000000080008000,
   0x000000000000808B, 0x0000000080000001, 0x8000000080008081, 0x8000000000008009,
   0x000000000000008A, 0x0000000000000088, 0x0000000080008009, 0x000000008000000A] ++
  [0x000000008000808B, 0x800000000000008B, 0x8000000000008089, 0x8000000000008003,
   0x8000000000008002, 0x8000000000000080, 0x000000000000800A, 0x800000008000000A,
   0x8000000080008081, 0x8000000000008080, 0x0000000080000001, 0x8000000080008008]

/-- One round of the permutation on 25 lanes. -/
def keccakRound (a : Array W64) (rc : W64) : Array W64 :=
  let g := fun (v : Array W64) i => v.getD i 0
  let c := (Array.range 5).map fun x =>
    g a x ^^^ g a (x + 5) ^^^ g a (x + 10) ^^^ g a (x + 15) ^^^ g a (x + 20)
  let d := (Array.range 5).map fun x => g c ((x + 4) % 5) ^^^ (g c ((x + 1) % 5)).rotateLeft 1
  let a := (Array.range 25).map fun i => g a i ^^^ g d (i % 5)
  -- lane (x, y) moves to (y, 2x + 3y): the lane at (X, Y) comes from x = X + 3Y, y = X
  let b := (Array.range 25).map fun i =>
    let x := (i % 5 + 3 * (i / 5)) % 5
    let j := x + 5 * (i % 5)
    (g a j).rotateLeft (keccakRot.getD j 0)
  let e := (Array.range 25).map fun i =>
    let y := 5 * (i / 5)
    g b i ^^^ ((~~~ g b (y + (i + 1 - y) % 5)) &&& g b (y + (i + 2 - y) % 5))
  e.setIfInBounds 0 (g e 0 ^^^ rc)

/-- Keccak-f[1600]. -/
def keccakF (a : Array W64) : Array W64 := keccakRC.foldl keccakRound a

/-- One 136-byte block XORed into the state, then permuted. -/
def keccakAbsorb (a : Array W64) (block : List Byte) : Array W64 :=
  keccakF ((Array.range 25).map fun i =>
    if i < 17 then a.getD i 0 ^^^ BitVec.ofNat 64 (fieldAt block (8 * i) 8) else a.getD i 0)

/-- The state after `n` blocks of a padded message. -/
def keccakBlocks (a : Array W64) (msg : List Byte) : Nat → Array W64
  | 0 => a
  | n + 1 => keccakBlocks (keccakAbsorb a (msg.take 136)) (msg.drop 136) n

/-- `n` output blocks of 136 bytes. -/
def keccakSqueeze (a : Array W64) : Nat → List Byte
  | 0 => []
  | n + 1 => (a.toList.take 17).flatMap (fun w => natLe w.toNat 8) ++ keccakSqueeze (keccakF a) n

/-- The message with the SHAKE domain bits and the pad of FIPS 202. -/
def shakePad (msg : List Byte) : List Byte :=
  let p := 136 - msg.length % 136
  if p = 1 then msg ++ [0x9F] else msg ++ [0x1F] ++ zeros (p - 2) ++ [0x80]

/-- SHAKE256 with `n` bytes of output. -/
def shake256 (msg : List Byte) (n : Nat) : List Byte :=
  let m := shakePad msg
  (keccakSqueeze (keccakBlocks (Array.replicate 25 0) m (m.length / 136)) (ceilDiv n 136)).take n

end Sys2Proof.Machine
end

