-- ==== Sys2Proof/Machine/Aes.lean ====
section
/-! DEFINITION. The expander's CTR_DRBG with AES-256 and no derivation function (R383), as SP 800-90A
and FIPS 197 define them. PRESUMED from those standards, log 8. -/

namespace Sys2Proof.Machine

/-- Multiplication by x in GF(2^8). -/
def aesXtime (b : Byte) : Byte := if b.msb then (b <<< 1) ^^^ 0x1B else b <<< 1

/-- Product in GF(2^8). -/
def aesMul (a b : Byte) : Byte :=
  ((List.range 8).foldl (fun (p : Byte × Byte) i =>
    (if b.getLsbD i then p.1 ^^^ p.2 else p.1, aesXtime p.2)) (0, a)).1

/-- a^254, the inverse in GF(2^8), 0 for 0. -/
def aesInv (a : Byte) : Byte :=
  let a2 := aesMul a a
  let a4 := aesMul a2 a2
  let a8 := aesMul a4 a4
  let a16 := aesMul a8 a8
  let a32 := aesMul a16 a16
  let a64 := aesMul a32 a32
  aesMul (aesMul (aesMul a64 a64) a64) (aesMul (aesMul a32 a16) (aesMul (aesMul a8 a4) a2))

/-- The S-box. -/
def aesSub (a : Byte) : Byte :=
  let b := aesInv a
  b ^^^ b.rotateLeft 1 ^^^ b.rotateLeft 2 ^^^ b.rotateLeft 3 ^^^ b.rotateLeft 4 ^^^ 0x63

/-- The 60 words of the AES-256 key schedule, as lists of 4 bytes, newest first. -/
def aesExpand (key : List Byte) : List (List Byte) :=
  let w0 := (List.range 8).map fun i => slice key (4 * i) 4
  ((List.range 52).foldl (fun (st : List (List Byte) × Byte) k =>
    let i := k + 8
    let prev := st.1.headD []
    let (t, rc) :=
      if i % 8 = 0 then
        let r := (prev.drop 1 ++ prev.take 1).map aesSub
        ((r.headD 0 ^^^ st.2) :: r.drop 1, aesXtime st.2)
      else if i % 8 = 4 then (prev.map aesSub, st.2)
      else (prev, st.2)
    (List.zipWith (· ^^^ ·) (st.1.getD 7 []) t :: st.1, rc)) (w0.reverse, 0x01)).1

/-- MixColumns on one column. -/
def aesMixCol (c : List Byte) : List Byte :=
  let g := fun i => c.getD (i % 4) 0
  (List.range 4).map fun i => aesXtime (g i) ^^^ (aesXtime (g (i + 1)) ^^^ g (i + 1)) ^^^ g (i + 2) ^^^ g (i + 3)

/-- ShiftRows on 16 bytes in column order. -/
def aesShiftRows (s : List Byte) : List Byte :=
  (List.range 16).map fun i => s.getD ((i + 4 * (i % 4)) % 16) 0

/-- AES-256 encryption of one block. -/
def aes256 (key block : List Byte) : List Byte :=
  let ws := (aesExpand key).reverse
  let rk := fun r => ((ws.drop (4 * r)).take 4).flatten
  let add := List.zipWith (fun a b : Byte => a ^^^ b)
  let s := (List.range 13).foldl (fun s r =>
    let s := aesShiftRows (s.map aesSub)
    let s := ((List.range 4).map fun c => aesMixCol (slice s (4 * c) 4)).flatten
    add s (rk (r + 1))) (add block (rk 0))
  add (aesShiftRows (s.map aesSub)) (rk 14)

/-- The working state of the DRBG: Key (32 bytes) and V (16 bytes, big-endian counter). -/
structure Drbg where
  key : List Byte
  v : List Byte
  deriving DecidableEq, Repr

/-- V + 1, big-endian, modulo 2^128. -/
def drbgInc (v : List Byte) : List Byte := (natLe (leNat v.reverse + 1) 16).reverse

/-- `n` output blocks and the V after them. -/
def drbgBlocks (key v : List Byte) : Nat → List Byte × List Byte
  | 0 => ([], v)
  | n + 1 =>
    let v := drbgInc v
    let (r, v') := drbgBlocks key v n
    (aes256 key v ++ r, v')

/-- CTR_DRBG_Update with 48 bytes of provided data. -/
def Drbg.update (d : Drbg) (data : List Byte) : Drbg :=
  let t := List.zipWith (fun a b : Byte => a ^^^ b) ((drbgBlocks d.key d.v 3).1.take 48) data
  ⟨t.take 32, t.drop 32⟩

/-- Instantiation from 384 bits of entropy, with no personalisation string. -/
def Drbg.instantiate (entropy : List Byte) : Drbg := Drbg.update ⟨zeros 32, zeros 16⟩ entropy

/-- A reseed from 384 bits, with no additional input. -/
def Drbg.reseed (d : Drbg) (entropy : List Byte) : Drbg := d.update entropy

/-- One Generate call of 512 bits: the 8 words (little-endian in the order of the bytes) and the new
state. -/
def Drbg.generate (d : Drbg) : List W64 × Drbg :=
  let (out, v) := drbgBlocks d.key d.v 4
  ((List.range 8).map fun i => BitVec.ofNat 64 (fieldAt out (8 * i) 8),
   Drbg.update ⟨d.key, v⟩ (zeros 48))

end Sys2Proof.Machine
end

