-- ==== Sys2Proof/Machine/Flt.lean ====
section
/-! DEFINITION. Floating formats (R66, R81, R142), exact values, and the one rounding of an exact
value to a format (R96, R160, R162). Arithmetic is exact on rationals and narrowed once. -/

namespace Sys2Proof.Machine

/-- A binary floating format: exponent bits, significand bits, bias, the largest exponent field that
holds finite values with its largest significand, and whether it has infinities. -/
structure Fmt where
  expBits : Nat
  manBits : Nat
  bias : Nat
  hasInf : Bool
  deriving DecidableEq, Repr

def fp32 : Fmt := ⟨8, 23, 127, true⟩
def fp64 : Fmt := ⟨11, 52, 1023, true⟩
def fp16 : Fmt := ⟨5, 10, 15, true⟩
def bf16 : Fmt := ⟨8, 7, 127, true⟩
def fpE5M2 : Fmt := ⟨5, 2, 15, true⟩
/-- OCP E4M3: no infinities; only S.1111.111 is NaN. -/
def fpE4M3 : Fmt := ⟨4, 3, 7, false⟩

/-- An exact extended value. -/
inductive XVal where
  | fin (q : Rat)
  | inf (neg : Bool)
  | nan
  deriving DecidableEq, Repr

/-- 2^e for an integer exponent. -/
def pow2 (e : Int) : Rat := if 0 ≤ e then (2 ^ e.toNat : Nat) else 1 / ((2 ^ (-e).toNat : Nat) : Rat)

/-- Width in bits. -/
def Fmt.width (f : Fmt) : Nat := 1 + f.expBits + f.manBits

/-- The sign bit of an encoding. -/
def Fmt.sign (f : Fmt) (b : Nat) : Bool := b.testBit (f.expBits + f.manBits)

/-- The value an encoding stands for. -/
def Fmt.decode (f : Fmt) (b : Nat) : XVal :=
  let e := bitsOf b f.manBits f.expBits
  let m := bitsOf b 0 f.manBits
  let top := 2 ^ f.expBits - 1
  let sg : Rat := if f.sign b then -1 else 1
  if e = top ∧ f.hasInf then (if m = 0 then .inf (f.sign b) else .nan)
  else if e = top ∧ m = 2 ^ f.manBits - 1 then .nan
  else if e = 0 then .fin (sg * m * pow2 (1 - f.bias - f.manBits))
  else .fin (sg * (2 ^ f.manBits + m : Nat) * pow2 ((e : Int) - f.bias - f.manBits))

/-- The encoding is finite. -/
def Fmt.isFinite (f : Fmt) (b : Nat) : Bool :=
  match f.decode b with | .fin _ => true | _ => false

/-- The largest finite magnitude. -/
def Fmt.maxFinite (f : Fmt) : Rat :=
  if f.hasInf then (2 ^ (f.manBits + 1) - 1 : Nat) * pow2 ((2 ^ f.expBits - 2 : Nat) - (f.bias : Int) - f.manBits)
  else (2 ^ (f.manBits + 1) - 2 : Nat) * pow2 ((2 ^ f.expBits - 1 : Nat) - (f.bias : Int) - f.manBits)

/-- The encoding of an infinity of a sign; the largest finite value where the format has none. -/
def Fmt.infBits (f : Fmt) (neg : Bool) : Nat :=
  (if neg then 2 ^ (f.expBits + f.manBits) else 0) +
    (if f.hasInf then (2 ^ f.expBits - 1) * 2 ^ f.manBits else 2 ^ (f.expBits + f.manBits) - 2)

/-- The encoding of the largest finite value of a sign. -/
def Fmt.maxBits (f : Fmt) (neg : Bool) : Nat :=
  (if neg then 2 ^ (f.expBits + f.manBits) else 0) +
    (if f.hasInf then (2 ^ f.expBits - 1) * 2 ^ f.manBits - 1 else 2 ^ (f.expBits + f.manBits) - 2)

/-- The canonical quiet NaN (R160: 0x7F for E4M3). -/
def Fmt.nanBits (f : Fmt) : Nat :=
  if f.hasInf then (2 ^ f.expBits - 1) * 2 ^ f.manBits + 2 ^ (f.manBits - 1)
  else 2 ^ (f.expBits + f.manBits) - 1

/-- ⌊log2 a⌋ for a positive rational. -/
def floorLog2 (a : Rat) : Int :=
  let k : Int := (a.num.natAbs.log2 : Int) - a.den.log2
  if pow2 k ≤ a then (if pow2 (k + 1) ≤ a then k + 1 else k) else k - 1

/-- Rounding modes of stage 4 (R81 ROUND, R161: stochastic with its word). -/
inductive RMode where
  | rne
  | rtz
  | sto (u : Nat)
  deriving DecidableEq, Repr

/-- A non-negative exact multiple rounded to an integer; `neg` tells the sign it carries, which
stochastic rounding needs (R161 rounds between adjacent values in ascending order). -/
def roundNat (mode : RMode) (neg : Bool) (x : Rat) : Nat :=
  let lo := x.floor.toNat
  let fr := x - lo
  if fr = 0 then lo
  else match mode with
    | .rtz => lo
    | .rne => if fr < 1 / 2 then lo else if 1 / 2 < fr then lo + 1 else lo + lo % 2
    | .sto u =>
      -- R161: r = ⌊(Y − a) × 2^32 / (b − a)⌋ with a the lower neighbour of the signed value
      let up := if neg then 1 - fr else fr
      let toB := decide (u < (up * 2 ^ 32).floor.toNat)
      if toB = neg then lo else lo + 1

/-- The exponent of the unit in the last place of the format at magnitude `a`. -/
def Fmt.ulpExp (f : Fmt) (a : Rat) : Int := max (floorLog2 a) (1 - f.bias) - f.manBits

/-- The result of one rounding with unbounded exponent: its magnitude and the encoding it has when it
lies in the finite range. -/
def Fmt.roundMag (f : Fmt) (mode : RMode) (q : Rat) : Rat × Nat :=
  let a := |q|
  if a = 0 then (0, 0)
  else
    let u := f.ulpExp a
    let m := roundNat mode (q < 0) (a / pow2 u)
    -- m ≤ 2^(man+1); the encoding of m·2^u: carries of the significand move into the exponent
    (m * pow2 u, if m < 2 ^ f.manBits then m
      else ((u + f.manBits + f.bias).toNat - 1) * 2 ^ f.manBits + m)

/-- R162: the rounded magnitude lies outside the finite range. -/
def Fmt.overflows (f : Fmt) (mode : RMode) (q : Rat) : Bool := f.maxFinite < (f.roundMag mode q).1

/-- One rounding of a finite exact value; beyond the range, an infinity of its sign (the largest
finite value under toward-zero rounding is the caller's business, R162). A zero result is +0 unless
the exact value was negative and underflowed, where `keepNeg` says to keep the sign. -/
def Fmt.round (f : Fmt) (mode : RMode) (q : Rat) (keepNeg : Bool := true) : Nat :=
  let (mag, enc) := f.roundMag mode q
  let neg := decide (q < 0)
  if f.maxFinite < mag then f.infBits neg
  else if mag = 0 then (if keepNeg && neg then 2 ^ (f.expBits + f.manBits) else 0)
  else (if neg then 2 ^ (f.expBits + f.manBits) else 0) + enc

/-- RN32 of a finite exact value. -/
def rn32 (q : Rat) : W32 := BitVec.ofNat 32 (fp32.round .rne q)

/-- The exact value of an FP32 encoding. -/
def val32 (x : W32) : XVal := fp32.decode x.toNat

/-- The exact value of a finite FP32 encoding, 0 for the others. -/
def rat32 (x : W32) : Rat := match val32 x with | .fin q => q | _ => 0

def isFinite32 (x : W32) : Bool := fp32.isFinite x.toNat

def nan32 : W32 := 0x7FC00000
def inf32 (neg : Bool) : W32 := if neg then 0xFF800000 else 0x7F800000
def neg32 (x : W32) : W32 := x ^^^ 0x80000000

/-- IEEE 754 results under rounding to nearest, ties to even. `zneg` is the sign of an exact zero. -/
def finish (f : Fmt) (zneg : Bool) : XVal → Nat
  | .nan => f.nanBits
  | .inf n => f.infBits n
  | .fin q => if q = 0 then (if zneg then 2 ^ (f.expBits + f.manBits) else 0) else f.round .rne q

/-- Sum of extended values; opposite infinities give NaN. -/
def XVal.add : XVal → XVal → XVal
  | .nan, _ | _, .nan => .nan
  | .inf a, .inf b => if a = b then .inf a else .nan
  | .inf a, _ | _, .inf a => .inf a
  | .fin a, .fin b => .fin (a + b)

/-- Product of extended values with their signs; infinity × 0 gives NaN. -/
def XVal.mul (sa sb : Bool) : XVal → XVal → XVal
  | .nan, _ | _, .nan => .nan
  | .inf _, .inf _ => .inf (sa != sb)
  | .inf _, .fin b | .fin b, .inf _ => if b = 0 then .nan else .inf (sa != sb)
  | .fin a, .fin b => .fin (a * b)

/-- a + b in a format. -/
def fAdd (f : Fmt) (a b : Nat) : Nat :=
  finish f (f.sign a && f.sign b) ((f.decode a).add (f.decode b))

/-- a × b in a format. -/
def fMul (f : Fmt) (a b : Nat) : Nat :=
  finish f (f.sign a != f.sign b) (XVal.mul (f.sign a) (f.sign b) (f.decode a) (f.decode b))

/-- a × b + c with one rounding. -/
def fFma (f : Fmt) (a b c : Nat) : Nat :=
  let p := XVal.mul (f.sign a) (f.sign b) (f.decode a) (f.decode b)
  let sp := f.sign a != f.sign b
  finish f (sp && f.sign c) (p.add (f.decode c))

/-- a / b in a format: x/0 is an infinity, 0/0 and ∞/∞ are NaN, x/∞ is 0. -/
def fDiv (f : Fmt) (a b : Nat) : Nat :=
  let s := f.sign a != f.sign b
  match f.decode a, f.decode b with
  | .nan, _ | _, .nan | .inf _, .inf _ => f.nanBits
  | .inf _, .fin _ => f.infBits s
  | .fin _, .inf _ => finish f s (.fin 0)
  | .fin x, .fin y =>
    if y = 0 then (if x = 0 then f.nanBits else f.infBits s) else finish f s (.fin (x / y))

/-- The square root of a non-negative rational rounded to nearest even in a format: the integer root
of a scaled value with a sticky bit decides every rounding. -/
def sqrtRound (f : Fmt) (q : Rat) : Nat :=
  let e := floorLog2 q
  let k : Int := 2 * (f.manBits + 3) + 2 - (if e % 2 = 0 then e else e - 1)
  let x := q * pow2 k
  let n := x.floor.toNat
  let r := Nat.sqrt n
  let v : Rat := if (r * r : Nat) = x then r else r + 1 / 2
  f.round .rne (v * pow2 (-(k / 2)))

/-- √a in a format; a negative operand gives NaN, −0 gives −0. -/
def fSqrt (f : Fmt) (a : Nat) : Nat :=
  match f.decode a with
  | .nan => f.nanBits
  | .inf n => if n then f.nanBits else f.infBits false
  | .fin q => if q = 0 then a else if q < 0 then f.nanBits else sqrtRound f q

def add32 (a b : W32) : W32 := BitVec.ofNat 32 (fAdd fp32 a.toNat b.toNat)
def sub32 (a b : W32) : W32 := add32 a (neg32 b)
def mul32 (a b : W32) : W32 := BitVec.ofNat 32 (fMul fp32 a.toNat b.toNat)
def fma32 (a b c : W32) : W32 := BitVec.ofNat 32 (fFma fp32 a.toNat b.toNat c.toNat)
def div32 (a b : W32) : W32 := BitVec.ofNat 32 (fDiv fp32 a.toNat b.toNat)
def sqrt32 (a : W32) : W32 := BitVec.ofNat 32 (fSqrt fp32 a.toNat)

/-- Numeric order of extended values: a < b, false where either is NaN. -/
def XVal.lt : XVal → XVal → Bool
  | .nan, _ | _, .nan => false
  | .inf a, .inf b => a && !b
  | .inf a, .fin _ => a
  | .fin _, .inf b => !b
  | .fin a, .fin b => a < b

/-- a ≤ b, false where either is NaN. -/
def XVal.le : XVal → XVal → Bool
  | .nan, _ | _, .nan => false
  | a, b => !(b.lt a)

def lt32 (a b : W32) : Bool := (val32 a).lt (val32 b)
def le32 (a b : W32) : Bool := (val32 a).le (val32 b)

/-- R96: one rounding to FP32 of the exact product of extended factors. A zero factor gives +0 even
beside an infinity; otherwise an infinite factor gives an infinity of the product's sign. NaN
factors are the caller's to replace. -/
def prod32 (fs : List XVal) : W32 :=
  if fs.any (· == .fin 0) then 0
  else
    let neg := fs.foldl (fun n x => n != (match x with | .fin q => decide (q < 0) | .inf s => s | .nan => false)) false
    if fs.any (fun x => match x with | .inf _ => true | _ => false) then inf32 neg
    else rn32 (fs.foldl (fun p x => match x with | .fin q => p * q | _ => p) 1)

end Sys2Proof.Machine
end

