-- ==== Sys2Proof/Machine/Reals.lean ====
section
/-! DEFINITION. The transcendental functions behind the ROM tables of R100 and R199, as enclosures of
the exact real value by two rationals at a chosen precision, and the correctly rounded value found
by widening the precision until both ends round alike. The ROM "holds exactly these values", so the
tables are these definitions and no list of numbers. -/

namespace Sys2Proof.Machine

/-- An enclosure of a real number. -/
structure Encl where
  lo : Rat
  hi : Rat
  deriving DecidableEq, Repr

/-- ⌊x × 2^p⌋. -/
def fixFloor (p : Nat) (x : Rat) : Int := (x * (2 ^ p : Nat)).floor

/-- Σ_{i<n} y^(2i+1)/(2i+1) in fixed point of `p` bits; `t` holds the running power. -/
def atanhSum (p : Nat) (y2 : Int) : Nat → Int → Nat → Int
  | 0, _, _ => 0
  | n + 1, t, k => t / (k : Int) + atanhSum p y2 n (t * y2 / (2 ^ p : Nat)) (k + 2)

/-- ln of a rational in [1, 2), times 2^p, within `p²` units. -/
def lnMantissa (p : Nat) (m : Rat) : Int :=
  let y := fixFloor p ((m - 1) / (m + 1))
  2 * atanhSum p (y * y / (2 ^ p : Nat)) p y 1

/-- An enclosure of ln x for x > 0 (log 10 gives the error bound). -/
def lnEncl (p : Nat) (x : Rat) : Encl :=
  let k := floorLog2 x
  -- ln 2 = 2 atanh(1/3)
  let ln2 := lnMantissa p (4 / 3) + lnMantissa p (3 / 2)
  let v := lnMantissa p (x / pow2 k) + k * ln2
  let e : Int := (1 + k.natAbs) * (8 * p * p : Nat) + 8
  ⟨(v - e : Int) / ((2 ^ p : Nat) : Rat), (v + e : Int) / ((2 ^ p : Nat) : Rat)⟩

/-- Σ_{i<n} x^i/i! in fixed point. -/
def expSum (p : Nat) (x : Int) : Nat → Int → Nat → Int
  | 0, _, _ => 0
  | n + 1, t, k => t + expSum p x n (t * x / (2 ^ p : Nat) / (k : Int)) (k + 1)

/-- An enclosure of e^x for |x| ≤ 64: 2^-8-scaled argument, Taylor sum, eight squarings. -/
def expEncl (p : Nat) (x : Rat) : Encl :=
  let y := fixFloor p (x / 256)
  let s := expSum p y (p / 2 + 8) (2 ^ p : Nat) 1
  let e : Int := (p + 16 : Nat)
  let sq := fun (a : Int) => a * a / (2 ^ p : Nat)
  let lo := (List.range 8).foldl (fun a _ => sq a - 1) (s - e)
  let hi := (List.range 8).foldl (fun a _ => sq a + 2) (s + e)
  ⟨(lo : Rat) / (2 ^ p : Nat), (hi : Rat) / (2 ^ p : Nat)⟩

/-- atan(1/n) in fixed point (alternating series). -/
def atanInvSum (n2 : Int) : Nat → Int → Nat → Int → Int
  | 0, _, _, _ => 0
  | i + 1, t, k, s => s * (t / (k : Int)) + atanInvSum n2 i (t / n2) (k + 2) (-s)

/-- π × 2^p, within `p` + 64 units (Machin's formula). -/
def piFix (p : Nat) : Int :=
  let one : Int := (2 ^ p : Nat)
  4 * (4 * atanInvSum 25 p (one / 5) 1 1 - atanInvSum (239 * 239) p (one / 239) 1 1)

/-- Σ_{i<n} x^(2i+1)/(1·3·…·(2i+1)) in fixed point. -/
def phiSum (p : Nat) (x2 : Int) : Nat → Int → Nat → Int
  | 0, _, _ => 0
  | n + 1, t, k => t + phiSum p x2 n (t * x2 / (2 ^ p : Nat) / (k + 2 : Nat)) (k + 2)

/-- Φ(−x) × 2^p for a fixed-point x ≥ 0 of at most 7, approximately: 1/2 − φ(x)·Σ. -/
def phiNegFix (p : Nat) (x : Int) : Int :=
  let one : Int := (2 ^ p : Nat)
  let s := phiSum p (x * x / one) (2 * p) x 1
  let xr : Rat := (x : Rat) / one
  let ex := fixFloor p (expEncl p (-(xr * xr) / 2)).lo
  let root : Int := Nat.sqrt ((2 * piFix p * one).toNat)
  one / 2 - s * ex / root

/-- Bisection for the x ≥ 0 with Φ(−x) = v, in fixed point. -/
def phiInvBisect (p : Nat) (v : Int) : Nat → Int → Int → Int
  | 0, lo, _ => lo
  | n + 1, lo, hi =>
    let mid := (lo + hi) / 2
    if v < phiNegFix p mid then phiInvBisect p v n mid hi else phiInvBisect p v n lo mid

/-- An enclosure of Φ^−1(v) for 2^−33 ≤ v ≤ 1/2. Φ' is at least 2^−30 there, so an error of 2^(p/4)
units in Φ moves the root by less than 2^(p/4 + 32) units. -/
def phiInvEncl (p : Nat) (v : Rat) : Encl :=
  let one : Rat := (2 ^ p : Nat)
  let x := phiInvBisect p (fixFloor p v) (p + 8) 0 (7 * 2 ^ p : Nat)
  let e : Int := (2 ^ (p / 4 + 32) : Nat)
  ⟨-((x + e : Int) : Rat) / one, -((x - e : Int) : Rat) / one⟩

/-- The exact value rounded once: the precision doubles until both ends of the enclosure round alike
(R199: "the exact value rounded once to nearest"). -/
def roundEncl (f : Nat → Encl) (r : Rat → Nat) : Nat → Nat → Nat
  | 0, p => r (f p).lo
  | n + 1, p => let e := f p; if r e.lo = r e.hi then r e.lo else roundEncl f r n (2 * p)

/-- Round half to even of a non-negative rational. -/
def roundHalfEven (x : Rat) : Nat := roundNat .rne false x

/-- R100: T[k] = round-half-even(2^32 × σ(−16 + k/128)). -/
def sigmoidRom (k : Nat) : Nat :=
  if k = 2048 then 2 ^ 31
  else roundEncl (fun p =>
      let e := expEncl p (16 - (k : Rat) / 128)
      ⟨(2 ^ 32 : Nat) / (1 + e.hi), (2 ^ 32 : Nat) / (1 + e.lo)⟩) roundHalfEven 4 256

/-- Monotone image of an enclosure under x ↦ −ln x. -/
def negLnEncl (p : Nat) (e : Encl) : Encl := ⟨-(lnEncl p e.hi).hi, -(lnEncl p e.lo).lo⟩

/-- The distributions of R198 that use tables. -/
inductive TableDist where
  | logistic
  | gaussian
  | gumbel
  | exponential
  deriving DecidableEq, Repr

/-- R200: the half-functions at a node v, half 0 or 1. An exact zero (v = 1/2 of the symmetric ones)
is returned as a point. -/
def halfFn (d : TableDist) (hi : Bool) (p : Nat) (v : Rat) : Encl :=
  match d with
  | .logistic =>
    if v = 1 / 2 then ⟨0, 0⟩
    else if hi then lnEncl p ((1 - v) / v) else let e := lnEncl p ((1 - v) / v); ⟨-e.hi, -e.lo⟩
  | .gaussian =>
    if v = 1 / 2 then ⟨0, 0⟩
    else if hi then let e := phiInvEncl p v; ⟨-e.hi, -e.lo⟩ else phiInvEncl p v
  | .gumbel => if hi then negLnEncl p (negLnEncl p ⟨1 - v, 1 - v⟩) else negLnEncl p (negLnEncl p ⟨v, v⟩)
  | .exponential => if hi then negLnEncl p ⟨v, v⟩ else negLnEncl p ⟨1 - v, 1 - v⟩

/-- R199: the node v(e, j). -/
def tableNode (e j : Nat) : Rat := (128 + j : Nat) / ((2 ^ (e + 8) : Nat) : Rat)

/-- R199: B[q] of octave e, segment j. -/
def tableB (d : TableDist) (hi : Bool) (e j : Nat) : W32 :=
  BitVec.ofNat 32 (roundEncl (fun p => halfFn d hi p (tableNode e j)) (fun q => fp32.round .rne q) 3 256)

/-- R199: D[q] = RN32(g(v(e, j + 1)) − B[q]). -/
def tableD (d : TableDist) (hi : Bool) (e j : Nat) : W32 :=
  let b := rat32 (tableB d hi e j)
  BitVec.ofNat 32 (roundEncl (fun p =>
      let g := halfFn d hi p (tableNode e (j + 1)); ⟨g.lo - b, g.hi - b⟩)
    (fun q => fp32.round .rne q) 3 256)

/-- R199: one draw from a word. -/
def tableDraw (d : TableDist) (u : Nat) : W32 :=
  let hi := decide (2 ^ 31 ≤ u)
  let n := if hi then 2 ^ 32 - 1 - u else u
  let m := 2 * n + 1
  let b := m.log2 + 1
  let e := 33 - b
  let j := if 8 ≤ b then m / 2 ^ (b - 8) % 128 else m * 2 ^ (8 - b) % 128
  let f : Rat := if 8 ≤ b then (m % 2 ^ (b - 8) : Nat) / ((2 ^ (b - 8) : Nat) : Rat) else 0
  rn32 (rat32 (tableB d hi e j) + rat32 (tableD d hi e j) * f)

/-- R100: P32. -/
def p32 (t : W32) : Nat :=
  match val32 t with
  | .nan => 0
  | .inf neg => if neg then 0 else 2 ^ 32
  | .fin q =>
    if q ≤ -16 then 0
    else if 16 ≤ q then 2 ^ 32
    else
      let w := ((q + 16) * (2 ^ 23 : Nat)).floor.toNat
      let k := w / 65536
      let f := w % 65536
      sigmoidRom k + (sigmoidRom (k + 1) - sigmoidRom k) * f / 65536

end Sys2Proof.Machine
end

