-- ==== Sys2Proof/Machine/Streams.lean ====
section
/-! DEFINITION. The lane generator, the polynomial ROM, seeding, jump-ahead and keyed words
(R183 to R187, R192, R195, R196), and the draws of R198. -/

namespace Sys2Proof.Machine

/-- s × x mod p, p given by its low 128 coefficients (R183). -/
def gfMulX (p s : W128) : W128 := if s.msb then (s <<< 1) ^^^ p else s <<< 1

/-- s × x^n mod p. -/
def gfMulXn (p : W128) : Nat → W128 → W128
  | 0, s => s
  | n + 1, s => gfMulXn p n (gfMulX p s)

/-- a × b mod p, taking the bits of b from bit n − 1 down. -/
def gfMulGo (p a b : W128) : Nat → W128 → W128
  | 0, acc => acc
  | n + 1, acc =>
    let acc := gfMulX p acc
    gfMulGo p a b n (if b.getLsbD n then acc ^^^ a else acc)

/-- a × b mod p. -/
def gfMul (p a b : W128) : W128 := gfMulGo p a b 128 0

/-- r × a^n mod p by squaring; `fuel` bounds the bit length of n. -/
def gfPowGo (p : W128) : Nat → W128 → W128 → Nat → W128
  | 0, r, _, _ => r
  | fuel + 1, r, a, n =>
    if n = 0 then r
    else gfPowGo p fuel (if n % 2 = 1 then gfMul p r a else r) (gfMul p a a) (n / 2)

/-- a^n mod p. -/
def gfPow (p a : W128) (n : Nat) : W128 := gfPowGo p (n.log2 + 1) 1 a n

/-- The prime factors of 2^128 − 1. -/
def order128Primes : List Nat :=
  [3, 5, 17, 257, 641, 65537, 274177, 6700417, 67280421310721]

/-- R183: x has order exactly 2^128 − 1 modulo x^128 + c. -/
def isPrimitive (c : W128) : Bool :=
  gfPow c 2 (2 ^ 128 - 1) == 1 && order128Primes.all fun q => gfPow c 2 ((2 ^ 128 - 1) / q) != 1

/-- The (k + 1)-th smallest primitive c at or above a start. -/
def polySearch : Nat → Nat → Nat → W128
  | 0, c, _ => BitVec.ofNat 128 c
  | fuel + 1, c, k =>
    if isPrimitive (BitVec.ofNat 128 c) then
      (if k = 0 then BitVec.ofNat 128 c else polySearch fuel (c + 1) (k - 1))
    else polySearch fuel (c + 1) k

/-- R183: ROM entry k. The search ends far below its bound: about one c in 256 is primitive. -/
def polyRom (k : Nat) : W128 := polySearch (2 ^ 40) 1 k

/-- R183: the polynomial index of a stream id. -/
def polyIndex (id : Nat) : Nat := id % 65536

/-- R185: the output mixer. -/
def mixer (s : W128) : W32 :=
  let a := s.extractLsb' 0 32
  let b := s.extractLsb' 32 32
  let c := s.extractLsb' 64 32
  let d := s.extractLsb' 96 32
  let z := a + d.rotateLeft 9
  let z := z ^^^ b.rotateLeft 17
  let z := z * 0x2C1B3C6D
  let z := z ^^^ (z >>> 15)
  let z := z + c
  let z := z * 0x297A2D39
  z ^^^ (z >>> 16)

/-- R184: the state after one word; the word is the mixer of the new state. -/
def streamNext (p s : W128) : W128 := gfMulXn p 32 s

/-- R186: the keyed word of a base state and a key. -/
def keyedWord (p s key : W128) : W32 :=
  let z := s ^^^ key
  mixer (gfMulXn p 128 (if z = 0 then 1 else z))

/-- R192: the state after n further words. -/
def streamJump (p s : W128) (n : Nat) : W128 := gfMul p s (gfPow p (gfMulXn p 32 1) n)

/-- The first 16 bytes of SHAKE256, little-endian, with 0 replaced by 1 (R187, R196). -/
def seedState (msg : List Byte) : W128 :=
  let s := BitVec.ofNat 128 (leNat (shake256 msg 16))
  if s = 0 then 1 else s

/-- R187: the initial state of stream `id` under a seed. -/
def streamInit (seed : W64) (id : Nat) : W128 := seedState (natLe seed.toNat 8 ++ natLe id 6)

/-- R196: the base state of a row. -/
def rowInit (seed : W64) (row : Nat) : W128 :=
  seedState (natLe seed.toNat 8 ++ [0x52] ++ natLe row 8)

/-- R196: the Gumbel draw of entry `e` of a row. -/
def rowGumbel (seed : W64) (row e : Nat) : W32 :=
  tableDraw .gumbel (keyedWord (polyRom (polyIndex row)) (rowInit seed row) (BitVec.ofNat 128 e)).toNat

/-- R195: the key of a stochastically rounded element. -/
def roundKey (w index pass chain : Nat) (isElement : Bool) (column : Nat) : W128 :=
  BitVec.ofNat 128 (w % 2 ^ 48 + index % 2 ^ 40 * 2 ^ 48 + pass % 8 * 2 ^ 88 + chain % 256 * 2 ^ 91 +
    (if isElement then 2 ^ 99 else 0) + column % 64 * 2 ^ 100)

/-- A stream as the device holds it (R184, R193): id, state and words drawn. -/
structure Stream where
  id : Nat
  state : W128
  drawn : Nat
  deriving DecidableEq, Repr

/-- R184: one word from a stream. -/
def Stream.draw (s : Stream) : W32 × Stream :=
  let st := streamNext (polyRom (polyIndex s.id)) s.state
  (mixer st, ⟨s.id, st, s.drawn + 1⟩)

/-- `n` words drawn and discarded. -/
def Stream.skip (s : Stream) (n : Nat) : Stream :=
  ⟨s.id, streamJump (polyRom (polyIndex s.id)) s.state n, s.drawn + n⟩

/-- R192: the stream `id` seeded and moved to `n` words. -/
def Stream.seeded (seed : W64) (id n : Nat) : Stream :=
  ⟨id, streamJump (polyRom (polyIndex id)) (streamInit seed id) n, n⟩

end Sys2Proof.Machine
end

