-- ==== Sys2Proof/Machine/State.lean ====
section
/-! DEFINITION. The state of the block, as plain data: every register of R428, and every piece of
state behind them that the chapters give the device. The value of each field at reset stands in its
structure's `reset` definition; values the spec does not give are named in the assumption log. -/

namespace Sys2Proof.Machine

/-! ## Identity, fuses and MRAM (R16 to R18, R279, R295, R345 to R348, R389, R393) -/

/-- What fuses, OTP and straps hold and no reset changes (log 3). Lifecycle state, pairs used and the Fuse
Tally counters live in SEC_LIFECYCLE, SEC_COUNTS and BELFRY_TALLY, which read them. -/
structure Fuse where
  serial : Nat
  romDigest : List Byte
  rootKey : List Byte
  /-- Row by row, the columns of the three fused spare M-sites (R17). -/
  spareCols : List (List Nat)
  /-- Sites marked unused on KZ-DJ1-S (R18). -/
  unused : List Nat
  /-- The fused security version (R371), of which SEC_FW shows bits 15:0. -/
  svn : Nat
  /-- The grade and options of the part, as DEV_GRADE shows them (R3, R32), and its stepping. -/
  part : Nat
  stepping : Nat
  /-- ADDR_SEL1 and ADDR_SEL0 of connector P2 (R331, R340). -/
  addrSel : Nat
  deriving DecidableEq, Repr

/-- A key slot of R348. -/
structure KeySlot where
  slot : Nat
  id : Nat
  roles : Nat
  key : List Byte
  deriving DecidableEq, Repr

/-- A copy of the field spare map: sites declared failed, with SPARE_MAP.REASON, and sites re-qualified (R295). -/
structure FieldMap where
  failed : List (Nat × Nat)
  requal : List Nat
  deriving DecidableEq, Repr

/-- What the management die's MRAM and flash hold through every reset. POWER_CYCLES, TOTAL,
FIRST_COUNT and LAST_COUNT live in BELFRY_TALLY, BELFRY_TOTAL and BELFRY_STAT, which read them. -/
structure Mram where
  /-- The two copies of the field spare map. -/
  mapA : FieldMap
  mapB : FieldMap
  keys : List KeySlot
  attestKey : List Byte
  cert : List Byte
  scrapCount : Nat
  hours : Nat
  /-- Belfry's areas FIRST and LAST in copies 0 and 1, oldest record first (R393). -/
  first0 : List (List Byte)
  first1 : List (List Byte)
  last0 : List (List Byte)
  last1 : List (List Byte)
  /-- The DMC image in flash (R370 to R372). -/
  image : List Byte
  /-- The FSEQ that numbering continues from after a clear of user secrets (R347). -/
  fseq : Nat
  deriving DecidableEq, Repr

/-! ## Step time (chapter 02) -/

/-- A mark received or generated and not yet applied (R46, R53). -/
structure Mark where
  isPhase : Bool
  step : Nat
  phase : Nat
  phasesLog2 : Nat
  strideLog2 : Nat
  period : Nat
  acc : Nat
  dTotal : Nat
  holdover : Bool
  applyAt : Nat
  fromLink : Bool
  deriving DecidableEq, Repr

/-- The anchor of interpolation (R43): phase `m` of the step began at cycle `t`, the stride is
`2 ^ k` phases and the segment is predicted to last `len` cycles. -/
structure Anchor where
  m : Nat
  t : Nat
  k : Nat
  len : Nat
  deriving DecidableEq, Repr

/-- A run in progress (R45): the RUN order, its range, the next step to start and the cycle `b` in
which the boundary actions before that step ended. -/
structure RunSt where
  seq : Nat
  first : Nat
  last : Nat
  next : Nat
  b : Nat
  started : Bool
  deriving DecidableEq, Repr

/-- One Campanile pair of a port (R329, R330). -/
structure Pair where
  up : Bool
  hop : Nat
  echoSent : List (Nat × Nat)
  echoSum : Nat
  echoCount : Nat
  deriving DecidableEq, Repr

/-- Hidden state of step time. -/
structure StepT where
  run : Option RunSt
  stepOn : Bool
  /-- Cycle in which the step in progress started, its `a`, and the pending end of write-back. -/
  startedAt : Nat
  /-- Marks not yet applied, in order of arrival. -/
  marks : List Mark
  /-- The last MARK applied, which gives the next step its phases (R41, R43). -/
  current : Option Mark
  /-- The mark on which the step in progress started. -/
  stepMark : Option Mark
  /-- The index of the latest mark received or generated (R60). -/
  latest : Option Nat
  /-- Applied marks whose step has not started, with the cycle, kept for 256 of them (R47). -/
  applied : List (Mark × Option Nat)
  /-- Why the boundary before the next step ended when it did (R47). -/
  lateCause : Nat
  anchor : Option Anchor
  /-- The cycle in which the phase in progress began. -/
  phaseAt : Nat
  /-- The two most recently applied marks: cycle and absolute phase position in phases. -/
  lastMark : Option (Nat × Nat)
  prevMark : Option (Nat × Nat)
  /-- Instant of the previous MARK and the measured step period (R54, R55). -/
  instant : Option (Nat × Nat)
  period : Option Nat
  predicted : Option Nat
  /-- Generation: the step and cycle of the last generated mark (R38, R39, R55). -/
  gen : Option (Nat × Nat)
  /-- A barrier source waits since this period point, with this many WAIT frames sent (R51, R52). -/
  waitSince : Option Nat
  waitsSent : Nat
  slowSaid : Bool
  /-- The step of the last READY received from downstream (R50). -/
  ready : Option Nat
  /-- The step for which READY is still to go upstream (R50). -/
  readyDue : Option Nat
  /-- The cycle of a loss of light that fell on a mark's instant and counts from the next one (R58). -/
  lossAt : Option Nat
  maxAcc : Nat
  downWait : Bool
  dTotal : Nat
  endHold : Bool
  /-- A mark below N arrived during holdover: generation has stopped (R56). -/
  genStopped : Bool
  inA : Pair
  inB : Pair
  outA : Bool
  outB : Bool
  useB : Bool
  /-- The last frames completed on the old pair: bytes and cycle (R329). -/
  recent : List (List Byte × Nat)
  retrain : Bool
  /-- A measurement that LANE_CTL asked for is still to end (R344). -/
  laneAsk : Bool
  echoOut : List (Nat × Nat)
  /-- LIMIT, MARGIN and TRIM in effect: writes act at the next step boundary (R36). -/
  effLimit : Nat
  effMargin : Nat
  effTrim : Nat
  /-- Widened windows already recorded as 0x200D, by index of the Windows section (R48). -/
  widened : List Nat
  widenedFor : Nat
  deriving DecidableEq, Repr

/-! ## Intake (chapter 10) -/

inductive SlotState where
  | filling | sealed
  deriving DecidableEq, Repr

/-- A slot that is not FREE (R259): its 4,096 bytes, its seal timer (cycles run and the cycle from
which it runs), the port of its last write and, once sealed, the cycle of the seal, whether an INTAKE window
closed in it (R263), the policy in force then (R273) and whether the checks of acceptance steps 1 to 3
have been made. -/
structure Slot where
  idx : Nat
  st : SlotState
  bytes : List Byte
  ran : Nat
  since : Nat
  src : Port
  sealedAt : Nat
  closing : Bool
  policy : Nat
  checked : Bool
  /-- Step 4 has been passed, and the seed that step 7 drew (R263). -/
  through : Bool
  drawn : Option Nat
  deriving DecidableEq, Repr

/-- A receipt (R268) before PHASE is set; `own` marks one that belongs to an accepted order. -/
structure Receipt where
  seq : Nat
  step : Nat
  payload : Nat
  kind : Nat
  flags : Nat
  code : Nat
  opcode : Nat
  phaseAt : Nat
  own : Bool
  deriving DecidableEq, Repr

/-- Where an order stands: its record is journaled, it is accepted, it has begun to execute, it is
completed or refused (its receipt is due), it is released. -/
inductive OrderPhase where
  | journaled | accepted | executing | done | released
  deriving DecidableEq, Repr

/-- An order whose record is journaled (R263 to R272). -/
structure Order where
  seq : Nat
  phase : OrderPhase
  /-- The slot's order, without the slot's tail. -/
  raw : List Byte
  /-- Contained bulk, or referenced bulk once fetched (R271). -/
  bulk : Option (List Byte)
  crc : Nat
  policy : Nat
  src : Port
  /-- FSEQ of the last frame of the order record. -/
  recFseq : Nat
  slot : Nat
  durFlags : Nat
  /-- A fresh seed drawn at acceptance step 7. -/
  seedDrawn : Option Nat
  /-- The step and phase of its EFFECT, once in effect. -/
  effect : Option (Nat × Nat)
  /-- The completion, and the FSEQ of its RECEIPT frame, which the posting waits for. -/
  final : Option (Receipt × Nat)
  finalPosted : Bool
  rel : Option (Receipt × Nat)
  acceptedPosted : Bool
  /-- The latest receipt posted. -/
  latest : Option Receipt
  deriving DecidableEq, Repr

/-- A fetched or failed host read for an order (R271, R324): 0 on success, else the kind of R343. -/
structure Fetch where
  seq : Nat
  slot : Nat
  data : List Byte
  err : Nat
  deriving DecidableEq, Repr

structure IntakeSt where
  slots : List Slot
  orders : List Order
  /-- The last 65,536 accepted orders that are released: SEQ, CRC and latest receipt (R264). -/
  past : List (Nat × Nat × Option Receipt)
  fetches : List Fetch
  /-- Reads asked of the host and not answered: SEQ, slot, address, length (R318, R324). -/
  asked : List (Nat × Nat × Nat × Nat)
  /-- Receipts held under LOG_FULL, oldest first (R270). -/
  held : List Receipt
  /-- An episode of R265 has been recorded. -/
  episode : Bool
  deriving DecidableEq, Repr

/-! ## Journal (chapter 10) -/

/-- A journal frame kept in the local rings (R274, R275, R279). -/
structure JFrame where
  fseq : Nat
  typ : Nat
  lastPart : Bool
  step : Nat
  phase : Nat
  segment : Nat
  orderSeq : Nat
  payload : List Byte
  policy : Nat
  /-- Present in the HBM3E ring and in the LPDDR5X ring. -/
  inHbm : Bool
  inLp : Bool
  deriving DecidableEq, Repr

/-- Hidden state of one journal port (R281 to R283). -/
structure JPort where
  /-- Frames waiting to be sent: FSEQ and whether RETX is set. -/
  queue : List (Nat × Bool)
  /-- Sent and not acknowledged: FSEQ and the cycle of sending, oldest first. -/
  unacked : List (Nat × Nat)
  /-- The cycle in which ACKED last advanced. -/
  advanced : Nat
  expiries : Nat
  credit : Nat
  used : Nat
  /-- The FSEQ up to which a partner in resync must acknowledge (R274, R282). -/
  resync : Option Nat
  /-- LAST_STORED of a partner that trained during a recovery (R277). -/
  stored : Option Nat
  /-- The cycles of the latest ACK frame and of the latest loss of light (R283). -/
  ackAt : Option Nat
  lostAt : Option Nat
  /-- A FETCH that waits for credit: its FROM_FSEQ and TO_FSEQ (R281). -/
  fetchDue : Option (Nat × Nat)
  deriving DecidableEq, Repr

/-- A bound payload in effect (R77): the block, the SEQ of the order, the payload and its SHAKE256. -/
structure Bind where
  block : Nat
  seq : Nat
  payload : List Byte
  digest : List Byte
  deriving DecidableEq, Repr

/-- What stands at a capture beside the context: a state write that taints the step it enters, a RESTORE just taken
(R253), and whether the seed in effect was drawn (R204). -/
structure CtxMark where
  taint : Bool
  restored : Bool
  fresh : Bool
  deriving DecidableEq, Repr

/-- A context transfer (R286): the bytes; the FSEQ that was next at the capture; the FSEQs of the CHECKPOINT_PART frames
formed and the parts still to form; the SEQ of a CHECKPOINT order (else 0), its NEXT_STEP, its kind: 0 periodic, 1 pause
or suspend, 2 CHECKPOINT; and the binds and marks of the capture. -/
structure Transfer where
  bytes : List Byte
  capFseq : Nat
  parts : List Nat
  left : List (Bool × List Byte)
  seq : Nat
  next : Nat
  kind : Nat
  policy : Nat
  binds : List Bind
  mark : CtxMark
  deriving DecidableEq, Repr

/-- A seed that a SEED_SET or RESTORE order set, and whether it was drawn (R118, R189). -/
structure SeedNote where
  seq : Nat
  seed : W64
  fresh : Bool
  deriving DecidableEq, Repr

/-- A journaled configuration change (R36, R93): register offset, value, step and phase. -/
structure CfgNote where
  offset : Nat
  value : Nat
  step : Nat
  phase : Nat
  deriving DecidableEq, Repr

structure JrnlSt where
  frames : List JFrame
  j0 : JPort
  j1 : JPort
  segFirst : Nat
  segBytes : Nat
  /-- Latest complete context in HBM3E and in LPDDR5X (R286), the FSEQ that was next at its capture, and its frames. -/
  ctxHbm : Option (List Byte)
  ctxLp : Option (List Byte)
  ctxFseq : Nat
  ctxParts : List Nat
  /-- The FSEQ that was next at the capture of the latest complete context that a capture point asked for (R272). -/
  perFseq : Nat
  /-- The policy in force is short: an episode of R274. -/
  short : Bool
  transfers : List Transfer
  /-- Frames a FETCH has returned (R277). -/
  replayed : List JFrame
  configs : List CfgNote
  /-- Binds in effect when the latest complete context was captured, which the rings keep (R275), and its marks. -/
  ctxBinds : List Bind
  ctxMark : CtxMark
  /-- The seeds that SEED_SET and RESTORE orders have set, latest first, as their records give them (R118, R412). -/
  seeds : List SeedNote
  /-- Receipts posted for unreleased orders before a reset: SEQ, the latest one, and whether the completion is among
  them (R278). -/
  posted : List (Nat × Receipt × Bool)
  deriving DecidableEq, Repr

/-! ## Interrupts (chapter 17) -/

/-- One entry of the MSI-X table. -/
structure Msix where
  addr : Nat
  data : Nat
  masked : Bool
  deriving DecidableEq, Repr

structure IntrSt where
  table : List Msix
  pba : Nat
  enable : Bool
  functionMask : Bool
  /-- U of R426 and the cycle the moderation timer started; the moderation in force for it. -/
  u : Nat
  timer : Option Nat
  modCount : Nat
  modTime : Nat
  /-- The expiry of the timer at the latest release by it (R426). -/
  releasedAt : Option Nat
  deriving DecidableEq, Repr

/-! ## Belfry (chapter 15) -/

/-- A code's bucket (R391); a code with no entry has a full bucket and nothing suppressed. -/
structure Bucket where
  code : Nat
  tokens : Nat
  suppressed : Nat
  lastTick : Nat
  deriving DecidableEq, Repr

structure BelfrySt where
  buckets : List Bucket
  refillTick : Nat
  pending : List (List Byte)
  dropped : Nat
  freezeTick : Nat
  clearKey : Option Nat
  lostCounted : Bool
  /-- The cycle of each port's latest capture (R397). -/
  capHost : Option Nat
  capMgmt : Option Nat
  /-- Tokens in every bucket that `buckets` does not list (R391). -/
  full : Nat
  /-- The cycle of the latest record, and how many of that cycle's records stand at the end of what holds them (R393). -/
  wrote : Nat × Nat
  deriving DecidableEq, Repr

/-! ## Management port and PLDM (chapter 12) -/

/-- The states of a PLDM firmware device (R334, DSP0267). -/
inductive FwState where
  | idle | learn | ready | download | verify | apply | activate
  deriving DecidableEq, Repr

structure MgmtSt where
  alertPending : Bool
  hbStart : Nat
  tid : Nat
  receiver : Nat
  events : List (List Byte)
  fw : FwState
  fwSize : Nat
  fwImage : List Byte
  fwGood : Bool
  /-- Sensor readings by sensor number: hotspot, stacks 0 to 7, management die, inlet, outlet, main
  volts, main watts, auxiliary volts (R334). -/
  sensors : List Int
  token : List Byte
  deriving DecidableEq, Repr

/-! ## Security, debug and power (chapter 13) -/

/-- A quote being formed (R369): who asked (0 management, else the SEQ of a PROBE QUOTE). -/
structure Quote where
  seq : Nat
  body : List Byte
  deriving DecidableEq, Repr

structure SecSt where
  nonceHost : Option (List Byte)
  nonceMgmt : Option (List Byte)
  forming : Option Quote
  lastQuote : List Byte
  refusedStep : Nat
  dmcDown : Bool
  romWait : Bool
  bar4 : List Byte
  runningHeader : List Byte
  deriving DecidableEq, Repr

structure PwrSt where
  sP : Nat
  sT : Nat
  /-- The power state a pending return goes to and when it is due (R361). -/
  returnAt : Option Nat
  mainGood : Bool
  mainEn : Bool
  auxGood : Bool
  rails : Bool
  lowVoltSince : Option Nat
  coolantSaid : Option Nat
  inputSaid : Option Nat
  tripped : Bool
  hot : Bool
  lastAdjust : Nat
  lastMeasure : Nat
  /-- Main input power of the last millisecond, in W, newest first (POWER_W). -/
  samples : List Nat
  /-- Fields on their standby PLL, and fields with no PLL (R292). -/
  pllStandby : List Nat
  noPll : List Nat
  deriving DecidableEq, Repr

/-! ## Entropy (chapter 14) -/

structure NoiseSrc where
  inUse : Bool
  startFailed : Bool
  retired : Bool
  rct : Nat
  apt : Nat
  /-- Samples taken since the start, the run of the repetition count test and its sample. -/
  taken : Nat
  run : Nat
  last : Bool
  aptFirst : Bool
  aptCount : Nat
  aptPos : Nat
  sinceStart : Nat
  retireDue : Bool
  deriving DecidableEq, Repr

structure TrngSt where
  srcs : List NoiseSrc
  settled : Bool
  startAt : Nat
  discard : Nat
  seedWords : List Nat
  pool : List Nat
  cond : List Nat
  expander : List Nat
  drbg : Option Drbg
  alertCount : Nat
  alertWindow : Nat
  alertSaid : Bool
  deriving DecidableEq, Repr

/-! ## Ports (chapter 12) -/

/-- One optical lane pair (R323, R344). -/
structure Lane where
  port : Nat
  lane : Nat
  state : Nat
  failed : Bool
  role : Nat
  rx : Nat
  corrected : Nat
  uncorrected : Nat
  retrains : Nat
  deriving DecidableEq, Repr

structure PortSt where
  lanes : List Lane
  busMaster : Bool
  trained : Bool
  /-- The function is in D3hot, and the size of BAR2 (R320, R321): no row changes either (log 39). -/
  d3hot : Bool
  bar2Size : Nat
  /-- The host link is in Recovery (R323). -/
  inRecovery : Bool
  /-- BAR2 writes dropped in the step whose 0x7006 is due (R322). -/
  bar2Drops : Nat
  /-- Spare pairs engaged since cold reset, as 32 times the port plus the pair (R316, R323, R327). -/
  sparesUsed : List Nat
  deriving DecidableEq, Repr

/-! ## Start-up, reset and recovery (chapter 16) -/

/-- The kinds of reset, lightest first (R406, R407). -/
inductive ResetKind where
  | flr | hot | warm | cold
  deriving DecidableEq, Repr

structure BootSt where
  stopped : Bool
  startedAt : Nat
  entropyDone : Bool
  stage6 : Bool
  resetting : Option ResetKind
  /-- The recovery of R277 in progress: the kind of reset it follows. -/
  recovering : Option ResetKind
  forced : Bool
  /-- Orders that the recovery in progress has adopted (R277, code 0x1016). -/
  adopted : Nat
  /-- The cycle in which the latest FLR or hot reset began (R407). -/
  lightAt : Option Nat
  deriving DecidableEq, Repr

/-! ## The plan in effect (chapter 03) -/

/-- A type run (R75): `lo` is LO as a signed value, `q` is Q_M1 + 1. -/
structure TypeRun where
  first : Nat
  count : Nat
  typ : Nat
  q : Nat
  span : Nat
  lo : Int
  deriving DecidableEq, Repr

/-- A parcel record (R75): its LANES variables in lane order. -/
structure Parcel where
  typ : Nat
  cls : Nat
  vars : List Nat
  deriving DecidableEq, Repr

/-- A block descriptor (R75). -/
structure BlockD where
  kind : Nat
  fmt : Nat
  bound : Bool
  penalty : Bool
  parcel : Nat
  cols : Nat
  nnz : Nat
  len : Nat
  deriving DecidableEq, Repr

/-- A residence record (R78). -/
structure Residence where
  block : Nat
  tier : Nat
  port : Nat
  addr : Nat
  deriving DecidableEq, Repr

/-- A slot record (R79). -/
structure SlotRec where
  start : Nat
  length : Nat
  cls : Nat
  deriving DecidableEq, Repr

/-- A hop record (R79). -/
structure Hop where
  cycle : Nat
  src : Nat
  dst : Nat
  plane : Nat
  flits : Nat
  duration : Nat
  slack : Nat
  deriving DecidableEq, Repr

/-- A sequencer entry (R80). -/
structure SeqEntry where
  op : Nat
  flags : Nat
  count : Nat
  src : Nat
  arg : Nat
  slot : Nat
  deriving DecidableEq, Repr

/-- The sequencer table of a logical node (R80). -/
structure SeqTable where
  node : Nat
  entries : List SeqEntry
  deriving DecidableEq, Repr

/-- PLACEMENT, SCHEDULE and SEQUENCER of one shape (R72, R78 to R80): parcel entries as CORE and
ORDINAL, class records as CLASS and FIRST_SLOT, slot entries by parcel. -/
structure ShapeP where
  n : Nat
  place : List (Nat × Nat)
  res : List Residence
  classes : List (Nat × Nat)
  cycles : Nat
  slotOf : List Nat
  slots : List SlotRec
  hops : List Hop
  tables : List SeqTable
  deriving DecidableEq, Repr

/-- A drain configuration (R81). -/
structure DrainCfg where
  id : Nat
  cls : Nat
  out : Nat
  round : Nat
  act : Nat
  actTable : Nat
  scale : W32
  clampLo : W32
  clampHi : W32
  bias : Nat
  deriving DecidableEq, Repr

/-- A reduction record (R81). -/
structure RedRec where
  id : Nat
  mode : Nat
  op : Nat
  parts : Nat
  source : Nat
  deriving DecidableEq, Repr

/-- A segment of an activation table (R81): breakpoint, slope, intercept. -/
structure ActSeg where
  at_ : W32
  slope : W32
  icept : W32
  deriving DecidableEq, Repr

/-- A STREAMS range record (R82). -/
structure SRange where
  first : Nat
  count : Nat
  words : Nat
  dist : Nat
  deriving DecidableEq, Repr

/-- A STREAMS control record (R82). -/
structure CtrlRec where
  role : Nat
  base : Nat
  count : Nat
  words : Nat
  deriving DecidableEq, Repr

/-- A one-of-N group (R83): its limit F, whether it is declared hard, its members. -/
structure GroupD where
  id : Nat
  hard : Bool
  f : Nat
  members : List Nat
  deriving DecidableEq, Repr

/-- ANNEAL (R83): β points, multipliers, groups and the prologue's parameters. -/
structure AnnealP where
  betas : List (Nat × W32)
  mults : List W32
  groups : List GroupD
  swapK : Nat
  stuckW : Nat
  decay : Nat
  dt : W32
  dtCap : W32
  penaltyE : Nat
  deriving DecidableEq, Repr

/-- A window of the Windows section (R48, R49, R84). -/
structure Window where
  kind : Nat
  wOpen : Nat
  wClose : Nat
  period : Nat
  offset : Nat
  deriving DecidableEq, Repr

/-- A plan as its sections state it (R71 to R84). Payloads stand by BLOCK_ID, empty for a BOUND
block. -/
structure PlanData where
  targetM : Nat
  fallback : List Nat
  synchronous : Bool
  vUsed : Nat
  sUsed : Nat
  sweeps : Nat
  nVars : Nat
  nParcels : Nat
  nBlocks : Nat
  runs : List TypeRun
  parcels : List Parcel
  blocks : List BlockD
  payloads : List (List Byte)
  shapes : List (Nat × ShapeP)
  drains : List DrainCfg
  reds : List RedRec
  acts : List (List ActSeg)
  ranges : List SRange
  ctrls : List CtrlRec
  anneal : AnnealP
  windows : List Window
  deriving DecidableEq, Repr

/-- The plan in effect and what hangs on it. -/
structure PlanSt where
  data : PlanData
  seq : Nat
  digest : List Byte
  signed : Bool
  keyId : Nat
  /-- The shape selected: its position among the shapes named (R86). -/
  sel : Nat
  shape : ShapeP
  binds : List Bind
  /-- Residences as R308 and R309 have moved them. -/
  res : List Residence
  deriving DecidableEq, Repr

/-! ## Chain state (R61, R92, R122, R138, R184) -/

/-- A group instance of a chain (R131): paired mode, position of the set member, infeasible run. -/
structure GroupSt where
  paired : Bool
  pos : Nat
  run : Nat
  deriving DecidableEq, Repr

/-- The best state (R137), E12 in units of 2^-298. -/
structure Best where
  feasible : Bool
  chain : Nat
  w : Nat
  e12 : Int
  vals : List Nat
  deriving DecidableEq, Repr

/-- Anneal state (R138). `eBest` is E12 in units of 2^-298, absent for +∞; `groups` is chain-major. -/
structure Anneal where
  w : Nat
  tOff : W32
  ni : Nat
  eBest : Option Int
  penK : Nat
  penRun : Nat
  slotMap : List Nat
  groups : List GroupSt
  best : Option Best
  deriving DecidableEq, Repr

/-- What the step shadow, the digest and a context hold: variable values in stored form by logical
index (R122), lane streams by stream id, ROLE 0 and ROLE 1 streams in ascending id, anneal state. -/
structure ChainSt where
  vals : List Nat
  lanes : List Stream
  ctrl : List Stream
  an : Anneal
  deriving DecidableEq, Repr

/-! ## A sweep in progress (chapters 04 to 07) -/

/-- The tag of a Vault (R149). -/
inductive VTag where
  | finite | posInf | negInf | nan
  deriving DecidableEq, Repr

/-- A Vault (R147): 640 bits, bit 298 being 1.0, with its tag. -/
structure Vault where
  bits : BitVec 640
  tag : VTag
  deriving DecidableEq, Repr

/-- A bank of an M-core (R151): open or closed and not yet read, the cycle it closed, the first cycle in which it
takes a group, the parcel, chain and fill it holds, and how many groups each block of the fill has given in `done`. -/
structure Bank where
  filling : Bool
  closed : Bool
  closedAt : Nat
  freeAt : Nat
  parcel : Nat
  chain : Nat
  fill : Nat
  cols : List Vault
  done : List (Nat × Nat)
  deriving DecidableEq, Repr

/-- A block the drain path has converted (R157, R163, R165): the parcel, chain and fill it belongs to,
its drain configuration, SHIFT, outputs by column, presentation cycle, and that cycle without any
retry of the step. -/
structure Drained where
  parcel : Nat
  chain : Nat
  fill : Nat
  cfg : Nat
  shift : Nat
  outs : List Nat
  at_ : Nat
  at0 : Nat
  deriving DecidableEq, Repr

/-- A logical core: its sequencer (position, chain of the pass, ended, the barrier it waits at), its
banks and drain path, and its counters (R80, R121, R151, R157, R180). -/
structure CoreSt where
  node : Nat
  pos : Nat
  pass : Nat
  ended : Bool
  waiting : Option Nat
  /-- Variable values that the last gather of the slot read; empty when the slot has had none. -/
  gathered : List Nat
  bankA : Bank
  bankB : Bank
  drains : List Drained
  /-- Presentation cycles of the slot's blocks, newest first, and those cycles without retries. -/
  lastP : List Nat
  lastP0 : List Nat
  /-- The running maximum of the comparison tree: z and its state (R101). -/
  top : Option (W32 × Nat)
  /-- The core has performed its canonical write-back in this step (R250). -/
  written : Bool
  sweeps : Nat
  changes : Nat
  conflNow : Nat
  conflLast : Nat
  conflTotal : Nat
  malaAcc : Nat
  malaRej : Nat
  nonfinite : Nat
  redrains : Nat
  saturated : Nat
  maxDelay : Nat
  stepDelay : Nat
  sticky : Nat
  /-- The Dense flags newly set in this execution of the step, and those that stood when the step began and have not
  been cleared since (R167). -/
  stickyNew : Nat
  stickyOld : Nat
  /-- The latest cycle in which sticky flags were set, and those flags (R12). -/
  stickyAt : Nat × Nat
  deriving DecidableEq, Repr

/-- Inputs of a reduction (R170): the record, the parcel, the chain, logical indices (R168), the exact
values with their tags, and the encodings where the source is a drain configuration. -/
structure RedIn where
  red : Nat
  chain : Nat
  parcel : Nat
  idx : List Nat
  vals : List Vault
  enc : List Nat
  deriving DecidableEq, Repr

/-- A reduction's result (R168, R172, R173). -/
inductive RedOut where
  | pair (head tail : W64)
  | exact (v : Vault)
  /-- The winner's value: its encoding, or for a BLOCK_ID source its Vault's bits with the tag above them (R168). -/
  | arg (enc : Nat) (index : Nat) (allNan : Bool)
  deriving DecidableEq, Repr

/-- A sync-plane barrier (R217): its number, who has arrived and when. -/
structure Barrier where
  id : Nat
  arrived : List (Nat × Nat)
  deriving DecidableEq, Repr

/-- The execution of a step. -/
structure Exec where
  chain : ChainSt
  shadow : ChainSt
  /-- The sweep runs: sweeps of the step completed, the sweep in progress, chain of the pass, place in
  the slot order, the stretched cycle at which the pass began, how far its slots are delayed (R103), and
the last commit. -/
  sweepOn : Bool
  /-- The step waits for its STEP_START and COMPUTE windows to open (R49). -/
  awaitOpen : Bool
  /-- Canonical write-back has ended: the boundary actions are due (R28). -/
  stepEnded : Bool
  sweep : Nat
  pass : Nat
  slot : Nat
  passAt : Nat
  delay : Nat
  lastCommit : Nat
  /-- Values visible to gathers (R103), and variables updated and changed in the slot (R107). -/
  snap : List Nat
  updated : List Nat
  changed : List Nat
  /-- Parcels, with their replica offset, whose update in the sweep is complete. -/
  done : List Nat
  cores : List CoreSt
  betas : List W32
  /-- E12 (units of 2^-298) and feasibility of each chain after the last sweep. -/
  energy : List (Int × Bool)
  /-- The next group instance whose paired moves run; whether the controller has acted and a swap event
  is still to run. -/
  groupNext : Nat
  annealDone : Bool
  swapDue : Bool
  groupAcc : List Nat
  swapTried : List Nat
  swapAcc : List Nat
  /-- Group, tried and accepted counts as the step shadow was set. -/
  counts : List Nat × List Nat × List Nat
  redIn : List RedIn
  redOut : List (Nat × Nat × RedOut)
  barriers : List Barrier
  flags : List (Nat × Nat)
  /-- Hops injected and not delivered: index, cycle of injection, and T in cycles; hops injected in the pass. -/
  inFlight : List (Nat × Nat × Nat)
  sent : List Nat
  deriving DecidableEq, Repr

/-- What has happened in the step in flight, reported or acted on at its boundary. -/
structure StepLog where
  rerun : Bool
  abandoned : Bool
  rollback : Option Nat
  reexec : Bool
  tainted : Bool
  taintNext : Bool
  restored : Bool
  throughput : Bool
  conflicts : Nat
  nonfinite : Option Nat
  nonfiniteCount : Nat
  saturated : Option Nat
  fieldNan : Option Nat
  /-- Ghost flits by site in the step, and corrected errors by memory port (R215, R232). -/
  ghosts : List (Nat × Nat)
  corrected : List (Nat × Nat)
  /-- Sites that a fault has been charged to in an execution of the step (R297). -/
  charged : List Nat
  /-- The cycle in which canonical write-back ended (R47). -/
  endedAt : Nat
  /-- FLUSH was open after write-back with a record that it needs not yet durable (R47, R49). -/
  flushLate : Bool
  deriving DecidableEq, Repr

/-- Step digests (R250 to R258): the last closed, the snapshot of each port, and the pending
configuration of the mode (R243). -/
structure DigestSt where
  step : Nat
  value : Nat
  flags : Nat
  valid : Bool
  /-- The snapshot of each port: DIGEST, FLAGS and VALID. -/
  snapHost : Nat × Nat × Bool
  snapMgmt : Nat × Nat × Bool
  /-- The mode has changed and no step has run in it since (MODE_SINCE). -/
  sinceDue : Bool
  heldMode : Option Bool
  heldLb : Option Bool
  /-- The port that wrote what is held last. -/
  heldPort : Port
  /-- Steps run again after a rollback or in a recovery: the step in which re-running ends, and the step that
  triggered a rollback with how often (R310). -/
  rerunTo : Option Nat
  rollStep : Nat
  rollCount : Nat
  /-- What is still to re-run, in journal order: steps with the mode they ran in, and orders whose effect is
  to be applied again (R277, R310). -/
  script : List (Bool × Nat × Bool)
  /-- 1 while a rollback waits for referenced bulk from the host or for its context from a partner, 2 while damaged plan
  data waits for referenced bulk (R307, R310); else 0. -/
  reload : Nat
  deriving DecidableEq, Repr

/-! ## Sites, spares and the mesh (chapters 08 and 11) -/

/-- A site (R7): its core and its router. `reason` is SPARE_MAP.REASON, 0 when it has not failed.
`corrections` counts SRAM corrections by bank; `banks` and the slice masks are what is out of use. -/
structure SiteSt where
  reason : Nat
  fenced : Bool
  requalified : Bool
  testing : Bool
  bypassed : Bool
  hole : Bool
  banks : Nat
  corrections : List (Nat × Nat)
  slicesA : Nat
  slicesB : Nat
  lantern : Bool
  lanternB : Bool
  /-- Operating hours of the faults charged to it (R297). -/
  charged : List Nat
  ghostFlits : Nat
  ghostSteps : Nat
  retries : Nat
  maxHeld : Nat
  flitErrors : Nat
  /-- The router island has lost supply or clock (R239, R296); a failed router that neither a bypass nor a hole can
  stand for (R303). -/
  routerOff : Bool
  routerLost : Bool
  /-- The copy of the core's step shadow in the site's own shadow area, and its mirror at the buddy, cannot be read
  (R299, R300). -/
  shadowBad : Bool
  mirrorBad : Bool
  deriving DecidableEq, Repr

/-- A fault of the step (R296, R311): what was detected and is settled at the boundary. -/
inductive Damage where
  /-- Charged to a site, by mechanism (row of R296). -/
  | charge (site mech : Nat)
  /-- A site declared failed, with its reason. -/
  | failed (site reason : Nat)
  /-- A router failed. -/
  | router (site : Nat)
  /-- A Vault slice faulted (bank, slice). -/
  | slice (site : Nat) (bankB : Bool) (slice : Nat)
  /-- An SRAM bank to be replaced. -/
  | bank (site bank : Nat)
  /-- A memory tile of what content: 0 plan data, 1 state written, 2 state that entered the step. -/
  | tile (port content : Nat)
  /-- A memory part lost: HBM3E stack or LPDDR5X port. -/
  | stack (n : Nat)
  | package (port : Nat)
  deriving DecidableEq, Repr

structure SpareSt where
  /-- Site serving each logical M-, V- and S-core (R294). -/
  mapM : List Nat
  mapV : List Nat
  mapS : List Nat
  damage : List Damage
  /-- A re-qualification requested, and the site under test (R313). -/
  requalAsk : Option Nat
  requalOn : Option Nat
  requalPassed : List Nat
  /-- The site moved out for self-test (R314). -/
  selftest : Option Nat
  selftestNext : Nat
  lpddrSpareUsed : Bool
  lowSaid : Bool
  effWdog : Nat
  /-- The cycle in which a re-qualification ended last and its site, and a site asked for in the cycle of that end (R12). -/
  requalEnd : Option (Nat × Nat)
  requalNext : Option Nat
  deriving DecidableEq, Repr

/-- An allocated hop (R211, R212): A, L and T at plan load, A′ and L′ now. -/
structure HopAlloc where
  a : Nat
  l : Nat
  t : Nat
  a' : Nat
  l' : Nat
  deriving DecidableEq, Repr

/-- A free-slot packet (R218 to R220): its source site, flits, target sites still to acknowledge, those it
has reached, and whether a delivery failed. -/
structure Packet where
  id : Nat
  src : Nat
  flits : Nat
  waiting : List Nat
  reached : List Nat
  failed : Bool
  deriving DecidableEq, Repr

/-- A branch of a packet at a router, towards a direction (0 west, 1 east, 2 north, 3 south): the
targets beyond it. `copy` marks a branch that the router's copy buffer holds (R219); `done` is the cycle by which its
last flit has left, 0 while it waits for credit. -/
structure Branch where
  site : Nat
  dir : Nat
  pkt : Nat
  targets : List Nat
  copy : Bool
  done : Nat
  deriving DecidableEq, Repr

structure MeshSt where
  hops : List HopAlloc
  packets : List Packet
  /-- Branches waiting for credit, oldest first, and packets under way to a router. -/
  waiting : List Branch
  flying : List Branch
  /-- Credits in use by output: site, direction, packets downstream. -/
  inUse : List (Nat × Nat × Nat)
  /-- Outputs by site and direction, with the first cycle in which each is free again (R206). -/
  busy : List (Nat × Nat × Nat)
  /-- The packet that completed last, and whether as failed (R220). -/
  lastDone : Option (Nat × Bool)
  deriving DecidableEq, Repr

/-! ## Memory ports (R222 to R240) -/

/-- A scheduled request at a port (R223): read or write, address and length, the bytes of a write, or the
contents that a read is owed because a write was admitted as it arrived (R225), its arrival and cost. -/
structure MReq where
  id : Nat
  write : Bool
  addr : Nat
  len : Nat
  data : Option (List Byte)
  arrived : Nat
  cost : Nat
  deriving DecidableEq, Repr

structure MPort where
  /-- MPORT_STAT.STATE. -/
  state : Nat
  alt : Bool
  account : Nat
  accountAt : Nat
  queue : List MReq
  /-- Reads under way: request and admission cycle; writes not yet acknowledged. -/
  reads : List (MReq × Nat)
  writes : List (MReq × Nat)
  /-- Open merge entries: tile and the cycle of opening. -/
  entries : List (Nat × Nat)
  /-- Writes admitted in the latest cycle in which one was: that cycle, address and former bytes. -/
  former : List (Nat × Nat × List Byte)
  poison : List Nat
  poisonFull : Bool
  /-- Both routers of the port forward nothing, and what that costs has been settled (R303). -/
  cut : Bool
  /-- The tile checks in the reserve, by tile written (R229, R230); corrections in the port's own SRAM (R296). -/
  checks : List (Nat × Nat)
  sramCorrected : Nat
  corrected : Nat
  uncorrectable : Nat
  uncorrStep : Bool
  checkFails : Nat
  scrubPos : Nat
  passes : Nat
  merged : Nat
  maxOpen : Nat
  delayed : Nat
  maxWait : Nat
  cvuArm : Bool
  cvuPoly : Nat
  cvuBase : Nat
  cvuLimit : Nat
  /-- The unit's register, and the value it shows (frozen when ARM clears, R236). -/
  cvuReg : Nat
  cvuValue : Nat
  cvuBytes : Nat
  /-- The bytes of the last read delivered; none from a tile that was not sound (R231). -/
  delivered : List (Option Byte)
  deriving DecidableEq, Repr

/-! ## Oculus (R176, R181) and the row path (R114 to R119) -/

/-- The snapshot buffer of Oculus: Vault images and converted outputs by column, the column and limb whose parity does
not match, the cycle of arming, whether a capture was made in this execution of the step in flight, and whether one
made in an execution before it is to be replaced. -/
structure OcuSt where
  cols : List Vault
  outs : List Nat
  badLimb : Option (Nat × Nat)
  armedAt : Nat
  taken : Bool
  again : Bool
  deriving DecidableEq, Repr

/-- A ROW_SAMPLE in service (R118): its SEQ, seed, rows answered so far, the score bytes' CRC register
and the rows whose data has arrived. -/
structure RowJob where
  seq : Nat
  seed : W64
  row : Nat
  crcReg : Nat
  deriving DecidableEq, Repr

/-! ## The state -/

/-- What leaves the block. -/
inductive Emission where
  /-- A posted write to host memory (R270, R325). -/
  | hostWrite (addr : Nat) (data : List Byte)
  /-- A read of host memory asked for (R318, R324). -/
  | hostRead (seq slot addr len : Nat)
  /-- An MSI-X message (R425). -/
  | msix (vector addr data : Nat)
  /-- A frame on journal port 0 or 1 (R279). -/
  | journal (port : Nat) (frame : List Byte)
  /-- A frame on Campanile Out, or upstream on the return fibre of Campanile In (R40). -/
  | campOut (frame : List Byte)
  | campReturn (frame : List Byte)
  /-- An echo set sent upstream, or returned downstream, on a pair (R330). -/
  | echoUp (pairB : Bool) (id : Nat)
  | echoBack (pairB : Bool) (id : Nat)
  /-- The value a BAR0 or BAR2 read returns, and the poisoned bit (R322, R418). -/
  | readData (value : Nat) (poisoned : Bool)
  /-- A Keazia management response: STATUS and data (R332). -/
  | mgmtReply (status : Nat) (data : List Byte)
  /-- An MCTP control or PLDM response, by completion code and data (R332, R334; log 9). -/
  | ctlReply (code : Nat) (data : List Byte)
  /-- A PLDM platform event with a Belfry record (R334, R390). -/
  | platformEvent (record : List Byte)
  deriving DecidableEq, Repr

/-- Who raises a fault: a command that names a unit the device does not have (an Intake slot at or
beyond 4,096, a site at or beyond 720, a memory port at or beyond 32, a tile beyond a memory part, a
lane, a noise source, an MSI-X vector). The spec names no such unit, so nothing the hardware does is lost: safe. -/
inductive Fault where
  | noSuchUnit
  deriving DecidableEq, Repr

/-- Who raises a refusal: an arm of the dispatch with no meaning yet. It stops where the hardware
goes on, so it is safe. -/
inductive Refusal where
  | notModelled (mnemonic : String)
  deriving DecidableEq, Repr

/-- The whole state. `now` counts reference cycles and `ccyc` stretched cycles, with the part of a
stretched cycle already run in `crem` (R10, R366, R367); `fresh` numbers the free values (log 5);
`emitted` holds what left the block, newest first; `pending` is the queue of commands. -/
structure State where
  now : Nat
  ccyc : Nat
  crem : Nat
  regs : Vector W64 Reg.count
  fuse : Fuse
  mram : Mram
  stept : StepT
  intake : IntakeSt
  jrnl : JrnlSt
  intr : IntrSt
  bel : BelfrySt
  mgmt : MgmtSt
  sec : SecSt
  pwr : PwrSt
  trng : TrngSt
  ports : PortSt
  boot : BootSt
  plan : PlanSt
  ex : Exec
  slog : StepLog
  dig : DigestSt
  sites : List SiteSt
  spare : SpareSt
  mesh : MeshSt
  mports : List MPort
  /-- External memory, in canonical form: port × 2^48 + byte address (R24, R229). -/
  mem : List Host.Cell
  ocu : OcuSt
  /-- ROW_SAMPLE orders in service (R118). -/
  rows : List RowJob
  emitted : List Emission
  fresh : Nat
  /-- Bits that hardware set and bits of type RW1S that software set in the latest cycle in which one was: cycle, register
  and mask (R12). -/
  hwSets : List (Nat × Reg × Nat)
  swSets : List (Nat × Reg × Nat)
  pending : List Instr
  deriving DecidableEq, Repr

/-! ## Reset (R408, R428; values the spec does not give: logs 3 to 6) -/

/-- A KZ-DJ1-F-JC of stepping B0 as DESIGN CHOICE of log 3: every row's fused spares stand in the columns that the
example of R313 gives for row 6. -/
def Fuse.reset : Fuse :=
  ⟨1, List.replicate 64 0, List.replicate 64 0, List.replicate 20 [2, 15, 34], [], 0, 0x31, 0x10, 0⟩

/-- The DMC image at manufacture (log 3): the header of R370 over no code, SVN and VERSION 0, and a signature
of zeros. -/
def firstImage : List Byte :=
  [0x4B, 0x5A, 0x46, 0x57] ++ natLe 1 2 ++ zeros 14 ++ natLe 0x4B5A0001 4 ++ zeros 40 ++ shake256 [] 64 ++
  zeros 29792

/-- The attestation key's certificate (log 3): the body of R353 for serial number 1 and a key of zeros, and a signature of
zeros. -/
def firstCert : List Byte :=
  [0x4B, 0x5A, 0x41, 0x43] ++ natLe 1 2 ++ zeros 2 ++ natLe 1 8 ++ zeros 64 ++ natLe 0x4B5A0001 4 ++ zeros 44 ++
  zeros 29792

def Mram.reset : Mram :=
  ⟨⟨[], []⟩, ⟨[], []⟩, [], List.replicate 64 0, firstCert, 0, 0, [], [], [], [], firstImage, 1⟩

def Pair.reset : Pair := ⟨false, 0, [], 0, 0⟩

def StepT.reset : StepT where
  run := none
  stepOn := false
  startedAt := 0
  marks := []
  current := none
  stepMark := none
  latest := none
  applied := []
  lateCause := 0
  anchor := none
  phaseAt := 0
  lastMark := none
  prevMark := none
  instant := none
  period := none
  predicted := none
  gen := none
  waitSince := none
  waitsSent := 0
  slowSaid := false
  ready := none
  readyDue := none
  lossAt := none
  maxAcc := 0
  downWait := false
  dTotal := 0
  endHold := false
  genStopped := false
  inA := Pair.reset
  inB := Pair.reset
  outA := false
  outB := false
  useB := false
  recent := []
  retrain := false
  laneAsk := false
  echoOut := []
  effLimit := 16
  effMargin := 200000
  effTrim := 0
  widened := []
  widenedFor := 12

def IntakeSt.reset : IntakeSt := ⟨[], [], [], [], [], [], false⟩

def JPort.reset : JPort := ⟨[], [], 0, 0, 0, 0, none, none, none, none, none⟩

def JrnlSt.reset : JrnlSt :=
  ⟨[], JPort.reset, JPort.reset, 1, 0, none, none, 0, [], 0, false, [], [], [], [], ⟨false, false, false⟩, [], []⟩

def IntrSt.reset : IntrSt := ⟨List.replicate 64 ⟨0, 0, true⟩, 0, false, false, 0, none, 1, 0, none⟩

def BelfrySt.reset : BelfrySt := ⟨[], 0, [], 0, 0, none, false, none, none, 32, (0, 0)⟩

def MgmtSt.reset : MgmtSt :=
  ⟨false, 0, 0, 0, [], .idle, 0, [], false, List.replicate 15 0, List.replicate 29920 0⟩

def SecSt.reset : SecSt := ⟨none, none, none, [], 0, false, false, [], []⟩

/-- MAIN_EN is high at reset, so that PWR_STATE.STATE 0 is the state R408 gives (log 3). -/
def PwrSt.reset : PwrSt where
  sP := 256
  sT := 256
  returnAt := none
  mainGood := true
  mainEn := true
  auxGood := true
  rails := false
  lowVoltSince := none
  coolantSaid := none
  inputSaid := none
  tripped := false
  hot := false
  lastAdjust := 0
  lastMeasure := 0
  samples := []
  pllStandby := []
  noPll := []

def NoiseSrc.reset : NoiseSrc := ⟨false, false, false, 0, 0, 0, 0, false, false, 0, 0, 0, false⟩

def TrngSt.reset : TrngSt :=
  ⟨List.replicate 16 NoiseSrc.reset, false, 0, 0, [], [], [], [], none, 0, 0, false⟩

/-- The lane pairs of every port: 18 host, 5 on each journal port, 2 on each Campanile port. -/
def PortSt.reset : PortSt where
  lanes := ([(0, 18), (1, 5), (2, 5), (3, 2), (4, 2)].map fun p =>
    (List.range p.2).map fun l => Lane.mk p.1 l 1 false 31 0 0 0 0).flatten
  busMaster := false
  trained := false
  d3hot := false
  bar2Size := 2 ^ 36
  inRecovery := false
  bar2Drops := 0
  sparesUsed := []

def BootSt.reset : BootSt := ⟨false, 0, false, false, some .cold, none, false, 0, none⟩

set_option maxRecDepth 8000 in
/-- The register file after cold reset (R428). The two registers of the fused map hold the counts of
the fused map of log 3. -/
def Regs.reset : Vector W64 Reg.count :=
  ⟨(Reg.every.map Reg.resetValue).toArray, by decide⟩

def ShapeP.empty : ShapeP := ⟨0, [], [], [], 0, [], [], [], []⟩

def AnnealP.empty : AnnealP := ⟨[], [], [], 0, 0, 0, 0, 0, 0⟩

def PlanData.empty : PlanData where
  targetM := 0
  fallback := []
  synchronous := false
  vUsed := 0
  sUsed := 0
  sweeps := 0
  nVars := 0
  nParcels := 0
  nBlocks := 0
  runs := []
  parcels := []
  blocks := []
  payloads := []
  shapes := []
  drains := []
  reds := []
  acts := []
  ranges := []
  ctrls := []
  anneal := AnnealP.empty
  windows := []

def PlanSt.reset : PlanSt := ⟨PlanData.empty, 0, [], false, 0, 0, ShapeP.empty, [], []⟩

def Anneal.empty : Anneal := ⟨0, 0, 0, none, 0, 0, [], [], none⟩

def ChainSt.empty : ChainSt := ⟨[], [], [], Anneal.empty⟩

def Vault.zero : Vault := ⟨0, .finite⟩

def Bank.reset : Bank := ⟨false, false, 0, 0, 0, 0, 0, [], []⟩

/-- A core at the start of a plan: every counter 0 (R121, R180). -/
def CoreSt.start (node : Nat) : CoreSt where
  node := node
  pos := 0
  pass := 0
  ended := false
  waiting := none
  gathered := []
  bankA := Bank.reset
  bankB := Bank.reset
  drains := []
  lastP := []
  lastP0 := []
  top := none
  written := false
  sweeps := 0
  changes := 0
  conflNow := 0
  conflLast := 0
  conflTotal := 0
  malaAcc := 0
  malaRej := 0
  nonfinite := 0
  redrains := 0
  saturated := 0
  maxDelay := 0
  stepDelay := 0
  sticky := 0
  stickyNew := 0
  stickyOld := 0
  stickyAt := (0, 0)

def Exec.reset : Exec where
  chain := ChainSt.empty
  shadow := ChainSt.empty
  sweepOn := false
  awaitOpen := false
  stepEnded := false
  sweep := 0
  pass := 0
  slot := 0
  passAt := 0
  delay := 0
  lastCommit := 0
  snap := []
  updated := []
  changed := []
  done := []
  cores := []
  betas := []
  energy := []
  groupNext := 0
  annealDone := false
  swapDue := false
  groupAcc := []
  swapTried := []
  swapAcc := []
  counts := ([], [], [])
  redIn := []
  redOut := []
  barriers := []
  flags := []
  inFlight := []
  sent := []

def StepLog.reset : StepLog where
  rerun := false
  abandoned := false
  rollback := none
  reexec := false
  tainted := false
  taintNext := false
  restored := false
  throughput := false
  conflicts := 0
  nonfinite := none
  nonfiniteCount := 0
  saturated := none
  fieldNan := none
  ghosts := []
  corrected := []
  charged := []
  endedAt := 0
  flushLate := false

def DigestSt.reset : DigestSt :=
  ⟨0, 0, 0, false, (0, 0, false), (0, 0, false), false, none, none, .host, none, 0, 0, [], 0⟩

def SiteSt.reset : SiteSt where
  reason := 0
  fenced := false
  requalified := false
  testing := false
  bypassed := false
  hole := false
  banks := 0
  corrections := []
  slicesA := 0
  slicesB := 0
  lantern := false
  lanternB := false
  charged := []
  ghostFlits := 0
  ghostSteps := 0
  retries := 0
  maxHeld := 0
  flitErrors := 0
  routerOff := false
  routerLost := false
  shadowBad := false
  mirrorBad := false

def SpareSt.reset : SpareSt :=
  ⟨[], [], [], [], none, none, [], none, 0, false, false, 1000000, none, none⟩

def MeshSt.reset : MeshSt := ⟨[], [], [], [], [], [], none⟩

/-- A memory port in training, its admission account empty until a plan fills it (R223, R240). -/
def MPort.reset : MPort where
  state := 3
  alt := false
  account := 0
  accountAt := 0
  queue := []
  reads := []
  writes := []
  entries := []
  former := []
  poison := []
  poisonFull := false
  cut := false
  checks := []
  sramCorrected := 0
  corrected := 0
  uncorrectable := 0
  uncorrStep := false
  checkFails := 0
  scrubPos := 0
  passes := 0
  merged := 0
  maxOpen := 0
  delayed := 0
  maxWait := 0
  cvuArm := false
  cvuPoly := 0
  cvuBase := 0
  cvuLimit := 0
  cvuReg := 0
  cvuValue := 0
  cvuBytes := 0
  delivered := []

/-- The machine right after the cold reset of a rise of auxiliary power, in stage 0 (R402). -/
def State.reset : State where
  now := 0
  ccyc := 0
  crem := 0
  regs := Regs.reset
  fuse := Fuse.reset
  mram := Mram.reset
  stept := StepT.reset
  intake := IntakeSt.reset
  jrnl := JrnlSt.reset
  intr := IntrSt.reset
  bel := BelfrySt.reset
  mgmt := MgmtSt.reset
  sec := SecSt.reset
  pwr := PwrSt.reset
  trng := TrngSt.reset
  ports := PortSt.reset
  boot := BootSt.reset
  plan := PlanSt.reset
  ex := Exec.reset
  slog := StepLog.reset
  dig := DigestSt.reset
  sites := List.replicate 720 SiteSt.reset
  spare := SpareSt.reset
  mesh := MeshSt.reset
  mports := List.replicate 32 MPort.reset
  mem := []
  ocu := ⟨[], [], none, 0, false, false⟩
  rows := []
  emitted := []
  fresh := 0
  hwSets := []
  swSets := []
  pending := []

end Sys2Proof.Machine
end

