-- ==== Sys2Proof/Machine/Ops.lean ====
section
/-! DEFINITION. The named operations over State: registers and their fields, time, free values,
BAR0 reachability, and what leaves the block. -/

namespace Sys2Proof.Machine

/-- The result type of every meaning. -/
abbrev Result := Host.Outcome State Fault Refusal

/-! ## Registers -/

/-- `v` with bits `lo` to `lo + w - 1` replaced by the low bits of `n`. -/
def insertBits (v : W64) (lo w n : Nat) : W64 :=
  BitVec.ofNat 64 (v.toNat % 2 ^ lo + n % 2 ^ w * 2 ^ lo + v.toNat / 2 ^ (lo + w) * 2 ^ (lo + w))

/-- The stored value of a register. -/
def State.reg (s : State) (r : Reg) : W64 := s.regs[r.idx]

/-- A register given a value. -/
def State.setReg (s : State) (r : Reg) (v : W64) : State := { s with regs := s.regs.set r.idx v }

/-- The value of a register field. -/
def State.fld (s : State) (f : Field) : Nat := bitsOf (s.reg f.reg).toNat f.lo f.w

/-- A register field given a value. -/
def State.setFld (s : State) (f : Field) (n : Nat) : State :=
  s.setReg f.reg (insertBits (s.reg f.reg) f.lo f.w n)

/-- A one-bit field. -/
def State.flag (s : State) (f : Field) : Bool := s.fld f == 1

/-- A one-bit field given a value. -/
def State.setFlag (s : State) (f : Field) (b : Bool) : State := s.setFld f b.toNat

/-- A saturating counter field. -/
def State.addFld (s : State) (f : Field) (n : Nat) : State := s.setFld f (satAdd f.w (s.fld f) n)

/-- A saturating counter field, counted up by one. -/
def State.incFld (s : State) (f : Field) : State := s.addFld f 1

/-- A field raised to `n` when `n` is larger (a largest-seen field, held at its width). -/
def State.maxFld (s : State) (f : Field) (n : Nat) : State :=
  s.setFld f (max (s.fld f) (min n (2 ^ f.w - 1)))

/-! ## Time -/

/-- A command lands at reference cycle `t` (log 1): time does not run back, and the stretched
cycles run at the stretch in effect (R366, R367). -/
def State.tick (s : State) (t : Nat) : State :=
  let now := max s.now t
  let q := s.fld Fld.PWR_STAT_STRETCH
  let run := (now - s.now) * 256 + s.crem
  { s with now := now, ccyc := s.ccyc + run / q, crem := run % q }

/-- A reference instant falls in the stretched cycle of now: an expiry or an arrival on a timer of R367 falls in the first
stretched cycle at or after its instant, and coincidences are compared there. Unstretched, the instant is now. -/
def State.meets (s : State) (x : Nat) : Bool :=
  decide (x ≤ s.now ∧ s.now * 256 < x * 256 + if s.crem = 0 then s.fld Fld.PWR_STAT_STRETCH else s.crem)

/-- The cycle in which a reference instant falls is over: an expiry that no arrival of its cycle has met (R57, R367). -/
def State.past (s : State) (x : Nat) : Bool := decide (x < s.now) && !s.meets x

/-- S: the step in progress or the last step completed (R60). -/
def State.stepNow (s : State) : Nat := s.fld Fld.STEP_NOW_STEP

/-- φ (R60). -/
def State.phi (s : State) : Nat := s.fld Fld.STEP_PHASE_PHASE

/-- A run is in progress: a RUN order has executed and not ended (R45). -/
def State.runOn (s : State) : Bool := s.stept.run.isSome

/-- A run is in progress, or a rollback without one: what orders change waits for a boundary or for its end. -/
def State.engaged (s : State) : Bool := s.runOn || s.dig.rerunTo.isSome

/-- DEV_STAT.RUNNING. -/
def State.running (s : State) : Bool := s.flag Fld.DEV_STAT_RUNNING

/-! ## Free values and output -/

/-- The next value that the spec leaves open (log 5). -/
def State.freshVal (s : State) : W64 × State :=
  (Config.freeValue s.fresh, { s with fresh := s.fresh + 1 })

/-- Something leaves the block. -/
def State.emit (s : State) (e : Emission) : State := { s with emitted := e :: s.emitted }

/-! ## What is powered and reachable (R421) -/

/-- C blocks are reachable: the main rails are up and stage 3 has ended. -/
def State.cUp (s : State) : Bool :=
  s.pwr.rails && 3 < s.fld Fld.DEV_BOOT_STAGE

/-- M blocks are reachable: auxiliary power is good and stage 1 has been reached. -/
def State.mUp (s : State) : Bool := s.pwr.auxGood && 1 ≤ s.fld Fld.DEV_BOOT_STAGE

/-- The management die runs with the DMC answering (R372, R404). -/
def State.dmcUp (s : State) : Bool := s.mUp && !s.sec.dmcDown

/-- DEV_STAT.READY. -/
def State.readyUp (s : State) : Bool := s.flag Fld.DEV_STAT_READY

/-- Option J is fitted. -/
def State.optJ (s : State) : Bool := s.flag Fld.DEV_GRADE_OPT_J

/-- Option C is fitted. -/
def State.optC (s : State) : Bool := s.flag Fld.DEV_GRADE_OPT_C

/-- The power state now (R361). -/
def State.power (s : State) : Nat := s.fld Fld.PWR_STATE_STATE

/-- The device is halted (R357). -/
def State.halted (s : State) : Bool := s.flag Fld.DBG_STAT_HALTED

/-- A plan is loaded. -/
def State.planOn (s : State) : Bool := s.flag Fld.DEV_STAT_PLAN_LOADED

/-! ## Register writes (R11, R13, R418, R419) -/

/-- The bits an access carries, at their places in the register. -/
def accBits (a : RegAcc) : Nat :=
  match a.half with
  | .whole => a.value.toNat
  | .low => a.value.toNat % 2 ^ 32
  | .high => a.value.toNat % 2 ^ 32 * 2 ^ 32

/-- An access covers the whole of a field (R418: a field that spans both halves is written only by
an 8-byte write). -/
def accCovers (a : RegAcc) (lo w : Nat) : Bool :=
  match a.half with
  | .whole => true
  | .low => lo + w ≤ 32
  | .high => 32 ≤ lo

/-- The value an access writes to a field, if it covers it. -/
def accField (a : RegAcc) (f : Field) : Option Nat :=
  if accCovers a f.lo f.w then some (bitsOf (accBits a) f.lo f.w) else none

/-- An access writes 1 to a bit (a half not covered acts as 0, R418). -/
def accSets (a : RegAcc) (f : Field) : Bool := accField a f == some 1

/-- The values of a field that are neither reserved nor out of range (R13). -/
def legalValue : Reg → Nat → Nat → Bool
  | .STEP_SRC, 0, n => n != 3
  | .SEL_CORE, 12, n => n != 3
  | .SEL_CORE_MGMT, 12, n => n != 3
  | .RECEIPT_SIZE, 0, n => 6 ≤ n && n ≤ 16
  | .DURABILITY_POLICY, 0, n => n != 3
  | .SEL_LANE, 0, n => n < 5
  | .SEL_LANE_MGMT, 0, n => n < 5
  | .BELFRY_CTL, 32, n => n != 0
  | .BELFRY_CTL, 40, n => n != 0
  | .BELFRY_SEL_AREA, 1, n => n != 3
  | .BELFRY_SEL_AREA_MGMT, 1, n => n != 3
  | .OCU_SEL, 12, n => n != 3
  | .OCU_SEL_MGMT, 12, n => n != 3
  | .INT_MOD, 0, n => n != 0
  | .PWR_CAP, 0, n => 600 ≤ n && n ≤ 1200
  | _, _, _ => true

/-- One field under a write: RW takes a legal value, W1C clears the bits written 1, RO is left. WO and
RW1S fields act through their registers' own rules. -/
def writeField (r : Reg) (a : RegAcc) (v : W64) (f : FieldSpec) : W64 :=
  match f.acc with
  | .rw =>
    let n := bitsOf (accBits a) f.lo f.w
    if accCovers a f.lo f.w && legalValue r f.lo n then insertBits v f.lo f.w n else v
  | .w1c =>
    let old := bitsOf v.toNat f.lo f.w
    insertBits v f.lo f.w (old - (old &&& bitsOf (accBits a) f.lo f.w))
  | _ => v

/-! ## Sets and clears that meet in one cycle (R12) -/

/-- The bits of a register noted in this cycle. -/
def State.notedBits (s : State) (l : List (Nat × Reg × Nat)) (r : Reg) : Nat :=
  l.foldl (fun m e => if e.1 == s.now && e.2.1 == r then m ||| e.2.2 else m) 0

/-- Bits that hardware set in this cycle. -/
def State.hwMask (s : State) (r : Reg) : Nat := s.notedBits s.hwSets r

/-- Hardware sets bits of type W1C: a clear of the same cycle leaves them 1. -/
def State.noteHw (s : State) (r : Reg) (mask : Nat) : State :=
  { s with hwSets := (s.now, r, mask) :: s.hwSets.filter (·.1 == s.now) }

/-- Hardware sets a W1C bit. -/
def State.hwSet (s : State) (f : Field) : State := (s.setFlag f true).noteHw f.reg (2 ^ f.lo)

/-- Software sets an RW1S bit, which starts its action. -/
def State.swSet (s : State) (f : Field) : State :=
  { s.setFlag f true with swSets := (s.now, f.reg, 2 ^ f.lo) :: s.swSets.filter (·.1 == s.now) }

/-- Software set an RW1S bit in this cycle: hardware does not clear it, and the action starts again. -/
def State.swNow (s : State) (f : Field) : Bool := (s.notedBits s.swSets f.reg).testBit f.lo

/-- Hardware clears an RW1S bit, its action having ended. -/
def State.hwClear (s : State) (f : Field) : State := if s.swNow f then s else s.setFlag f false

/-- The bits of a register's W1C fields. -/
def Reg.w1cBits (r : Reg) : Nat :=
  r.layout.foldl (fun m f => if f.acc == .w1c then m ||| (2 ^ f.w - 1) * 2 ^ f.lo else m) 0

/-- The plain effect of a write on a register: its fields, reserved bits ignored; a W1C bit that hardware set in this
cycle ends at 1. -/
def State.writeFields (s : State) (r : Reg) (a : RegAcc) : State :=
  s.setReg r (r.layout.foldl (writeField r a) (s.reg r) ||| (s.reg r &&& BitVec.ofNat 64 (s.hwMask r &&& r.w1cBits)))

/-- The host reaches the function's BARs: its link is up and the function in D0 (R318, R320; in D3hot memory requests are
Unsupported Requests, as PCI Express prescribes). -/
def State.hostUp (s : State) : Bool := s.cUp && s.fld Fld.HOST_LINK_RATE != 0 && !s.ports.d3hot

/-- A port reaches a register (R371, R421): the host through its link, the management port while the
die that holds the register is up; in ROM recovery the host reaches SEC_FW alone. -/
def State.reach (s : State) (p : Port) (r : Reg) : Bool :=
  match p with
  | .host =>
    if s.sec.romWait then r == .SEC_FW && s.fld Fld.HOST_LINK_RATE != 0 && !s.ports.d3hot
    else s.hostUp
  | .mgmt => if r.onM then s.mUp else s.mUp && s.cUp

/-- A command that lands at `t` and, where `c` holds, has the effect `f`; otherwise what the row
names has not happened and only time passes (log 2). -/
def State.when (s : State) (t : Nat) (c : State → Bool) (f : State → State) : Result :=
  let s := s.tick t
  .next (if c s then f s else s)

/-- A register access of a row that names its register (R333, R421). -/
def State.access (s : State) (t : Nat) (a : RegAcc) (r : Reg) (f : State → State) : Result :=
  s.when t (fun s => s.reach a.port r) f

end Sys2Proof.Machine
end

