-- ==== Sys2Proof/Machine/Events.lean ====
section
/-! DEFINITION. What every chapter reports through: interrupt causes and messages (R424 to R427),
journal frames (R279, R280, R284), and Belfry records (R388 to R395). -/

namespace Sys2Proof.Machine

/-! ## Interrupts -/

/-- The message of a vector: sent, held in the PBA while masked, nothing while MSI-X is off (R425). -/
def State.sendVector (s : State) (i : Nat) : State :=
  if s.intr.enable then
    match s.intr.table[i]? with
    | some e =>
      if e.masked || s.intr.functionMask then
        ({ s with intr := { s.intr with pba := s.intr.pba ||| 2 ^ i } }).incFld Fld.INT_COUNT_PENDED
      else (s.emit (.msix i e.addr e.data)).incFld Fld.INT_COUNT_SENT
    | none => s
  else s

/-- A cause bit goes to 1; when it was 0 and is enabled, its message is sent (R424, R425). -/
def State.setCause (s : State) (i : Nat) : State :=
  let s := s.noteHw .INT_STAT (2 ^ i)
  let c := s.fld Fld.INT_STAT_CAUSE
  if c.testBit i then s
  else
    let s := s.setFld Fld.INT_STAT_CAUSE (c ||| 2 ^ i)
    if (s.fld Fld.INT_ENABLE_ENABLE).testBit i then s.sendVector i else s

/-! ## Journal frames -/

/-- The first `n` bytes of a plan digest field: 64 bytes, zero with no plan in effect. -/
def State.planDigest64 (s : State) : List Byte :=
  if s.planOn then (s.plan.digest ++ zeros 64).take 64 else zeros 64

/-- The tiles a frame occupies in a local ring (R275). -/
def JFrame.tiles (f : JFrame) : Nat := ceilDiv (68 + f.payload.length) 4096

/-- The partners' acknowledgements that the policy of a record asks for (R273, R275): none for LOCAL,
either partner for ONE, both for BOTH. -/
def State.ackedBy (s : State) (fseq policy : Nat) : Bool :=
  let a0 := fseq ≤ s.fld Fld.JRNL_J0_ACKED_ACKED
  let a1 := fseq ≤ s.fld Fld.JRNL_J1_ACKED_ACKED
  match policy with
  | 0 => true
  | 1 => a0 || a1
  | _ => a0 && a1

/-- R275: a record that recovery could need, or that its policy's partners have not acknowledged. -/
def State.keepFrame (s : State) (f : JFrame) : Bool :=
  !s.ackedBy f.fseq f.policy ||
  (f.orderSeq != 0 &&
    ((s.planOn && f.orderSeq == s.plan.seq) || s.plan.binds.any (fun b => b.seq == f.orderSeq) ||
     s.intake.orders.any fun o => o.seq == f.orderSeq)) ||
  (s.jrnl.ctxFseq != 0 && s.jrnl.ctxFseq ≤ f.fseq)

/-- The tiles of a ring: 8 GiB (R274). -/
def ringTiles : Nat := 2 ^ 21

/-- Occupancy of the fuller ring, in tiles (R275). -/
def State.occupancy (s : State) : Nat :=
  let kept := s.jrnl.frames.filter s.keepFrame
  max ((kept.filter (·.inHbm)).map (·.tiles)).sum ((kept.filter (·.inLp)).map (·.tiles)).sum

/-- JRNL_STAT.LOCAL_USED follows the occupancy. -/
def State.showUsed (s : State) : State :=
  s.setFld Fld.JRNL_STAT_LOCAL_USED (min (s.occupancy * 65536 / ringTiles) 65535)

/-- The rings reuse the oldest tiles that may be overwritten until `need` tiles fit (R275). -/
def dropOldest (keep : JFrame → Bool) (need : Nat) : List JFrame → List JFrame
  | [] => []
  | f :: fs =>
    if ringTiles < need + ((f :: fs).map (·.tiles)).sum then
      if keep f then f :: dropOldest keep (need + f.tiles) fs else dropOldest keep need fs
    else f :: fs

/-- A journal port takes a new frame onto its queue while it is UP. -/
def JPort.push (p : JPort) (up : Bool) (fseq : Nat) : JPort :=
  if up then { p with queue := p.queue ++ [(fseq, false)] } else p

/-- Frames may be formed: the compute die runs. -/
def State.addFrameRaw (s : State) (typ : Nat) (lastPart : Bool) (orderSeq policy : Nat)
    (payload : List Byte) : State :=
  if s.cUp then
    let n := s.fld Fld.JRNL_NEXT_FSEQ_FSEQ
    let f : JFrame := ⟨n, typ, lastPart, s.stepNow, s.phi, s.fld Fld.JRNL_STAT_SEGMENT, orderSeq,
      payload, policy, true, true⟩
    let kept := dropOldest s.keepFrame f.tiles s.jrnl.frames
    ({ s with
       jrnl := { s.jrnl with
         frames := kept ++ [f]
         j0 := s.jrnl.j0.push (s.fld Fld.JRNL_STAT_J0_STATE == 3) n
         j1 := s.jrnl.j1.push (s.fld Fld.JRNL_STAT_J1_STATE == 3) n
         segBytes := s.jrnl.segBytes + payload.length }
       mram := { s.mram with fseq := n + 1 } }).setFld Fld.JRNL_NEXT_FSEQ_FSEQ (n + 1)
  else s

/-- The policy in force now (R273). -/
def State.policyNow (s : State) : Nat := s.fld Fld.DURABILITY_POLICY_POLICY

/-- A segment closes, when one is open, and the next opens (R280, R284). -/
def State.newSegment (s : State) : State :=
  let p := s.policyNow
  let seg := s.fld Fld.JRNL_STAT_SEGMENT
  let n := s.fld Fld.JRNL_NEXT_FSEQ_FSEQ
  let s := if seg == 0 then s else
    s.addFrameRaw 6 true 0 p ([1] ++ zeros 7 ++ natLe s.jrnl.segFirst 8 ++ natLe (n - 1) 8 ++
      natLe (n - s.jrnl.segFirst) 8 ++ s.planDigest64 ++ zeros 32)
  let n := s.fld Fld.JRNL_NEXT_FSEQ_FSEQ
  let s := s.setFld Fld.JRNL_STAT_SEGMENT (seg + 1)
  let s := { s with jrnl := { s.jrnl with segFirst := n, segBytes := 0 } }
  s.addFrameRaw 6 true 0 p ([0] ++ zeros 7 ++ natLe n 8 ++ zeros 16 ++ s.planDigest64 ++ zeros 32)

/-- A journal frame is formed; the first frame opens segment 1, and a segment whose payload reaches
4 GiB gives way to the next (R284). -/
def State.addFrame (s : State) (typ : Nat) (lastPart : Bool) (orderSeq policy : Nat)
    (payload : List Byte) : State :=
  let s := if s.cUp && s.fld Fld.JRNL_STAT_SEGMENT == 0 then s.newSegment else s
  let s := s.addFrameRaw typ lastPart orderSeq policy payload
  let s := if 2 ^ 32 ≤ s.jrnl.segBytes then s.newSegment else s
  s.showUsed

/-- A record cut into frames of OFFSET, TOTAL and bytes, the last padded to a multiple of 4 (R280). -/
def splitRecord (total : Nat) (off : Nat) (bs : List Byte) : Nat → List (Bool × List Byte)
  | 0 => []
  | k + 1 =>
    let part := bs.take 65520
    let rest := bs.drop 65520
    let head := natLe off 8 ++ natLe total 8
    if rest.isEmpty then [(true, head ++ padTo 4 part)]
    else (false, head ++ part) :: splitRecord total (off + 65520) rest k

/-- A record formed as frames of one type. -/
def State.addRecord (s : State) (typ orderSeq policy : Nat) (bs : List Byte) : State :=
  (splitRecord bs.length 0 bs (bs.length / 65520 + 1)).foldl
    (fun s p => s.addFrame typ p.1 orderSeq policy p.2) s

/-- The FSEQ of the last frame formed. -/
def State.lastFseq (s : State) : Nat := s.fld Fld.JRNL_NEXT_FSEQ_FSEQ - 1

/-! ## Belfry -/

/-- The codes that their tables mark as informational (R390). -/
def infoCodes : List Nat :=
  [0x200D, 0xA014, 0xA015, 0xA025, 0xA031, 0xA032, 0xA034, 0xA035, 0x3006, 0x4003, 0x5003, 0x5006,
   0x5007, 0x5011, 0x1016, 0x6004, 0x600C, 0x6010, 0x6011, 0x7002, 0x7010, 0x7021, 0x8011, 0x8031,
   0x4017, 0x9006]

/-- The codes of ALERT severity (R390). -/
def alertCodes : List Nat :=
  [0x4012, 0x4016, 0x6003, 0x6007, 0x6008, 0x600A, 0x6012, 0x6014, 0x7003, 0x7020, 0x7031, 0x8030,
   0x9003]

/-- SEVERITY of a code: 0 INFO, 1 WARNING, 2 ALERT (R390). -/
def severity (code : Nat) : Nat :=
  if code ∈ alertCodes then 2 else if code ∈ infoCodes then 0 else 1

/-- The codes that are never rate-limited (R392). -/
def unlimitedCodes : List Nat :=
  [0x8001, 0x8002, 0x8008, 0x8009, 0x800A, 0x9001, 0x9003, 0x9004]

/-- The SOURCE of what an agent on a port did (R388). -/
def Port.source (p : Port) : Source := if p == .host then .host else .mgmt

/-- The code of a SOURCE (R388). -/
def sourceCode : Source → Nat
  | .die => 0 | .dmc => 1 | .rom => 2 | .host => 3 | .mgmt => 4

/-- The 32 bytes of a record of now (R388, R389). -/
def State.recordBytes (s : State) (code payload suppressed : Nat) (summary : Bool) (src : Source) :
    List Byte :=
  let attr := severity code + summary.toNat * 4 + s.running.toNat * 8 + sourceCode src * 256
  let b := natLe code 2 ++ natLe attr 2 ++ natLe (min suppressed 0xFFFF) 2 ++ natLe s.mram.hours 5 ++
    natLe (s.fld Fld.BELFRY_TALLY_POWER_CYCLES) 3 ++ natLe s.stepNow 6 ++ natLe payload 8
  b ++ natLe (crc crc32ieee b) 4

/-- The bucket of a code: at most BURST tokens (R391). -/
def State.bucket (s : State) (code : Nat) : Bucket :=
  let b := (s.bel.buckets.find? (·.code == code)).getD ⟨code, s.bel.full, 0, 0⟩
  { b with tokens := min b.tokens (s.fld Fld.BELFRY_CTL_BURST) }

/-- A code's bucket given a value. -/
def State.setBucket (s : State) (b : Bucket) : State :=
  { s with bel := { s.bel with buckets := b :: s.bel.buckets.filter (·.code != b.code) } }

/-- Both copies have failed (R395). -/
def State.logLost (s : State) : Bool :=
  s.flag Fld.BELFRY_STAT_COPY0_FAILED && s.flag Fld.BELFRY_STAT_COPY1_FAILED

/-- CODE of a record (R388). -/
def recordCode (r : List Byte) : Nat := fieldAt r 0 2

/-- A record put at the end of what holds it, but ahead of those of higher CODE among the `n` last, which reached the
management die in the same cycle (R393). -/
def placeRecord (n : Nat) (l : List (List Byte)) (r : List Byte) : List (List Byte) :=
  let k := l.length - n
  l.take k ++ (l.drop k).takeWhile (fun x => recordCode x ≤ recordCode r) ++ r ::
    (l.drop k).dropWhile fun x => recordCode x ≤ recordCode r

/-- The newest record of a ring of `size` replaces the oldest when the ring is full. -/
def ringPush (size n : Nat) (l : List (List Byte)) (r : List Byte) : List (List Byte) :=
  placeRecord n (if l.length < size then l else l.drop 1) r

/-- Records of this cycle that stand at the end of what holds them. -/
def State.wroteNow (s : State) : Nat := if s.bel.wrote.1 == s.now then s.bel.wrote.2 else 0

/-- A record has been placed. -/
def State.countWrote (s : State) : State := { s with bel := { s.bel with wrote := (s.now, s.wroteNow + 1) } }

/-- Later records stand behind all that are held now. -/
def State.endWrote (s : State) : State := { s with bel := { s.bel with wrote := (s.now, 0) } }

/-- A record's CRC passes. -/
def recordGood (r : List Byte) : Bool := r.length == 32 && fieldAt r 28 4 == crc crc32ieee (r.take 28)

/-- What a capture sees. -/
structure Capture where
  bytes : List Byte
  bad : Bool
  copy : Nat
  repair : Option Nat
  outOfRange : Bool
  deriving DecidableEq, Repr

/-- The capture of index `i` of two copies of an area (R397); a copy marked failed passes no check and
is not rewritten (R394, R395). -/
def captureOf (a0 a1 : List (List Byte)) (fail0 fail1 : Bool) (count sel i : Nat) : Capture :=
  if count ≤ i then ⟨zeros 32, false, 0, none, true⟩
  else
    let r0 := (a0[i]?).getD (zeros 32)
    let r1 := (a1[i]?).getD (zeros 32)
    match sel with
    | 1 => ⟨r0, fail0 || !recordGood r0, 0, none, false⟩
    | 2 => ⟨r1, fail1 || !recordGood r1, 1, none, false⟩
    | _ =>
      match recordGood r0 && !fail0, recordGood r1 && !fail1 with
      | true, true => ⟨r0, false, 0, none, false⟩
      | true, false => ⟨r0, false, 0, if fail1 then none else some 1, false⟩
      | false, true => ⟨r1, false, 1, if fail0 then none else some 0, false⟩
      | false, false => ⟨r0, true, 0, none, false⟩

/-- The copies of the area that a port has selected, oldest first, and the records held. -/
def State.belfryArea (s : State) (p : Port) : List (List Byte) × List (List Byte) × Nat :=
  let area := bitsOf (s.reg (Reg.at p .BELFRY_SEL_AREA)).toNat 0 1
  if area == 0 then (s.mram.first0, s.mram.first1, s.fld Fld.BELFRY_TOTAL_FIRST_COUNT)
  else (s.mram.last0, s.mram.last1, s.fld Fld.BELFRY_STAT_LAST_COUNT)

/-- What a capture by a port sees now. -/
def State.belfryCapture (s : State) (p : Port) : Capture :=
  let (a0, a1, n) := s.belfryArea p
  captureOf a0 a1 (s.flag Fld.BELFRY_STAT_COPY0_FAILED) (s.flag Fld.BELFRY_STAT_COPY1_FAILED) n
    (bitsOf (s.reg (Reg.at p .BELFRY_SEL_AREA)).toNat 1 2) ((s.reg (Reg.at p .BELFRY_INDEX)).toNat % 2 ^ 17)

/-- A capture in a port's registers (R397, R422). -/
def State.putCapture (s : State) (p : Port) (c : Capture) : State :=
  let put (s : State) (q : Reg) (k : Nat) := s.setReg (Reg.at p q) (BitVec.ofNat 64 (fieldAt c.bytes k 8))
  let s := put (put (put (put s .BELFRY_REC0 0) .BELFRY_REC1 8) .BELFRY_REC2 16) .BELFRY_REC3 24
  let stat := (!c.outOfRange).toNat + c.bad.toNat * 2 + c.copy * 4 + c.repair.isSome.toNat * 8 +
    c.outOfRange.toNat * 16
  s.setReg (Reg.at p .BELFRY_REC_STAT) (BitVec.ofNat 64 stat)

/-- A capture in the cycle in which a record is written sees the ring after that write (R397). -/
def State.recapture (s : State) : State :=
  let again (s : State) (p : Port) (at_ : Option Nat) :=
    if at_ == some s.now then s.putCapture p (s.belfryCapture p) else s
  again (again s .host s.bel.capHost) .mgmt s.bel.capMgmt

/-- A record enters the areas of each copy that has not failed, is counted, and is journaled (R393). -/
def State.storeRecord (s : State) (r : List Byte) : State :=
  let n := s.fld Fld.BELFRY_TOTAL_FIRST_COUNT
  let ok0 := !s.flag Fld.BELFRY_STAT_COPY0_FAILED
  let ok1 := !s.flag Fld.BELFRY_STAT_COPY1_FAILED
  let m := s.mram
  let first := decide (n < 4096)
  let s := { s with mram := { m with
    first0 := if first && ok0 then placeRecord s.wroteNow m.first0 r else m.first0
    first1 := if first && ok1 then placeRecord s.wroteNow m.first1 r else m.first1
    last0 := if ok0 then ringPush 65536 s.wroteNow m.last0 r else m.last0
    last1 := if ok1 then ringPush 65536 s.wroteNow m.last1 r else m.last1 } }
  let s := s.setFld Fld.BELFRY_TOTAL_TOTAL (s.fld Fld.BELFRY_TOTAL_TOTAL + 1)
  let s := if first then s.setFld Fld.BELFRY_TOTAL_FIRST_COUNT (n + 1) else s
  let s := (s.setFld Fld.BELFRY_STAT_LAST_COUNT (min (s.fld Fld.BELFRY_STAT_LAST_COUNT + 1) 65536)).countWrote.recapture
  s.addFrame 5 true 0 s.policyNow r

/-- A record whose event passed the rate limit: an ALERT sets the pending alert and goes out as a
platform event (R390); the record is stored, counted as unlogged when both copies have failed
(R395), or held in the pending buffer under FREEZE or during a DMC restart (R372, R398). -/
def State.writeRecord (s : State) (code : Nat) (r : List Byte) : State :=
  let s := if severity code == 2 then
      ({ s with mgmt := { s.mgmt with alertPending := true, events := s.mgmt.events ++ [r] } }).emit
        (.platformEvent r)
    else s
  if s.logLost then s.incFld Fld.BELFRY_AT_LIMIT_UNLOGGED
  else if s.flag Fld.BELFRY_CTL_FREEZE || s.sec.dmcDown then
    let room := if code ∈ unlimitedCodes then 256 else 240
    if s.bel.pending.length < room then
      let s := { s with bel := { s.bel with pending := placeRecord s.wroteNow s.bel.pending r } }
      (s.countWrote.setFld Fld.BELFRY_STAT_PENDING s.bel.pending.length).maxFld Fld.BELFRY_PENDING_MAX_LEVEL
        s.bel.pending.length
    else ({ s with bel := { s.bel with dropped := s.bel.dropped + 1 } }).incFld
        Fld.BELFRY_PENDING_OVERFLOW
  else s.storeRecord r

/-- A bucket that is not full gains one token. -/
def Bucket.refill (burst : Nat) (b : Bucket) : Bucket :=
  if b.tokens < burst then { b with tokens := b.tokens + 1 } else { b with tokens := burst }

/-- Every bucket after a refill; a bucket like all the others with nothing suppressed needs no entry. -/
def State.refillAll (s : State) : State :=
  let burst := s.fld Fld.BELFRY_CTL_BURST
  let full := min (s.bel.full + 1) burst
  let l := (s.bel.buckets.map (·.refill burst)).filter fun b => b.tokens != full || b.suppressed != 0
  { s with bel := { s.bel with buckets := l, full := full, refillTick := s.mram.hours } }

/-- One summary record, when the code has suppressed events, a token, and no event of its own for 16
ticks since its last suppressed event (R391). -/
def State.summary (s : State) (code : Nat) : State :=
  let b := s.bucket code
  if b.suppressed != 0 && b.tokens != 0 && b.lastTick + 16 ≤ s.mram.hours then
    let r := s.recordBytes code 0 b.suppressed true .dmc
    (s.setBucket { b with tokens := b.tokens - 1, suppressed := 0 }).writeRecord code r
  else s

/-- The codes that have a bucket of their own, ascending. -/
def State.bucketCodes (s : State) : List Nat :=
  sortNats (s.bel.buckets.map (·.code))

/-- The summary records that are due at this tick. -/
def State.summaries (s : State) : State := s.bucketCodes.foldl State.summary s

/-- A refill is due: RATE_TICKS ticks have passed since the last one (R391). -/
def State.refillDue (s : State) : Bool :=
  decide (s.bel.refillTick + s.fld Fld.BELFRY_CTL_RATE_TICKS ≤ s.mram.hours)

/-- A refill that falls in the same tick as an event comes first (R391). -/
def State.refillFirst (s : State) : State := if s.refillDue then s.refillAll.summaries else s

/-- An event reaches the management die (R391, R424): its interrupt bits, then the rate limit, then
its record. -/
def State.record (s : State) (code payload : Nat) (src : Source := .die) : State :=
  if s.pwr.auxGood then
    let s := s.refillFirst
    let sev := severity code
    let nib := code / 4096
    let s := if sev != 0 && 1 ≤ nib && nib ≤ 10 && s.cUp then s.setCause (4 + nib) else s
    let s := if sev == 2 && s.cUp then s.setCause 15 else s
    if code ∈ unlimitedCodes then s.writeRecord code (s.recordBytes code payload 0 false src)
    else
      let b := s.bucket code
      if b.tokens == 0 then s.setBucket { b with suppressed := b.suppressed + 1, lastTick := s.mram.hours }
      else
        let r := s.recordBytes code payload b.suppressed false src
        (s.setBucket { b with tokens := b.tokens - 1, suppressed := 0 }).writeRecord code r
  else s

/-- The pending buffer drains in order, and 0x9004 follows when records were dropped (R398). -/
def State.drainPending (s : State) : State :=
  let l := s.bel.pending
  let d := s.bel.dropped
  let s := { s with bel := { s.bel with pending := [], dropped := 0 } }
  let s := (s.setFld Fld.BELFRY_STAT_PENDING 0).endWrote
  let s := l.foldl (fun s r => (s.storeRecord r).endWrote) s
  if d == 0 then s else s.record 0x9004 d .dmc

/-- What the journal keeps of a write: the register at an offset holds a value from ⟨`step`, `phase`⟩ on (R36, R93,
R409). How an EVENT frame carries it the spec does not state, so it is kept beside the frames (log 11). -/
def State.noteValue (s : State) (off value step phase : Nat) : State :=
  { s with jrnl := { s.jrnl with configs := ⟨off, value, step, phase⟩ :: s.jrnl.configs } }

/-- The frames formed since FSEQ `n` carry the coordinate ⟨`step`, `phase`⟩. -/
def State.stampFrames (s : State) (n step phase : Nat) : State :=
  { s with jrnl := { s.jrnl with frames := s.jrnl.frames.map fun f =>
      if n ≤ f.fseq then { f with step := step, phase := phase } else f } }

/-- A configuration change is journaled with the ⟨S, φ⟩ it bears and recorded in Belfry (R36, R93, R243). The spec names
no code for that record, so its code is free; a record whose table names no payload carries 0 (R388, log 11). -/
def State.noteChange (s : State) (off value step phase : Nat) (src : Source) : State :=
  ((s.noteValue off value step phase).record Config.configCode 0 src).stampFrames (s.fld Fld.JRNL_NEXT_FSEQ_FSEQ)
    step phase

/-- A write to a configuration register, as it stands after the write, is noted at the ⟨S, φ⟩ of its arrival. -/
def State.noteConfig (s : State) (r : Reg) (src : Source) : State :=
  s.noteChange r.offset (s.reg r).toNat s.stepNow s.phi src

/-- A write or change that is recorded under a code of its own is journaled with no further record. -/
def State.noteOwn (s : State) (r : Reg) : State := s.noteValue r.offset (s.reg r).toNat s.stepNow s.phi

end Sys2Proof.Machine
end

