-- ==== Sys2Proof/Machine/Windows.lean ====
section
/-! DEFINITION. Phase windows (R48, R49): which windows a step holds, the phases at which they open and
close, and the conditions they stand for. -/

namespace Sys2Proof.Machine

/-- Window kinds (R84). -/
def wIntake : Nat := 0
def wStepStart : Nat := 1
def wCompute : Nat := 2
def wCheckpoint : Nat := 3
def wScrub : Nat := 4
def wSelftest : Nat := 5
def wFlush : Nat := 6

/-- The default window of a kind, if it has one (R49). -/
def defaultWindow : Nat → Option Window
  | 0 => some ⟨0, 0, 65536, 1, 0⟩
  | 1 => some ⟨1, 0, 65536, 1, 0⟩
  | 2 => some ⟨2, 0, 65536, 1, 0⟩
  | 3 => some ⟨3, 32768, 65536, 64, 0⟩
  | 6 => some ⟨6, 57344, 65536, 1, 0⟩
  | _ => none

/-- A step holds a window (R48, repeat). -/
def Window.inStep (w : Window) (step : Nat) : Bool := step % w.period == w.offset

/-- The windows of a kind that a step holds: the declared ones, or the kind's default when the plan
declares none; STEP_START and COMPUTE fall back to the default in every step without one (R48). -/
def State.windowsOf (s : State) (kind step : Nat) : List Window :=
  let decl := s.plan.data.windows.filter (·.kind == kind)
  let here := decl.filter (·.inStep step)
  if decl.isEmpty || (here.isEmpty && (kind == wStepStart || kind == wCompute)) then
    ((defaultWindow kind).toList).filter (·.inStep step)
  else here

/-- The phase at which a window opens, among `p` phases (R48). -/
def Window.openPhase (w : Window) (p : Nat) : Nat := w.wOpen * p / 65536

/-- The phase at whose start a window closes; `p` stands for the end of the step. Equal phases widen
the window by one phase (R48). -/
def Window.closePhase (w : Window) (p : Nat) : Nat :=
  let c := w.wClose * p / 65536
  if c == w.openPhase p then c + 1 else c

/-- The window is widened under `p` phases (R48). -/
def Window.widened (w : Window) (p : Nat) : Bool := w.wClose * p / 65536 == w.openPhase p

/-- The window is open in a phase. -/
def Window.openAt (w : Window) (p phase : Nat) : Bool := w.openPhase p ≤ phase && phase < w.closePhase p

/-- PHASES_PER_STEP in effect (R9, R41). -/
def State.phases (s : State) : Nat := 2 ^ s.fld Fld.STEP_PHASE_PHASES_LOG2

/-- Some window of the kind is open in the step in progress. -/
def State.windowOpen (s : State) (kind : Nat) : Bool :=
  (s.windowsOf kind s.stepNow).any (·.openAt s.phases s.phi)

/-- No step is in progress to pace the INTAKE window (R49). -/
def State.unpaced (s : State) : Bool :=
  !s.planOn || !s.running || s.flag Fld.STEP_STAT_HELD || s.flag Fld.SPARE_STAT_PAUSED || s.halted || s.power == 2

/-- An INTAKE window is open, or counts as open because no step is in progress to pace it (R49). -/
def State.intakeOpen (s : State) : Bool :=
  s.unpaced || s.windowOpen wIntake

/-- An INTAKE window closes in this cycle: one held the phase before the one that began now (R263). -/
def State.intakeCloses (s : State) : Bool :=
  s.stept.phaseAt == s.now && s.phi != 0 &&
  (s.windowsOf wIntake s.stepNow).any (·.openAt s.phases (s.phi - 1)) && !s.windowOpen wIntake

/-- The widened windows of the step that open in the current phase and have not been recorded since
the plan took effect or PHASES_LOG2 changed: 0x200D for each (R48). -/
def State.sayWidened (s : State) : State :=
  let l2 := s.fld Fld.STEP_PHASE_PHASES_LOG2
  let s := if s.stept.widenedFor == l2 then s else
    { s with stept := { s.stept with widened := [], widenedFor := l2 } }
  (List.range 7).foldl (fun s kind =>
    (s.windowsOf kind s.stepNow).foldl (fun s w =>
      let key := kind * 2 ^ 17 + w.wOpen
      if w.widened s.phases && w.openPhase s.phases == s.phi && !s.stept.widened.contains key then
        ({ s with stept := { s.stept with widened := key :: s.stept.widened } }).record 0x200D
          (kind + l2 * 256)
      else s) s) s

end Sys2Proof.Machine
end

