-- ==== Sys2Proof/Machine/Journal.lean ====
section
/-! DEFINITION. The journal link (R273, R274, R279 to R284): frames on the wire, credit, training,
acknowledgement, durability and the episodes of a short policy. -/

namespace Sys2Proof.Machine

/-! ## Frames on the wire (R279) -/

/-- The header and trailer of R279 around a payload. -/
def wireFrame (typ flags port fseq step segment serial orderSeq phase : Nat) (payload : List Byte) :
    List Byte :=
  let h := [0x4B, 0x5A, 0x4A] ++ natLe typ 1 ++ [1] ++ natLe flags 1 ++ natLe port 1 ++ [0] ++
    natLe fseq 8 ++ natLe step 8 ++ natLe payload.length 4 ++ natLe segment 4 ++ natLe serial 8 ++
    natLe orderSeq 8 ++ natLe phase 2 ++ zeros 10
  h ++ natLe (crc crc32c h) 4 ++ payload ++ natLe (crc crc32c payload) 4

/-- A journaled frame as one port sends it. -/
def JFrame.wire (f : JFrame) (serial port : Nat) (retx : Bool) : List Byte :=
  wireFrame f.typ (retx.toNat + f.lastPart.toNat * 2) port f.fseq f.step f.segment serial f.orderSeq
    f.phase f.payload

/-- The payload of a frame on the wire. -/
def wirePayload (b : List Byte) : List Byte := slice b 64 (fieldAt b 24 4)

/-- A frame passes its checks: magic, version, reserved fields, length, header and trailer CRC (R280). -/
def wireOk (b : List Byte) : Bool :=
  68 ≤ b.length && b.take 3 == [0x4B, 0x5A, 0x4A] && fieldAt b 4 1 == 1 && fieldAt b 5 1 < 4 &&
  zeroAt b 7 1 && zeroAt b 50 10 && b.length == 68 + fieldAt b 24 4 &&
  fieldAt b 60 4 == crc crc32c (b.take 60) &&
  fieldAt b (b.length - 4) 4 == crc crc32c (wirePayload b)

/-- A frame of a TYPE arrives on the return lanes of a port; a bad one is recorded (R280). -/
def State.checkReturn (s : State) (port typ : Nat) (b : List Byte) : Option State :=
  if wireOk b && fieldAt b 3 1 == typ then none
  else some (s.record 0x1018 (port + fieldAt b 3 1 * 256))

/-! ## Ports -/

/-- Fields of a journal port. -/
def jState (port : Nat) : Field := if port == 0 then Fld.JRNL_STAT_J0_STATE else Fld.JRNL_STAT_J1_STATE
def jAcked (port : Nat) : Field := if port == 0 then Fld.JRNL_J0_ACKED_ACKED else Fld.JRNL_J1_ACKED_ACKED
def jRetx (port : Nat) : Field := if port == 0 then Fld.JRNL_RETX_J0 else Fld.JRNL_RETX_J1
def jAtLimit (port : Nat) : Field := if port == 0 then Fld.JRNL_AT_LIMIT_J0 else Fld.JRNL_AT_LIMIT_J1
def jRetrain (port : Nat) : Field := if port == 0 then Fld.JRNL_CTL_RETRAIN_J0 else Fld.JRNL_CTL_RETRAIN_J1

/-- Hidden state of a journal port. -/
def State.jport (s : State) (port : Nat) : JPort := if port == 0 then s.jrnl.j0 else s.jrnl.j1

/-- A change to the hidden state of a journal port. -/
def State.onPort (s : State) (port : Nat) (f : JPort → JPort) : State :=
  { s with jrnl := if port == 0 then { s.jrnl with j0 := f s.jrnl.j0 } else { s.jrnl with j1 := f s.jrnl.j1 } }

/-- A port counts as up: UP and not in resync (R274). -/
def State.portUp (s : State) (port : Nat) : Bool :=
  s.fld (jState port) == 3 && (s.jport port).resync.isNone

/-- How many ports are up. -/
def State.portsUp (s : State) : Nat := (s.portUp 0).toNat + (s.portUp 1).toNat

/-- The policy in force needs more ports than are up (R274). -/
def State.policyShort (s : State) : Bool := s.portsUp < s.policyNow

/-- The policy a record must meet now: its own, or under ON_LOSS = 1 the strongest that the up ports
allow (R274). -/
def State.policyMet (s : State) (policy : Nat) : Nat :=
  if s.flag Fld.DURABILITY_POLICY_ON_LOSS then min policy s.portsUp else policy

/-- A record is durable (R273, R274); the local rings hold it from the cycle it is formed. -/
def State.durable (s : State) (fseq policy : Nat) : Bool := s.ackedBy fseq (s.policyMet policy)

/-- The episodes of a short policy: flags, and one code per episode (R274). -/
def State.checkPolicy (s : State) : State :=
  if s.policyShort then
    let degrade := s.flag Fld.DURABILITY_POLICY_ON_LOSS
    let said := s.jrnl.short
    let s := { s with jrnl := { s.jrnl with short := true } }
    let s := (s.setFlag Fld.INTAKE_STAT_DUR_HOLD (!degrade)).setFlag Fld.INTAKE_STAT_DUR_DEGRADED degrade
    if said then s
    else if degrade then s.record 0x1014 (min s.policyNow s.portsUp) else s.record 0x1013 0
  else
    let s := { s with jrnl := { s.jrnl with short := false } }
    (s.setFlag Fld.INTAKE_STAT_DUR_HOLD false).setFlag Fld.INTAKE_STAT_DUR_DEGRADED false

/-- A port's JRNL_STAT state changes. -/
def State.setPortState (s : State) (port st : Nat) : State := (s.setFld (jState port) st).checkPolicy

/-- The oldest FSEQ that the rings hold. -/
def State.oldestFseq (s : State) : Nat :=
  match s.jrnl.frames with
  | f :: _ => f.fseq
  | [] => s.fld Fld.JRNL_NEXT_FSEQ_FSEQ

/-! ## FLUSH (R49) -/

/-- The phase at which the last FLUSH window of the step opens, when the step holds one. -/
def State.flushTop (s : State) : Option Nat :=
  match (s.windowsOf wFlush s.stepNow).map (·.openPhase s.phases) with
  | [] => none
  | p :: ps => some (ps.foldl max p)

/-- Every record queued before a phase of the step in progress is durable. -/
def State.flushed (s : State) (top : Nat) : Bool :=
  s.jrnl.frames.all fun f =>
    !(decide (f.step < s.stepNow) || (f.step == s.stepNow && decide (f.phase < top))) || s.durable f.fseq f.policy

/-- That phase has begun. A step run again without a mark has no phases to wait for. -/
def State.flushOpen (s : State) (top : Nat) : Bool := s.stept.anchor.isNone || decide (top ≤ s.phi)

/-- FLUSH is over: its windows have opened, and every record queued before the last of them opened is durable. -/
def State.flushDone (s : State) : Bool :=
  match s.flushTop with
  | some top => s.flushOpen top && s.flushed top
  | none => true

/-- After write-back FLUSH is open and a record that it needs is not durable: what follows starts late for it (R47). -/
def State.noteFlush (s : State) : State :=
  if s.ex.stepEnded && s.flushTop.any fun top => s.flushOpen top && !s.flushed top then
    { s with slog := { s.slog with flushLate := true } }
  else s

/-! ## Sending (R281) -/

/-- Credit units of a frame: ⌈(68 + L) / 4,096⌉. -/
def JFrame.units (f : JFrame) : Nat := ceilDiv (68 + f.payload.length) 4096

/-- The frame at the head of a port's queue, when it may be sent now. -/
def State.sendable (s : State) (port : Nat) : Option (JFrame × Bool) :=
  let p := s.jport port
  if s.fld (jState port) == 3 then
    match p.queue with
    | (n, retx) :: _ =>
      match s.jrnl.frames.find? (·.fseq == n) with
      | some f => if p.used + f.units ≤ p.credit then some (f, retx) else none
      | none => none
    | [] => none
  else none

/-- The frame at the head of a port's queue goes out and consumes its credit. -/
def State.sendFrame (s : State) (port : Nat) : State :=
  match s.sendable port with
  | some (f, retx) =>
    let s := s.emit (.journal port (f.wire s.fuse.serial port retx))
    let s := s.onPort port fun p => { p with
      queue := p.queue.drop 1
      used := p.used + f.units
      unacked := p.unacked ++ [(f.fseq, s.now)] }
    if retx then s.incFld (jRetx port) else s
  | none => s

/-! ## Acknowledgement (R283) -/

/-- The cycle from which ACK_TIMEOUT counts: the sending of the oldest unacknowledged frame, or the last
advance of ACKED when that is later. -/
def JPort.timerFrom (p : JPort) : Option Nat :=
  match p.unacked with
  | (_, c) :: _ => some (max c p.advanced)
  | [] => none

/-- ACKED advances to `n`. -/
def State.advanceAck (s : State) (port n : Nat) : State :=
  let s := match (s.jport port).timerFrom with
    | some c => if s.meets (c + s.fld Fld.JRNL_CTL_ACK_TIMEOUT) then s.incFld (jAtLimit port) else s
    | none => s
  let s := s.setFld (jAcked port) n
  let s := s.onPort port fun p => { p with
    unacked := p.unacked.filter fun u => decide (n < u.1)
    queue := p.queue.filter fun q => decide (n < q.1)
    advanced := s.now
    expiries := 0
    resync := if p.resync.any (· ≤ n) then none else p.resync }
  s.checkPolicy.showUsed

/-- JOURNAL_ACK. An ACK sampled in the cycle in which loss of light is reported still counts (R283). -/
def execJournalAck (t port : Nat) (bytes : List Byte) (s : State) : Result :=
  if 2 ≤ port then .fault .noSuchUnit
  else s.when t (fun s => s.cUp && (s.fld (jState port) == 3 || (s.jport port).lostAt.any fun c => decide (t ≤ c)))
      fun s =>
    match s.checkReturn port 0x10 bytes with
    | some s' => s'
    | none =>
      let n := fieldAt bytes 64 8
      let s := s.onPort port fun p => { p with ackAt := some s.now }
      if s.fld (jAcked port) < n then s.advanceAck port n else s

/-- A FETCH that waits goes out once the unused credit covers its one unit (R281). -/
def State.sendFetch (s : State) (port : Nat) : State :=
  let p := s.jport port
  match p.fetchDue with
  | some (a, b) =>
    if p.used < p.credit then
      let s := s.onPort port fun p => { p with fetchDue := none, used := p.used + 1 }
      s.emit (.journal port (wireFrame 0x0F 0 port 0 s.stepNow (s.fld Fld.JRNL_STAT_SEGMENT) s.fuse.serial 0 s.phi
        (natLe a 8 ++ natLe b 8)))
    else s
  | none => s

/-- JOURNAL_CREDIT. A credit that arrives while a frame waits is used in that cycle (R281). -/
def execJournalCredit (t port : Nat) (bytes : List Byte) (s : State) : Result :=
  if 2 ≤ port then .fault .noSuchUnit
  else s.when t (fun s => s.cUp && s.fld (jState port) == 3) fun s =>
    match s.checkReturn port 0x11 bytes with
    | some s' => s'
    | none => (s.onPort port fun p => { p with credit := max p.credit (fieldAt bytes 64 8) }).sendFetch port

/-- A port goes DOWN: 0x1012 (R283). -/
def State.portDown (s : State) (port : Nat) : State :=
  let s := s.onPort port fun p => { p with
    queue := [], unacked := [], expiries := 0, credit := 0, used := 0 }
  (s.setPortState port 1).record 0x1012 port

/-- JOURNAL_ACK_TIMEOUT: unacknowledged frames are resent, or the port is declared DOWN (R283); an ACK in the expiry
cycle is on time (R57). -/
def execJournalAckTimeout (t port : Nat) (s : State) : Result :=
  if 2 ≤ port then .fault .noSuchUnit
  else s.when t (fun s => s.cUp && s.fld (jState port) == 3 &&
      match (s.jport port).timerFrom with
      | some c => s.past (c + s.fld Fld.JRNL_CTL_ACK_TIMEOUT)
      | none => false) fun s =>
    if s.fld Fld.JRNL_CTL_RETRIES ≤ (s.jport port).expiries + 1 then s.portDown port
    else s.onPort port fun p => { p with
      queue := p.unacked.map (fun u => (u.1, true)) ++ p.queue
      unacked := []
      expiries := p.expiries + 1 }

/-- JOURNAL_LOSS_OF_LIGHT. In the cycle in which an ACK arrives it counts from the next cycle (R283). -/
def execJournalLossOfLight (t port : Nat) (s : State) : Result :=
  if 2 ≤ port then .fault .noSuchUnit
  else s.when t (fun s => s.cUp && 2 ≤ s.fld (jState port)) fun s =>
    let c := s.now
    let s := if (s.jport port).ackAt == some c then s.tick (c + 1) else s
    (s.onPort port fun p => { p with lostAt := some c }).portDown port

/-! ## Training (R282) -/

/-- TRAIN is sent and the port is TRAINING. Credit is counted since training (R280), so none can cover TRAIN, and it is
sent without (R281, log 24). -/
def State.startTraining (s : State) (port : Nat) : State :=
  let pay := natLe (s.fld Fld.JRNL_NEXT_FSEQ_FSEQ) 8 ++ natLe s.oldestFseq 8 ++
    natLe (s.fld Fld.JRNL_STAT_SEGMENT) 4 ++ zeros 12
  let s := s.onPort port fun _ => JPort.reset
  (s.setPortState port 2).emit (.journal port (wireFrame 0x0E 0 port 0 s.stepNow
    (s.fld Fld.JRNL_STAT_SEGMENT) s.fuse.serial 0 s.phi pay))

/-- JOURNAL_LINK_UP: a fitted port that is not ABSENT trains. -/
def execJournalLinkUp (t port : Nat) (s : State) : Result :=
  if 2 ≤ port then .fault .noSuchUnit
  else s.when t (fun s => s.cUp && s.optJ && s.fld (jState port) != 0) fun s => s.startTraining port

/-- The answer to TRAIN: resending from LAST_STORED + 1, or the resynchronisation of a partner whose
copy has a gap: the latest complete context and every record kept after its capture (R282). -/
def State.trained (s : State) (port lastStored credit : Nat) : State :=
  let gap := !s.jrnl.frames.isEmpty && decide (lastStored + 1 < s.oldestFseq)
  let s := if gap then (s.record 0x1015 (port + lastStored % 2 ^ 56 * 256)).newSegment else s
  let fs := s.jrnl.frames.filter fun f =>
    if gap then s.keepFrame f && decide (s.jrnl.ctxFseq ≤ f.fseq) else decide (lastStored < f.fseq)
  let last := ((s.jrnl.frames.getLast?).map (·.fseq)).getD 0
  let s := s.onPort port fun p => { p with
    queue := fs.map fun f => (f.fseq, true)
    unacked := []
    credit := credit
    used := 0
    expiries := 0
    advanced := s.now
    resync := if gap then some last else none }
  (s.setFlag (jRetrain port) false).setPortState port 3

/-- A partner that trains during the recovery of a warm or cold reset is asked for what it stores, from the oldest
record that the rings hold on, or from the first (R277). What it has stored, it has acknowledged. -/
def State.fetchFrom (s : State) (port lastStored : Nat) : State :=
  let from_ := if s.boot.recovering == some .warm then s.oldestFseq else 1
  let s := s.onPort port fun p => { p with stored := some lastStored }
  let s := s.maxFld (jAcked port) lastStored
  if from_ ≤ lastStored then
    (s.onPort port fun p => { p with fetchDue := some (from_, lastStored) }).sendFetch port
  else s

/-- TRAIN_REPLY. -/
def execTrainReply (t port : Nat) (bytes : List Byte) (s : State) : Result :=
  if 2 ≤ port then .fault .noSuchUnit
  else s.when t (fun s => s.cUp && s.fld (jState port) == 2) fun s =>
    match s.checkReturn port 0x12 bytes with
    | some s' => s'
    | none =>
      if s.swNow (jRetrain port) then s.startTraining port
      else
      let s := s.trained port (fieldAt bytes 64 8) (fieldAt bytes 72 8)
      if s.boot.recovering == some .warm || s.boot.recovering == some .cold then s.fetchFrom port (fieldAt bytes 64 8) else s

/-- A frame of the journal read back from its bytes. -/
def JFrame.ofWire (b : List Byte) (policy : Nat) : JFrame :=
  ⟨fieldAt b 8 8, fieldAt b 3 1, (fieldAt b 5 1).testBit 1, fieldAt b 16 8, fieldAt b 48 2,
   fieldAt b 28 4, fieldAt b 40 8, wirePayload b, policy, false, false⟩

/-- One stored frame, whole, as a partner returns it in answer to FETCH (R277, R280). -/
def State.takeReplay (s : State) (port : Nat) (bytes : List Byte) : State :=
  match s.checkReturn port 0x13 bytes with
  | some s' => s'
  | none =>
    let inner := wirePayload bytes
    if wireOk inner then
      { s with jrnl := { s.jrnl with replayed := s.jrnl.replayed ++ [JFrame.ofWire inner s.policyNow] } }
    else s.record 0x1018 (port + 0x13 * 256)

/-- A write to JRNL_CTL: its fields, and training of the ports it names. -/
def State.jrnlCtl (s : State) (a : RegAcc) : State :=
  let s := (s.writeFields .JRNL_CTL a).noteConfig .JRNL_CTL a.port.source
  let go (s : State) (port : Nat) : State :=
    if accSets a (jRetrain port) && s.optJ && s.fld (jState port) != 0 then
      (s.swSet (jRetrain port)).startTraining port
    else s
  go (go s 0) 1

/-- JRNL_RETRAIN. -/
def execJrnlRetrain (t : Nat) (acc : RegAcc) (s : State) : Result :=
  s.access t acc .JRNL_CTL fun s => s.jrnlCtl acc

end Sys2Proof.Machine
end

