-- ==== Sys2Proof/Machine/Grid.lean ====
section
/-! DEFINITION. The site grid (R7, R17, R18, R24), the mapping of logical cores to sites (R33, R293,
R294), attachments (R210), and routes with their latency (R23, R207 to R209, R216, R303). -/

namespace Sys2Proof.Machine

def siteRow (s : Nat) : Nat := s / 36
def siteCol (s : Nat) : Nat := s % 36

/-- SPARE_MAP.KIND of a site: 0 M, 1 V, 2 S, 3 universal (R17). -/
def siteKind (s : Nat) : Nat :=
  let c := siteCol s
  if c == 21 then 3 else if c ∈ [6, 16, 26] then 2
  else if c ∈ [3, 8, 13, 18, 23, 28, 33] then 1 else 0

/-- A site's state. -/
def State.site (s : State) (i : Nat) : SiteSt := s.sites.getD i SiteSt.reset

/-- A change to a site. -/
def State.onSite (s : State) (i : Nat) (f : SiteSt → SiteSt) : State :=
  { s with sites := s.sites.modify i f }

/-- The site is fused as a spare (R17). -/
def State.fusedSpare (s : State) (i : Nat) : Bool :=
  siteKind i == 0 && (s.fuse.spareCols.getD (siteRow i) []).contains (siteCol i)

/-- The site is unused (R18). -/
def State.unused (s : State) (i : Nat) : Bool := s.fuse.unused.contains i

/-- A router that routes go round: a hole, or one that could be made neither bypass nor hole (R303; that routes keep
off the latter as off a hole is the model's reading, log 36). -/
def SiteSt.gap (x : SiteSt) : Bool := x.hole || x.routerLost

/-- A router that forwards nothing (R216, R303). -/
def SiteSt.dead (x : SiteSt) : Bool := x.bypassed || x.gap

/-- A working site: not failed, its router forwarding, not in use by a self-test (R297, R314). -/
def State.working (s : State) (i : Nat) : Bool :=
  let x := s.site i
  i < 720 && x.reason == 0 && !x.dead && !x.testing && !s.unused i

/-- A fused or re-qualified M-site: a spare of its row when it serves no core (R293). -/
def State.spareM (s : State) (i : Nat) : Bool :=
  siteKind i == 0 && (s.fusedSpare i || (s.site i).requalified)

/-- The sites of a row. -/
def rowSites (r : Nat) : List Nat := (List.range 36).map fun c => 36 * r + c

/-- The working M-sites of a row in the order in which R294 takes them. -/
def State.rowOrder (s : State) (r : Nat) : List Nat :=
  let ms := (rowSites r).filter fun i => siteKind i == 0 && s.working i
  ms.filter (fun i => !s.fusedSpare i) ++ ms.filter s.fusedSpare

/-- Room left in rows, with `k` units taken from the rows in order, starting at row `r` (R294). -/
def passOn (r : Nat) : Nat → List Nat → List Nat → Nat → List Nat
  | 0, take, _, _ => take
  | n + 1, take, cap, k =>
    let room := cap.getD r 0 - take.getD r 0
    let x := min room k
    passOn ((r + 1) % 20) n (take.modify r (· + x)) cap (k - x)

/-- The row takes of shape Ln (R294): quotas, then shortfalls to following rows. -/
def rowTakes (n : Nat) (cap : List Nat) : List Nat :=
  let quota := fun r => n / 20 + (if r < n % 20 then 1 else 0)
  let take := (List.range 20).map fun r => min (quota r) (cap.getD r 0)
  (List.range 20).foldl (fun take r =>
    let short := quota r - min (quota r) (cap.getD r 0)
    if short == 0 then take else passOn ((r + 1) % 20) 19 take cap short) take

/-- The sites of the M-cores of shape Ln, in logical order (R294). -/
def State.mapMcores (s : State) (n : Nat) : List Nat :=
  let rows := (List.range 20).map s.rowOrder
  let takes := rowTakes n (rows.map (·.length))
  ((rows.zip takes).map fun p => (rowSites (siteRow (p.1.headD 0))).filter
    fun i => (p.1.take p.2).contains i).flatten

/-- m of R33 and R305: the largest multiple of 8, at most the shape delivered, that the working M-sites
can fill. -/
def State.fillable (s : State) : Nat :=
  min (s.fld Fld.DEV_SHAPE_M_CORES_DELIVERED)
    (((List.range 20).map fun r => (s.rowOrder r).length).sum / 8 * 8)

/-- The free universal site that R293 gives a core of row `r`: its own row, else the nearest row, the
lower row number of two equally near (log 14). -/
def State.universalFor (s : State) (used : List Nat) (r : Nat) : Option Nat :=
  let free := (List.range 20).filter fun q => s.working (36 * q + 21) && !used.contains (36 * q + 21)
  let dist := fun (q : Nat) => ((q : Int) - r).natAbs
  (sortBy (fun a b => dist a < dist b || (dist a == dist b && a ≤ b)) free).head?.map (36 * · + 21)

/-- V- or S-cores at their columns, a failed site's core on a universal site (R293, R294). -/
def State.mapFixed (s : State) (cols : List Nat) (n : Nat) (used : List Nat) : List Nat :=
  ((List.range n).foldl (fun (acc : List Nat × List Nat) v =>
    let r := v / cols.length
    let i := 36 * r + cols.getD (v % cols.length) 0
    let site := if s.working i then i else (s.universalFor acc.2 r).getD i
    (acc.1 ++ [site], site :: acc.2)) ([], used)).1

def vCols : List Nat := [3, 8, 13, 18, 23, 28, 33]
def sCols : List Nat := [6, 16, 26]

/-- Logical cores of shape Ln are mapped afresh (R294). -/
def State.remap (s : State) (n : Nat) : State :=
  let v := s.mapFixed vCols 140 []
  { s with spare := { s.spare with
      mapM := s.mapMcores n, mapV := v, mapS := s.mapFixed sCols 60 v } }

/-- The site of a logical M-, V- or S-core (kind 0, 1, 2). -/
def State.siteOf (s : State) (kind i : Nat) : Option Nat :=
  match kind with
  | 0 => s.spare.mapM[i]?
  | 1 => s.spare.mapV[i]?
  | 2 => s.spare.mapS[i]?
  | _ => none

/-- The logical node that a site serves (R294). -/
def State.serves (s : State) (i : Nat) : Option Nat :=
  match s.spare.mapM.findIdx? (· == i) with
  | some k => some k
  | none =>
    match s.spare.mapV.findIdx? (· == i) with
    | some k => some (1024 + k)
    | none => (s.spare.mapS.findIdx? (· == i)).map (2048 + ·)

/-- A spare M-site that serves no core, fused or re-qualified, or beyond the shape (R293). -/
def State.freeM (s : State) (i : Nat) : Bool :=
  siteKind i == 0 && s.working i && (s.serves i).isNone

/-! ## Attachments (R210) -/

/-- The column at position j along a long edge (R24). -/
def edgeCol (j : Nat) : Nat := (36 * j + 18) / 16

/-- The primary site of a memory port. -/
def portSite (p : Nat) : Nat :=
  let south := (8 ≤ p && p < 16) || 24 ≤ p
  let j := if p < 16 then 2 * (p % 8) else 2 * (p % 8) + 1
  (if south then 684 else 0) + edgeCol j

/-- The alternate site of a memory port. -/
def portAlt (p : Nat) : Nat := portSite p + 1

/-- The router a memory port joins now, and whether it is the alternate. -/
def State.portAt (s : State) (p : Nat) : Nat × Bool :=
  if (s.site (portSite p)).dead then (portAlt p, true) else (portSite p, false)

/-- Ring nodes (R210, R238): primary and alternate sites by number 0 PCIe, 1 management, 2 journal,
3 Campanile. -/
def ringSites : List (Nat × Nat × Nat) :=
  [(0, 288, 289), (0, 324, 325), (0, 396, 397), (0, 432, 433), (1, 360, 361), (2, 323, 322),
   (2, 431, 430), (3, 395, 394)]

/-- A ring node both of whose sites forward nothing is lost (R303). -/
def State.ringLost (s : State) (n : Nat × Nat × Nat) : Bool := (s.site n.2.1).dead && (s.site n.2.2).dead

/-- The router that a ring node joins now. -/
def State.ringAt (s : State) (n : Nat × Nat × Nat) : Nat := if (s.site n.2.1).dead then n.2.2 else n.2.1

/-! ## Routes (R207 to R209, R216, R303) -/

/-- Sites from one column to another along a row, both ends included. -/
def lineRow (r c d : Nat) : List Nat :=
  if c ≤ d then (List.range (d - c + 1)).map fun i => 36 * r + c + i
  else (List.range (c - d + 1)).map fun i => 36 * r + c - i

/-- Sites from one row to another along a column. -/
def lineCol (c r q : Nat) : List Nat :=
  if r ≤ q then (List.range (q - r + 1)).map fun i => 36 * (r + i) + c
  else (List.range (r - q + 1)).map fun i => 36 * (r - i) + c

/-- The site beside one, off a line along a row or a column (R303): the row below or the column to the
east, the row above or the column to the west at the edge of the die. -/
def beside (alongRow : Bool) (i : Nat) : Nat :=
  if alongRow then (if siteRow i == 19 then i - 36 else i + 36)
  else if siteCol i == 35 then i - 1 else i + 1

/-- A straight segment with each hole inside it passed along the adjacent line (R303). -/
def State.aroundHoles (s : State) (alongRow : Bool) : List Nat → List Nat
  | a :: h :: b :: rest =>
    if (s.site h).gap then
      a :: beside alongRow a :: beside alongRow h :: beside alongRow b ::
        s.aroundHoles alongRow (b :: rest)
    else a :: s.aroundHoles alongRow (h :: b :: rest)
  | l => l

/-- Two segments joined at their common site. -/
def joinPath (a b : List Nat) : List Nat := a ++ b.drop 1

/-- The routers a routed transfer visits, both ends included (R207). -/
def State.route (s : State) (a b : Nat) : List Nat :=
  let ra := siteRow a; let ca := siteCol a; let rb := siteRow b; let cb := siteCol b
  let row := fun r c d => s.aroundHoles true (lineRow r c d)
  let col := fun c r q => s.aroundHoles false (lineCol c r q)
  let dead := fun i => i != a && i != b && (s.site i).dead
  if !dead (36 * ra + cb) then joinPath (row ra ca cb) (col cb ra rb)
  else if !dead (36 * rb + ca) then joinPath (col ca ra rb) (row rb ca cb)
  else
    let r := if ra == 19 then 18 else ra + 1
    joinPath (joinPath (col ca ra r) (row r ca cb)) (col cb r rb)

/-- Cycles from one router to the next on a route: one per hop and two per reticle boundary crossed
(R23). -/
def hopCycles (a b : Nat) : Nat :=
  let f := fun i => (siteCol i / 12, siteRow i / 10)
  1 + (if f a == f b then 0 else 2)

/-- The links of a path, each with the cycle at which the head reaches it, counted from injection, and
the latency of the whole. A bypassed router inside the path adds one cycle (R216). -/
def State.pathLinks (s : State) : Nat → List Nat → List (Nat × Nat × Nat) × Nat
  | t, a :: b :: rest =>
    let extra := if rest.isEmpty then 0 else (s.site b).bypassed.toNat
    let r := s.pathLinks (t + hopCycles a b + extra) (b :: rest)
    ((a, b, t) :: r.1, r.2)
  | t, _ => ([], t)

/-- Where a logical node joins the grid, and the cycles of its port link (R208, R210): none for a core,
two for a memory port, one more at the alternate site. -/
def State.nodeAt (s : State) (node : Nat) : Option (Nat × Nat) :=
  if node / 1024 == 3 then
    let p := s.portAt (node % 1024)
    if node % 1024 < 32 then some (p.1, 2 + p.2.toNat) else none
  else (s.siteOf (node / 1024) (node % 1024)).map fun i => (i, 0)

/-- The links and latency of a hop (R208, R209): a PLANE 0 hop between sites that share no row or column
is carried as routed traffic. Port links are numbered 1,024 plus the port. -/
def State.hopPath (s : State) (h : Hop) : Option (List (Nat × Nat × Nat) × Nat × Nat) :=
  match s.nodeAt h.src, s.nodeAt h.dst with
  | some (a, la), some (b, lb) =>
    let direct := h.plane == 0 && (siteRow a == siteRow b || siteCol a == siteCol b)
    let dur := if h.plane == 0 && !direct then ceilDiv h.flits 4 * h.duration else h.duration
    let (ls, t) := s.pathLinks la (s.route a b)
    let plane := if direct then 0 else max 1 h.plane
    let ls := (if la == 0 then [] else [(h.src, a, 0)]) ++ ls ++ (if lb == 0 then [] else [(b, h.dst, t)])
    some (ls.map (fun l => (l.1 * 4096 + l.2.1 + plane * 2 ^ 24, l.2.2, dur)), t + lb, dur)
  | _, _ => none

/-- The site from which a node's rows count: of a memory port its primary attachment (R301). -/
def State.rowSite (s : State) (node : Nat) : Option Nat :=
  if node / 1024 == 3 then (if node % 1024 < 32 then some (portSite (node % 1024)) else none)
  else s.siteOf (node / 1024) (node % 1024)

/-- The rows a hop's route touches, from the primary attachment sites onward (R301). -/
def State.hopRows (s : State) (h : Hop) : Nat :=
  match s.rowSite h.src, s.rowSite h.dst with
  | some a, some b => ((s.route a b).map siteRow).dedup.length
  | _, _ => 0

/-! ## Allocation (R211, R212) -/

/-- A link is free for a transfer that starts at cycle `t`, reservations being cyclic. -/
def linkFree (cps : Nat) (res : List (Nat × Nat × Nat)) (link t dur : Nat) : Bool :=
  res.all fun r => r.1 != link ||
    (let d := (t + cps - r.2.1 % cps) % cps
     let e := (r.2.1 + cps - t % cps) % cps
     r.2.2 ≤ d && dur ≤ e)

/-- The injection cycle: the first at or after CYCLE in which every link is free (R211). A saturated
link leaves CYCLE plus one whole period (log 13). -/
def allocCycle (cps : Nat) (res ls : List (Nat × Nat × Nat)) (c : Nat) : Nat → Nat
  | 0 => c
  | n + 1 =>
    if ls.all fun l => linkFree cps res l.1 (c + l.2.1) l.2.2 then c
    else allocCycle cps res ls (c + 1) n

/-- Hops allocated in ascending CYCLE order, ties by record order (R211): for each hop, A and L. -/
def State.allocHops (s : State) (sh : ShapeP) : List (Nat × Nat) :=
  let cps := max 1 sh.cycles
  let order := sortBy (fun x y => x.1.cycle ≤ y.1.cycle) sh.hops.zipIdx
  let out := (order.foldl (fun (acc : List (Nat × Nat × Nat) × List (Nat × Nat × Nat)) x =>
    match s.hopPath x.1 with
    | some (ls, l, _) =>
      let a := allocCycle cps acc.1 ls x.1.cycle cps
      (ls.map (fun k => (k.1, a + k.2.1, k.2.2)) ++ acc.1, (x.2, a, l) :: acc.2)
    | none => (acc.1, (x.2, x.1.cycle, 0) :: acc.2)) ([], [])).2
  (List.range sh.hops.length).map fun i =>
    ((out.find? (·.1 == i)).map (·.2)).getD (0, 0)

/-- MESH_PLAN after an allocation, and 0x5011 when a lag exceeds its SLACK (R211, R212). -/
def State.noteAlloc (s : State) : State :=
  let lags := (s.mesh.hops.zip s.plan.shape.hops).map fun p => (p.1.a' - p.2.cycle, p.2.slack)
  let late := lags.filter fun p => decide (p.2 < p.1)
  let most := (lags.map (·.1)).foldl max 0
  let s := (s.setFld Fld.MESH_PLAN_OVER_SLACK late.length).setFld Fld.MESH_PLAN_MAX_LAG most
  if late.isEmpty then s else s.record 0x5011 (late.length + most * 2 ^ 32)

/-- PLAN_LOAD allocates the hops and fixes T (R211, R212). -/
def State.allocPlan (s : State) : State :=
  let sh := s.plan.shape
  let hops := ((s.allocHops sh).zip sh.hops).map fun p =>
    HopAlloc.mk p.1.1 p.1.2 (p.1.1 + p.1.2 + p.2.slack) p.1.1 p.1.2
  ({ s with mesh := { s.mesh with hops := hops } } : State).noteAlloc

/-- The hops as an allocation under the present mapping and routes would give them, T staying. -/
def State.trialHops (s : State) : State :=
  let al := s.allocHops s.plan.shape
  { s with mesh := { s.mesh with hops := (s.mesh.hops.zip al).map fun p =>
      { p.1 with a' := p.2.1, l' := p.2.2 } } }

/-- A change of mapping or routes allocates the hops anew under the same rule (R212). -/
def State.reallocHops (s : State) : State := s.trialHops.noteAlloc

/-- What routes depend on: the mapping, and routers that forward nothing. -/
def State.routing (s : State) : List Nat × List (Bool × Bool × Bool) :=
  (s.spare.mapM ++ s.spare.mapV ++ s.spare.mapS, s.sites.map fun x => (x.bypassed, x.hole, x.routerLost))

/-- Hops are allocated anew when the mapping or the routes have changed since a state. -/
def State.reallocFrom (s before : State) : State :=
  if s.routing == before.routing then s else s.reallocHops

/-- The shortfall σ of the hops as allocated, and how many are short (R302). -/
def State.shortfall (s : State) : Nat × Nat :=
  let sh := s.mesh.hops.map fun h => h.a' + h.l' - h.t
  (sh.foldl max 0, (sh.filter (0 < ·)).length)

end Sys2Proof.Machine
end

