-- ==== Sys2Proof/Machine/PlanParse.lean ====
section
/-! DEFINITION. Reading a plan image (R70 to R84): the header and section table, the walk of every
section, and the records it declares. -/

namespace Sys2Proof.Machine

/-- The index that marks an unused lane or an absent partner (R63). -/
def noVar : Nat := 0xFFFFFFFFFF

/-- `n` records of `size` bytes from offset `off`. -/
def recs (b : List Byte) (off size : Nat) : Nat → List (List Byte)
  | 0 => []
  | n + 1 => slice b off size :: recs b (off + size) size n

/-- No two spans (offset, length) of a list overlap. -/
def disjointSpans : List (Nat × Nat) → Bool
  | [] => true
  | (o, n) :: rest =>
    rest.all (fun p => o + n ≤ p.1 || p.1 + p.2 ≤ o || n == 0 || p.2 == 0) && disjointSpans rest

/-! ## Header and section table (R71, R72) -/

/-- A section table entry, with its position in the table. -/
structure Sect where
  pos : Nat
  id : Nat
  shape : Nat
  crc : Nat
  off : Nat
  len : Nat
  deriving DecidableEq, Repr

/-- The entries in use: those that are not all zero. -/
def sectTable (img : List Byte) : List Sect :=
  ((recs img 128 24 24).zipIdx.filter fun p => !allZero p.1).map fun p =>
    ⟨p.2, fieldAt p.1 0 1, fieldAt p.1 1 1, fieldAt p.1 4 4, fieldAt p.1 8 8, fieldAt p.1 16 8⟩

/-- The bytes of a section. -/
def Sect.bytes (img : List Byte) (x : Sect) : List Byte := slice img x.off x.len

/-- A section's bytes by ID and SHAPE. -/
def sectBytes (img : List Byte) (id shape : Nat) : List Byte :=
  match (sectTable img).find? (fun x => x.id == id && x.shape == shape) with
  | some x => x.bytes img
  | none => []

def planSigned (img : List Byte) : Bool := (fieldAt img 8 4).testBit 0
def planSync (img : List Byte) : Bool := (fieldAt img 8 4).testBit 1
def planFallback (img : List Byte) : List Nat := [fieldAt img 18 2, fieldAt img 20 2, fieldAt img 22 2]

/-- The shapes that the header names, as SHAPE and n (R72). -/
def namedShapes (img : List Byte) : List (Nat × Nat) :=
  (0, fieldAt img 16 2) ::
    (((planFallback img).zipIdx.map fun p => (p.2 + 1, p.1)).filter fun p => p.2 != 0)

/-- The sections that R72 asks for, as ID and SHAPE. -/
def wantedSections (img : List Byte) : List (Nat × Nat) :=
  [1, 5, 6, 7, 8].map (fun i => (i, 0)) ++
  ([2, 3, 4].map fun i => (namedShapes img).map fun p => (i, p.1)).flatten ++
  (if planSigned img then [(15, 0)] else [])

/-- N_PARCELS of the header (bits 34:0). -/
def hdrParcels (img : List Byte) : Nat := fieldAt img 40 8 % 2 ^ 35

/-! ## Walking a section (R72) -/

/-- The end of a table of groups of ANNEAL, if each stays within the section (R83). -/
def groupsEnd (b : List Byte) (off : Nat) : Nat → Option Nat
  | 0 => some off
  | n + 1 =>
    let e := off + roundUp (16 + 5 * fieldAt b (off + 6) 2) 8
    if off + 16 ≤ b.length && e ≤ b.length then groupsEnd b e n else none

/-- The groups' bytes, each with its padding. -/
def groupRecs (b : List Byte) (off : Nat) : Nat → List (List Byte)
  | 0 => []
  | n + 1 =>
    let len := roundUp (16 + 5 * fieldAt b (off + 6) 2) 8
    slice b off len :: groupRecs b (off + len) n

/-- A prologue and fixed-size tables lie within a section; `pro` is the prologue's size and `tabs` the
tables' record sizes and counts. Their end. -/
def tablesEnd (len pro : Nat) (tabs : List (Nat × Nat)) : Option Nat :=
  let e := pro + (tabs.map fun p => p.1 * p.2).sum
  if e ≤ len then some e else none

/-- Spans within `[from, len)` that do not overlap. -/
def spansOk (lo len : Nat) (sp : List (Nat × Nat)) : Bool :=
  sp.all (fun p => p.2 == 0 || (lo ≤ p.1 && p.1 + p.2 ≤ len)) && disjointSpans sp

/-- R72: every record that a section declares lies within it, and none overlap. -/
def walkOk (img : List Byte) (id : Nat) (b : List Byte) : Bool :=
  let len := b.length
  match id with
  | 1 =>
    let nr := fieldAt b 0 4; let np := fieldAt b 8 8; let nb := fieldAt b 16 4
    match tablesEnd len 32 [(24, nr), (328, np), (48, nb)] with
    | some e => spansOk e len (((recs b (e - 48 * nb) 48 nb).filter
        fun d => !(fieldAt d 2 2).testBit 0).map fun d => (fieldAt d 32 8, fieldAt d 40 8))
    | none => false
  | 2 => (tablesEnd len 16 [(4, fieldAt b 0 8), (16, fieldAt b 8 4)]).isSome
  | 3 => (tablesEnd len 16 [(8, fieldAt b 0 2), (4, hdrParcels img), (8, fieldAt b 8 4),
      (16, fieldAt b 12 4)]).isSome
  | 4 =>
    match tablesEnd len 16 [(16, fieldAt b 0 2)] with
    | some e => spansOk e len ((recs b 16 16 (fieldAt b 0 2)).map fun d =>
        (fieldAt d 8 8, 16 * fieldAt d 4 4))
    | none => false
  | 5 => (tablesEnd len 8 [(32, fieldAt b 0 2), (16, fieldAt b 2 2), (768, fieldAt b 4 2)]).isSome
  | 6 => (tablesEnd len 16 [(24, fieldAt b 0 4), (16, fieldAt b 4 4)]).isSome
  | 7 =>
    match tablesEnd len 48 [(16, fieldAt b 0 2), (4, fieldAt b 2 2)] with
    | some e => (groupsEnd b e (fieldAt b 4 4)).isSome
    | none => false
  | 8 => (tablesEnd len 8 [(16, fieldAt b 0 2)]).isSome
  | 15 => true
  | _ => false

/-! ## GRAPH (R75, R76) -/

def readRun (r : List Byte) : TypeRun :=
  ⟨fieldAt r 0 8 % 2 ^ 40, fieldAt r 8 8 % 2 ^ 41, fieldAt r 16 1, fieldAt r 17 1 + 1, fieldAt r 18 2,
   signedOf 32 (fieldAt r 20 4)⟩

/-- The indices of five bytes each in a byte string. -/
def readIdx (b : List Byte) (off n : Nat) : List Nat := (recs b off 5 n).map leNat

def readParcel (r : List Byte) : Parcel :=
  ⟨fieldAt r 0 1, fieldAt r 2 2, readIdx r 8 (fieldAt r 1 1)⟩

def readBlock (r : List Byte) : BlockD :=
  ⟨fieldAt r 0 1, fieldAt r 1 1, (fieldAt r 2 2).testBit 0, (fieldAt r 2 2).testBit 1, fieldAt r 8 8,
   fieldAt r 16 8, fieldAt r 24 8, fieldAt r 40 8⟩

/-- The type run of a variable. -/
def runOf (runs : List TypeRun) (v : Nat) : Option TypeRun :=
  runs.find? fun r => r.first ≤ v && v < r.first + r.count

/-- q of a partner: its q when Potts, otherwise 1 (R69). -/
def qPart (runs : List TypeRun) (v : Nat) : Nat :=
  match runOf runs v with
  | some r => if r.typ == 2 then r.q else 1
  | none => 1

/-- q of a parcel's variables: q when Potts, otherwise 1 (R69). -/
def qRecv (runs : List TypeRun) (p : Option Parcel) : Nat :=
  match p with
  | some p => if p.typ == 2 then qPart runs (p.vars.headD noVar) else 1
  | none => 1

/-- Width of a coupling format in bits (R66). -/
def fmtWidth : Nat → Nat
  | 0 => 8 | 1 => 2 | 2 => 8 | 3 => 8 | 4 => 16 | 5 => 16 | 6 => 32 | _ => 8

/-- A stored value of a block (R69, R76): the lane it feeds, its partners, the exponents of its
receiver and partner, and its entries, row-major by receiving state. -/
structure Term where
  lane : Nat
  partners : List Nat
  a : Nat
  b : Nat
  qp : Nat
  ent : List Nat
  deriving DecidableEq, Repr

/-- `n` entries of width `w` from bit `k` of a number. -/
def entries (v w k n : Nat) : List Nat := (List.range n).map fun i => bitsOf v ((k + i) * w) w

/-- Values laid one after another from bit 0 of a number: for each, its lane, partners and number of
partner states; each takes `qr` × that many entries. -/
def packTerms (v w qr : Nat) : Nat → List (Nat × List Nat × Nat) → List Term
  | _, [] => []
  | k, (l, ps, qp) :: rest => ⟨l, ps, 1, 0, qp, entries v w k (qr * qp)⟩ :: packTerms v w qr (k + qr * qp) rest

/-- Bytes of a list of `n` entries of width `w` (R76). -/
def packedLen (w n : Nat) : Nat := (n * w + 7) / 8

/-- The lane of position `i` of a compressed row list: the last lane whose ROWPTR is at most `i`. -/
def rowLane (ptr : List Nat) (i : Nat) : Nat := ((ptr.drop 1).filter (· ≤ i)).length

/-- The rows of a dense block: each is padded to whole bytes (R76). -/
def denseRows (b : List Byte) (w qr : Nat) (cols : List (Nat × Nat)) (off : Nat) : Nat → Nat → List Term
  | _, 0 => []
  | lane, n + 1 =>
    let len := packedLen w (qr * (cols.map (·.2)).sum)
    packTerms (leNat (slice b off len)) w qr 0 (cols.map fun c =>
      (lane, if c.1 == noVar then [noVar] else [c.1], c.2)) ++ denseRows b w qr cols (off + len) (lane + 1) n

/-- The stored values of a payload under R76, in payload order, and the length the layout takes. -/
def readTerms (runs : List TypeRun) (qr : Nat) (d : BlockD) (b : List Byte) : List Term × Nat :=
  let w := fmtWidth d.fmt
  match d.kind with
  | 0 =>
    (packTerms (leNat (b.take (packedLen w (64 * qr)))) w qr 0 ((List.range 64).map fun l => (l, [], 1)),
      packedLen w (64 * qr))
  | 1 =>
    let ptr := (recs b 0 4 65).map leNat
    let ps := readIdx b 260 d.nnz
    let qs := ps.map (qPart runs)
    let o := 260 + 5 * d.nnz
    let len := packedLen w (qr * qs.sum)
    (packTerms (leNat (slice b o len)) w qr 0 ((ps.zip qs).zipIdx.map fun x =>
      (rowLane ptr x.2, [x.1.1], x.1.2)), o + len)
  | 2 =>
    let ps := readIdx b 0 d.cols
    let cols := ps.map fun p => (p, qPart runs p)
    let row := packedLen w (qr * (cols.map (·.2)).sum)
    ((denseRows b w qr cols (5 * d.cols) 0 64).filter fun t => t.partners != [noVar], 5 * d.cols + 64 * row)
  | 3 =>
    ((recs b 0 24 d.cols).map fun t =>
      ⟨fieldAt t 0 1, readIdx t 2 (fieldAt t 1 1 - 1), 1, 0, 1, [fieldAt t 20 4 % 2 ^ w]⟩, 24 * d.cols)
  | _ =>
    ((recs b 0 16 d.cols).map fun t =>
      let p := fieldAt t 2 5
      ⟨fieldAt t 0 1, if p == noVar then [] else [p], fieldAt t 1 1 % 16, fieldAt t 1 1 / 16, 1,
        [fieldAt t 12 4]⟩, 16 * d.cols)

/-- The length that a BOUND block's descriptor implies (R429): its partners are not named yet, so the
product of R69 is taken with one partner state (log 12). -/
def impliedLen (qr : Nat) (d : BlockD) : Nat :=
  let w := fmtWidth d.fmt
  match d.kind with
  | 0 => packedLen w (64 * qr)
  | 1 => 260 + 5 * d.nnz + packedLen w (qr * d.nnz)
  | 2 => 5 * d.cols + 64 * packedLen w (qr * d.cols)
  | 3 => 24 * d.cols
  | _ => 16 * d.cols

/-! ## The other sections -/

def readSlot (r : List Byte) : SlotRec := ⟨fieldAt r 0 4, fieldAt r 4 2, fieldAt r 6 2⟩

def readHop (r : List Byte) : Hop :=
  ⟨fieldAt r 0 4, fieldAt r 4 2, fieldAt r 6 2, fieldAt r 8 1, fieldAt r 9 1, fieldAt r 10 2, fieldAt r 12 1⟩

def readEntry (r : List Byte) : SeqEntry :=
  ⟨fieldAt r 0 1, fieldAt r 1 1, fieldAt r 2 2, fieldAt r 4 4, fieldAt r 8 4, fieldAt r 12 4⟩

def readRes (r : List Byte) : Residence := ⟨fieldAt r 0 4, fieldAt r 4 1, fieldAt r 5 1, fieldAt r 8 8⟩

def readShape (n np : Nat) (pl sc sq : List Byte) : ShapeP :=
  let nc := fieldAt sc 0 2
  let ns := fieldAt sc 8 4
  let slotOff := 16 + 8 * nc
  let slots := slotOff + 4 * np
  { n := n
    place := (recs pl 16 4 np).map fun r => (fieldAt r 0 2, fieldAt r 2 2)
    res := (recs pl (16 + 4 * fieldAt pl 0 8) 16 (fieldAt pl 8 4)).map readRes
    classes := (recs sc 16 8 nc).map fun r => (fieldAt r 0 2, fieldAt r 4 4)
    cycles := fieldAt sc 4 4
    slotOf := (recs sc slotOff 4 np).map leNat
    slots := (recs sc slots 8 ns).map readSlot
    hops := (recs sc (slots + 8 * ns) 16 (fieldAt sc 12 4)).map readHop
    tables := (recs sq 16 16 (fieldAt sq 0 2)).map fun d =>
      ⟨fieldAt d 0 2, (recs sq (fieldAt d 8 8) 16 (fieldAt d 4 4)).map readEntry⟩ }

def readDrain (r : List Byte) : DrainCfg :=
  ⟨fieldAt r 0 2, fieldAt r 2 1, fieldAt r 3 1, fieldAt r 4 1, fieldAt r 5 1, fieldAt r 6 2,
   BitVec.ofNat 32 (fieldAt r 8 4), BitVec.ofNat 32 (fieldAt r 12 4), BitVec.ofNat 32 (fieldAt r 16 4),
   fieldAt r 20 4⟩

def readRed (r : List Byte) : RedRec :=
  ⟨fieldAt r 0 2, fieldAt r 2 1, fieldAt r 3 1, fieldAt r 4 4, fieldAt r 8 4⟩

def readAct (r : List Byte) : List ActSeg := (recs r 0 12 64).map fun s =>
  ⟨BitVec.ofNat 32 (fieldAt s 0 4), BitVec.ofNat 32 (fieldAt s 4 4), BitVec.ofNat 32 (fieldAt s 8 4)⟩

def readRange (r : List Byte) : SRange := ⟨fieldAt r 0 8, fieldAt r 8 8, fieldAt r 16 2, fieldAt r 18 2⟩

def readCtrl (r : List Byte) : CtrlRec := ⟨fieldAt r 0 1, fieldAt r 2 6, fieldAt r 8 4, fieldAt r 12 2⟩

def readGroup (r : List Byte) : GroupD :=
  ⟨fieldAt r 0 4, fieldAt r 4 1 == 1, fieldAt r 8 2, readIdx r 16 (fieldAt r 6 2)⟩

def readAnneal (b : List Byte) : AnnealP :=
  let nb := fieldAt b 0 2
  let nr := fieldAt b 2 2
  { betas := (recs b 48 16 nb).map fun r => (fieldAt r 0 8, BitVec.ofNat 32 (fieldAt r 8 4))
    mults := (recs b (48 + 16 * nb) 4 nr).map fun r => BitVec.ofNat 32 (leNat r)
    groups := (groupRecs b (48 + 16 * nb + 4 * nr) (fieldAt b 4 4)).map readGroup
    swapK := fieldAt b 8 4
    stuckW := fieldAt b 12 2
    decay := fieldAt b 14 1
    dt := BitVec.ofNat 32 (fieldAt b 16 4)
    dtCap := BitVec.ofNat 32 (fieldAt b 20 4)
    penaltyE := fieldAt b 24 4 }

def readWindow (r : List Byte) : Window :=
  ⟨fieldAt r 0 1, fieldAt r 4 4, fieldAt r 8 4, fieldAt r 12 2, fieldAt r 14 2⟩

/-- The tables of SEQUENCER in the order in which the section stores them (R89). -/
def storedTables (sq : List Byte) : List SeqTable :=
  (sortBy (fun x y => fieldAt x 8 8 ≤ fieldAt y 8 8) (recs sq 16 16 (fieldAt sq 0 2))).map fun d =>
    ⟨fieldAt d 0 2, (recs sq (fieldAt d 8 8) 16 (fieldAt d 4 4)).map readEntry⟩

/-- The plan that a walkable image states. -/
def readPlan (img : List Byte) : PlanData :=
  let g := sectBytes img 1 0
  let ar := sectBytes img 5 0
  let st := sectBytes img 6 0
  let wi := sectBytes img 8 0
  let nr := fieldAt g 0 4; let np := fieldAt g 8 8; let nb := fieldAt g 16 4
  let desc := recs g (32 + 24 * nr + 328 * np) 48 nb
  { targetM := fieldAt img 16 2
    fallback := planFallback img
    synchronous := planSync img
    vUsed := fieldAt img 24 2
    sUsed := fieldAt img 26 2
    sweeps := fieldAt img 28 4
    nVars := fieldAt img 32 8 % 2 ^ 40
    nParcels := hdrParcels img
    nBlocks := fieldAt img 48 4
    runs := (recs g 32 24 nr).map readRun
    parcels := (recs g (32 + 24 * nr) 328 np).map readParcel
    blocks := desc.map readBlock
    payloads := desc.map fun d =>
      if (fieldAt d 2 2).testBit 0 then [] else slice g (fieldAt d 32 8) (fieldAt d 40 8)
    shapes := (namedShapes img).map fun p =>
      (p.1, readShape p.2 (hdrParcels img) (sectBytes img 2 p.1) (sectBytes img 3 p.1) (sectBytes img 4 p.1))
    drains := (recs ar 8 32 (fieldAt ar 0 2)).map readDrain
    reds := (recs ar (8 + 32 * fieldAt ar 0 2) 16 (fieldAt ar 2 2)).map readRed
    acts := (recs ar (8 + 32 * fieldAt ar 0 2 + 16 * fieldAt ar 2 2) 768 (fieldAt ar 4 2)).map readAct
    ranges := (recs st 16 24 (fieldAt st 0 4)).map readRange
    ctrls := (recs st (16 + 24 * fieldAt st 0 4) 16 (fieldAt st 4 4)).map readCtrl
    anneal := readAnneal (sectBytes img 7 0)
    windows := (recs wi 8 16 (fieldAt wi 0 2)).map readWindow }

/-- R73: the digest of an image, over the header with DIGEST zero and every section but SIGNATURE. -/
def planDigest (img : List Byte) : List Byte :=
  shake256 (img.take 64 ++ zeros 64 ++ slice img 128 896 ++
    (((sectTable img).filter (·.id != 15)).map (Sect.bytes img)).flatten) 64

/-- q of a block's receiver. -/
def PlanData.qRecv (p : PlanData) (d : BlockD) : Nat := Machine.qRecv p.runs p.parcels[d.parcel]?

/-- The drain configuration of an ID: records may stand in any order (R81). -/
def PlanData.drain (p : PlanData) (id : Nat) : Option DrainCfg := p.drains.find? (·.id == id)

/-- The stored values of a block's payload. -/
def PlanData.terms (p : PlanData) (d : BlockD) (b : List Byte) : List Term :=
  (readTerms p.runs (p.qRecv d) d b).1

end Sys2Proof.Machine
end

