-- ==== Sys2Proof/Machine/PlanCheck.lean ====
section
/-! DEFINITION. The validation of a plan (R88): every check in its order, with the payload of R89 for the
first that fails. -/

namespace Sys2Proof.Machine

/-- A failed check: its code and the record at fault (R89). -/
structure PlanErr where
  code : Nat
  sec : Nat
  shape : Nat
  kind : Nat
  index : Nat
  deriving DecidableEq, Repr

/-- The payload of R89. -/
def PlanErr.payload (e : PlanErr) : Nat :=
  e.sec + e.shape * 256 + e.kind * 1024 + e.index % 2 ^ 48 * 65536

/-- No single record is at fault (R89). -/
def errAt (code sec shape : Nat) : PlanErr := ⟨code, sec, shape, 0xF, 2 ^ 48 - 1⟩

/-- The first record of a list that fails a test. -/
def firstBad {α : Type} (code sec shape kind : Nat) (l : List α) (ok : α → Bool) : Option PlanErr :=
  (l.findIdx? fun x => !ok x).map fun i => ⟨code, sec, shape, kind, i⟩

/-- The first record, with its index, that fails a test. -/
def firstBadI {α : Type} (code sec shape kind : Nat) (l : List α) (ok : α → Nat → Bool) :
    Option PlanErr :=
  (l.zipIdx.find? fun x => !ok x.1 x.2).map fun x => ⟨code, sec, shape, kind, x.2⟩

/-- A condition on no single record. -/
def unlessAt (ok : Bool) (e : PlanErr) : Option PlanErr := if ok then none else some e

/-- The first failure of a list of checks. -/
def firstErr (l : List (Option PlanErr)) : Option PlanErr := l.findSome? id

/-! ## Codes 0xA001 to 0xA006 -/

/-- R72: the section table, then the walk of every section. DESIGN CHOICE (log 28): R70 puts SIGNATURE last and
names no code for a SIGNATURE that is not the last section; it takes 0xA007 with kind 0xF. -/
def checkSections (img : List Byte) : Option PlanErr :=
  let tab := sectTable img
  let spans := tab.map fun x => (x.off, x.len)
  firstErr [
    unlessAt (8 ≤ fieldAt img 6 2 && fieldAt img 6 2 ≤ 18 && fieldAt img 6 2 == tab.length)
      ⟨0xA007, 0, 0, 0, 0⟩,
    unlessAt ((tab.map fun x => (x.id, x.shape)).Perm (wantedSections img) |> decide) (errAt 0xA007 0 0),
    (tab.find? fun x => (x.id == 15 && x.len != 29800) || x.off % 4096 != 0 || x.off < 1024 ||
      img.length < x.off + x.len).map fun x => ⟨0xA007, 0, 0, 1, x.pos⟩,
    unlessAt (disjointSpans spans) (errAt 0xA007 0 0),
    unlessAt (match tab.find? (·.id == 15) with
      | some g => tab.all fun x => x.off ≤ g.off
      | none => true) (errAt 0xA007 0 0),
    (tab.find? fun x => !walkOk img x.id (x.bytes img)).map fun x => errAt 0xA007 x.id x.shape]

/-- R72: section CRCs. -/
def checkCrcs (img : List Byte) : Option PlanErr :=
  ((sectTable img).find? fun x => crc crc32c (x.bytes img) != x.crc).map fun x =>
    errAt 0xA003 x.id x.shape

/-- R74: the signature, under the enrolled key of slots 1 to 15 with the PLAN role that KEY_ID names. -/
def State.planKey (s : State) (img : List Byte) : Option KeySlot :=
  s.mram.keys.find? fun k => k.slot != 0 && k.id == fieldAt (sectBytes img 15 0) 0 4 && k.roles.testBit 1

def State.checkSignature (s : State) (img : List Byte) : Option PlanErr :=
  if planSigned img then
    match s.planKey img with
    | some k => unlessAt (Config.slhDsaVerify k.key (planDigest img) (slice (sectBytes img 15 0) 8 29792))
        ⟨0xA005, 15, 0, 0, 0⟩
    | none => some ⟨0xA005, 15, 0, 0, 0⟩
  else none

/-- A coupling value that is not reserved (R66, R143). -/
def couplingOk (fmt v : Nat) : Bool :=
  match fmt with
  | 0 => v != 0x80
  | 1 => v != 2
  | 2 => fpE4M3.isFinite v
  | 3 => fpE5M2.isFinite v
  | 4 => fp16.isFinite v
  | 5 => bf16.isFinite v
  | _ => fp32.isFinite v

/-- No reserved field or encoding stands in a payload: values, padding bits, and the reserved bytes of terms
(R13, R66, R76, R143). -/
def payloadClean (runs : List TypeRun) (qr : Nat) (d : BlockD) (b : List Byte) : Bool :=
  let w := fmtWidth d.fmt
  let pad := fun (off n : Nat) =>
    bitsOf (leNat (slice b off (packedLen w n))) (n * w) (8 * packedLen w n - n * w) == 0
  (readTerms runs qr d b).1.all (fun t => t.ent.all (couplingOk d.fmt)) &&
  match d.kind with
  | 0 => pad 0 (64 * qr)
  | 1 => pad (260 + 5 * d.nnz) (qr * ((readIdx b 260 d.nnz).map (qPart runs)).sum)
  | 2 =>
    let cols := readIdx b 0 d.cols
    let n := qr * (cols.map (qPart runs)).sum
    (List.range 64).all (fun l =>
      let off := 5 * d.cols + l * packedLen w n
      pad off n && (packTerms (leNat (slice b off (packedLen w n))) w qr 0
          (cols.map fun c => (l, [c], qPart runs c))).all fun t =>
        t.ent.all fun v => couplingOk d.fmt v && (t.partners != [noVar] || v == 0))
  | 3 => (recs b 0 24 d.cols).all fun t =>
      zeroAt t 17 3 && fieldAt t 20 4 < 2 ^ w && couplingOk d.fmt (fieldAt t 20 4)
  | _ => (recs b 0 16 d.cols).all fun t => zeroAt t 7 5

/-- The records of a section by kind (R89). -/
def sectRecs (img : List Byte) (id : Nat) (b : List Byte) : List (Nat × List (List Byte)) :=
  match id with
  | 1 =>
    let nr := fieldAt b 0 4; let np := fieldAt b 8 8; let nb := fieldAt b 16 4
    [(0, [b.take 32]), (1, recs b 32 24 nr), (2, recs b (32 + 24 * nr) 328 np),
      (3, recs b (32 + 24 * nr + 328 * np) 48 nb)]
  | 2 => [(0, [b.take 16]), (2, recs b (16 + 4 * fieldAt b 0 8) 16 (fieldAt b 8 4))]
  | 3 =>
    let nc := fieldAt b 0 2; let o := 16 + 8 * nc + 4 * hdrParcels img; let ns := fieldAt b 8 4
    [(0, [b.take 16]), (1, recs b 16 8 nc), (4, recs b (o + 8 * ns) 16 (fieldAt b 12 4))]
  | 4 =>
    let dirs := recs b 16 16 (fieldAt b 0 2)
    [(0, [b.take 16]), (1, dirs),
      (2, ((sortBy (fun x y => fieldAt x 8 8 ≤ fieldAt y 8 8) dirs).map fun d =>
        recs b (fieldAt d 8 8) 16 (fieldAt d 4 4)).flatten)]
  | 5 =>
    let nd := fieldAt b 0 2
    [(0, [b.take 8]), (1, recs b 8 32 nd), (2, recs b (8 + 32 * nd) 16 (fieldAt b 2 2))]
  | 6 =>
    let nr := fieldAt b 0 4
    [(0, [b.take 16]), (1, recs b 16 24 nr), (2, recs b (16 + 24 * nr) 16 (fieldAt b 4 4))]
  | 7 =>
    let nb := fieldAt b 0 2
    [(0, [b.take 48]), (1, recs b 48 16 nb),
      (3, groupRecs b (48 + 16 * nb + 4 * fieldAt b 2 2) (fieldAt b 4 4))]
  | 8 => [(0, [b.take 8]), (1, recs b 8 16 (fieldAt b 0 2))]
  | _ => [(0, [b.take 8])]

/-- The OPs of R80. -/
def seqOps : List Nat := [1, 2, 3, 4, 5, 6, 7, 8, 9, 10, 11, 15]

/-- The reserved fields and encodings of a record (R13, R71 to R84). DESIGN CHOICE (log 28): R81 names no code for
an ACT_TABLE, CLAMP_LO or CLAMP_HI that is not 0 where its table says "otherwise 0"; such a field counts as
reserved and takes 0xA006. -/
def recReserved (id kind : Nat) (r : List Byte) : Bool :=
  match id, kind with
  | 1, 0 => zeroAt r 4 4 && zeroAt r 20 12
  | 1, 1 => fieldAt r 0 8 < 2 ^ 40 && fieldAt r 8 8 < 2 ^ 41 && fieldAt r 16 1 ≤ 4
  | 1, 2 => fieldAt r 0 1 ≤ 4 && zeroAt r 4 4
  | 1, 3 => fieldAt r 0 1 ≤ 4 && fieldAt r 1 1 ≤ 6 && fieldAt r 2 2 < 4
  | 2, 0 => zeroAt r 12 4
  | 2, 2 => fieldAt r 4 1 ≤ 2 && zeroAt r 6 2
  | 3, 0 => zeroAt r 2 2
  | 3, 1 => zeroAt r 2 2
  | 3, 4 => fieldAt r 8 1 ≤ 2 && zeroAt r 13 3
  | 4, 0 => zeroAt r 2 14
  | 4, 1 => zeroAt r 2 2
  | 4, 2 => seqOps.contains (fieldAt r 0 1) && fieldAt r 1 1 < 16
  | 5, 0 => zeroAt r 6 2
  | 5, 1 => fieldAt r 2 1 ≤ 1 && fieldAt r 3 1 ≤ 6 && fieldAt r 4 1 ≤ 2 && fieldAt r 5 1 ≤ 4 &&
      zeroAt r 24 8 && (fieldAt r 5 1 == 4 || zeroAt r 6 2) && (fieldAt r 5 1 == 2 || zeroAt r 12 8)
  | 5, 2 => fieldAt r 2 1 ≤ 1 && fieldAt r 3 1 ≤ 2 && zeroAt r 12 4
  | 6, 0 => zeroAt r 8 8
  | 6, 1 => fieldAt r 18 2 < 32 && zeroAt r 20 4
  | 6, 2 => fieldAt r 0 1 ≤ 3 && zeroAt r 1 1 && zeroAt r 14 2
  | 7, 0 => zeroAt r 15 1 && zeroAt r 28 20
  | 7, 1 => zeroAt r 12 4
  | 7, 3 => fieldAt r 4 1 ≤ 1 && zeroAt r 5 1 && zeroAt r 10 6 &&
      zeroAt r (16 + 5 * fieldAt r 6 2) r.length
  | 8, 0 => zeroAt r 2 6
  | 8, 1 => fieldAt r 0 1 ≤ 6 && zeroAt r 1 3
  | 15, 0 => zeroAt r 4 4
  | _, _ => true

/-- The bytes that lie neither in the header nor in a section (R70). -/
def gapsZero (img : List Byte) : Bool :=
  let sp := sortBy (fun a b => a.1 ≤ b.1) ((sectTable img).map fun x => (x.off, x.len))
  let r := sp.foldl (fun (acc : Bool × Nat) p => (acc.1 && zeroAt img acc.2 (p.1 - acc.2),
    max acc.2 (p.1 + p.2))) (true, 1024)
  r.1 && zeroAt img r.2 img.length

/-- R13, R70: reserved fields and encodings of the header, the section table, the gaps, and every
record. -/
def checkReserved (img : List Byte) : Option PlanErr :=
  let p := readPlan img
  firstErr ([
    unlessAt (fieldAt img 8 4 < 4 && zeroAt img 12 4 && fieldAt img 32 8 < 2 ^ 40 &&
      fieldAt img 40 8 < 2 ^ 35 && zeroAt img 52 12 && zeroAt img 704 320) ⟨0xA006, 0, 0, 0, 0⟩,
    ((sectTable img).find? fun x => !zeroAt img (128 + 24 * x.pos + 2) 2).map fun x =>
      ⟨0xA006, 0, 0, 1, x.pos⟩,
    unlessAt (gapsZero img) (errAt 0xA006 0 0)] ++
   (sectTable img).map fun x =>
     firstErr (((sectRecs img x.id (x.bytes img)).map fun k =>
        firstBad 0xA006 x.id x.shape k.1 k.2 (recReserved x.id k.1)) ++
      (if x.id == 1 then [firstBad 0xA006 1 0 4 (p.blocks.zip p.payloads) fun d =>
        d.1.bound || payloadClean p.runs (p.qRecv d.1) d.1 d.2] else [])))

/-- The checks that run before ACCEPTED for a contained plan (R88), the tiles having verified. -/
def State.checkImage (s : State) (img : List Byte) : Option PlanErr :=
  firstErr [
    unlessAt (fieldAt img 0 4 == 0x594E5350 && 4 ≤ img.length) ⟨0xA001, 0, 0, 0, 0⟩,
    unlessAt (1 ≤ fieldAt img 4 2 && fieldAt img 4 2 ≤ s.fld Fld.DEV_CAPS_PLAN_FMT) ⟨0xA002, 0, 0, 0, 0⟩,
    checkSections img,
    checkCrcs img,
    unlessAt (planDigest img == slice img 64 64) ⟨0xA004, 0, 0, 0, 0⟩,
    s.checkSignature img,
    checkReserved img]

/-! ## Shapes (R85 to R87) -/

/-- The shape that R86 selects for `m` M-cores, by position. -/
def PlanData.select (p : PlanData) (m : Nat) : Option Nat :=
  (p.shapes.find? fun x => x.2.n ≤ m).map (·.1)

/-- R85: the values and order of TARGET_M and FALLBACK_M. -/
def PlanData.shapesOrdered (p : PlanData) : Bool :=
  let nz := p.fallback.filter (· != 0)
  (p.targetM :: nz).all (fun x => x % 8 == 0 && 8 ≤ x && x ≤ 440) &&
  p.fallback.take nz.length == nz && decide ((p.targetM :: nz).Pairwise (· > ·))

/-- The drain configurations that a table's DRAIN entries name, with the parcel of the fill that each
follows (R80). -/
def fillDrains (p : PlanData) : Option Nat → List SeqEntry → List (Nat × Nat)
  | _, [] => []
  | cur, e :: es =>
    if e.op == 2 && e.flags.testBit 2 then fillDrains p ((p.blocks[e.arg]?).map (·.parcel)) es
    else match e.op == 3, cur with
      | true, some c => (c, e.arg) :: fillDrains p none es
      | _, _ => fillDrains p cur es

/-- Parcel and drain configuration of every fill of a shape. -/
def PlanData.drainPairs (p : PlanData) (sh : ShapeP) : List (Nat × Nat) :=
  ((sh.tables.filter fun t => t.node < 1024).map fun t => fillDrains p none t.entries).flatten

/-- The drain configuration of a parcel (R80); a parcel with no fill has none. -/
def PlanData.drainOf (p : PlanData) (sh : ShapeP) (parcel : Nat) : Option Nat :=
  ((p.drainPairs sh).find? (·.1 == parcel)).map (·.2)

/-- Code 0xA009 (R79, R80, R85, R87). -/
def PlanData.checkShapes (p : PlanData) : Option PlanErr :=
  match p.shapes with
  | [] => none
  | (_, sh0) :: _ =>
    firstErr (unlessAt p.shapesOrdered ⟨0xA009, 0, 0, 0, 0⟩ :: p.shapes.map fun x =>
      let sh := x.2
      firstErr [
        unlessAt (sh.classes.map (·.1) == sh0.classes.map (·.1)) (errAt 0xA009 3 x.1),
        ((sh.slotOf.zip p.parcels).find? fun y => match sh.slots[y.1]? with
            | some sl => sl.cls != y.2.cls
            | none => false).map fun y => ⟨0xA009, 3, x.1, 3, y.1⟩,
        unlessAt ((p.drainPairs sh).all fun d => p.drainOf sh d.1 == some d.2) (errAt 0xA009 4 x.1),
        unlessAt ((List.range p.nParcels).all fun i => p.drainOf sh i == p.drainOf sh0 i)
          (errAt 0xA009 4 x.1)])

/-! ## Types and indices (R61 to R65, R69, R75 to R84) -/

def PlanData.typeOf (p : PlanData) (v : Nat) : Option Nat := (runOf p.runs v).map (·.typ)

/-- R65, R69: the kinds of receiver, partners and format go together. A partner beyond N_VARS is left to
code 0xA00B. -/
def PlanData.blockTypeOk (p : PlanData) (d : BlockD) : Bool :=
  let rt := ((p.parcels[d.parcel]?).map (·.typ)).getD 0
  !(d.kind == 2 && rt == 4) && !(d.kind == 3 && (1 < rt || d.fmt == 6)) &&
  !(d.kind == 4 && (rt != 4 || d.fmt != 6)) && !(rt == 4 && d.fmt != 6)

def PlanData.termTypeOk (p : PlanData) (d : BlockD) (t : Term) : Bool :=
  let ts := t.partners.filterMap p.typeOf
  !(ts.contains 4 && (d.fmt != 6 || d.kind == 2)) &&
  match d.kind with
  | 3 => ts.all (· ≤ 1) && (t.partners.length == 2 || t.partners.length == 3)
  | 4 => if t.partners.isEmpty then t.b == 0 && 1 ≤ t.a && t.a ≤ 4
      else ts.all (· == 4) && 1 ≤ t.a && 1 ≤ t.b && t.a + t.b ≤ 4
  | _ => true

/-- ORDER is 3 or 4, and the third partner of an order-3 term is absent (R76). -/
def orderOk (b : List Byte) (n : Nat) : Bool := (recs b 0 24 n).all fun t =>
  fieldAt t 1 1 == 4 || (fieldAt t 1 1 == 3 && fieldAt t 12 5 == noVar)

/-- Code 0xA00A. DESIGN CHOICE (log 28): R75 names no code for a Q_M1, SPAN or LO that is not 0 where its table says
"otherwise 0"; such a type run takes 0xA00A. -/
def PlanData.checkTypes (img : List Byte) (p : PlanData) : Option PlanErr :=
  let g := sectBytes img 1 0
  let runsRaw := recs g 32 24 (fieldAt g 0 4)
  let parRaw := recs g (32 + 24 * fieldAt g 0 4) 328 (fieldAt g 8 8)
  firstErr [
    firstBad 0xA00A 1 0 1 runsRaw fun r =>
      let t := fieldAt r 16 1
      (if t == 2 then 1 ≤ fieldAt r 17 1 else fieldAt r 17 1 == 0) &&
      (if t == 3 then 1 ≤ fieldAt r 18 2 else zeroAt r 18 6),
    firstBad 0xA00A 1 0 2 (parRaw.zip p.parcels) fun r =>
      1 ≤ fieldAt r.1 1 1 && fieldAt r.1 1 1 ≤ 64 &&
      (let rs := r.2.vars.filterMap (runOf p.runs)
       rs.all fun x => x.typ == r.2.typ && rs.all fun y => x.typ != 2 || x.q == y.q),
    firstBad 0xA00A 1 0 3 p.blocks p.blockTypeOk,
    firstBad 0xA00A 1 0 4 (p.blocks.zip p.payloads) fun d =>
      d.1.bound || ((d.1.kind != 3 || orderOk d.2 d.1.cols) && (p.terms d.1 d.2).all (p.termTypeOk d.1))]

/-- A logical node that a shape and the header's V_USED and S_USED hold. -/
def PlanData.nodeOk (p : PlanData) (n node : Nat) (ports : Bool) : Bool :=
  match node / 1024 with
  | 0 => node % 1024 < n
  | 1 => node % 1024 < p.vUsed
  | 2 => node % 1024 < p.sUsed
  | 3 => ports && node % 1024 < 32
  | _ => false

/-- The indices of a payload are in range, and its tables ascend (R75, R76). -/
def PlanData.payloadIdxOk (p : PlanData) (d : BlockD) (b : List Byte) : Bool :=
  let lanes := ((p.parcels[d.parcel]?).map (·.vars.length)).getD 0
  let r := readTerms p.runs (p.qRecv d) d b
  let ptr := (recs b 0 4 65).map leNat
  r.2 == b.length &&
  (d.kind != 1 || (ptr.headD 1 == 0 && ptr.getLast? == some d.nnz && decide (ptr.Pairwise (· ≤ ·)))) &&
  r.1.all fun t => t.lane < 64 && t.partners.all (· < p.nVars) && (d.kind == 0 || d.kind == 2 || t.lane < lanes)

/-- The first index past the runs that lie before position `i`. -/
def runsEnd (rs : List TypeRun) (i : Nat) : Nat := ((rs.take i).map (·.count)).sum

/-- A run starts where the one before it ends, and holds a variable (R75). -/
def runFits (rs : List TypeRun) (r : TypeRun) (i : Nat) : Bool := r.first == runsEnd rs i && decide (1 ≤ r.count)

/-- COLS and NNZ of a descriptor state what its payload holds (R75): 64 values of a unary block, 64 × K of a dense
one with its padding columns, one for each term; and the distinct partners of a sparse block whose payload is at
hand. DEDUCED (log 28): a padding column's zeros are stored values, as R76 stores them. -/
def BlockD.countsOk (d : BlockD) (payload : List Byte) : Bool :=
  match d.kind with
  | 0 => d.cols == 64 && d.nnz == 64
  | 1 => d.bound || d.cols == (readIdx payload 260 d.nnz).dedup.length
  | 2 => d.cols % 16 == 0 && d.nnz == 64 * d.cols
  | _ => d.nnz == d.cols

/-- What an entry names exists (R80): the block of a MAC, the drain configuration of a DRAIN, the reduction of a
REDUCE, the node of a GATHER, and the M-core and ordinals of a LANGEVIN. -/
def PlanData.entryIdxOk (p : PlanData) (sh : ShapeP) (e : SeqEntry) : Bool :=
  match e.op with
  | 1 => p.nodeOk sh.n e.src true
  | 2 => e.arg < p.nBlocks
  | 3 => (p.drain e.arg).isSome
  | 6 => p.reds.any (·.id == e.arg)
  | 7 => decide (e.src < sh.n) && decide (e.arg + e.count ≤ (sh.place.filter (·.1 == e.src)).length)
  | _ => true

/-- Code 0xA00B for a shape's sections (R78 to R80). -/
def PlanData.checkShapeIdx (img : List Byte) (p : PlanData) (k : Nat) (sh : ShapeP) : Option PlanErr :=
  let pl := sectBytes img 2 k
  let order := sh.classes.map (·.1)
  firstErr [
    unlessAt (fieldAt pl 0 8 == p.nParcels) ⟨0xA00B, 2, k, 0, 0⟩,
    firstBad 0xA00B 2 k 1 sh.place fun x => x.1 < sh.n,
    unlessAt ((List.range sh.n).all fun c =>
      let os := (sh.place.filter (·.1 == c)).map (·.2)
      decide (os.Nodup) && os.all (· < os.length)) (errAt 0xA00B 2 k),
    unlessAt (decide ((sh.res.map (·.block)).Perm (List.range p.nBlocks))) (errAt 0xA00B 2 k),
    firstBad 0xA00B 2 k 2 sh.res fun r => r.addr % 4096 == 0 &&
      (match r.tier with | 0 => r.port == 0 | 1 => r.port < 16 | _ => 16 ≤ r.port && r.port < 32),
    unlessAt (1 ≤ order.length && order.length ≤ 4096) ⟨0xA00B, 3, k, 0, 0⟩,
    unlessAt (decide order.Nodup && p.parcels.all fun q => order.contains q.cls) (errAt 0xA00B 3 k),
    firstBad 0xA00B 3 k 1 sh.classes fun c => c.2 < sh.slots.length,
    firstBad 0xA00B 3 k 2 sh.slotOf fun x => x < sh.slots.length,
    firstBad 0xA00B 3 k 3 sh.slots fun x => order.contains x.cls,
    firstBad 0xA00B 3 k 4 sh.hops fun h => p.nodeOk sh.n h.src true && p.nodeOk sh.n h.dst true,
    firstBadI 0xA00B 4 k 1 sh.tables fun t i =>
      p.nodeOk sh.n t.node false && 1 ≤ t.entries.length && t.entries.length ≤ 4096 &&
      !((sh.tables.take i).any fun u => u.node == t.node),
    firstBad 0xA00B 4 k 2 ((storedTables (sectBytes img 4 k)).map (·.entries)).flatten (p.entryIdxOk sh)]

/-- Code 0xA00B. DESIGN CHOICE (log 28): two drain configurations of one ID are refused, and of reductions that share
an ID, for which R81 sets no rule, an entry means the first. -/
def PlanData.checkIndex (img : List Byte) (p : PlanData) : Option PlanErr :=
  let g := sectBytes img 1 0
  let nr := fieldAt g 0 4
  let parRaw := recs g (32 + 24 * nr) 328 (fieldAt g 8 8)
  let desc := recs g (32 + 24 * nr + 328 * fieldAt g 8 8) 48 (fieldAt g 16 4)
  let vars := (p.parcels.map (·.vars)).flatten
  firstErr ([
    unlessAt (1 ≤ p.sweeps && p.vUsed ≤ 140 && p.sUsed ≤ 60 && p.nParcels ≤ 2 ^ 34) ⟨0xA00B, 0, 0, 0, 0⟩,
    unlessAt (fieldAt g 8 8 == p.nParcels && fieldAt g 16 4 == p.nBlocks) ⟨0xA00B, 1, 0, 0, 0⟩,
    firstBadI 0xA00B 1 0 1 p.runs (runFits p.runs),
    unlessAt (runsEnd p.runs p.runs.length == p.nVars) (errAt 0xA00B 1 0),
    firstBad 0xA00B 1 0 2 (parRaw.zip p.parcels) fun r =>
      r.2.cls < 4096 && r.2.vars.all (· < p.nVars) &&
      (readIdx r.1 (8 + 5 * r.2.vars.length) (64 - r.2.vars.length)).all (· == noVar),
    unlessAt (decide (vars.Perm (List.range p.nVars))) (errAt 0xA00B 1 0),
    firstBadI 0xA00B 1 0 3 (desc.zip (p.blocks.zip p.payloads)) fun d i =>
      fieldAt d.1 4 4 == i && d.2.1.parcel < p.nParcels && d.2.1.countsOk d.2.2 &&
      (!d.2.1.bound || d.2.1.len == 0),
    firstBad 0xA00B 1 0 4 (p.blocks.zip p.payloads) fun d => d.1.bound || p.payloadIdxOk d.1 d.2] ++
   p.shapes.map (fun x => p.checkShapeIdx img x.1 x.2) ++ [
    firstBadI 0xA00B 5 0 1 p.drains fun d i =>
      d.id < p.drains.length && !((p.drains.take i).any fun c => c.id == d.id),
    firstBad 0xA00B 5 0 2 p.reds fun r => 1 ≤ r.parts,
    firstBad 0xA00B 6 0 1 p.ranges fun r => r.first + r.count ≤ p.nParcels,
    unlessAt ((List.range p.nParcels).all fun i =>
      (p.ranges.filter fun r => r.first ≤ i && i < r.first + r.count).length == 1) (errAt 0xA00B 6 0),
    firstBad 0xA00B 6 0 2 p.ctrls fun c => 0x800000000000 ≤ c.base,
    unlessAt (1 ≤ p.anneal.betas.length && p.anneal.betas.length ≤ 256 && 1 ≤ p.anneal.mults.length &&
      p.anneal.mults.length ≤ 256) ⟨0xA00B, 7, 0, 0, 0⟩])

/-! ## The Coupling Guard (R104, R105) -/

/-- The variables that share a stored value: the receiver with its partners, and the partners of a
higher-order term with each other (R104). -/
def PlanData.termVars (p : PlanData) (d : BlockD) (t : Term) : List Nat :=
  match (p.parcels[d.parcel]?).bind fun q => q.vars[t.lane]? with
  | some v => (v :: t.partners).dedup
  | none => []

/-- The pairs of a list. -/
def listPairs {α : Type} : List α → List (α × α)
  | [] => []
  | x :: xs => xs.map (fun y => (x, y)) ++ listPairs xs

/-- The parcel that holds a variable. -/
def PlanData.parcelOf (p : PlanData) (v : Nat) : Option Nat := p.parcels.findIdx? fun q => q.vars.contains v

/-- Two coupled variables stand in one parcel, or in parcels of one class: the lower parcel. -/
def PlanData.clash (p : PlanData) (x y : Nat) : Option Nat :=
  match p.parcelOf x, p.parcelOf y with
  | some a, some b =>
    if a == b || (p.parcels[a]?).map (·.cls) == (p.parcels[b]?).map (·.cls) then some (min a b) else none
  | _, _ => none

/-- The first clash of a block's values under R105. -/
def PlanData.guardBlock (p : PlanData) (d : BlockD) (payload : List Byte) : Option Nat :=
  (p.terms d payload).findSome? fun t =>
    (listPairs (p.termVars d t)).findSome? fun x => p.clash x.1 x.2

/-- Code 0xA00C. DESIGN CHOICE (log 28): R105 does not say which record the payload names when two parcels clash; it
names the lower parcel of the first clash, blocks taken in BLOCK_ID order and values in payload order. -/
def PlanData.checkGuard (p : PlanData) : Option PlanErr :=
  if p.synchronous then none
  else ((p.blocks.zip p.payloads).findSome? fun d =>
    if d.1.bound then none else p.guardBlock d.1 d.2).map fun i => ⟨0xA00C, 1, 0, 2, i⟩

/-! ## Capacity (R429) -/

def tile (n : Nat) : Nat := roundUp n 4096

/-- Bits of a variable's stored form (R61). -/
def storedBits : Nat → Nat
  | 0 => 1 | 1 => 1 | 2 => 8 | 3 => 16 | _ => 32

/-- Bytes of one chain's variables in the form V (R250). -/
def PlanData.chainBytes (p : PlanData) : Nat :=
  (p.runs.map fun r => (r.count * storedBits r.typ + 7) / 8).sum

/-- N_REPLICAS. -/
def PlanData.replicas (p : PlanData) : Nat := p.anneal.mults.length

/-- ROLE 0 and ROLE 1 control streams. -/
def PlanData.ctrlStreams (p : PlanData) : Nat :=
  ((p.ctrls.filter fun c => c.role ≤ 1).map (·.count)).sum

/-- Bytes of section A (R288). -/
def PlanData.sectionABytes (p : PlanData) : Nat :=
  256 + roundUp p.replicas 8 + roundUp (4 * p.anneal.groups.length * p.replicas) 8 + roundUp p.chainBytes 8

/-- N_STREAMS (R287). -/
def PlanData.nStreams (p : PlanData) : Nat := p.replicas * p.nParcels * 64 + p.ctrlStreams

/-- Bytes of a canonical context (R287, R288). -/
def PlanData.contextBytes (p : PlanData) : Nat :=
  4096 + tile (p.replicas * p.chainBytes) + 2 * tile (16 * p.nStreams) + tile p.sectionABytes +
    tile (40 * (p.blocks.filter (·.bound)).length)

/-- A block's footprint in tiles' bytes (R429). -/
def PlanData.footprint (p : PlanData) (b : Nat) : Nat :=
  match p.blocks[b]? with
  | some d => tile (if d.bound then impliedLen (p.qRecv d) d else ((p.payloads[b]?).map List.length).getD 0)
  | none => 0

/-- Stored bytes of 64 lanes of a parcel (R429). -/
def laneBytes : Nat → Nat
  | 0 => 8 | 1 => 8 | 2 => 64 | 3 => 128 | _ => 256

/-- Parcel state of a core (R429). -/
def PlanData.parcelState (p : PlanData) (sh : ShapeP) (core : Nat) : Nat :=
  (((sh.place.zip p.parcels).filter fun x => x.1.1 == core).map fun x =>
    p.replicas * (laneBytes x.2.typ + 1024)).sum

/-- Usable bytes of a port: half a stack's 36 GB, or a package's 32 GB (R24, R229). -/
def portBytes (port : Nat) : Nat := if port < 16 then 18000000000 else 32000000000

/-- The port takes plan data: it is neither absent nor out of use (R25). -/
def State.portUsable (s : State) (port : Nat) : Bool :=
  match s.mports[port]? with | some m => m.state != 1 && m.state != 2 | none => false

/-- Code 0xA00E for one shape. -/
def State.checkCapacity (s : State) (p : PlanData) (k : Nat) (sh : ShapeP) : Option PlanErr :=
  let span := fun (r : Residence) => (r.addr, p.footprint r.block)
  let core := fun (r : Residence) =>
    (((p.blocks[r.block]?).bind fun d => sh.place[d.parcel]?).map (·.1)).getD 0
  let sram := 3 * 2 ^ 20
  let mem := ((List.range sh.n).map fun c =>
    let x := p.parcelState sh c; if 786432 < x then 2 * tile x else 0).sum
  let used := fun t => (((sh.res.filter (·.tier == t)).map fun r => p.footprint r.block)).sum
  let room := fun (lo hi : Nat) => (((List.range 32).filter fun q =>
    lo ≤ q && q < hi && s.portUsable q).map portBytes).sum
  let ctl := tile (p.sectionABytes + 16 * p.ctrlStreams)
  firstErr [
    firstBad 0xA00E 2 k 2 sh.res fun r =>
      r.addr + p.footprint r.block ≤ (if r.tier == 0 then sram else portBytes r.port),
    unlessAt ((List.range sh.n).all fun c =>
      let x := p.parcelState sh c
      let top := if x ≤ 786432 then [(sram - tile x, tile x)] else []
      disjointSpans (top ++ (sh.res.filter fun r => r.tier == 0 && core r == c).map span))
      (errAt 0xA00E 2 k),
    unlessAt ((List.range 32).all fun q =>
      disjointSpans ((sh.res.filter fun r => r.tier != 0 && r.port == q).map span)) (errAt 0xA00E 2 k),
    unlessAt (used 1 + mem + ctl + 2 * p.contextBytes ≤ room 0 16) (errAt 0xA00E 2 k),
    unlessAt (used 2 + 2 * p.contextBytes ≤ room 16 32) (errAt 0xA00E 2 k)]

/-! ## Windows, sequencer tables, slack, ports (codes 0xA00F to 0xA012) -/

/-- Code 0xA00F (R48, R84). -/
def PlanData.checkWindows (p : PlanData) : Option PlanErr :=
  let ws := p.windows
  firstErr [
    firstBad 0xA00F 8 0 1 ws fun w => w.wOpen ≤ 65535 && w.wOpen < w.wClose && w.wClose ≤ 65536 &&
      1 ≤ w.period && w.offset < w.period,
    unlessAt ([1, 2].all fun k => (ws.filter (·.kind == k)).length ≤ 1) (errAt 0xA00F 8 0),
    firstBadI 0xA00F 8 0 1 ws fun w i => !((ws.take i).any fun v => v.kind == w.kind &&
      v.wOpen < w.wClose && w.wOpen < v.wClose &&
      v.offset % Nat.gcd v.period w.period == w.offset % Nat.gcd v.period w.period)]

/-- The OPs of a core kind (R80). -/
def opsOf : Nat → List Nat
  | 0 => [1, 2, 3, 4, 5, 11, 15]
  | 1 => [1, 5, 6, 7, 11, 15]
  | _ => [1, 5, 6, 8, 9, 10, 11, 15]

/-- OVW and ADD pair up on each bank (R152); `a` and `b` say which banks are open. -/
def banksOk : Bool → Bool → List SeqEntry → Bool
  | _, _, [] => true
  | a, b, e :: es =>
    if e.op == 2 then
      let cur := if e.flags.testBit 1 then b else a
      let nxt := !e.flags.testBit 2
      e.flags.testBit 0 == cur &&
        (if e.flags.testBit 1 then banksOk a nxt es else banksOk nxt b es)
    else banksOk a b es

/-- Every LAST is followed by its DRAIN entry before the next LAST (R80). -/
def drainsOk : Bool → List SeqEntry → Bool
  | due, [] => !due
  | due, e :: es =>
    if e.op == 2 && e.flags.testBit 2 then !due && drainsOk true es
    else if e.op == 3 then drainsOk false es else drainsOk due es

/-- The parcels that a LANGEVIN entry names (R80). -/
def ShapeP.langevin (sh : ShapeP) (e : SeqEntry) : List Nat :=
  (List.range e.count).filterMap fun i => sh.place.findIdx? (· == (e.src, e.arg + i))

/-- Code 0xA010. -/
def PlanData.checkSequencer (img : List Byte) (p : PlanData) (k : Nat) (sh : ShapeP) : Option PlanErr :=
  let lang := ((sh.tables.filter fun t => t.node / 1024 == 1).map fun t =>
    ((t.entries.filter (·.op == 7)).map sh.langevin).flatten).flatten
  firstErr [
    firstBad 0xA010 4 k 2 ((storedTables (sectBytes img 4 k)).map fun t =>
      t.entries.map fun e => (t.node / 1024, e.op)).flatten fun e => (opsOf e.1).contains e.2,
    firstBad 0xA010 4 k 1 sh.tables fun t =>
      (t.entries.getLast?.map (·.op)) == some 15 &&
      (t.node / 1024 != 0 || (banksOk false false (t.entries ++ t.entries) && drainsOk false t.entries)),
    unlessAt (p.parcels.zipIdx.all fun q => q.1.typ != 4 || lang.count q.2 == 1) (errAt 0xA010 4 k)]

/-- Flits per cycle of a plane (R79). -/
def planeWidth : Nat → Nat
  | 0 => 16 | 1 => 4 | _ => 1

/-- Code 0xA011 (R79, R301), under the mapping of R294 for the section's shape. -/
def State.checkSlack (s : State) (k : Nat) (sh : ShapeP) : Option PlanErr :=
  let s := s.remap sh.n
  firstBad 0xA011 3 k 4 sh.hops fun h => h.flits ≤ planeWidth h.plane && 1 + s.hopRows h ≤ h.slack

/-- Code 0xA012 (R25): residence on a port that reports itself absent. -/
def State.checkPorts (s : State) (k : Nat) (sh : ShapeP) : Option PlanErr :=
  firstBad 0xA012 2 k 2 sh.res fun r => r.tier == 0 || (s.mports[r.port]?).map (·.state) != some 1

/-! ## Codes 0xA020, 0xA030, 0x3010, 0x4004, 0x5010 -/

/-- The update rules of R97. -/
inductive Rule where
  | heatBath | glauber | metropolis | potts | integer | ula | mala
  deriving DecidableEq, Repr

/-- R97: the rule of a variable type and a DIST. -/
def ruleOf : Nat → Nat → Option Rule
  | 0, 2 | 1, 2 => some .heatBath
  | 0, 1 | 1, 1 => some .glauber
  | 0, 16 | 1, 16 => some .metropolis
  | 2, 8 => some .potts
  | 3, 17 => some .integer
  | 4, 4 => some .ula
  | 4, 20 => some .mala
  | _, _ => none

/-- R108: words that each lane stream of a parcel draws in a sweep. -/
def PlanData.wordsOf (p : PlanData) (q : Parcel) : Rule → Nat
  | .potts => ceilDiv (Machine.qRecv p.runs (some q)) 64 * q.vars.length
  | .integer | .mala => 2
  | _ => 1

/-- The range of a parcel. -/
def PlanData.rangeOf (p : PlanData) (parcel : Nat) : Option SRange :=
  p.ranges.find? fun r => r.first ≤ parcel && parcel < r.first + r.count

/-- The rule of a parcel (R97). -/
def PlanData.rule (p : PlanData) (parcel : Nat) : Option Rule :=
  match p.rangeOf parcel, p.parcels[parcel]? with
  | some r, some q => ruleOf q.typ r.dist
  | _, _ => none

/-- Code 0xA020. -/
def PlanData.checkRules (p : PlanData) : Option PlanErr :=
  firstBad 0xA020 6 0 1 p.ranges fun r =>
    ((p.parcels.drop r.first).take r.count).all fun q =>
      match ruleOf q.typ r.dist with
      | some u => p.wordsOf q u == r.words
      | none => false

/-- A finite FP32 at least 0. -/
def finiteNonneg (x : W32) : Bool := isFinite32 x && le32 0 x

/-- R83 and the group Limits: members binary, below N_VARS, ascending, in one group only, and no two of
them in one higher-order term. -/
def PlanData.groupOk (p : PlanData) (g : GroupD) (i : Nat) : Bool :=
  g.id == i && 2 ≤ g.members.length && g.members.length ≤ 256 &&
  (if g.hard then g.f == 0 else 1 ≤ g.f) &&
  g.members.all (fun v => v < p.nVars && p.typeOf v == some 0) && decide (g.members.Pairwise (· < ·)) &&
  !((p.anneal.groups.take i).any fun h => h.members.any g.members.contains) &&
  (p.blocks.zip p.payloads).all fun d => d.1.kind != 3 || d.1.bound ||
    (p.terms d.1 d.2).all fun t => ((p.termVars d.1 t).filter g.members.contains).length ≤ 1

/-- Where the control records of a ROLE are at fault (R89): a lone record is the one at fault; of none or several,
no single one is. -/
def PlanData.loneCtrl (p : PlanData) (role : Nat) : PlanErr :=
  if (p.ctrls.filter (·.role == role)).length == 1 then
    ⟨0xA030, 6, 0, 2, (p.ctrls.findIdx? (·.role == role)).getD 0⟩
  else errAt 0xA030 6 0

/-- Code 0xA030 (R139). -/
def PlanData.checkAnneal (p : PlanData) : Option PlanErr :=
  let a := p.anneal
  let r := p.replicas
  let role := fun k => p.ctrls.filter (·.role == k)
  let most := (a.groups.map (·.members.length)).foldl max 0
  let noRec := errAt 0xA030 7 0
  firstErr [
    unlessAt (finiteNonneg a.dt && finiteNonneg a.dtCap) ⟨0xA030, 7, 0, 0, 0⟩,
    firstBadI 0xA030 7 0 1 a.betas fun b i => finiteNonneg b.2 &&
      (if i == 0 then b.1 == 0 else ((a.betas[i - 1]?).map (·.1)).getD 0 < b.1),
    firstBadI 0xA030 7 0 2 a.mults fun x i => isFinite32 x && lt32 0 x &&
      (i == 0 || lt32 (a.mults.getD (i - 1) 0) x),
    unlessAt (r * p.nVars ≤ 2 ^ 40 - 1 && r * p.nParcels ≤ 2 ^ 34) noRec,
    unlessAt (a.swapK == 0 || r != 1) ⟨0xA030, 7, 0, 0, 0⟩,
    firstBadI 0xA030 7 0 3 a.groups p.groupOk,
    unlessAt (if a.swapK == 0 then (role 0).isEmpty
      else (role 0).map (fun c => (c.count, c.words)) == [(r - 1, 0)]) (p.loneCtrl 0),
    unlessAt (if a.groups.isEmpty then (role 1).isEmpty
      else (role 1).map (fun c => (c.count, decide (2 * most ≤ c.words))) == [(r * a.groups.length, true)])
      (p.loneCtrl 1),
    firstBad 0xA030 6 0 2 p.ctrls fun c => c.role != 3 || (c.count == 0 && c.words == 0),
    unlessAt (disjointSpans (p.ctrls.map fun c => (c.base, c.count))) (errAt 0xA030 6 0),
    unlessAt (!(p.parcels.any (·.typ == 4)) ||
      (a.stuckW == 0 && a.penaltyE == 0 && a.swapK == 0 && a.groups.isEmpty && r ≤ 1)) noRec]

/-- Q of a reduction: the distinct parcels among its inputs (R170). -/
def PlanData.redQ (p : PlanData) (sh : ShapeP) (source : Nat) : Nat :=
  if source < 2 ^ 31 then 1
  else (((p.drainPairs sh).filter fun d => d.2 == source % 65536).map (·.1)).dedup.length

/-- Code 0x3010 (R178). -/
def PlanData.checkArith (p : PlanData) : Option PlanErr :=
  let sh := ((p.shapes.head?).map (·.2)).getD ShapeP.empty
  firstErr [
    firstBad 0x3010 5 0 1 p.drains fun d =>
      isFinite32 d.scale &&
      (d.act != 2 || (isFinite32 d.clampLo && isFinite32 d.clampHi && le32 d.clampLo d.clampHi)) &&
      (d.act != 4 || d.actTable < p.acts.length) && (d.cls != 0 || d.act < 3) &&
      (d.bias == 0xFFFFFFFF || (p.blocks[d.bias]?).map (·.kind) == some 0) &&
      (d.round != 2 || (p.ctrls.filter (·.role == 2)).length == 1),
    firstBad 0x3010 5 0 3 p.acts fun t =>
      t.all (fun g => isFinite32 g.at_ && isFinite32 g.slope && isFinite32 g.icept) &&
      (t.zip (t.drop 1)).all fun g => lt32 g.1.at_ g.2.at_,
    firstBad 0x3010 5 0 2 p.reds fun r =>
      (if r.source < 2 ^ 31 then r.source < p.nBlocks else r.source % 65536 < p.drains.length) &&
      bitsOf r.source 16 15 == 0 && r.parts ≤ p.redQ sh r.source]

/-- Code 0x4004 (R197). -/
def PlanData.checkControls (p : PlanData) : Option PlanErr :=
  firstBad 0x4004 6 0 2 p.ctrls fun c =>
    (c.role != 2 || (c.count == p.drains.length && c.words == 0)) &&
    c.base + c.count ≤ 0x1000000000000

/-- Code 0x5010 (R237). -/
def PlanData.checkHops (k : Nat) (sh : ShapeP) : Option PlanErr :=
  firstBad 0x5010 3 k 4 sh.hops fun h =>
    let ports := (h.src / 1024 == 3, h.dst / 1024 == 3)
    h.src != h.dst && !(ports.1 && ports.2) && !(h.plane == 2 && (ports.1 || ports.2)) && h.duration != 0

/-- R88: the whole validation at execution. -/
def State.checkPlan (s : State) (img : List Byte) : Option PlanErr :=
  match s.checkImage img with
  | some e => some e
  | none =>
    let p := readPlan img
    let per := fun (f : Nat → ShapeP → Option PlanErr) => firstErr (p.shapes.map fun x => f x.1 x.2)
    firstErr [
      unlessAt (p.select s.fillable).isSome (errAt 0xA008 0 0),
      p.checkShapes,
      p.checkTypes img,
      p.checkIndex img,
      p.checkGuard,
      unlessAt (!(p.synchronous && s.fld Fld.MODE_STAT_MODE == 0)) (errAt 0xA00D 0 0),
      per (s.checkCapacity p),
      p.checkWindows,
      per (p.checkSequencer img),
      per s.checkSlack,
      per s.checkPorts,
      p.checkRules,
      p.checkAnneal,
      p.checkArith,
      p.checkControls,
      per PlanData.checkHops]

end Sys2Proof.Machine
end

