-- ==== Sys2Proof/Machine/Chains.lean ====
section
/-! DEFINITION. Chain state and what it means (R61, R62, R68, R69, R92, R95, R122, R126, R127): variable
values, the contribution of every stored value, exact fields, energy, couplings in effect, and the
seeding and position of streams (R187 to R192). -/

namespace Sys2Proof.Machine

/-! ## Values -/

/-- N_VARS of the plan in effect. -/
def State.nVars (s : State) : Nat := s.plan.data.nVars

/-- N_REPLICAS of the plan in effect. -/
def State.replicas (s : State) : Nat := s.plan.data.replicas

/-- The exact value that a stored form stands for (R61); a Potts state has its number. -/
def storedVal (r : Option TypeRun) (n : Nat) : XVal :=
  match r with
  | some r =>
    match r.typ with
    | 0 => .fin n
    | 1 => .fin (if n == 0 then -1 else 1)
    | 2 => .fin n
    | 3 => .fin (r.lo + n : Int)
    | _ => fp32.decode n
  | none => .fin 0

/-- The stored form of a variable of a chain. -/
def storedOf (nVars : Nat) (vals : List Nat) (chain v : Nat) : Nat := vals.getD (chain * nVars + v) 0

/-- The value of a variable of a chain. -/
def PlanData.valueOf (p : PlanData) (vals : List Nat) (chain v : Nat) : XVal :=
  storedVal (runOf p.runs v) (storedOf p.nVars vals chain v)

/-- The run centre C_run (R62), 0 for every other type. -/
def PlanData.centre (p : PlanData) (v : Nat) : Int :=
  match runOf p.runs v with
  | some r => if r.typ == 3 then r.lo + (ceilDiv r.span 2 : Nat) else 0
  | none => 0

/-- The value of a coupling encoding (R66, R142). -/
def couplingVal (fmt n : Nat) : XVal :=
  match fmt with
  | 0 => .fin (signedOf 8 n)
  | 1 => .fin (if n == 1 then 1 else if n == 3 then -1 else 0)
  | 2 => fpE4M3.decode n
  | 3 => fpE5M2.decode n
  | 4 => fp16.decode n
  | 5 => bf16.decode n
  | _ => fp32.decode n

def XVal.isNeg : XVal → Bool
  | .fin q => q < 0
  | .inf n => n
  | .nan => false

/-- Product of extended values (R149). -/
def XVal.times (a b : XVal) : XVal := XVal.mul a.isNeg b.isNeg a b

/-- x^b formed by the V-cores in FP32, one product at a time (R65; log 17). -/
def powFp32 (x : W32) : Nat → W32
  | 0 => 0x3F800000
  | 1 => x
  | n + 1 => mul32 (powFp32 x n) x

/-! ## Blocks in effect (R77) -/

/-- The payload in effect of a block: its bound payload for a BOUND block (R77, R104). -/
def PlanSt.payload (p : PlanSt) (b : Nat) : List Byte :=
  match p.data.blocks[b]? with
  | some d =>
    if d.bound then ((p.binds.find? (·.block == b)).map (·.payload)).getD []
    else p.data.payloads.getD b []
  | none => []

/-- The stored values in effect of a block; a BOUND block before its first bind has none (R104). -/
def PlanSt.terms (p : PlanSt) (b : Nat) : List Term :=
  match p.data.blocks[b]? with
  | some d =>
    if d.bound && !(p.binds.any (·.block == b)) then [] else p.data.terms d (p.payload b)
  | none => []

/-- The partner factor of a stored value in a chain, with integer partners centred or not (R62, R68,
R69): the product of the partners' values, or 1 without partners. -/
def PlanData.partnerVal (p : PlanData) (vals : List Nat) (chain : Nat) (d : BlockD) (t : Term)
    (centred : Bool) : XVal :=
  let one := fun v =>
    let x := p.valueOf vals chain v
    if centred then x.add (.fin (-(p.centre v))) else x
  match t.partners with
  | [] => .fin 1
  | [v] =>
    if d.kind == 4 then fp32.decode (powFp32 (BitVec.ofNat 32 (storedOf p.nVars vals chain v)) t.b).toNat
    else one v
  | vs => vs.foldl (fun acc v => acc.times (one v)) (.fin 1)

/-- The contribution of a stored value for receiving state `a` (R69): the entry that a Potts partner's
state selects, or the entry times the partner factor. -/
def PlanData.contribution (p : PlanData) (vals : List Nat) (chain : Nat) (d : BlockD) (t : Term)
    (a : Nat) (centred : Bool) : XVal :=
  match t.partners with
  | [v] =>
    if p.typeOf v == some 2 then
      couplingVal d.fmt (t.ent.getD (a * t.qp + storedOf p.nVars vals chain v) 0)
    else (couplingVal d.fmt (t.ent.getD (a * t.qp) 0)).times (p.partnerVal vals chain d t centred)
  | _ => (couplingVal d.fmt (t.ent.getD (a * t.qp) 0)).times (p.partnerVal vals chain d t centred)

/-- PENALTY blocks enter scaled by 2^PEN_K (R126). -/
def penScale (d : BlockD) (penK : Nat) : Rat := if d.penalty then (2 ^ penK : Nat) else 1

/-- Blocks with their numbers. -/
def PlanData.blocksOf (p : PlanData) (parcel : Nat) : List (BlockD × Nat) :=
  p.blocks.zipIdx.filter fun d => d.1.parcel == parcel

/-- The finite part of an extended value. -/
def XVal.rat : XVal → Rat
  | .fin q => q
  | _ => 0

/-- The exact field of a discrete variable for receiving state `a` (R95, R132). -/
def PlanSt.fieldOf (p : PlanSt) (vals : List Nat) (chain v a penK : Nat) : Rat :=
  match p.data.parcelOf v with
  | some pc =>
    let lane := (((p.data.parcels[pc]?).map (·.vars.findIdx (· == v)))).getD 0
    ((p.data.blocksOf pc).map fun d =>
      (((p.terms d.2).filter (·.lane == lane)).map fun t =>
        (p.data.contribution vals chain d.1 t a false).rat).sum * penScale d.1 penK).sum
  | none => 0

/-- The value stored in `j`'s blocks for partner `i` (R133). -/
def PlanSt.coupling (p : PlanSt) (j i penK : Nat) : Rat :=
  match p.data.parcelOf j with
  | some pc =>
    let lane := (((p.data.parcels[pc]?).map (·.vars.findIdx (· == j)))).getD 0
    ((p.data.blocksOf pc).map fun d =>
      (((p.terms d.2).filter fun t => t.lane == lane && t.partners == [i]).map fun t =>
        (couplingVal d.1.fmt (t.ent.getD 0 0)).rat).sum * penScale d.1 penK).sum
  | none => 0

/-! ## Energy (R126, R127) -/

/-- m_τ: 12 for unary values, 6 for pairwise, 4 for order 3, 3 for order 4. -/
def termWeight (t : Term) : Nat :=
  match t.partners.length with
  | 0 => 12
  | 1 => 6
  | 2 => 4
  | _ => 3

/-- One stored value's share of −E12 before the scale of PEN_K. Continuous receivers have none. -/
def PlanSt.termEnergy (p : PlanSt) (vals : List Nat) (chain : Nat) (d : BlockD) (t : Term) : Rat :=
  match (p.data.parcels[d.parcel]?).bind fun q => (q.vars[t.lane]?).map fun v => (q.typ, v) with
  | some (typ, v) =>
    let st := storedOf p.data.nVars vals chain v
    match typ with
    | 4 => 0
    | 2 => (p.data.contribution vals chain d t st false).rat * termWeight t
    | _ => (p.data.contribution vals chain d t 0 false).rat * termWeight t *
        (p.data.valueOf vals chain v).rat
  | none => 0

/-- Σ over the blocks that a test keeps, with each block's scale. -/
def PlanSt.energySum (p : PlanSt) (vals : List Nat) (chain : Nat) (keep : BlockD → Bool)
    (scale : BlockD → Rat) : Rat :=
  (p.data.blocks.zipIdx.map fun d =>
    if keep d.1 then ((p.terms d.2).map fun t => p.termEnergy vals chain d.1 t).sum * scale d.1 else 0).sum

/-- An exact multiple of 2^-298 as an integer number of them. -/
def unitsOf (q : Rat) : Int := (q * (2 ^ 298 : Nat)).floor

/-- E12 of a chain in units of 2^-298 (R126). -/
def PlanSt.e12 (p : PlanSt) (vals : List Nat) (chain penK : Nat) : Int :=
  -(unitsOf (p.energySum vals chain (fun _ => true) (penScale · penK)))

/-- E_P ≤ 0 and every group of the chain has exactly one member set (R127). -/
def PlanSt.feasible (p : PlanSt) (vals : List Nat) (chain : Nat) : Bool :=
  0 ≤ p.energySum vals chain (·.penalty) (fun _ => 1) &&
  p.data.anneal.groups.all fun g =>
    (g.members.filter fun v => storedOf p.data.nVars vals chain v == 1).length == 1

/-! ## Coupling in effect (R104, R107) -/

/-- The unordered pairs of variables coupled by the values in effect. -/
def PlanSt.coupledPairs (p : PlanSt) : List (Nat × Nat) :=
  ((p.data.blocks.zipIdx.map fun d => ((p.terms d.2).map fun t =>
    (listPairs (p.data.termVars d.1 t)).map fun x => (min x.1 x.2, max x.1 x.2)).flatten).flatten).dedup

/-! ## Streams (R182, R187 to R192, R194) -/

/-- D(w) of a control stream (R192). -/
def PlanData.ctrlPos (p : PlanData) (c : CtrlRec) (w : Nat) : Nat :=
  match c.role with
  | 0 => if p.anneal.swapK == 0 then 0 else w / p.anneal.swapK
  | 1 => w * c.words
  | _ => 0

/-- Stream ids of every lane of every parcel of every chain, with their position at sweep w. -/
def PlanData.laneIds (p : PlanData) (w : Nat) : List (Nat × Nat) :=
  ((List.range p.replicas).map fun r => ((List.range p.nParcels).map fun q =>
    (List.range 64).map fun l => ((r * p.nParcels + q) * 64 + l,
      w * ((p.rangeOf q).map (·.words)).getD 0)).flatten).flatten

/-- Ids and positions of the ROLE 0 and ROLE 1 streams, in ascending id. -/
def PlanData.ctrlIds (p : PlanData) (w : Nat) : List (Nat × Nat) :=
  sortBy (fun a b => a.1 ≤ b.1) (((p.ctrls.filter fun c => c.role ≤ 1).map fun c =>
    (List.range c.count).map fun i => (c.base + i, p.ctrlPos c w)).flatten)

/-- Every sequential stream set to its position at sweep w from a seed (R188, R190). -/
def PlanData.seedStreams (p : PlanData) (seed : W64) (w : Nat) : List Stream × List Stream :=
  ((p.laneIds w).map (fun x => Stream.seeded seed x.1 x.2),
   (p.ctrlIds w).map fun x => Stream.seeded seed x.1 x.2)

/-- A change to the execution state. -/
def State.onEx (s : State) (f : Exec → Exec) : State := { s with ex := f s.ex }

/-- Every shadow area and mirror is readable again. -/
def State.mendShadows (s : State) : State :=
  { s with sites := s.sites.map fun x => { x with shadowBad := false, mirrorBad := false } }

/-- The step shadow is set to the chain state, each core's in its own area and its buddy's (R28, action 4, R299), with
the counts that a re-execution goes back to. -/
def State.setShadow (s : State) : State :=
  s.mendShadows.onEx fun x => { x with shadow := x.chain, counts := (x.groupAcc, x.swapTried, x.swapAcc) }

/-- Those counts again. -/
def State.oldCounts (s : State) : State :=
  s.onEx fun x => { x with groupAcc := x.counts.1, swapTried := x.counts.2.1, swapAcc := x.counts.2.2 }

/-- A change to chain state. -/
def State.onChain (s : State) (f : ChainSt → ChainSt) : State := s.onEx fun x => { x with chain := f x.chain }

/-- A change to anneal state. -/
def State.onAnneal (s : State) (f : Anneal → Anneal) : State :=
  s.onChain fun c => { c with an := f c.an }

/-- A change to the log of the step in flight. -/
def State.onLog (s : State) (f : StepLog → StepLog) : State := { s with slog := f s.slog }

/-- STRM_SEED_INFO.SEEDED. -/
def State.seeded (s : State) : Bool := s.flag Fld.STRM_SEED_INFO_SEEDED

/-- A lane stream of a parcel (with its replica offset). -/
def laneStream (c : ChainSt) (parcel lane : Nat) : Stream := c.lanes.getD (parcel * 64 + lane) ⟨0, 1, 0⟩

/-- A word from each of the 64 lane streams of a parcel (R108). -/
def drawLanes (c : ChainSt) (parcel : Nat) : List W32 × ChainSt :=
  let d := (List.range 64).map fun l => (laneStream c parcel l).draw
  let lanes := c.lanes.take (parcel * 64) ++ d.map (·.2) ++ c.lanes.drop (parcel * 64 + 64)
  (d.map (·.1), { c with lanes := lanes })

/-- A control stream by id. -/
def ctrlStream (c : ChainSt) (id : Nat) : Stream := (c.ctrl.find? (·.id == id)).getD ⟨id, 1, 0⟩

/-- A control stream given a value. -/
def setCtrl (c : ChainSt) (x : Stream) : ChainSt :=
  { c with ctrl := c.ctrl.map fun y => if y.id == x.id then x else y }

/-- The control record of a role. -/
def PlanData.ctrlRec (p : PlanData) (role : Nat) : Option CtrlRec := p.ctrls.find? (·.role == role)

/-! ## β (R124, R125) -/

/-- FP32(q) of an exact rational. -/
def fp (q : Rat) : W32 := rn32 q

/-- β_s(w) (R124). -/
def betaS (pts : List (Nat × W32)) (w : Nat) : W32 :=
  match (pts.zip (pts.drop 1)).find? fun p => p.1.1 ≤ w && w < p.2.1 with
  | some ((w0, b0), (w1, b1)) =>
    let frac := fp (((w - w0 : Nat) : Rat) / ((w1 - w0 : Nat) : Rat))
    add32 b0 (mul32 (sub32 b1 b0) frac)
  | none => ((pts.getLast?).map (·.2)).getD 0

/-- The effective β of a slot (R125). -/
def betaK (bs mult tOff : W32) : W32 :=
  let b := mul32 bs mult
  if rat32 tOff = 0 then b
  else
    let one : W32 := 0x3F800000
    div32 one (add32 (div32 one b) tOff)

/-- β_k of every slot for the sweep to come. -/
def State.formBetas (s : State) : State :=
  let a := s.plan.data.anneal
  let bs := betaS a.betas s.ex.chain.an.w
  s.onEx fun x => { x with betas := a.mults.map fun m => betaK bs m x.chain.an.tOff }

/-- The slot that a chain occupies (R124). -/
def slotOfChain (an : Anneal) (chain : Nat) : Nat := (an.slotMap.findIdx? (· == chain)).getD 0

/-- The β of a chain in this sweep (R125). -/
def State.betaOf (s : State) (chain : Nat) : W32 := s.ex.betas.getD (slotOfChain s.ex.chain.an chain) 0

end Sys2Proof.Machine
end

