-- ==== Sys2Proof/Machine/Sequencer.lean ====
section
/-! DEFINITION. Sequencers (R80, R103, R110, R217): which entry a core may run now, slots and passes,
fills, what a core's checks find (R146, R150, R296), and GATHER, SYNC, BARRIER_RELEASE and
WRITEBACK. -/

namespace Sys2Proof.Machine

/-! ## Cores and their tables -/

/-- The state of a logical node's sequencer. -/
def State.core (s : State) (node : Nat) : Option CoreSt := s.ex.cores.find? (·.node == node)

/-- A change to one core. -/
def State.onCore (s : State) (node : Nat) (f : CoreSt → CoreSt) : State :=
  s.onEx fun x => { x with cores := x.cores.map fun c => if c.node == node then f c else c }

/-- A change to every core. -/
def State.onCores (s : State) (f : CoreSt → CoreSt) : State :=
  s.onEx fun x => { x with cores := x.cores.map f }

/-- The shape in use as the plan states it, before load balancing has moved any parcel (R242). -/
def PlanSt.home (p : PlanSt) : ShapeP := ((p.data.shapes.find? (·.1 == p.sel)).map (·.2)).getD p.shape

/-- When Replay mode takes effect, parcels stand where PLACEMENT and SCHEDULE put them (R242). -/
def State.homeParcels (s : State) : State :=
  { s with plan := { s.plan with shape := { s.plan.shape with
    place := s.plan.home.place, slotOf := s.plan.home.slotOf } } }

/-- The parcels that load balancing has moved to another core or slot (R242). -/
def PlanSt.moved (p : PlanSt) : List Nat :=
  (List.range p.data.nParcels).filter fun q =>
    (p.shape.place[q]?).map (·.1) != (p.home.place[q]?).map (·.1) || p.shape.slotOf[q]? != p.home.slotOf[q]?

/-- The entries of a table with the parcel each serves: a MAC its own, a GATHER that of the MAC after it. -/
def PlanData.owned (p : PlanData) : List SeqEntry → List (SeqEntry × Option Nat)
  | [] => []
  | e :: es =>
    let rest := p.owned es
    let mine := match e.op with
      | 2 => some (((p.blocks[e.arg]?).map (·.parcel)).getD 0)
      | 1 => (rest.find? fun x => x.1.op == 2).bind (·.2)
      | _ => none
    (e, mine) :: rest

/-- A group of entries of one rank takes its place among others: before the first of a later rank, or after the last
that serves a parcel. -/
def insertGroup (rank : Nat → Nat) (r : Nat) (g l : List (SeqEntry × Option Nat)) : List (SeqEntry × Option Nat) :=
  match l.findIdx? fun x => x.2.any fun q => decide (r < rank q) with
  | some i => l.take i ++ g ++ l.drop i
  | none =>
    let n := l.length - (l.reverse.findIdx? fun x => x.2.isSome).getD l.length
    l.take n ++ g ++ l.drop n

/-- The entry table that the plan gives a node. -/
def PlanSt.ownTable (p : PlanSt) (node : Nat) : List SeqEntry :=
  ((p.shape.tables.find? (·.node == node)).map (·.entries)).getD []

/-- The entry table of a node. The fills of a parcel that load balancing has moved follow it to its core and to the
place of its slot there; where they stand among that core's own fills is the model's choice (R242; log 32). -/
def State.fullTable (s : State) (node : Nat) : List SeqEntry :=
  let p := s.plan
  match p.moved with
  | [] => p.ownTable node
  | m =>
    if 1024 ≤ node then p.ownTable node
    else
      let order := (p.shape.classes.map fun c =>
        (p.shape.slots.zipIdx.filter fun x => x.1.cls == c.1).map (·.2)).flatten
      let rank := fun q => (order.findIdx? (· == p.shape.slotOf.getD q 0)).getD 0
      let stay := (p.data.owned (p.ownTable node)).filter fun x => !(x.2.any m.contains)
      let come := m.filter fun q => (p.shape.place[q]?).any (·.1 == node)
      (come.foldl (fun l q =>
        insertGroup rank (rank q) ((p.data.owned (p.ownTable (((p.home.place[q]?).map (·.1)).getD 0))).filter
          (·.2 == some q)) l) stay).map (·.1)

/-- The entries that hold a core's position. What DRAIN, UPDATE, GROUP, SWAP and ANNEAL entries name
follows the data instead: a bank that closed (R151), a block presented (R165), the end of a sweep
(R128). Where such an entry stands changes timing only (R87; log 15). -/
def State.tableOf (s : State) (node : Nat) : List SeqEntry :=
  (s.fullTable node).filter fun e => !([3, 4, 8, 9, 10].contains e.op)

/-- The entry at a core's position. -/
def State.entryAt (s : State) (c : CoreSt) : Option SeqEntry := (s.tableOf c.node)[c.pos]?

/-- A sweep runs, and the step in flight has not been abandoned (R298). -/
def State.sweeping (s : State) : Bool := s.cUp && s.stept.stepOn && s.ex.sweepOn && !s.slog.abandoned

/-- Slots in the order in which a sweep runs them: classes in record order, slots of a class in slot
record order (R79, R103). -/
def ShapeP.slotOrder (sh : ShapeP) : List Nat :=
  (sh.classes.map fun c => (sh.slots.zipIdx.filter fun p => p.1.cls == c.1).map (·.2)).flatten

/-- The slot in progress. -/
def State.curSlot (s : State) : Option Nat := s.plan.shape.slotOrder[s.ex.slot]?

/-- The cycle in which a slot of the pass in progress begins, with the delay of earlier slots (R103). -/
def State.slotStart (s : State) (k : Nat) : Nat :=
  s.ex.passAt + ((s.plan.shape.slots[k]?).map (·.start)).getD 0 + s.ex.delay

/-- The slot of a parcel. -/
def State.slotOfParcel (s : State) (q : Nat) : Nat := s.plan.shape.slotOf.getD q 0

/-- The node of the M-core that holds a parcel (R78). -/
def State.coreOfParcel (s : State) (q : Nat) : Nat := ((s.plan.shape.place[q]?).map (·.1)).getD 0

/-- The parcels of a core, in ORDINAL order. -/
def State.parcelsOf (s : State) (node : Nat) : List Nat :=
  (sortBy (fun a b => a.1.2 ≤ b.1.2) (s.plan.shape.place.zipIdx.filter fun p => p.1.1 == node)).map (·.2)

/-- A parcel's number in a chain (R122). -/
def State.parcelIn (s : State) (chain q : Nat) : Nat := chain * s.plan.data.nParcels + q

/-- A parcel of a chain may run now: its chain's pass and its slot are in progress. -/
def State.slotReady (s : State) (chain q : Nat) : Bool :=
  chain == s.ex.pass && s.curSlot == some (s.slotOfParcel q) && s.slotStart (s.slotOfParcel q) ≤ s.ccyc

/-- The receiving parcel of the block that a MAC entry names. -/
def State.macParcel (s : State) (e : SeqEntry) : Nat := ((s.plan.data.blocks[e.arg]?).map (·.parcel)).getD 0

/-- A core's entry of an OP may start: the core runs, is not held at a barrier, has reached the entry's
SLOT cycle, and the entry at its position has that OP (R80). -/
def State.entryDue (s : State) (node op : Nat) : Option (CoreSt × SeqEntry) :=
  match s.core node with
  | some c =>
    match s.entryAt c with
    | some e =>
      if s.sweeping && !c.ended && c.waiting.isNone && e.op == op &&
          (e.slot == 0xFFFFFFFF || s.ex.passAt + e.slot ≤ s.ccyc) then some (c, e)
      else none
    | none => none
  | none => none

/-- The core moves to its next entry. -/
def CoreSt.advance (c : CoreSt) : CoreSt := { c with pos := c.pos + 1 }

/-! ## Fills -/

/-- The exponents present among the terms of a continuous parcel, ascending (R111). -/
def PlanSt.exponents (p : PlanSt) (q : Nat) : List Nat :=
  [1, 2, 3, 4].filter fun a => (p.data.blocksOf q).any fun d => (p.terms d.2).any (·.a == a)

/-- Passes of each Potts variable of a parcel. -/
def PlanData.pottsPasses (p : PlanData) (q : Nat) : Nat := ceilDiv (Machine.qRecv p.runs p.parcels[q]?) 64

/-- The fills of a parcel in one sweep of a chain (R166). -/
def PlanSt.fillsOf (p : PlanSt) (q : Nat) : Nat :=
  match p.data.parcels[q]? with
  | some pc =>
    match pc.typ with
    | 2 => pc.vars.length * p.data.pottsPasses q
    | 4 => (p.exponents q).length
    | _ => 1
  | none => 0

/-- A parcel has blocks to fill from. -/
def PlanData.hasBlocks (p : PlanData) (q : Nat) : Bool := p.blocks.any (·.parcel == q)

/-- The fill of its parcel that a MAC entry belongs to: how many fills of that parcel the table has
closed before it. -/
def State.fillIndex (s : State) (c : CoreSt) (q : Nat) : Nat :=
  (((s.tableOf c.node).take c.pos).filter fun e =>
    e.op == 2 && e.flags.testBit 2 && s.macParcel e == q).length

/-- PASS of a fill (R195, R181): p of a Potts pass, a − 1 of an exponent pass, else 0. -/
def PlanSt.passOf (p : PlanSt) (q fill : Nat) : Nat :=
  match (p.data.parcels[q]?).map (·.typ) with
  | some 2 => fill % max 1 (p.data.pottsPasses q)
  | some 4 => (p.exponents q).getD fill 1 - 1
  | _ => 0

/-! ## What checks find -/

/-- The step is to be re-executed (R28), with what is to be settled at the boundary (R311). -/
def State.damage (s : State) (d : Damage) : State :=
  { s with spare := { s.spare with damage := s.spare.damage ++ [d] } }.onLog fun l => { l with rerun := true }

/-- A correction in an SRAM bank: at 64 since cold reset the bank is to be replaced, with nothing to
re-execute (R296). -/
def State.sramCorrected (s : State) (site bank : Nat) : State :=
  let n := (((s.site site).corrections.find? (·.1 == bank)).map (·.2)).getD 0 + 1
  let s := s.onSite site fun x => { x with corrections := (bank, n) :: x.corrections.filter (·.1 != bank) }
  if n == 64 then
    { s with spare := { s.spare with damage := s.spare.damage ++ [.bank site bank] } }
  else s

/-- What a core's checks find while it runs an entry (R146, R150, R296). A shadow area or mirror that cannot be read costs
nothing while the other copy stands (R307), and is not charged to the site: the model's reading (log 37). -/
def State.coreFault (s : State) (node : Nat) (f : CoreFault) : State :=
  match s.siteOf (node / 1024) (node % 1024) with
  | some site =>
    match f with
    | .ok => s
    | .residue => s.damage (.charge site 0)
    | .parity b k _ _ => s.damage (.slice site b k)
    | .corrected bank => s.sramCorrected site bank
    | .uncorrectable bank => (s.damage (.charge site 2)).damage (.bank site bank)
    | .shadow mirror => s.onSite site fun x =>
      if mirror then { x with mirrorBad := true } else { x with shadowBad := true }
  | none => s

/-- Flits dropped at a site's fence, or on their way to it (R215). -/
def State.ghost (s : State) (site n : Nat) : State :=
  let said := s.slog.ghosts.any (·.1 == site)
  let s := s.onSite site fun x => { x with
    ghostFlits := satAdd 32 x.ghostFlits n, ghostSteps := satAdd 32 x.ghostSteps (!said).toNat }
  s.onLog fun l => { l with ghosts :=
    if said then l.ghosts.map fun g => if g.1 == site then (g.1, g.2 + n) else g else l.ghosts ++ [(site, n)] }

/-- A flit parity error on a router's output link of any plane: the step is re-executed, and a second one of the
router in the step declares it failed (R296). -/
def State.flitParity (s : State) (router : Nat) : State :=
  let n := (s.site router).flitErrors + 1
  let s := (s.onSite router fun x => { x with flitErrors := n }).onLog fun l => { l with rerun := true }
  if n == 2 then s.damage (.router router) else s

/-- What a transfer's parity check found: an error on a router's output link, or nothing. -/
def State.flitCheck (s : State) : Option Nat → State
  | some router => s.flitParity router
  | none => s

/-! ## GATHER -/

/-- The parcel that the next MAC entry after a position fills. -/
def State.nextFill (s : State) (c : CoreSt) : Option Nat :=
  (((s.tableOf c.node).drop c.pos).find? (·.op == 2)).map s.macParcel

/-- A gather may read: the slot of the parcel it serves is in progress (R103). V- and S-cores gather
what has been delivered. -/
def State.gatherReady (s : State) (c : CoreSt) : Bool :=
  c.node / 1024 != 0 ||
  match s.nextFill c with
  | some q => s.slotReady c.pass q
  | none => true

/-- GATHER: the partner state of one parcel is read, as committed at the end of the previous slot
(R103, R106, R110). -/
def execGather (t node : Nat) (fault : CoreFault) (s : State) : Result :=
  s.when t (fun s => match s.entryDue node 1 with
      | some (c, _) => s.gatherReady c
      | none => false) fun s =>
    (s.onCore node fun c => { c.advance with gathered := s.ex.snap }).coreFault node fault

/-! ## SYNC and its barriers (R217, R298) -/

/-- The nodes whose tables hold a SYNC entry of a barrier. -/
def State.participants (s : State) (id : Nat) : List Nat :=
  (s.plan.shape.tables.filter fun t => t.entries.any fun e => e.op == 11 && e.arg == id).map (·.node)

/-- Participants that have not arrived at a barrier. -/
def State.missing (s : State) (b : Barrier) : List Nat :=
  (s.participants b.id).filter fun n => !(b.arrived.any (·.1 == n))

/-- The cycle of the last arrival at a barrier. -/
def Barrier.lastAt (b : Barrier) : Nat := (b.arrived.map (·.2)).foldl max 0

/-- A core arrives at a barrier; an arrival in the cycle of its watchdog's expiry counts as on time and
is counted (R298). -/
def State.arrive (s : State) (node id : Nat) : State :=
  let b := (s.ex.barriers.find? (·.id == id)).getD ⟨id, []⟩
  let s := if s.missing b == [node] && !b.arrived.isEmpty && s.ccyc == b.lastAt + s.spare.effWdog then
      s.incFld Fld.SPARE_AT_LIMIT_WDOG else s
  let b := { b with arrived := b.arrived ++ [(node, s.ccyc)] }
  s.onEx fun x => { x with barriers := b :: x.barriers.filter (·.id != id) }

/-- The site of a node is fenced. -/
def State.nodeFenced (s : State) (node : Nat) : Bool :=
  (s.siteOf (node / 1024) (node % 1024)).any fun i => (s.site i).fenced

/-- A core's SYNC entry: it arrives at the barrier that ARG numbers and is held there, or sets a flag, which every node
sees 48 cycles later (R217). What a fenced core sends is dropped at its router, one flit of the sync plane (R215). -/
def State.syncEntry (s : State) (node : Nat) (e : SeqEntry) (flag : Bool) : State :=
  let s' := if s.nodeFenced node then s.ghost ((s.siteOf (node / 1024) (node % 1024)).getD 0) 1
    else if flag then s.onEx fun x => { x with flags := (e.arg, s.ccyc + 48) :: x.flags.filter (·.1 != e.arg) }
    else s.arrive node e.arg
  s'.onCore node fun c => if flag then c.advance else { c with waiting := some e.arg }

/-- A SYNC may come: from a core that has reached the entry, or from the fenced site `node` − 4,096 that carries no
logical core (R312). -/
def State.syncDue (s : State) (node : Nat) : Bool :=
  if node < 4096 then (s.entryDue node 11).isSome
  else s.sweeping && (s.site (node - 4096)).fenced && (s.serves (node - 4096)).isNone

/-- SYNC. Whether an entry arrives at a barrier or sets a flag R80 leaves open: operand `flag`. -/
def execSync (t node : Nat) (x : Signal) (s : State) : Result :=
  if 4816 ≤ node || x.parity.any (720 ≤ ·) then .fault .noSuchUnit
  else s.when t (·.syncDue node) fun s =>
    (match s.entryDue node 11 with
      | some (_, e) => s.syncEntry node e x.flag
      | none => s.ghost (node - 4096) 1).flitCheck x.parity

/-- Every core held at a barrier goes on. -/
def State.release (s : State) (id : Nat) : State :=
  (s.onCores fun c => if c.waiting == some id then { c.advance with waiting := none } else c).onEx
    fun x => { x with barriers := x.barriers.filter (·.id != id) }

/-- The barrier that is to release now: every participant arrived, 48 cycles ago. -/
def State.dueBarrier (s : State) : Option Barrier :=
  s.ex.barriers.find? fun b => (s.missing b).isEmpty && b.lastAt + 48 ≤ s.ccyc

/-- BARRIER_RELEASE: every participant goes on in the same cycle (R217). -/
def execBarrierRelease (t : Nat) (s : State) : Result :=
  s.when t (fun s => s.sweeping && s.dueBarrier.isSome) fun s =>
    match s.dueBarrier with
    | some b => s.release b.id
    | none => s

/-! ## WRITEBACK -/

/-- The last sweep of the step is in progress: its sweeps and those of every step before make a multiple
of SWEEPS_PER_STEP, or the RUN's first step after a MID_STEP context ends there too (R123). -/
def State.lastSweep (s : State) : Bool :=
  let n := max 1 s.plan.data.sweeps
  (s.ex.chain.an.w + (if s.ex.annealDone && !s.ex.swapDue then 0 else 1)) % n == 0

/-- The controller has ended the sweep in progress (R128). -/
def State.controllerDone (s : State) : Bool := s.ex.annealDone && !s.ex.swapDue

/-- WRITEBACK: in the last sweep of the step, once the controller has ended it, the core performs its
canonical write-back, whose bytes its check-value unit adds to the step digest (R250, R251). In an
earlier sweep, and in an earlier chain's pass, nothing is canonical yet. -/
def execWriteback (t node : Nat) (s : State) : Result :=
  s.when t (fun s => match s.entryDue node 5 with
      | some (c, _) => !s.lastSweep || c.pass + 1 < s.replicas || s.controllerDone
      | none => false) fun s =>
    s.onCore node fun c => { c.advance with written := s.controllerDone && s.lastSweep || c.written }

end Sys2Proof.Machine
end

