-- ==== Sys2Proof/Machine/Arith.lean ====
section
/-! DEFINITION. Arithmetic (chapter 06): the Vault, MAC fills in Vault and Lantern mode, the drain path
with its re-drains, overflow in both classes, reductions over the canonical tree, and Oculus captures. -/

namespace Sys2Proof.Machine

/-! ## The Vault (R147 to R149) -/

/-- The exact value of a Vault. -/
def Vault.x (v : Vault) : XVal :=
  match v.tag with
  | .finite => .fin ((v.bits.toInt : Rat) / (2 ^ 298 : Nat))
  | .posInf => .inf false
  | .negInf => .inf true
  | .nan => .nan

/-- A Vault that holds a value; while the tag is not FINITE the bits are 0. -/
def Vault.ofX : XVal → Vault
  | .fin q => ⟨BitVec.ofInt 640 (unitsOf q), .finite⟩
  | .inf n => ⟨0, if n then .negInf else .posInf⟩
  | .nan => ⟨0, .nan⟩

/-- An exact addition, tags combining as IEEE 754 does (R149). -/
def Vault.add (v : Vault) (x : XVal) : Vault := Vault.ofX (v.x.add x)

/-- The 64-bit limb `j` of a Vault. -/
def Vault.limb (v : Vault) (j : Nat) : Nat := bitsOf v.bits.toNat (64 * j) 64

/-! ## Groups (R67, R145, R154) -/

/-- Bits of the class of a coupling format (R66). -/
def fmtClass (f : Nat) : Nat := if f ≤ 3 then 8 else if f ≤ 5 then 16 else 32

/-- Bits of the class of a partner operand (R61). -/
def PlanData.operandClass (p : PlanData) (v : Nat) : Nat :=
  match runOf p.runs v with
  | some r => if r.typ == 4 then 32 else if r.typ == 3 && 255 < r.span then 16 else 8
  | none => 8

/-- The class in which a block runs (R67). -/
def PlanData.blockClass (p : PlanData) (d : BlockD) (ts : List Term) : Nat :=
  (((ts.map (·.partners)).flatten).map p.operandClass).foldl max (fmtClass d.fmt)

/-- Products in a group (R145). -/
def groupSize (cls : Nat) : Nat := 128 / cls

/-- The products of a stored value for receiving state `a`, one per position it takes: a Potts partner
enters as its one-hot operand (R67, R69). -/
def PlanData.positions (p : PlanData) (vals : List Nat) (chain : Nat) (d : BlockD) (a : Nat) (t : Term) :
    List XVal :=
  if t.qp == 1 then [p.contribution vals chain d t a true]
  else (List.range t.qp).map fun k =>
    let one := match t.partners with | [v] => storedOf p.nVars vals chain v == k | _ => false
    (couplingVal d.fmt (t.ent.getD (a * t.qp + k) 0)).times (.fin (if one then 1 else 0))

/-- The values that column `c` of a fill takes from a block, and the receiving state (R145). -/
def PlanSt.columnTerms (p : PlanSt) (d : BlockD × Nat) (q fill c : Nat) : List Term × Nat :=
  let ts := p.terms d.2
  match (p.data.parcels[q]?).map (·.typ) with
  | some 2 =>
    let n := max 1 (p.data.pottsPasses q)
    let a := 64 * (fill % n) + c
    (if a < Machine.qRecv p.data.runs p.data.parcels[q]? then ts.filter (·.lane == fill / n) else [], a)
  | some 4 => (ts.filter fun t => t.lane == c && t.a == (p.exponents q).getD fill 1, 0)
  | _ => (ts.filter (·.lane == c), 0)

/-- The partner offset of a column: Σ c × C_run over its values (R62). -/
def PlanData.offsetOf (p : PlanData) (d : BlockD) (ts : List Term) (a : Nat) : XVal :=
  ts.foldl (fun x t => match t.partners with
    | [v] =>
      if p.centre v == 0 then x
      else x.add ((couplingVal d.fmt (t.ent.getD (a * t.qp) 0)).times (.fin (p.centre v)))
    | _ => x) (.fin 0)

/-- The promotion interval k of a block's operand pair; 0 when the pair cannot run in Lantern mode
(R154). -/
def PlanData.lanternK (p : PlanData) (d : BlockD) (ts : List Term) : Nat :=
  let int := (ts.map (·.partners)).flatten.any fun v => p.typeOf v == some 3
  if p.blockClass d ts != 8 then 0
  else match d.fmt with
    | 0 => if int then 2 else 258
    | 1 => if int then 255 else 32767
    | _ => 0

/-- Every `n` values of a list together. -/
def chunks {α : Type} (n : Nat) : Nat → List α → List (List α)
  | 0, _ => []
  | fuel + 1, l => if l.isEmpty then [] else l.take n :: chunks n fuel (l.drop n)

/-- Values of up to k groups gathered in a 20-bit accumulator, and each accumulator promoted (R155). The
entry's last group also promotes (log 18). -/
def lanternSum (n : Nat) (xs : List XVal) : XVal :=
  (chunks n xs.length xs).foldl (fun v c =>
    v.add (.fin (BitVec.ofInt 20 ((c.map fun x => x.rat.floor).sum)).toInt)) (.fin 0)

/-! ## MAC -/

/-- The bank that a MAC entry fills, as its BANK bit names it; true is bank B. In Lantern recovery both stand in the
healthy bank, one fill at a time (R156), so that what each holds stays apart. -/
def SeqEntry.bankB (e : SeqEntry) : Bool := e.flags.testBit 1

/-- The core of a node is in Lantern recovery. -/
def State.inLantern (s : State) (node : Nat) : Bool :=
  ((s.siteOf (node / 1024) (node % 1024)).map fun i => (s.site i).lantern).getD false

def CoreSt.bank (c : CoreSt) (b : Bool) : Bank := if b then c.bankB else c.bankA

def CoreSt.setBank (c : CoreSt) (b : Bool) (k : Bank) : CoreSt :=
  if b then { c with bankB := k } else { c with bankA := k }

/-- The sum that a column takes from groups `g0` to `g0 + n - 1` of a block (R145), scaled by 2^PEN_K in a
PENALTY block (R126). -/
def PlanSt.columnSum (p : PlanSt) (vals : List Nat) (chain penK : Nat) (lantern : Bool) (d : BlockD × Nat)
    (q fill g0 n c : Nat) : XVal :=
  let (ts, a) := p.columnTerms d q fill c
  let all := p.terms d.2
  let g := groupSize (p.data.blockClass d.1 all)
  let xs := (((ts.map (p.data.positions vals chain d.1 a)).flatten).drop (g * g0)).take (g * n)
  let k := p.data.lanternK d.1 all
  let sum := if lantern && k != 0 then lanternSum (k * g) xs else xs.foldl XVal.add (.fin 0)
  let sum := if g0 == 0 then sum.add (p.data.offsetOf d.1 ts a) else sum
  sum.times (.fin (penScale d.1 penK))

/-- A bank takes a group: it is not closed, and the cycle of its last read is past (R151). -/
def State.bankTakes (s : State) (k : Bank) : Bool := !k.closed && decide (k.freeAt ≤ s.ccyc)

/-- A MAC entry may run: its parcel's slot is in progress, and its bank can take it (R151). In Lantern recovery the one
healthy bank must have been read of any fill that closed before (R156). -/
def State.macReady (s : State) (c : CoreSt) (e : SeqEntry) : Bool :=
  s.slotReady c.pass (s.macParcel e) && s.bankTakes (c.bank e.bankB) &&
  (!s.inLantern c.node || s.bankTakes (c.bank !e.bankB))

/-- The whole of a MAC entry: COUNT groups of its block into its bank; OVW clears it first, LAST closes
it (R151). -/
def State.macEntry (s : State) (c : CoreSt) (e : SeqEntry) : CoreSt :=
  let q := s.macParcel e
  let b := e.bankB
  let old := c.bank b
  let bank : Bank := if e.flags.testBit 0 then old
    else ⟨true, false, 0, 0, q, c.pass, s.fillIndex c q, List.replicate 64 Vault.zero, []⟩
  let g0 := ((bank.done.find? (·.1 == e.arg)).map (·.2)).getD 0
  let vals := if c.gathered.isEmpty then s.ex.snap else c.gathered
  let lantern := s.inLantern c.node
  let cols := match s.plan.data.blocks[e.arg]? with
    | some d => bank.cols.zipIdx.map fun v => v.1.add
        (s.plan.columnSum vals c.pass s.ex.chain.an.penK lantern (d, e.arg) q bank.fill g0 e.count v.2)
    | none => bank.cols
  let last := e.flags.testBit 2
  let done := (e.arg, g0 + e.count) :: bank.done.filter (·.1 != e.arg)
  c.advance.setBank b { bank with
    filling := !last, closed := last, closedAt := s.ccyc, cols := cols, done := done }

/-- MAC: the groups of a MAC entry are added into an output bank (R145, R151). -/
def execMac (t node : Nat) (fault : CoreFault) (s : State) : Result :=
  s.when t (fun s => match s.entryDue node 2 with
      | some (c, e) => s.macReady c e
      | none => false) fun s =>
    match s.entryDue node 2 with
    | some (c, e) => (s.onCore node fun _ => s.macEntry c e).coreFault node fault
    | none => s

/-! ## The drain path (R157 to R167) -/

/-- The floating format of an OUT code; none for INT16 and INT8 (R81). -/
def outFmt : Nat → Option Fmt
  | 0 => some fp32 | 1 => some bf16 | 2 => some fp16 | 3 => some fpE4M3 | 4 => some fpE5M2 | _ => none

/-- The width of an integer OUT. -/
def outWidth (out : Nat) : Nat := if out == 5 then 16 else 8

/-- The value an output encodes. -/
def outVal (out enc : Nat) : XVal :=
  match outFmt out with
  | some f => f.decode enc
  | none => .fin (signedOf (outWidth out) enc)

/-- OUT has no infinities: E4M3 and the integers. -/
def outSaturates (out : Nat) : Bool := out == 3 || 5 ≤ out

/-- The largest finite value of a sign in OUT (R162, R163). -/
def satBits (out : Nat) (neg : Bool) : Nat :=
  match outFmt out with
  | some f => f.maxBits neg
  | none => if neg then 2 ^ (outWidth out - 1) else 2 ^ (outWidth out - 1) - 1

/-- An infinity of a sign in OUT; the largest value where it has none (R160). -/
def infBitsOf (out : Nat) (neg : Bool) : Nat :=
  match outFmt out with
  | some f => f.infBits neg
  | none => satBits out neg

/-- One conversion (R160 to R162): an encoding, or an overflow of a sign. -/
inductive Conv where
  | val (enc : Nat)
  | ovf (neg : Bool)
  deriving DecidableEq, Repr

/-- Stage 4 for a value; +0 for a zero result. -/
def convert (out : Nat) (mode : RMode) : XVal → Conv
  | .inf n => .ovf n
  | .nan => .val (((outFmt out).map Fmt.nanBits).getD 0)
  | .fin q =>
    match outFmt out with
    | some f => if f.overflows mode q then .ovf (q < 0) else .val (f.round mode q false)
    | none =>
      let m := roundNat mode (q < 0) |q|
      let lim := 2 ^ (outWidth out - 1)
      if q < 0 then (if lim < m then .ovf true else .val (encSigned (outWidth out) (-(m : Int))))
      else if lim ≤ m then .ovf false else .val m

/-- The segment of an activation table that holds `x` (R159). -/
def actSeg (t : List ActSeg) (x : XVal) : ActSeg :=
  ((t.drop 1).takeWhile fun g => (val32 g.at_).le x).getLast?.getD (t.headD ⟨0, 0, 0⟩)

/-- Stage 3 on a finite exact X1 (R159). -/
def activate (p : PlanData) (c : DrainCfg) (shift : Nat) (x : Rat) : XVal :=
  let sc : Rat := 1 / (2 ^ shift : Nat)
  match c.act with
  | 1 => .fin (if 0 < x then x else 0)
  | 2 => .fin (max (rat32 c.clampLo * sc) (min x (rat32 c.clampHi * sc)))
  | 3 => .fin (if x < 0 then -1 else if x = 0 then 0 else 1)
  | 4 =>
    let xr := val32 (rn32 x)
    let g := actSeg (p.acts.getD c.actTable []) xr
    match xr with
    | .fin r => .fin (rat32 g.slope * r + rat32 g.icept)
    | .inf n => if rat32 g.slope = 0 then .fin (rat32 g.icept) else .inf (n != decide (rat32 g.slope < 0))
    | .nan => .nan
  | _ => .fin x

/-- Stages 2 to 4 on a finite X0 (R157). -/
def drainOne (p : PlanData) (c : DrainCfg) (shift word : Nat) (x0 : Rat) : Conv :=
  let mode := match c.round with | 0 => RMode.rne | 1 => .rtz | _ => .sto word
  convert c.out mode (activate p c shift (x0 * rat32 c.scale / (2 ^ shift : Nat)))

/-- What the drain of a block gives: outputs, SHIFT, the sticky flags it sets, and the first columns whose
overflow persisted and whose NAN tag was presented as +0. -/
structure DrainOut where
  outs : List Nat
  shift : Nat
  sticky : Nat
  sat : Option Nat
  nan : Option Nat
  deriving DecidableEq, Repr

def Conv.isOvf : Conv → Bool
  | .ovf _ => true
  | .val _ => false

/-- The least SHIFT at which no filled column overflows, 8 when there is none (R163). -/
def shiftFor (p : PlanData) (c : DrainCfg) (xs : List (XVal × Bool × Nat)) : Nat :=
  ((List.range 8).find? fun sh => xs.all fun x => !x.2.1 ||
    match x.1 with
    | .fin q => !(drainOne p c sh x.2.2 q).isOvf
    | _ => true).getD 8

/-- The Sampler class (R163, R164), over columns of X0, filled, and rounding word. -/
def drainSampler (p : PlanData) (c : DrainCfg) (xs : List (XVal × Bool × Nat)) : DrainOut :=
  let sh := shiftFor p c xs
  let one : XVal × Bool × Nat → Nat × Bool × Bool := fun x =>
    match x.1 with
    | .fin q =>
      match drainOne p c sh x.2.2 q with
      | .val e => (e, false, false)
      | .ovf n => (satBits c.out n, x.2.1, false)
    | .inf n => if outSaturates c.out then (satBits c.out n, x.2.1, false) else (infBitsOf c.out n, false, false)
    | .nan => (0, false, x.2.1)
  let rs := xs.map one
  let sat := rs.findIdx? (·.2.1)
  let nan := rs.findIdx? (·.2.2)
  ⟨rs.map (·.1), sh, sat.isSome.toNat * 8 + nan.isSome.toNat * 16, sat, nan⟩

/-- The Dense class (R167). -/
def drainDense (p : PlanData) (c : DrainCfg) (xs : List (XVal × Bool × Nat)) : DrainOut :=
  let flag := if 5 ≤ c.out then 2 else 1
  let ovf := fun (n filled : Bool) =>
    (if outSaturates c.out then satBits c.out n else infBitsOf c.out n, if filled then flag else 0)
  let one : XVal × Bool × Nat → Nat × Nat := fun x =>
    match x.1 with
    | .fin q =>
      match drainOne p c 0 x.2.2 q with
      | .val e => (e, 0)
      | .ovf n => ovf n x.2.1
    | .inf n => if outSaturates c.out then ovf n x.2.1 else (infBitsOf c.out n, 0)
    | .nan => (((outFmt c.out).map Fmt.nanBits).getD 0, if x.2.1 then 4 else 0)
  let rs := xs.map one
  ⟨rs.map (·.1), 0, (rs.map (·.2)).foldl (· ||| ·) 0, none, none⟩

/-- A column of a fill is filled (R163). -/
def PlanData.filled (p : PlanData) (q fill c : Nat) : Bool :=
  match p.parcels[q]? with
  | some pc =>
    if pc.typ == 2 then 64 * (fill % max 1 (p.pottsPasses q)) + c < Machine.qRecv p.runs (some pc)
    else c < pc.vars.length
  | none => false

/-- The bias of a column of a fill (R158): of a unary block whose receiver is Potts, the entry for the state and
variable of a Potts pass; of any other, the value of the column's lane. A Potts table under a fill that is no Potts pass
has no stated bias: a free value (log 30). -/
def PlanSt.biasOf (p : PlanSt) (cfg : DrainCfg) (q fill penK c : Nat) : Rat :=
  match p.data.blocks[cfg.bias]? with
  | some d =>
    let entry := fun (lane i : Nat) => (((p.terms cfg.bias).filter (·.lane == lane)).map fun t =>
      (couplingVal d.fmt (t.ent.getD i 0)).rat * penScale d penK).sum
    let table := (p.data.parcels[d.parcel]?).any (·.typ == 2)
    let plain : Rat := if table then (Config.tableBias cfg.bias c : Rat) / (2 ^ 298 : Nat) else entry c 0
    match (p.data.parcels[q]?).map (·.typ) with
    | some 2 =>
      let n := max 1 (p.data.pottsPasses q)
      let a := 64 * (fill % n) + c
      if !table then plain
      else if a < p.data.qRecv d then entry (fill / n) a else 0
    | some 4 => if (p.exponents q).getD fill 1 == 1 then plain else 0
    | _ => plain
  | none => 0

/-- The logical output index of a column, and whether it is an element index (R168). -/
def PlanData.outIndex (p : PlanData) (q fill c : Nat) : Nat × Bool :=
  match p.parcels[q]? with
  | some pc =>
    let l := if pc.typ == 2 then fill / max 1 (p.pottsPasses q) else c
    match pc.vars[l]? with
    | some v => (v, false)
    | none => (q * 64 + c, true)
  | none => (q * 64 + c, true)

/-- The word of stochastic rounding for a column (R161, R195). -/
def State.roundWord (s : State) (cfg chain q fill c : Nat) : Nat :=
  match s.plan.data.ctrlRec 2 with
  | some r =>
    let (i, el) := s.plan.data.outIndex q fill c
    let potts := (s.plan.data.parcels[q]?).map (·.typ) == some 2
    let id := r.base + cfg
    (keyedWord (polyRom (polyIndex id)) (streamInit (s.reg .STRM_SEED) id)
      (roundKey s.ex.chain.an.w i (s.plan.passOf q fill) chain el (if potts then c else 0))).toNat
  | none => 0

/-- The closed bank that the drain path reads next: the one that closed first. -/
def CoreSt.dueBank (c : CoreSt) : Option Bool :=
  if c.bankA.closed && (!c.bankB.closed || c.bankA.closedAt ≤ c.bankB.closedAt) then some false
  else if c.bankB.closed then some true else none

/-- The cycle in which the drain path reads a bank that closed at `l`: the cycle after, or when a fifth
block would no longer be held (R165). -/
def readCycle (l : Nat) (ps : List Nat) : Nat := max (l + 1) (ps.getD 3 0)

/-- P_k (R165). -/
def presentAt (l : Nat) (ps : List Nat) (retries : Nat) : Nat :=
  max (readCycle l ps + 4) (match ps with | p :: _ => p + 1 | [] => 0) + 3 * retries

/-- An Oculus trigger of MODE 0 names this block (R176, R181). -/
def State.triggers (s : State) (chain q fill : Nat) : Bool :=
  !s.flag Fld.OCU_CTL_MODE && s.reg .OCU_TRIG_STEP == BitVec.ofNat 64 s.stepNow &&
  s.fld Fld.OCU_TRIG_ITEM_PARCEL == s.parcelIn chain q && s.fld Fld.OCU_TRIG_ITEM_SWEEP == s.ex.sweep &&
  s.fld Fld.OCU_TRIG_ITEM_PASS == s.plan.passOf q fill

/-- A capture may be made now: armed before this cycle, or made in the execution that this one repeats and not yet
replaced. -/
def State.ocuOpen (s : State) : Bool :=
  (s.flag Fld.OCU_CTL_ARM && s.ocu.armedAt < s.now) || (s.ocu.again && s.flag Fld.OCU_STAT_CAPTURED)

/-- An item enters the snapshot buffer (R176). -/
def State.capture (s : State) (cols : List Vault) (outs : List Nat) (shift site core : Nat) : State :=
  let s : State := { s with ocu := { s.ocu with
    cols := cols, outs := outs, badLimb := none, taken := true, again := false } }
  let s := if s.swNow Fld.OCU_CTL_ARM then { s with ocu := { s.ocu with armedAt := s.now } } else s
  let s := (s.hwClear Fld.OCU_CTL_ARM).hwSet Fld.OCU_STAT_CAPTURED
  let s := if s.slog.reexec then s.hwSet Fld.OCU_STAT_REEXEC else s
  ((((s.setFld Fld.OCU_STAT_SHIFT shift).setFld Fld.OCU_STAT_RETRIES shift).setFld Fld.OCU_STAT_SITE
    site).setFld Fld.OCU_STAT_CORE core).setCause 4

/-- A Vault's bits with its tag above them. -/
def Vault.code (v : Vault) : Nat :=
  v.bits.toNat + 2 ^ 640 * match v.tag with | .finite => 0 | .posInf => 1 | .negInf => 2 | .nan => 3

/-- The inputs that a block gives to reductions (R168, R170): by block before bias, as Vault images; by drain
configuration as converted. -/
def PlanData.redInputs (p : PlanData) (b : Bank) (cfg : Nat) (out : Nat) (outs : List Nat) : List RedIn :=
  (p.reds.filter fun r =>
    if r.source < 2 ^ 31 then b.done.any (·.1 == r.source) else r.source % 65536 == cfg).map fun r =>
    { red := r.id, chain := b.chain, parcel := b.parcel
      idx := (List.range 64).map fun c => (p.outIndex b.parcel b.fill c).1
      vals := if r.source < 2 ^ 31 then b.cols else outs.map fun e => Vault.ofX (outVal out e)
      enc := if r.source < 2 ^ 31 then b.cols.map Vault.code else outs }

/-- The sticky flags of a drain, and what its codes will report at the end of the step (R163, R164,
R167). -/
def State.drainFlags (s : State) (node chain q fill : Nat) (o : DrainOut) : State :=
  let s := s.onCore node fun c => { c with
    stickyNew := c.stickyNew ||| (o.sticky &&& (7 - (c.stickyOld &&& 7)))
    sticky := c.sticky ||| o.sticky
    stickyAt := (s.now, o.sticky ||| (if c.stickyAt.1 == s.now then c.stickyAt.2 else 0))
    redrains := satAdd 32 c.redrains o.shift
    saturated := satAdd 16 c.saturated o.sat.isSome.toNat }
  let pay := fun (lane : Nat) => s.parcelIn chain q + lane * 2 ^ 34 + s.plan.passOf q fill * 2 ^ 40
  s.onLog fun l => { l with
    saturated := match l.saturated with | some x => some x | none => o.sat.map pay
    fieldNan := match l.fieldNan with | some x => some x | none => o.nan.map pay }

/-- A closed bank drained: bias, scale, activation and conversion, with its presentation (R157, R165). -/
def State.drainBank (s : State) (c : CoreSt) (side : Bool) : State :=
  let b := c.bank side
  let p := s.plan.data
  let id := (p.drainOf s.plan.shape b.parcel).getD 0
  match p.drain id with
  | some cfg =>
    let xs := b.cols.zipIdx.map fun v =>
      ((v.1.add (.fin (s.plan.biasOf cfg b.parcel b.fill s.ex.chain.an.penK v.2))).x,
       p.filled b.parcel b.fill v.2,
       if cfg.round == 2 then s.roundWord id b.chain b.parcel b.fill v.2 else 0)
    let o := if cfg.cls == 0 then drainSampler p cfg xs else drainDense p cfg xs
    let at_ := presentAt b.closedAt c.lastP o.shift
    let at0 := presentAt b.closedAt c.lastP0 0
    let d : Drained := ⟨b.parcel, b.chain, b.fill, id, o.shift, o.outs, at_, at0⟩
    let s := s.onCore c.node fun c => { (c.setBank side { Bank.reset with freeAt := s.ccyc + 1 }) with
      drains := c.drains ++ [d], lastP := at_ :: c.lastP, lastP0 := at0 :: c.lastP0
      stepDelay := max c.stepDelay (at_ - at0)
      maxDelay := min (max c.maxDelay (at_ - at0)) 0xFFFF }
    let s := s.drainFlags c.node b.chain b.parcel b.fill o
    let s := s.onEx fun x => { x with redIn := x.redIn ++ p.redInputs b id cfg.out o.outs }
    if s.ocuOpen && s.triggers b.chain b.parcel b.fill then
      s.capture b.cols o.outs o.shift ((s.siteOf 0 (c.node % 1024)).getD 0) (c.node % 1024)
    else s
  | none => s.onCore c.node fun c => c.setBank side { Bank.reset with freeAt := s.ccyc + 1 }

/-- The core and bank that DRAIN may read now. -/
def State.drainDue (s : State) (node : Nat) : Option (CoreSt × Bool) :=
  match s.core node with
  | some c =>
    match c.dueBank with
    | some b => if s.sweeping && readCycle (c.bank b).closedAt c.lastP ≤ s.ccyc then some (c, b) else none
    | none => none
  | none => none

/-- The columns 8k to 8k + 7 that a slice of a bank holds: its own, or those of the slice that the spare stands in
for (R150). -/
def sliceOfMask (mask slice : Nat) : Nat :=
  if slice < 8 then slice else ((List.range 8).find? mask.testBit).getD 0

/-- The column and limb in which a core's checks found a parity mismatch. -/
def State.parityAt (s : State) (node : Nat) : CoreFault → Option (Nat × Nat)
  | .parity b k col limb =>
    let mask := ((s.siteOf (node / 1024) (node % 1024)).map fun i =>
      if b then (s.site i).slicesB else (s.site i).slicesA).getD 0
    some (8 * sliceOfMask mask k + col, limb)
  | _ => none

/-- A block captured with a parity mismatch: reading that limb from the snapshot buffer finds it (R150, R177). -/
def State.badCapture (s : State) (bad : Option (Nat × Nat)) : State :=
  if bad.isSome then { s with ocu := { s.ocu with badLimb := bad } } else s

/-- DRAIN: the drain path reads a closed bank and converts it (R151, R157). -/
def execDrain (t node : Nat) (fault : CoreFault) (s : State) : Result :=
  s.when t (fun s => (s.drainDue node).isSome) fun s =>
    match s.drainDue node with
    | some (c, b) =>
      let k := c.bank b
      let hit := s.ocuOpen && s.triggers k.chain k.parcel k.fill
      ((s.drainBank c b).badCapture (if hit then s.parityAt node fault else none)).coreFault node fault
    | none => s

/-! ## Reductions (R168 to R175) -/

/-- An FP64 sum rounded to nearest, ties to even. -/
def add64 (a b : W64) : W64 := BitVec.ofNat 64 (fAdd fp64 a.toNat b.toNat)

def neg64 (a : W64) : W64 := a ^^^ 0x8000000000000000

def sub64 (a b : W64) : W64 := add64 a (neg64 b)

/-- The exact six-operation sum. -/
def twoSum (a b : W64) : W64 × W64 :=
  let s := add64 a b
  let bb := sub64 s a
  (s, add64 (sub64 a (sub64 s bb)) (sub64 b bb))

/-- A node of the COMPENSATED tree (R172). -/
def combine (a b : W64 × W64) : W64 × W64 :=
  let (sh, sl) := twoSum a.1 b.1
  let (th, tl) := twoSum a.2 b.2
  let c := add64 sl th
  let (vh, vl) := twoSum sh c
  let w := add64 tl vl
  twoSum vh w

/-- A leaf's export: head = RNE(P), tail = RNE(P − head) (R172). -/
def exportPair (v : Vault) : W64 × W64 :=
  match v.x with
  | .fin q =>
    let h := fp64.round .rne q false
    let hq := (fp64.decode h).rat
    (BitVec.ofNat 64 h, BitVec.ofNat 64 (if fp64.isFinite h then fp64.round .rne (q - hq) false else 0))
  | .inf n => (BitVec.ofNat 64 (fp64.infBits n), 0)
  | .nan => (BitVec.ofNat 64 fp64.nanBits, 0)

/-- ⌈log2 n⌉. -/
def ceilLog2 (n : Nat) : Nat := if n ≤ 1 then 0 else (n - 1).log2 + 1

/-- The canonical tree over `n` leaves (R171): `fuel` bounds its depth. -/
def treeReduce {α : Type} (f : α → α → α) (dflt : α) : Nat → List α → α
  | _, [] => dflt
  | _, [x] => x
  | 0, x :: _ => x
  | fuel + 1, xs =>
    let m := 2 ^ (ceilLog2 xs.length - 1)
    f (treeReduce f dflt fuel (xs.take m)) (treeReduce f dflt fuel (xs.drop m))

/-- The partials of a reduction: Q parcels in ascending order cut into PARTS (R170). -/
def redPartials (parts : Nat) (ins : List RedIn) : List Vault :=
  let qs := sortNats (ins.map (·.parcel)).dedup
  (List.range parts).map fun p =>
    let mine := (qs.take ((p + 1) * qs.length / parts)).drop (p * qs.length / parts)
    (((ins.filter fun i => mine.contains i.parcel).map (·.vals)).flatten).foldl
      (fun v x => v.add x.x) Vault.zero

/-- The better of two (value, encoding, index) under argument max or min; equal values leave the lower
index (R168). -/
def argBetter (isMin : Bool) (a b : XVal × Nat × Nat) : XVal × Nat × Nat :=
  let less := if isMin then b.1.lt a.1 else a.1.lt b.1
  let more := if isMin then a.1.lt b.1 else b.1.lt a.1
  if less then b else if more then a else if b.2.2 < a.2.2 then b else a

/-- An argument reduction (R168); `nan` is the encoding of the canonical quiet NaN of the inputs' format. -/
def redArg (isMin : Bool) (nan : Nat) (ins : List RedIn) : RedOut :=
  let all := (ins.map fun i => (i.vals.zip (i.enc ++ List.replicate 64 0)).zip i.idx |>.map fun x =>
    (x.1.1.x, x.1.2, x.2)).flatten
  let low := (all.map (·.2.2)).foldl min ((all.head?.map (·.2.2)).getD 0)
  match all.filter fun x => x.1 != .nan with
  | x :: xs => let w := xs.foldl (argBetter isMin) x; .arg w.2.1 w.2.2 false
  | [] => .arg nan low true

/-- Atomic FP64 adds of values in their arrival order, each rounded (R241, R227). -/
def atomicSum (vs : List W64) (order : List Nat) : W64 := order.foldl (fun acc i => add64 acc (vs.getD i 0)) 0

/-- The canonical quiet NaN of what a reduction reduces: a Vault with the tag NAN, or an encoding of its drain
configuration's OUT (R168). -/
def PlanData.redNan (p : PlanData) (r : RedRec) : Nat :=
  if r.source < 2 ^ 31 then Vault.code ⟨0, .nan⟩
  else ((outFmt (((p.drain (r.source % 65536)).map (·.out)).getD 0)).map Fmt.nanBits).getD 0

/-- A reduction whose heads and tails memory-port atomic adds sum in a Throughput step (R241). -/
def State.atomicRed (s : State) (r : RedRec) : Bool := s.slog.throughput && r.op == 0 && r.mode == 0

/-- Orders in which the heads and the tails of a reduction's leaves can arrive at the memory port (R227). -/
def State.arrivalsOk (s : State) (r : RedRec) (heads tails : List Nat) : Bool :=
  !s.atomicRed r || (sortNats heads == List.range r.parts && sortNats tails == List.range r.parts)

/-- The result of a reduction record (R169, R172, R173, R241). `heads` and `tails` are the orders in which the leaves'
words arrive at the memory port, which count only in a Throughput step; each word of the result pair is a sum of its
own (DEDUCED, log 31). -/
def State.reduce (s : State) (r : RedRec) (chain : Nat) (heads tails : List Nat) : RedOut :=
  let ins := s.ex.redIn.filter fun i => i.red == r.id && i.chain == chain
  if r.op != 0 then redArg (r.op == 2) (s.plan.data.redNan r) ins
  else
    let ps := redPartials r.parts ins
    if r.mode == 1 then .exact (treeReduce (fun a b => a.add b.x) Vault.zero ps.length ps)
    else
      let es := ps.map exportPair
      let h := if s.atomicRed r then (atomicSum (es.map (·.1)) heads, atomicSum (es.map (·.2)) tails)
        else treeReduce combine (0, 0) es.length es
      .pair h.1 h.2

/-- The slots of a chain's pass have all ended. -/
def State.passEnded (s : State) (chain : Nat) : Bool :=
  chain < s.ex.pass || (chain == s.ex.pass && s.plan.shape.slotOrder.length ≤ s.ex.slot)

/-- An Oculus trigger of MODE 1 names this reduction and chain; the partition is in bits 31:0 (R181). -/
def State.triggersRed (s : State) (red chain : Nat) : Bool :=
  s.flag Fld.OCU_CTL_MODE && s.reg .OCU_TRIG_STEP == BitVec.ofNat 64 s.stepNow &&
  s.fld Fld.OCU_TRIG_ITEM_SWEEP == red % 65536 + chain * 65536

/-- REDUCE: partials combined over the canonical tree (R170, R171). A plan numbers its records by ID. -/
def execReduce (t node : Nat) (order : Arrivals) (s : State) : Result :=
  s.when t (fun s => match s.entryDue node 6 with
      | some (c, e) => s.passEnded c.pass &&
        (s.plan.data.reds.find? (·.id == e.arg)).all fun r => s.arrivalsOk r order.heads order.tails
      | none => false) fun s =>
    match s.entryDue node 6 with
    | some (c, e) =>
      match s.plan.data.reds.find? (·.id == e.arg) with
      | some r =>
        let o := s.reduce r c.pass order.heads order.tails
        let ps := redPartials r.parts (s.ex.redIn.filter fun i => i.red == r.id && i.chain == c.pass)
        let part := ps[s.fld Fld.OCU_TRIG_ITEM_PARCEL % 2 ^ 32]?
        let s := (s.onCore node CoreSt.advance).onEx fun x => { x with
          redOut := (r.id, c.pass, o) :: x.redOut.filter fun y => !(y.1 == r.id && y.2.1 == c.pass) }
        match part with
        | some v => if r.op == 0 && s.ocuOpen && s.triggersRed r.id c.pass then
            s.capture [v] [] 0 ((s.siteOf (node / 1024) (node % 1024)).getD 0) 0 else s
        | none => s
      | none => s.onCore node CoreSt.advance
    | none => s

end Sys2Proof.Machine
end

