-- ==== Sys2Proof/Machine/Sampling.lean ====
section
/-! DEFINITION. The sampling engine (chapter 04): comparator inputs and decisions of every rule, Langevin
and MALA moves, commits, and the end of a slot with its conflicts. -/

namespace Sys2Proof.Machine

/-! ## Values drawn and decided -/

/-- The variables of a chain that its paired groups hold (R131). -/
def State.pairedVars (s : State) (chain : Nat) : List Nat :=
  let gs := s.plan.data.anneal.groups
  (gs.zipIdx.map fun g =>
    if ((s.ex.chain.an.groups[chain * gs.length + g.2]?).map (·.paired)).getD false then g.1.members
    else []).flatten

/-- A field as a stochastic unit takes it: NaN as +0 (R96). -/
def unitField (out enc : Nat) : XVal :=
  match outVal out enc with
  | .nan => .fin 0
  | x => x

/-- 2^SHIFT. -/
def shiftVal (shift : Nat) : XVal := .fin (2 ^ shift : Nat)

/-- t of the binary and spin rules: FP32(−β × ΔE × 2^SHIFT), with ΔE = 2·s·h or (2x − 1)·h (R95, R96). -/
def flipInput (beta : W32) (spin high : Bool) (h : XVal) (shift : Nat) : W32 :=
  let k : Int := (if spin then 2 else 1) * (if high then 1 else -1)
  prod32 [val32 (neg32 beta), .fin k, h, shiftVal shift]

/-- −e ≤ t. -/
def expAccepts (e t : W32) : Bool := le32 (neg32 e) t

/-- The decision of a binary or spin variable (R98 to R100): the new state bit, from the old bit, one word
and the field. -/
def decideBit (r : Rule) (beta : W32) (spin : Bool) (old : Nat) (h : XVal) (shift : Nat) (u : W32) : Nat :=
  let high := old == 1
  match r with
  | .glauber =>
    let t := prod32 [val32 beta, .fin (if spin then 2 else 1), h, shiftVal shift]
    if u.toNat < p32 t then 1 else 0
  | .metropolis =>
    let e := tableDraw .exponential u.toNat
    if expAccepts e (flipInput beta spin high h shift) then 1 - old else old
  | _ =>
    let l := tableDraw .logistic u.toNat
    if lt32 l (flipInput beta spin high h shift) then 1 - old else old

/-- Integer Metropolis (R102), on stored forms: v′ = v ± 1 by bit 31 of U. -/
def decideInt (beta : W32) (span old : Nat) (h : XVal) (shift : Nat) (u e : W32) : Nat :=
  let up := u.toNat.testBit 31
  let t := prod32 [val32 beta, h, .fin (if up then 1 else -1), shiftVal shift]
  if expAccepts (tableDraw .exponential e.toNat) t then
    (if up then (if old < span then old + 1 else old) else if 0 < old then old - 1 else old)
  else old

/-- z_a of a Potts state (R101). -/
def pottsZ (beta : W32) (h : XVal) (shift : Nat) (u : W32) : W32 :=
  add32 (prod32 [val32 beta, h, shiftVal shift]) (tableDraw .gumbel u.toNat)

/-- The running maximum of the comparison tree: a tie leaves the lower state (R101). -/
def pottsTop (top : Option (W32 × Nat)) (z : W32) (a : Nat) : Option (W32 × Nat) :=
  match top with
  | some (z0, a0) => if lt32 z0 z then some (z, a) else some (z0, a0)
  | none => some (z, a)

/-! ## Commits -/

/-- A value written to a variable of a chain, with the marks that SLOT_END counts conflicts from (R107)
and the core's counter of changes (R121). -/
def State.commit (s : State) (core chain v new : Nat) : State :=
  let i := chain * s.nVars + v
  let moved := s.ex.chain.vals.getD i 0 != new
  let s := s.onEx fun x => { x with
    updated := i :: x.updated
    changed := if moved then i :: x.changed else x.changed
    lastCommit := max x.lastCommit s.ccyc }
  let s := s.onChain fun c => { c with vals := c.vals.set i new }
  if moved then s.onCore core fun c => { c with changes := satAdd 64 c.changes 1 } else s

/-- A parcel's update in the sweep is complete. -/
def State.parcelDone (s : State) (chain q : Nat) : State :=
  s.onEx fun x => { x with done := s.parcelIn chain q :: x.done, lastCommit := max x.lastCommit s.ccyc }

/-- A word of each of a parcel's 64 lane streams (R108). -/
def State.drawParcel (s : State) (chain q : Nat) : List W32 × State :=
  let d := drawLanes s.ex.chain (s.parcelIn chain q)
  (d.1, s.onEx fun x => { x with chain := d.2 })

/-- A drained block of a binary, spin or integer parcel decides its variables. Lanes past LANES draw and
decide nothing; members of paired groups keep their values (R97, R108, R109, R131). -/
def State.updateLanes (s : State) (core : Nat) (d : Drained) (out : Nat) (pc : Parcel) (r : Rule) : State :=
  let (us, s) := s.drawParcel d.chain d.parcel
  let (es, s) := if r == .integer then s.drawParcel d.chain d.parcel else ([], s)
  let beta := s.betaOf d.chain
  let held := s.pairedVars d.chain
  let span := ((pc.vars.head?).bind fun v => (runOf s.plan.data.runs v).map (·.span)).getD 0
  let s := pc.vars.zipIdx.foldl (fun s x =>
    if held.contains x.1 then s
    else
      let h := unitField out (d.outs.getD x.2 0)
      let old := storedOf s.nVars s.ex.snap d.chain x.1
      let u := us.getD x.2 0
      s.commit core d.chain x.1 (match r with
        | .integer => decideInt beta span old h d.shift u (es.getD x.2 0)
        | _ => decideBit r beta (pc.typ == 1) old h d.shift u)) s
  s.parcelDone d.chain d.parcel

/-- A drained Potts pass: every lane stream draws, columns below q compete, and the last pass of a
variable decides it (R101). -/
def State.updatePotts (s : State) (core : Nat) (d : Drained) (out : Nat) (pc : Parcel) : State :=
  let (us, s) := s.drawParcel d.chain d.parcel
  let beta := s.betaOf d.chain
  let n := max 1 (s.plan.data.pottsPasses d.parcel)
  let q := Machine.qRecv s.plan.data.runs (some pc)
  let p := d.fill % n
  let top0 := if p == 0 then none else ((s.core core).map (·.top)).getD none
  let top := ((List.range 64).filter fun c => 64 * p + c < q).foldl (fun top c =>
    pottsTop top (pottsZ beta (unitField out (d.outs.getD c 0)) d.shift (us.getD c 0)) (64 * p + c)) top0
  let s := s.onCore core fun c => { c with top := top }
  if p + 1 == n then
    let s := match top, pc.vars[d.fill / n]? with
      | some (_, a), some v => s.commit core d.chain v a
      | _, _ => s
    if d.fill / n + 1 == pc.vars.length then s.parcelDone d.chain d.parcel else s
  else s

/-- A drained block reaches its parcel's units. -/
def State.updateBlock (s : State) (core : Nat) (d : Drained) : State :=
  let out := ((s.plan.data.drain d.cfg).map (·.out)).getD 0
  match s.plan.data.parcels[d.parcel]?, s.plan.data.rule d.parcel with
  | some pc, some .potts => s.updatePotts core d out pc
  | some pc, some r => s.updateLanes core d out pc r
  | _, _ => s

/-- The blocks that a parcel with no factor blocks would have drained: fields of 0 (R95). -/
def State.emptyBlocks (s : State) (chain q : Nat) : List Drained :=
  (List.range (s.plan.fillsOf q)).map fun f => ⟨q, chain, f, s.plan.data.drains.length, 0, [], s.ccyc, s.ccyc⟩

/-- A parcel is continuous. -/
def State.isCont (s : State) (q : Nat) : Bool := (s.plan.data.parcels[q]?).map (·.typ) == some 4

/-- What UPDATE takes next at a core: the first drained block of a discrete parcel once it has reached
commit, two cycles after its presentation (R110); with none waiting, the next parcel of the slot in
progress that has no factor blocks. -/
def State.updateDue (s : State) (node : Nat) : Option (Drained ⊕ Nat) :=
  match s.core node with
  | some c =>
    if !s.sweeping then none
    else match c.drains.find? fun d => !s.isCont d.parcel with
      | some d => if d.at_ + 2 ≤ s.ccyc then some (.inl d) else none
      | none => ((s.parcelsOf node).find? fun q => s.slotReady s.ex.pass q && !s.isCont q &&
          !s.plan.data.hasBlocks q && !s.ex.done.contains (s.parcelIn s.ex.pass q)).map .inr
  | none => none

/-- UPDATE: a presented block's comparator inputs are formed, the draws consumed, the decisions made and
committed (R96 to R102, R108, R110). -/
def execUpdate (t node : Nat) (s : State) : Result :=
  s.when t (fun s => (s.updateDue node).isSome) fun s =>
    match s.updateDue node with
    | some (.inl d) =>
      let s := s.onCore node fun c => { c with drains := c.drains.erase d }
      s.updateBlock node d
    | some (.inr q) => (s.emptyBlocks s.ex.pass q).foldl (fun s d => s.updateBlock node d) s
    | none => s

/-! ## Langevin and MALA (R111 to R113) -/

/-- The coefficients D1 to D4 that one variable's V-core holds. -/
structure Coeffs where
  d1 : W32
  d2 : W32
  d3 : W32
  d4 : W32
  deriving DecidableEq, Repr

def w4 : W32 := 0x40800000
def w3 : W32 := 0x40400000
def w2 : W32 := 0x40000000
def wQuarter : W32 := 0x3E800000

/-- g(y) = −η·dE/dx (R112). -/
def Coeffs.g (c : Coeffs) (y : W32) : W32 :=
  fma32 (fma32 (fma32 (mul32 w4 c.d4) y (mul32 w3 c.d3)) y (mul32 w2 c.d2)) y c.d1

/-- p(y) = −η·E(y) (R112). -/
def Coeffs.p (c : Coeffs) (y : W32) : W32 := mul32 y (fma32 (fma32 (fma32 c.d4 y c.d3) y c.d2) y c.d1)

/-- s = FP32(sqrt(FP32(2·η / β))), the product and quotient rounded once. -/
def noiseScale (eta beta : W32) : W32 := sqrt32 (div32 (mul32 w2 eta) beta)

/-- The proposal y (R112). -/
def Coeffs.propose (c : Coeffs) (eta beta x xi : W32) : W32 :=
  add32 (add32 x (c.g x)) (mul32 (noiseScale eta beta) xi)

/-- The logarithm of the MALA acceptance ratio (R112). -/
def Coeffs.logRatio (c : Coeffs) (eta beta x y : W32) : W32 :=
  let c1 := div32 beta eta
  let c2 := mul32 c1 wQuarter
  let a := sub32 (sub32 x y) (c.g y)
  let b := sub32 (sub32 y x) (c.g x)
  sub32 (mul32 c1 (sub32 (c.p y) (c.p x))) (mul32 c2 (sub32 (mul32 a a) (mul32 b b)))

/-- The drained exponent passes of a continuous parcel at its M-core. -/
def State.passesOf (s : State) (node q : Nat) : List Drained :=
  (((s.core node).map (·.drains)).getD []).filter (·.parcel == q)

/-- D_a of a lane: the drained value times 2^SHIFT, 0 for an absent exponent (R111); a V-core propagates the NaN of a
Dense output (R167). -/
def State.coeffs (s : State) (q lane : Nat) (ds : List Drained) : Coeffs :=
  let one := fun (a : Nat) =>
    match ds.find? fun d => (s.plan.exponents q).getD d.fill 0 == a with
    | some d =>
      let out := ((s.plan.data.drain d.cfg).map (·.out)).getD 0
      match outVal out (d.outs.getD lane 0) with
      | .nan => nan32
      | x => prod32 [x, shiftVal d.shift]
    | none => 0
  ⟨one 1, one 2, one 3, one 4⟩

/-- One Langevin result: the new value, whether the proposal was turned down, and whether a non-finite result was kept
out (R112, R113). -/
def langevinMove (mala : Bool) (c : Coeffs) (eta beta x xi e : W32) : W32 × Bool × Bool :=
  let y := c.propose eta beta x xi
  if mala && !expAccepts e (c.logRatio eta beta x y) then (x, true, false)
  else if isFinite32 y then (y, false, false) else (x, true, true)

/-- A variable's Langevin update counted on its V-core (R113, R121): of MALA proposals, those that changed x and those
turned down; one taken that equals x is neither. -/
def State.countMove (s : State) (vnode chain v : Nat) (mala changed down bad : Bool) : State :=
  let s := s.onCore vnode fun c => { c with
    malaAcc := if mala && changed then satAdd 32 c.malaAcc 1 else c.malaAcc
    malaRej := if mala && down then satAdd 32 c.malaRej 1 else c.malaRej
    nonfinite := satAdd 32 c.nonfinite bad.toNat }
  if bad then
    s.onLog fun l => { l with
      nonfinite := match l.nonfinite with | some x => some x | none => some (chain * s.nVars + v)
      nonfiniteCount := satAdd 24 l.nonfiniteCount 1 }
  else s

/-- A continuous parcel's moves (R112). The step size is SCALE of its drain configuration; a parcel with no
factor blocks has none, and its step size is a free value (log 19). -/
def State.moveParcel (s : State) (vnode node chain q : Nat) : State :=
  let ds := s.passesOf node q
  let mala := s.plan.data.rule q == some .mala
  let (xis, s) := s.drawParcel chain q
  let (es, s) := if mala then s.drawParcel chain q else ([], s)
  let eta := match (s.plan.data.drainOf s.plan.shape q).bind s.plan.data.drain with
    | some cfg => cfg.scale
    | none => Config.stepSize (fieldAt s.plan.digest 0 8) q
  let beta := s.betaOf chain
  let vars := ((s.plan.data.parcels[q]?).map (·.vars)).getD []
  let s := vars.zipIdx.foldl (fun s x =>
    let old := BitVec.ofNat 32 (storedOf s.nVars s.ex.snap chain x.1)
    let m := langevinMove mala (s.coeffs q x.2 ds) eta beta old
      (tableDraw .gaussian (xis.getD x.2 0).toNat) (tableDraw .exponential (es.getD x.2 0).toNat)
    (s.commit vnode chain x.1 m.1.toNat).countMove vnode chain x.1 mala (m.1 != old) m.2.1 m.2.2) s
  let s := s.onCore node fun c => { c with drains := c.drains.filter (·.parcel != q) }
  s.parcelDone chain q

/-- The parcels of a LANGEVIN entry may move: each is in the slot in progress with all its exponent passes
presented, or has moved in this pass. The entry names parcels as PLACEMENT orders them (R78, R80), wherever load
balancing has put them since. -/
def State.langevinReady (s : State) (c : CoreSt) (e : SeqEntry) : Bool :=
  c.pass == s.ex.pass && (s.plan.home.langevin e).all fun q =>
    s.ex.done.contains (s.parcelIn c.pass q) ||
    (s.slotReady c.pass q &&
      let ds := s.passesOf (s.coreOfParcel q) q
      ds.length == s.plan.fillsOf q && ds.all fun d => d.at_ + 2 ≤ s.ccyc)

/-- LANGEVIN: ULA or MALA moves of the parcels that the entry names (R80, R112). -/
def execLangevin (t node : Nat) (s : State) : Result :=
  s.when t (fun s => match s.entryDue node 7 with
      | some (c, e) => s.langevinReady c e
      | none => false) fun s =>
    match s.entryDue node 7 with
    | some (c, e) =>
      ((s.plan.home.langevin e).filter fun q => !s.ex.done.contains (s.parcelIn c.pass q)).foldl
        (fun s q => s.moveParcel node (s.coreOfParcel q) c.pass q) (s.onCore node CoreSt.advance)
    | none => s

/-! ## The end of a slot (R103, R107) -/

/-- The cycle in which a slot of the pass in progress ends when nothing is late. -/
def State.slotPlanned (s : State) (k : Nat) : Nat :=
  s.slotStart k + ((s.plan.shape.slots[k]?).map (·.length)).getD 0

/-- The slot in progress may end: its LENGTH has run, every parcel of it is updated, its last commit is past, and no hop
in flight is due in it (R213). -/
def State.slotEndDue (s : State) : Bool :=
  s.sweeping && match s.curSlot with
    | some k =>
      (s.plan.shape.slotOf.zipIdx.all fun p => p.1 != k || s.ex.done.contains (s.parcelIn s.ex.pass p.2)) &&
      s.slotPlanned k ≤ s.ccyc && s.ex.lastCommit < s.ccyc && !s.ex.inFlight.any (·.2.2 < s.slotPlanned k)
    | none => false

/-- Conflicts of the slot: coupled pairs whose values both changed, each counted at the core that holds the
lower variable (R107). -/
def State.slotConflicts (s : State) : State :=
  if s.plan.data.synchronous then
    let n := s.nVars
    let base := s.ex.pass * n
    (s.plan.coupledPairs.filter fun p =>
      s.ex.changed.contains (base + p.1) && s.ex.changed.contains (base + p.2)).foldl (fun s p =>
        match s.plan.data.parcelOf p.1 with
        | some q =>
          (s.onCore (s.coreOfParcel q) fun c => { c with
            conflNow := satAdd 32 c.conflNow 1, conflTotal := satAdd 32 c.conflTotal 1 }).onLog
              fun l => { l with conflicts := l.conflicts + 1 }
        | none => s) s
  else s

/-- The next slot, or the next chain's pass, begins: commits become visible, and a late slot delays what
follows (R103). A pass begins no earlier than CYCLES_PER_SWEEP after the one before it. -/
def State.nextSlot (s : State) : State :=
  let k := s.curSlot.getD 0
  let planned := s.slotPlanned k
  let late := max planned (s.ex.lastCommit + 1) - planned
  let s := s.onCores fun c => { c with gathered := [], lastP := [], lastP0 := [] }
  s.onEx fun x =>
    let x := { x with snap := x.chain.vals, updated := [], changed := [], slot := x.slot + 1, delay := x.delay + late }
    if s.plan.shape.slotOrder.length ≤ x.slot && x.pass + 1 < s.replicas then
      { x with
        pass := x.pass + 1, slot := 0, delay := 0, sent := []
        passAt := max s.ccyc (x.passAt + s.plan.shape.cycles + x.delay) }
    else x

/-- SLOT_END (R103, R107). -/
def execSlotEnd (t : Nat) (s : State) : Result :=
  s.when t (fun s => s.slotEndDue) fun s => s.slotConflicts.nextSlot

end Sys2Proof.Machine
end

