-- ==== Sys2Proof/Machine/Anneal.lean ====
section
/-! DEFINITION. Annealing, constraints and tempering (chapter 05): paired moves, repair, energy and best
state, the stuck offset, penalty escalation, swaps, and the end of a sweep in the order of R128. -/

namespace Sys2Proof.Machine

/-! ## Sweeps -/

/-- A core at the start of a sweep. -/
def CoreSt.startSweep (c : CoreSt) : CoreSt := { c with
  pos := 0, pass := 0, ended := false, waiting := none, gathered := [], bankA := Bank.reset
  bankB := Bank.reset, drains := [], lastP := [], lastP0 := [], top := none, conflNow := 0 }

/-- A sweep begins: its first slot reads the state committed before it (R103). A core without a table has
nothing to end. -/
def State.startSweep (s : State) : State :=
  let s := s.onCores fun c => { c.startSweep with ended := (s.tableOf c.node).isEmpty }
  s.onEx fun x => { x with
    sweepOn := true, awaitOpen := false, pass := 0, slot := 0, passAt := s.ccyc, delay := 0, lastCommit := 0
    snap := x.chain.vals, updated := [], changed := [], done := []
    groupNext := 0, annealDone := false, swapDue := false
    redIn := [], barriers := [], flags := [], sent := [] }

/-- The STEP_START and COMPUTE windows of the step in progress have opened, so gather may begin (R49). A step
run again without a mark has no phases, and waits for no window. -/
def State.gatherOpen (s : State) : Bool :=
  s.stept.anchor.isNone || [wStepStart, wCompute].all fun k =>
    (s.windowsOf k s.stepNow).all fun w => w.openPhase s.phases ≤ s.phi

/-- A sweep begins on an instant of step time, which falls in the first stretched cycle at or after it (R367). -/
def State.startAligned (s : State) : State :=
  s.startSweep.onEx fun x => { x with passAt := if s.crem = 0 then s.ccyc else s.ccyc + 1 }

/-- The first sweep of an execution of a step begins, or waits for the windows of R49. -/
def State.openSweep (s : State) : State :=
  if s.gatherOpen then s.startAligned else s.onEx fun x => { x with sweepOn := false, awaitOpen := true }

/-- The device halts at this sweep boundary (R357). -/
def State.haltNow (s : State) : State :=
  let s := ((s.setFlag Fld.DBG_STAT_HALT_PENDING false).setFlag Fld.DBG_STAT_HALTED true).setFld Fld.DBG_STAT_W
    s.ex.chain.an.w
  let s := ((s.hwClear Fld.DBG_CTL_HALT).hwClear Fld.DBG_CTL_SWEEP).setCause 3
  if s.flag Fld.DBG_CTL_HALT || s.flag Fld.DBG_CTL_SWEEP then s.setFlag Fld.DBG_STAT_HALT_PENDING true else s

/-- A sweep boundary (R123, R357): the step ends after its last sweep; a pending halt stops here; otherwise
the next sweep begins. -/
def State.sweepOver (s : State) : State :=
  if s.sweeping && s.controllerDone && s.ex.cores.all (·.ended) then
    let last := s.lastSweep
    let s := s.onEx fun x => { x with sweep := x.sweep + 1, sweepOn := false, stepEnded := last }
    if last then (s.onLog fun l => { l with endedAt := s.now }).noteFlush
    else if s.flag Fld.DBG_STAT_HALT_PENDING then s.haltNow
    else s.startSweep
  else s

/-! ## Groups (R127, R131 to R134) -/

/-- N_GROUPS. -/
def State.nGroups (s : State) : Nat := s.plan.data.anneal.groups.length

/-- The positions of a group's set members in a chain. -/
def State.setMembers (s : State) (chain : Nat) (g : GroupD) : List Nat :=
  (g.members.zipIdx.filter fun m => storedOf s.nVars s.ex.chain.vals chain m.1 == 1).map (·.2)

/-- A change to a group instance. -/
def State.onGroup (s : State) (chain g : Nat) (f : GroupSt → GroupSt) : State :=
  s.onAnneal fun a => { a with groups := a.groups.modify (chain * s.nGroups + g) f }

/-- A group instance. -/
def State.groupSt (s : State) (chain g : Nat) : GroupSt :=
  (s.ex.chain.an.groups[chain * s.nGroups + g]?).getD ⟨false, 0, 0⟩

/-- A variable of a chain given a stored value by the controller. -/
def State.setVar (s : State) (chain v n : Nat) : State :=
  s.onChain fun c => { c with vals := c.vals.set (chain * s.nVars + v) n }

/-- The exact field of a group member on the committed state (R95, R132). -/
def State.memberField (s : State) (chain v : Nat) : Rat :=
  s.plan.fieldOf s.ex.chain.vals chain v 0 s.ex.chain.an.penK

/-- The position of the largest of a list of values, the first among equals. -/
def argMaxFirst (l : List Rat) : Nat :=
  (l.zipIdx.foldl (fun (b : Option (Rat × Nat)) x => match b with
    | some (m, i) => if m < x.1 then some x else some (m, i)
    | none => some x) none).elim 0 (·.2)

/-- Repair (R132): the member with the largest field is set and the others are cleared. -/
def State.repair (s : State) (chain : Nat) (g : GroupD) (gi : Nat) : State :=
  let win := argMaxFirst (g.members.map fun v => s.memberField chain v)
  let s := g.members.zipIdx.foldl (fun s m => s.setVar chain m.1 (if m.2 == win then 1 else 0)) s
  s.onGroup chain gi fun x => { x with pos := win }

/-- Every paired group is repaired unless exactly one member is set (R132). -/
def State.repairPaired (s : State) : State :=
  (List.range s.replicas).foldl (fun s chain =>
    s.plan.data.anneal.groups.zipIdx.foldl (fun s g =>
      if (s.groupSt chain g.2).paired then
        match s.setMembers chain g.1 with
        | [i] => s.onGroup chain g.2 fun x => { x with pos := i }
        | _ => s.repair chain g.1 g.2
      else s) s) s

/-- The id of a group instance's stream (R134). -/
def State.groupStream (s : State) (chain g : Nat) : Nat :=
  ((s.plan.data.ctrlRec 1).map (·.base)).getD 0 + chain * s.nGroups + g

/-- A word of a control stream. -/
def State.drawCtrl (s : State) (id : Nat) : W32 × State :=
  let d := (ctrlStream s.ex.chain id).draw
  (d.1, s.onChain fun c => setCtrl c d.2)

/-- The proposed position of a paired move: j′ = ⌊U × (n − 1) / 2^32⌋, past i (R133). -/
def pairPick (n i : Nat) (u : W32) : Nat :=
  let j := u.toNat * (n - 1) / 2 ^ 32
  if j < i then j else j + 1

/-- One paired move (R133). -/
def State.pairedMove (s : State) (chain : Nat) (g : GroupD) (gi : Nat) : State :=
  let (u, s) := s.drawCtrl (s.groupStream chain gi)
  let (e, s) := s.drawCtrl (s.groupStream chain gi)
  let i := (s.groupSt chain gi).pos
  let j := pairPick g.members.length i u
  match g.members[i]?, g.members[j]? with
  | some vi, some vj =>
    let dE := s.memberField chain vi - s.memberField chain vj +
      s.plan.coupling vj vi s.ex.chain.an.penK
    let t := prod32 [val32 (neg32 (s.betaOf chain)), .fin dE]
    if expAccepts (tableDraw .exponential e.toNat) t then
      let s := ((s.setVar chain vi 0).setVar chain vj 1).onGroup chain gi fun x => { x with pos := j }
      s.onEx fun x => { x with groupAcc := x.groupAcc.modify (chain * s.nGroups + gi) (satAdd 32 · 1) }
    else s
  | _, _ => s

/-- A group instance's part of a sweep: n moves when it is paired, and its stream moved to the end of the
sweep's words (R134). -/
def State.runGroup (s : State) (chain : Nat) (g : GroupD) (gi : Nat) : State :=
  let paired := (s.groupSt chain gi).paired
  let n := if paired then g.members.length else 0
  let s := (List.range n).foldl (fun s _ => s.pairedMove chain g gi) s
  let words := ((s.plan.data.ctrlRec 1).map (·.words)).getD 0
  s.onChain fun c => setCtrl c ((ctrlStream c (s.groupStream chain gi)).skip (words - 2 * n))

/-- The last class of the sweep has committed in every chain, and the controller has not acted yet. -/
def State.controllerOpen (s : State) : Bool := s.sweeping && s.passEnded (s.replicas - 1) && !s.ex.annealDone

/-- GROUP: the paired moves of the next group instance in chain-major order (R128, R134). -/
def execGroup (t : Nat) (s : State) : Result :=
  s.when t (fun s => s.controllerOpen && s.ex.groupNext < s.replicas * s.nGroups) fun s =>
    let k := s.ex.groupNext
    let s := s.onEx fun x => { x with groupNext := k + 1 }
    match s.plan.data.anneal.groups[k % s.nGroups]? with
    | some g => s.runGroup (k / s.nGroups) g (k % s.nGroups)
    | none => s

/-- A fallback group's infeasible run counted; at F it is repaired and paired (R131). -/
def State.countRun (s : State) (chain : Nat) (g : GroupD) (gi : Nat) : State :=
  let x := s.groupSt chain gi
  if x.paired then s
  else if (s.setMembers chain g).length == 1 then s.onGroup chain gi fun x => { x with run := 0 }
  else if x.run + 1 == g.f then
    let s := (s.repair chain g gi).onGroup chain gi fun x => { x with paired := true, run := 0 }
    s.record 0xA031 (g.id + chain * 2 ^ 32 + s.ex.chain.an.w % 2 ^ 24 * 2 ^ 40)
  else s.onGroup chain gi fun x => { x with run := x.run + 1 }

/-- Every group outside paired mode, in chain-major order. -/
def State.countRuns (s : State) : State :=
  (List.range s.replicas).foldl (fun s chain =>
    s.plan.data.anneal.groups.zipIdx.foldl (fun s g => s.countRun chain g.1 g.2) s) s

/-! ## Energy and the best state (R126, R127, R137) -/

/-- E12 and feasibility of every chain on the committed state. -/
def State.formEnergy (s : State) : State :=
  let vals := s.ex.chain.vals
  s.onEx fun x => { x with energy := (List.range s.replicas).map fun r =>
    (s.plan.e12 vals r x.chain.an.penK, s.plan.feasible vals r) }

/-- The least E12 over the chains. -/
def State.minEnergy (s : State) : Int :=
  match s.ex.energy with
  | (e, _) :: es => es.foldl (fun m x => min m x.1) e
  | [] => 0

/-- The candidate: feasible before infeasible, then least E, then lowest chain (R137). -/
def bestCandidate (es : List (Int × Bool)) : Option (Nat × Int × Bool) :=
  es.zipIdx.foldl (fun b x => match b with
    | some (c, e, f) =>
      if (x.1.2 && !f) || (x.1.2 == f && x.1.1 < e) then some (x.2, x.1.1, x.1.2) else some (c, e, f)
    | none => some (x.2, x.1.1, x.1.2)) none

/-- One chain's stored values. -/
def State.chainVals (s : State) (chain : Nat) : List Nat :=
  (s.ex.chain.vals.drop (chain * s.nVars)).take s.nVars

/-- The best state is replaced under one of the three conditions of R137; the first feasible best is
recorded as 0xA035. -/
def State.updateBest (s : State) : State :=
  let an := s.ex.chain.an
  match bestCandidate s.ex.energy with
  | some (chain, e, f) =>
    let take := match an.best with
      | none => true
      | some b => (f && !b.feasible) || (f == b.feasible && e < b.e12)
    if take then
      let first := f && match an.best with | some b => !b.feasible | none => true
      let b : Best := ⟨f, chain, an.w, e, s.chainVals chain⟩
      let s := s.onAnneal fun a => { a with best := some b }
      if first then s.record 0xA035 (an.w % 2 ^ 56 + chain * 2 ^ 56) else s
    else s
  | none => s

/-! ## The stuck offset (R129) and penalty escalation (R130) -/

/-- T_off × 2^−DECAY_HALVINGS, 0 for none. -/
def decayed (tOff : W32) (d : Nat) : W32 := if d == 0 then 0 else rn32 (rat32 tOff / (2 ^ d : Nat))

/-- min(FP32(T_off + DT), DT_CAP). -/
def grown (tOff dt cap : W32) : W32 := let x := add32 tOff dt; if lt32 x cap then x else cap

/-- The stuck counter and T_off after a sweep (R129). -/
def State.updateStuck (s : State) : State :=
  let p := s.plan.data.anneal
  let a := s.ex.chain.an
  let e := s.minEnergy
  let better := match a.eBest with | some b => decide (e < b) | none => true
  if p.stuckW == 0 then
    if better then s.onAnneal fun a => { a with eBest := some e } else s
  else if better then
    s.onAnneal fun a => { a with eBest := some e, ni := 0, tOff := decayed a.tOff p.decay }
  else if a.ni + 1 == p.stuckW then
    let x := grown a.tOff p.dt p.dtCap
    let s := s.onAnneal fun a => { a with ni := 0, tOff := x }
    if lt32 a.tOff p.dtCap && x == p.dtCap then s.record 0xA034 a.w else s
  else s.onAnneal fun a => { a with ni := a.ni + 1 }

/-- PEN_RUN and PEN_K after a sweep (R130). -/
def State.updatePenalty (s : State) : State :=
  let p := s.plan.data.anneal
  let a := s.ex.chain.an
  if p.penaltyE == 0 then s
  else
    let cold := a.slotMap.getD (s.replicas - 1) 0
    let feas := ((s.ex.energy[cold]?).map (·.2)).getD true
    let run := if feas then 0 else a.penRun + 1
    if run == p.penaltyE then
      if a.penK < 16 then
        let s := s.onAnneal fun a => { a with penK := a.penK + 1, penRun := 0 }
        let s := s.formEnergy
        let s := s.onAnneal fun a => { a with eBest := some s.minEnergy, ni := 0 }
        s.record 0xA032 (a.penK + 1 + a.w % 2 ^ 56 * 256)
      else (s.onAnneal fun a => { a with penRun := 0 }).record 0xA033 a.w
    else s.onAnneal fun a => { a with penRun := run }

/-! ## The end of a sweep (R128) -/

/-- The last action of R128: w ← w + 1 and β_k formed for the next sweep; every core counts the sweep. -/
def State.endSweep (s : State) : State :=
  let s := (s.onAnneal fun a => { a with w := a.w + 1 }).formBetas
  (s.onCores fun c => { c with sweeps := satAdd 64 c.sweeps 1, conflLast := c.conflNow }).sweepOver

/-- Load balancing (R242): parcels moved to another core, and to another slot of their class, as Dajor
chose: the choice is an operand. -/
def State.balance (s : State) (moves : List (Nat × Nat × Nat)) : State :=
  if s.slog.throughput && s.flag Fld.LOAD_BALANCE_ENABLE then
    moves.foldl (fun s m =>
      let sh := s.plan.shape
      let cls := fun (k : Nat) => (sh.slots[k]?).map (·.cls)
      if m.2.1 < sh.n && cls m.2.2 == cls (s.slotOfParcel m.1) && (cls m.2.2).isSome then
        let ord := (s.parcelsOf m.2.1).length
        let place := if s.coreOfParcel m.1 == m.2.1 then sh.place else sh.place.set m.1 (m.2.1, ord)
        let slots := sh.slotOf.set m.1 m.2.2
        { s with plan := { s.plan with shape := { sh with place := place, slotOf := slots } } }
      else s) s
  else s

/-- ANNEAL: the controller's actions after the paired moves; when a swap event is due, SWAP performs it
and the last action (R128; log 15). -/
def execAnneal (t : Nat) (moves : List (Nat × Nat × Nat)) (s : State) : Result :=
  s.when t (fun s => s.controllerOpen && s.replicas * s.nGroups ≤ s.ex.groupNext) fun s =>
    let s := s.countRuns.formEnergy.updateBest.updateStuck.updatePenalty
    let k := s.plan.data.anneal.swapK
    let due := decide (0 < k) && (s.ex.chain.an.w + 1) % k == 0
    let s := (s.onEx fun x => { x with annealDone := true, swapDue := due }).balance moves
    if due then s else s.endSweep

/-- One pair of a swap event: its stream draws; a pair of the event's parity exchanges its chains when
−e ≤ t (R135, R136). -/
def State.swapPair (s : State) (event : Nat) (before : List Nat) (k : Nat) : State :=
  let (u, s) := s.drawCtrl (((s.plan.data.ctrlRec 0).map (·.base)).getD 0 + k)
  if k % 2 == event % 2 then
    let a := before.getD k 0
    let b := before.getD (k + 1) 0
    let dB := sub32 (s.ex.betas.getD (k + 1) 0) (s.ex.betas.getD k 0)
    let en := fun (c : Nat) => ((s.ex.energy[c]?).map (·.1)).getD 0
    let dE := rn32 (((en b - en a : Int) : Rat) / (12 * 2 ^ 298 : Nat))
    let ok := expAccepts (tableDraw .exponential u.toNat) (mul32 dB dE)
    let s := s.onEx fun x => { x with
      swapTried := x.swapTried.modify k (satAdd 32 · 1)
      swapAcc := if ok then x.swapAcc.modify k (satAdd 32 · 1) else x.swapAcc }
    if ok then s.onAnneal fun x => { x with slotMap := (x.slotMap.set k b).set (k + 1) a } else s
  else s

/-- SWAP: the swap event of this sweep, then the last action of R128. -/
def execSwap (t : Nat) (s : State) : Result :=
  s.when t (fun s => s.sweeping && s.ex.annealDone && s.ex.swapDue) fun s =>
    let event := (s.ex.chain.an.w + 1) / s.plan.data.anneal.swapK - 1
    let before := s.ex.chain.an.slotMap
    let s := (List.range (s.replicas - 1)).foldl (fun s k => s.swapPair event before k) s
    (s.onEx fun x => { x with swapDue := false }).endSweep

/-- The last chain's pass of the sweep has run its CYCLES_PER_SWEEP: the schedule is cyclic in that many cycles
(R79, R211), and a late slot moves its end too (R103). -/
def State.passSpent (s : State) : Bool :=
  s.ex.pass + 1 == s.replicas && s.ex.passAt + s.plan.shape.cycles + s.ex.delay ≤ s.ccyc

/-- END: the core's table ends for this chain; it starts again for the next chain, or, once the schedule's cycles
have run, has ended its sweep, which may be the last thing the sweep waits for (R80, R122). -/
def execEndEntry (t node : Nat) (s : State) : Result :=
  s.when t (fun s => match s.entryDue node 15 with
      | some (c, _) => decide (c.pass + 1 < s.replicas) || s.passSpent
      | none => false) fun s =>
    (s.onCore node fun c =>
      if c.pass + 1 < s.replicas then { c with pos := 0, pass := c.pass + 1, gathered := [] }
      else { c with ended := true }).sweepOver

end Sys2Proof.Machine
end

