-- ==== Sys2Proof/Machine/Context.lean ====
section
/-! DEFINITION. Canonical contexts (R250, R286 to R289): the state sections V, G and A, the step digest of
a state, a whole context, and the checks and the reading of one at a RESTORE. -/

namespace Sys2Proof.Machine

/-! ## Section V -/

/-- Bytes of a run's variables in one chain. -/
def runBytes (r : TypeRun) : Nat := (r.count * storedBits r.typ + 7) / 8

/-- A run's variables in the form of R250: packed from bit 0, padded with zero bits. -/
def runToV (r : TypeRun) (vals : List Nat) : List Byte :=
  let b := storedBits r.typ
  natLe ((vals.zipIdx.map fun x => x.1 % 2 ^ b * 2 ^ (x.2 * b)).sum) (runBytes r)

/-- One chain's variables. -/
def chainToV : List TypeRun → List Nat → List Byte
  | [], _ => []
  | r :: rs, vals => runToV r (vals.take r.count) ++ chainToV rs (vals.drop r.count)

/-- One chain's variables read back. -/
def chainOfV : List TypeRun → List Byte → List Nat
  | [], _ => []
  | r :: rs, b =>
    let n := leNat (b.take (runBytes r))
    ((List.range r.count).map fun i => bitsOf n (i * storedBits r.typ) (storedBits r.typ)) ++
      chainOfV rs (b.drop (runBytes r))

/-- The bits that pad each run of a chain are 0. -/
def vPadOk : List TypeRun → List Byte → Bool
  | [], _ => true
  | r :: rs, b => leNat (b.take (runBytes r)) < 2 ^ (r.count * storedBits r.typ) && vPadOk rs (b.drop (runBytes r))

/-- Section V: the chains in ascending order. -/
def PlanData.sectV (p : PlanData) (vals : List Nat) : List Byte :=
  ((List.range p.replicas).map fun r => chainToV p.runs ((vals.drop (r * p.nVars)).take p.nVars)).flatten

/-! ## Sections G and T -/

/-- The streams of G in ascending id: lanes, then ROLE 0 and ROLE 1. -/
def ChainSt.streams (c : ChainSt) : List Stream := c.lanes ++ c.ctrl

def ChainSt.sectG (c : ChainSt) : List Byte := (c.streams.map fun x => natLe x.state.toNat 16).flatten

def ChainSt.sectT (c : ChainSt) : List Byte :=
  (c.streams.map fun x => natLe x.id 6 ++ natLe (polyIndex x.id) 2 ++ natLe x.drawn 8).flatten

/-! ## Section A -/

/-- E12 in Vault format (R147). -/
def e12Bytes (e : Int) : List Byte := natLe (BitVec.ofInt 640 e).toNat 80

/-- Section A (R288). -/
def PlanData.sectA (p : PlanData) (a : Anneal) : List Byte :=
  let best := a.best.getD ⟨false, 0, 0, 0, []⟩
  natLe a.w 8 ++ natLe a.tOff.toNat 4 ++ natLe a.ni 2 ++ natLe a.penK 1 ++
  natLe (a.best.isSome.toNat + 2 * best.feasible.toNat + 4 * a.eBest.isNone.toNat) 1 ++
  natLe a.penRun 4 ++ natLe p.anneal.groups.length 4 ++ natLe best.chain 1 ++ zeros 7 ++ natLe best.w 8 ++
  e12Bytes (a.eBest.getD 0) ++ e12Bytes best.e12 ++ zeros 56 ++
  padTo 8 ((a.slotMap.map fun c => natLe c 1).flatten) ++
  padTo 8 ((a.groups.map fun g => natLe g.paired.toNat 1 ++ natLe g.pos 1 ++ natLe g.run 2).flatten) ++
  padTo 8 (if a.best.isSome then chainToV p.runs best.vals else zeros p.chainBytes)

/-- Anneal state read from section A. -/
def PlanData.annealOf (p : PlanData) (b : List Byte) : Anneal :=
  let n := p.replicas
  let g := p.anneal.groups.length * n
  let gOff := 256 + roundUp n 8
  let fl := fieldAt b 15 1
  { w := fieldAt b 0 8
    tOff := BitVec.ofNat 32 (fieldAt b 8 4)
    ni := fieldAt b 12 2
    penK := fieldAt b 14 1
    penRun := fieldAt b 16 4
    eBest := if fl.testBit 2 then none else some (BitVec.ofNat 640 (fieldAt b 40 80)).toInt
    slotMap := (List.range n).map fun k => fieldAt b (256 + k) 1
    groups := (recs b gOff 4 g).map fun x => ⟨(fieldAt x 0 1).testBit 0, fieldAt x 1 1, fieldAt x 2 2⟩
    best := if fl.testBit 0 then some ⟨fl.testBit 1, fieldAt b 24 1, fieldAt b 32 8,
        (BitVec.ofNat 640 (fieldAt b 120 80)).toInt,
        chainOfV p.runs (slice b (gOff + roundUp (4 * g) 8) p.chainBytes)⟩ else none }

/-! ## The step digest (R250, R251) -/

/-- M = V ‖ G ‖ A. -/
def PlanData.message (p : PlanData) (c : ChainSt) : List Byte := p.sectV c.vals ++ c.sectG ++ p.sectA c.an

/-- The step digest of a state: CRC-64/ECMA-182 of M. The check-value units form it run by run and XOR the
shifted parts (R251); CRC-64 is linear, so the result is this CRC. -/
def PlanData.digest (p : PlanData) (c : ChainSt) : Nat := crc crc64ecma (p.message c)

/-! ## A whole context (R287) -/

/-- Section B: the BOUND blocks and the digests of their payloads. -/
def PlanSt.sectB (p : PlanSt) : List Byte :=
  ((p.data.blocks.zipIdx.filter (·.1.bound)).map fun d => natLe d.2 4 ++ zeros 4 ++
    (match p.binds.find? (·.block == d.2) with
     | some x => (x.digest ++ zeros 32).take 32
     | none => zeros 32)).flatten

/-- Offsets of sections laid one after another from the second page; a section of length 0 has offset 0. -/
def layOut : Nat → List (List Byte) → List (Nat × Nat)
  | _, [] => []
  | off, x :: xs => (if x.isEmpty then 0 else off, x.length) :: layOut (off + tile x.length) xs

/-- Bytes 0 to 127 of a header: what STATE_DIGEST covers. -/
def State.ctxCovered (s : State) (c : ChainSt) (next : Nat) (mid unc : Bool) (mode : Nat) : List Byte :=
  let p := s.plan.data
  [0x4B, 0x5A, 0x43, 0x58] ++ natLe 1 2 ++ natLe mode 1 ++
  natLe (unc.toNat + 2 * p.synchronous.toNat + 4 * mid.toNat) 1 ++ natLe next 8 ++
  natLe (s.fld Fld.STRM_SEED_SEED) 8 ++ natLe p.nVars 8 ++ natLe p.replicas 2 ++ zeros 6 ++
  natLe c.streams.length 8 ++ s.planDigest64 ++ zeros 16

/-- A context of a chain state that enters step `next`, or that stands within it (R287). -/
def State.context (s : State) (c : ChainSt) (next : Nat) (mid unc : Bool) (mode : Nat) : List Byte :=
  let p := s.plan.data
  let v := p.sectV c.vals
  let g := c.sectG
  let a := p.sectA c.an
  let all := [v, g, a, c.sectT, s.plan.sectB]
  let head := s.ctxCovered c next mid unc mode
  let body := head ++ ((layOut 4096 all).map fun x => natLe x.1 8 ++ natLe x.2 8).flatten ++
    shake256 (head ++ v ++ g ++ a) 64 ++ natLe (p.digest c) 8 ++ natLe (s.fld Fld.DEV_SHAPE_M_CORES) 2 ++
    natLe (s.fld Fld.DEV_SHAPE_SHAPE_SEL) 1 ++ natLe (s.reg .DEV_GRADE).toNat 1 ++
    natLe (s.fld Fld.DEV_STEPPING_STEPPING) 1 ++ zeros 3 ++ natLe s.fuse.serial 8 ++ natLe s.mram.hours 8 ++
    zeros 204
  padTo 4096 (body ++ natLe (crc crc32c body) 4) ++ (all.map (padTo 4096)).flatten

/-- The NEXT_STEP of a context. -/
def ctxNext (b : List Byte) : Nat := fieldAt b 8 8

/-- MID_STEP of a context (R287). -/
def ctxMid (b : List Byte) : Bool := (fieldAt b 7 1).testBit 2

/-! ## RESTORE (R289) -/

/-- Offset and length of section `i`. -/
def ctxSect (b : List Byte) (i : Nat) : Nat × Nat := (fieldAt b (128 + 16 * i) 8, fieldAt b (136 + 16 * i) 8)

/-- The bytes of section `i`. -/
def ctxBytes (b : List Byte) (i : Nat) : List Byte := let x := ctxSect b i; slice b x.1 x.2

/-- SECTIONS place every section on a page boundary within the context, none overlapping another or the
header (R289). -/
def ctxPlaced (b : List Byte) : Bool :=
  let ss := (List.range 5).map (ctxSect b)
  (ss.all fun x => if x.2 == 0 then x.1 == 0 else x.1 % 4096 == 0 && x.1 + x.2 ≤ b.length && 4096 ≤ x.1) &&
  disjointSpans ((ss.filter fun x => x.2 != 0).map fun x => (x.1, tile x.2))

/-- Reserved fields and padding are 0, as far as the context itself says where they lie (R289). -/
def ctxPadOk (b : List Byte) : Bool :=
  let a := ctxBytes b 2
  let n := fieldAt b 32 2
  let g := min (4 * fieldAt a 20 4 * n) a.length
  let gOff := 256 + roundUp n 8
  zeroAt b 34 6 && zeroAt b 112 16 && zeroAt b 285 3 && zeroAt b 304 204 && fieldAt b 6 1 < 2 &&
  fieldAt b 7 1 < 8 && fieldAt b 24 8 < 2 ^ 40 && zeroAt b 512 3584 &&
  ((List.range 5).all fun i => let x := ctxSect b i; x.2 == 0 || zeroAt b (x.1 + x.2) (tile x.2 - x.2)) &&
  zeroAt a 25 7 && zeroAt a 200 56 && fieldAt a 15 1 < 8 && zeroAt a (256 + n) (roundUp n 8 - n) &&
  ((recs a gOff 4 (g / 4)).all fun x => fieldAt x 0 1 < 2) && zeroAt a (gOff + g) (roundUp g 8 - g) &&
  ((recs (ctxBytes b 4) 0 40 ((ctxSect b 4).2 / 40)).all fun x => zeroAt x 4 4)

/-- The padding of V, and of the best state of A, is 0: where it lies only the context's own plan says (R250, R289). -/
def PlanData.ctxPadV (p : PlanData) (b : List Byte) : Bool :=
  let a := ctxBytes b 2
  let bOff := 256 + roundUp p.replicas 8 + roundUp (4 * p.anneal.groups.length * p.replicas) 8
  zeroAt a (bOff + p.chainBytes) (roundUp p.chainBytes 8 - p.chainBytes) &&
  vPadOk p.runs (slice a bOff p.chainBytes) &&
  (List.range p.replicas).all fun r => vPadOk p.runs (slice (ctxBytes b 0) (r * p.chainBytes) p.chainBytes)

/-- Check 1, but for the padding whose place only the plan tells: form and padding. -/
def ctxForm (b : List Byte) : Bool :=
  4096 ≤ b.length && fieldAt b 508 4 == crc crc32c (b.take 508) &&
  b.take 4 == [0x4B, 0x5A, 0x43, 0x58] && fieldAt b 4 2 == 1 && ctxPlaced b && ctxPadOk b

/-- A stored value is valid for its type. -/
def storedOk (r : TypeRun) (n : Nat) : Bool :=
  match r.typ with
  | 2 => n < r.q
  | 3 => n ≤ r.span
  | 4 => fp32.isFinite n
  | _ => true

/-- One chain's values are valid. -/
def chainOk : List TypeRun → List Nat → Bool
  | [], _ => true
  | r :: rs, vals => (vals.take r.count).all (storedOk r) && chainOk rs (vals.drop r.count)

/-- The streams of G and T with the positions they must have at w (R192). -/
def PlanData.streamIds (p : PlanData) (w : Nat) : List (Nat × Nat) := p.laneIds w ++ p.ctrlIds w

/-- Anneal state is valid for the plan (R289, check 3). -/
def PlanData.annealOk (p : PlanData) (a : Anneal) (raw : List Byte) : Bool :=
  let an := p.anneal
  let n := p.replicas
  let fl := fieldAt raw 15 1
  let bOff := 256 + roundUp n 8 + roundUp (4 * an.groups.length * n) 8
  sortNats a.slotMap == List.range n &&
  fieldAt raw 20 4 == an.groups.length &&
  (a.groups.zipIdx.all fun g => !g.1.paired ||
    (g.1.run == 0 && match an.groups[g.2 % max 1 an.groups.length]? with
      | some d => g.1.pos < d.members.length
      | none => false)) &&
  fieldAt raw 24 1 < n && finiteNonneg a.tOff && le32 a.tOff an.dtCap &&
  (if an.stuckW == 0 then rat32 a.tOff = 0 && a.ni == 0 else a.ni < an.stuckW) &&
  a.penK ≤ 16 && (if an.penaltyE == 0 then a.penK == 0 && a.penRun == 0 else a.penRun < an.penaltyE) &&
  (fl.testBit 0 || (zeroAt raw 120 80 && zeroAt raw bOff p.chainBytes)) &&
  (!(fl.testBit 2) || zeroAt raw 40 80) &&
  match a.best with
  | some x => chainOk p.runs x.vals
  | none => true

/-- Check 3: match with the plan and validity of state. -/
def PlanData.ctxMatch (p : PlanData) (b : List Byte) : Bool :=
  let a := p.annealOf (ctxBytes b 2)
  let ids := p.streamIds a.w
  fieldAt b 24 8 == p.nVars && fieldAt b 32 2 == p.replicas && fieldAt b 40 8 == p.nStreams &&
  (ctxSect b 0).2 == p.replicas * p.chainBytes && (ctxSect b 1).2 == 16 * p.nStreams &&
  (ctxSect b 2).2 == p.sectionABytes && (ctxSect b 3).2 == 16 * p.nStreams &&
  (ctxSect b 4).2 == 40 * (p.blocks.filter (·.bound)).length &&
  ((recs (ctxBytes b 3) 0 16 p.nStreams).zip ids).all (fun x =>
    fieldAt x.1 0 6 == x.2.1 && fieldAt x.1 8 8 == x.2.2) &&
  ((List.range p.replicas).all fun r =>
    chainOk p.runs (chainOfV p.runs (slice (ctxBytes b 0) (r * p.chainBytes) p.chainBytes))) &&
  p.annealOk a (ctxBytes b 2)

/-- Check 4: the id of the first stream record that fails R190, its polynomial index or its state being wrong. -/
def PlanData.ctxBadStream (p : PlanData) (b : List Byte) : Option Nat :=
  (((recs (ctxBytes b 3) 0 16 p.nStreams).zip (recs (ctxBytes b 1) 0 16 p.nStreams)).find? fun x =>
    fieldAt x.1 6 2 != fieldAt x.1 0 6 % 65536 || leNat x.2 == 0).map fun x => fieldAt x.1 0 6

/-- Check 5: STATE_DIGEST. -/
def ctxDigestOk (b : List Byte) : Bool :=
  slice b 208 64 == shake256 (b.take 128 ++ ctxBytes b 0 ++ ctxBytes b 1 ++ ctxBytes b 2) 64

/-- The code and payload with which a context fails, if it does (R203, R289, R290). With no plan loaded no PLAN_DIGEST
is equal to its digest. -/
def State.checkContext (s : State) (b : List Byte) : Option (Nat × Nat) :=
  let p := s.plan.data
  if !ctxForm b then some (0x1010, 1)
  else if !s.planOn || slice b 48 64 != s.planDigest64 then some (0x1011, fieldAt b 48 8)
  else if !p.ctxPadV b then some (0x1010, 1)
  else if !p.ctxMatch b then some (0x1010, 3)
  else match p.ctxBadStream b with
    | some id => some (0x4005, id)
    | none => if !ctxDigestOk b then some (0x1010, 5) else none

/-- The chain, stream and anneal state that a checked context holds. -/
def PlanData.chainOfCtx (p : PlanData) (b : List Byte) : ChainSt :=
  let v := ctxBytes b 0
  let ts := (recs (ctxBytes b 3) 0 16 p.nStreams).zip (recs (ctxBytes b 1) 0 16 p.nStreams)
  let st := ts.map fun x => Stream.mk (fieldAt x.1 0 6) (BitVec.ofNat 128 (leNat x.2)) (fieldAt x.1 8 8)
  let n := p.replicas * p.nParcels * 64
  { vals := ((List.range p.replicas).map fun r =>
      chainOfV p.runs (slice v (r * p.chainBytes) p.chainBytes)).flatten
    lanes := st.take n
    ctrl := st.drop n
    an := p.annealOf (ctxBytes b 2) }

/-! ## Capturing contexts (R286, R306, R362) -/

/-- UNCOVERED of the current state (R253). -/
def State.uncovered (s : State) : Bool := s.flag Fld.MODE_STAT_UNCOVERED

/-- MODE of the last step run. -/
def State.lastMode (s : State) : Nat := s.slog.throughput.toNat

/-- What stands beside a context captured now. -/
def State.captureMark (s : State) (mid : Bool) : CtxMark :=
  ⟨s.slog.taintNext || (mid && s.slog.tainted), s.slog.restored, s.flag Fld.STRM_SEED_INFO_FRESH⟩

/-- A captured context, none of it transferred. -/
def State.captured (s : State) (bytes : List Byte) (seq kind policy : Nat) : Transfer :=
  ⟨bytes, s.fld Fld.JRNL_NEXT_FSEQ_FSEQ, [], splitRecord bytes.length 0 bytes (bytes.length / 65520 + 1), seq,
    ctxNext bytes, kind, policy, s.plan.binds, s.captureMark (ctxMid bytes)⟩

/-- A part of a periodic context waits in the queue of a port that is UP, so the next is not formed yet. -/
def State.partWaits (s : State) (x : Transfer) : Bool :=
  (List.range 2).any fun k => s.fld (jState k) == 3 && (s.jport k).queue.any fun q => x.parts.contains q.1

/-- Parts of a context become CHECKPOINT_PART frames, a periodic one's no faster than they are sent. -/
def State.formParts (s : State) (x : Transfer) : List (Bool × List Byte) → State × Transfer
  | [] => (s, { x with left := [] })
  | p :: ps =>
    if x.kind == 0 && s.partWaits x then (s, { x with left := p :: ps })
    else
      let s := s.addFrame 4 p.1 0 x.policy p.2
      let n := ((s.jrnl.frames.filter (·.typ == 4)).getLast?.map (·.fseq)).getD 0
      s.formParts { x with parts := x.parts ++ [n] } ps

/-- A transfer joins those under way. -/
def State.putTransfer (s : State) (x : Transfer) : State :=
  let s : State := { s with jrnl := { s.jrnl with transfers := s.jrnl.transfers ++ [x] } }
  s.setFlag Fld.CKPT_STAT_IN_PROGRESS true

/-- A transfer begins: the context goes to both memories and to the journal as CHECKPOINT_PART frames
(R286). -/
def State.startTransfer (s : State) (bytes : List Byte) (seq kind policy : Nat) : State :=
  let x := s.captured bytes seq kind policy
  let r := s.formParts x x.left
  r.1.putTransfer r.2

/-- While a CHECKPOINT window is open the transfer of a periodic context goes on: the next part is formed when the one
before it has been sent (R49). -/
def State.pumpPeriodic (s : State) : State :=
  match s.jrnl.transfers.find? fun x => x.kind == 0 && !x.left.isEmpty with
  | some x =>
    if s.windowOpen wCheckpoint then
      let r := s.formParts x x.left
      { r.1 with jrnl := { r.1.jrnl with transfers := r.1.jrnl.transfers.map fun z => if z == x then r.2 else z } }
    else s
  | none => s

/-- JOURNAL_FRAME_SEND. -/
def execJournalFrameSend (t port : Nat) (s : State) : Result :=
  if 2 ≤ port then .fault .noSuchUnit
  else s.when t (fun s => s.cUp && (s.sendable port).isSome) fun s => (s.sendFrame port).pumpPeriodic

/-- A phase of the step in progress has begun: gather that waited for its windows begins, the transfer of a periodic
context goes on, and FLUSH may be waited for from now on (R47, R49). -/
def State.atPhase (s : State) : State :=
  let s := if s.ex.awaitOpen && s.stept.stepOn && !s.slog.abandoned && !s.halted && s.gatherOpen then s.startAligned
    else s
  s.pumpPeriodic.noteFlush

/-- A periodic context at the boundary before step `next`, captured now and transferred in its CHECKPOINT window;
skipped while a transfer is incomplete (R49, R286). -/
def State.periodic (s : State) (next : Nat) : State :=
  if s.jrnl.transfers.isEmpty then
    s.putTransfer (s.captured (s.context s.ex.shadow next false s.uncovered s.lastMode) 0 0 s.policyNow)
  else (s.incFld Fld.CKPT_STAT_SKIPPED).record 0x101A next

/-- A transfer is complete: both copies written and its frames durable (R286, R274); a periodic one moves only
in a CHECKPOINT window (R49). -/
def State.transferDone (s : State) (x : Transfer) : Bool :=
  x.left.isEmpty && x.parts.all (s.durable · x.policy) && (x.kind != 0 || s.windowOpen wCheckpoint)

/-- The copies and CKPT registers after a transfer; a periodic, pause or suspend context opens a new
segment (R284, R286). -/
def State.endTransfer (s : State) (x : Transfer) : State :=
  let j := { s.jrnl with
    transfers := s.jrnl.transfers.erase x
    ctxHbm := some x.bytes, ctxLp := some x.bytes, ctxFseq := x.capFseq, ctxParts := x.parts, ctxBinds := x.binds
    ctxMark := x.mark
    perFseq := if x.kind == 2 then s.jrnl.perFseq else x.capFseq }
  let s : State := { s with jrnl := j }
  let s := (s.setFlag Fld.CKPT_STAT_VALID true).setFld Fld.CKPT_LAST_NEXT_STEP x.next
  let s := s.setFlag Fld.CKPT_STAT_IN_PROGRESS (!s.jrnl.transfers.isEmpty)
  (if x.kind == 2 then s else s.newSegment).showUsed

end Sys2Proof.Machine
end

