-- ==== Sys2Proof/Machine/StepTime.lean ====
section
/-! DEFINITION. Step time (chapter 02): frames of the Campanile link, marks and their application,
generation, the barrier, holdover, hop-delay measurement, and the configuration writes of the block. -/

namespace Sys2Proof.Machine

/-! ## Registers in effect -/

/-- STEP_SRC.SEL (R35). -/
def State.stepSrc (s : State) : Nat := s.fld Fld.STEP_SRC_SEL
/-- STEP_SRC.DRIVE_OUT. -/
def State.driveOut (s : State) : Bool := s.flag Fld.STEP_SRC_DRIVE_OUT
/-- STEP_SRC.BARRIER. -/
def State.barrierPolicy (s : State) : Bool := s.flag Fld.STEP_SRC_BARRIER
/-- The device originates marks (R37). -/
def State.isSource (s : State) : Bool := s.stepSrc != 0
def State.inHoldover (s : State) : Bool := s.flag Fld.STEP_STAT_HOLDOVER
def State.holds (s : State) : Bool := s.flag Fld.STEP_STAT_HELD
/-- The downstream Campanile link is up. -/
def State.downUp (s : State) : Bool := s.stept.outA || s.stept.outB
/-- The next step to start, while a run is in progress (R45). -/
def State.nextStep (s : State) : Option Nat := s.stept.run.map (·.next)
/-- A change to the hidden state of step time. -/
def State.onStep (s : State) (f : StepT → StepT) : State := { s with stept := f s.stept }

/-! ## Frames (R40) -/

/-- A frame body with its CRC-32C. -/
def withCrc (b : List Byte) : List Byte := b ++ natLe (crc crc32c b) 4

def markFrame (flags pl2 k step period dTotal dAcc : Nat) : List Byte :=
  withCrc ([1] ++ natLe flags 1 ++ natLe pl2 1 ++ natLe k 1 ++ natLe step 8 ++ natLe period 8 ++
    natLe dTotal 2 ++ natLe dAcc 2 ++ zeros 4)

def phaseFrame (phase step dAcc : Nat) : List Byte :=
  withCrc ([2, 0] ++ natLe phase 2 ++ natLe step 4 ++ natLe dAcc 2 ++ zeros 2)

def readyFrame (idle : Bool) (maxAcc step : Nat) : List Byte :=
  withCrc ([3] ++ natLe idle.toNat 1 ++ natLe maxAcc 2 ++ natLe step 8)

def waitFrame (step : Nat) : List Byte := withCrc ([4] ++ zeros 3 ++ natLe step 8)

/-- The length of a frame of a TYPE. -/
def frameLength : Nat → Nat
  | 1 => 32
  | _ => 16

/-- The CRC of a frame passes, and it has its TYPE's length. -/
def frameCrcOk (typ : Nat) (b : List Byte) : Bool :=
  b.length == frameLength typ && fieldAt b (b.length - 4) 4 == crc crc32c (b.take (b.length - 4))

/-- The reserved fields of a frame are zero, and its fields are in range. That a MARK whose PHASES_LOG2 or
STRIDE_LOG2 is out of range is discarded as one with a reserved field is the model's choice (log 23). -/
def frameFieldsOk (typ : Nat) (b : List Byte) : Bool :=
  fieldAt b 0 1 == typ &&
  match typ with
  | 1 => fieldAt b 1 1 < 4 && 8 ≤ fieldAt b 2 1 && fieldAt b 2 1 ≤ 16 && 4 ≤ fieldAt b 3 1 &&
      fieldAt b 3 1 ≤ fieldAt b 2 1 && zeroAt b 17 3 && zeroAt b 24 4
  | 2 => zeroAt b 1 1 && zeroAt b 10 2
  | 3 => fieldAt b 1 1 < 2
  | _ => zeroAt b 1 3

/-- A frame received whole: kept, or recorded as 0x2006 with what was wrong (R40, R59). -/
def State.checkFrame (s : State) (typ : Nat) (b : List Byte) : Option State :=
  if !frameCrcOk typ b then some (s.record 0x2006 (fieldAt b 0 1 + 256))
  else if !frameFieldsOk typ b then some (s.record 0x2006 (fieldAt b 0 1))
  else none

/-- A frame on Campanile In counts: it comes on the pair in use, and it does not repeat a frame
completed on the other pair within the last 1,024 cycles (R329). -/
def State.inFrame (s : State) (pairB : Bool) (b : List Byte) : Bool :=
  pairB == s.stept.useB && !s.stept.recent.any (fun p => p.1 == b && s.now ≤ p.2 + 1024)

/-! ## Compensation (R53) -/

/-- The measured hop delay of the pair in use (R329). -/
def State.hopDelay (s : State) : Nat := if s.stept.useB then s.stept.inB.hop else s.stept.inA.hop

/-- ACC = D_ACC + HOP_DELAY + TRIM. -/
def State.accOf (s : State) (dAcc : Nat) : Nat :=
  ((dAcc + s.hopDelay : Nat) + signedOf 8 s.stept.effTrim : Int).toNat

/-! ## Holdover (R54 to R56) -/

/-- Holdover is exhausted (R55): the step in progress has finished and no further step starts, so the device holds. -/
def State.holdNow (s : State) : State :=
  let used := s.fld Fld.STEP_HOLDOVER_USED
  if s.runOn && !s.stept.stepOn && s.dig.rerunTo.isNone && s.inHoldover && !s.holds &&
      (s.stept.endHold || s.stept.effLimit ≤ used) then
    ((s.onStep fun x => { x with endHold := false }).setFlag Fld.STEP_STAT_HELD true).record 0x2003 used
  else s

/-- The last measured step period; before one is measured, the period hint of the mark in use (log 22). -/
def State.heldPeriod (s : State) : Nat := s.stept.period.getD ((s.stept.current.map (·.period)).getD 0)

/-- The reference is declared lost: holdover is entered, and generation starts from the last mark's
instant, the first mark falling no earlier than now. -/
def State.enterHoldover (s : State) (light : Bool) : State :=
  let s := (s.setFlag Fld.STEP_STAT_HOLDOVER true).incFld Fld.STEP_HOLDOVER_ENTRIES
  let s := s.setFlag Fld.STEP_STAT_LOCKED false
  let s := s.record 0x2002 light.toNat
  let per := s.heldPeriod
  let (step, at0) := s.stept.instant.getD (0, s.now)
  let s := s.onStep fun x => { x with
    gen := some (step, max (at0 + per) s.now - per), genStopped := false,
    endHold := s.stept.effLimit == 0 }
  s.holdNow

/-- Holdover and hold end: the three flags and counts are cleared, and marks that holdover generated start no
further step (R56). -/
def State.clearHoldover (s : State) : State :=
  let s := (s.setFlag Fld.STEP_STAT_HOLDOVER false).setFlag Fld.STEP_STAT_HELD false
  (s.setFld Fld.STEP_HOLDOVER_USED 0).onStep fun x => { x with
    gen := none, genStopped := false, endHold := false, lossAt := none, lastMark := none, prevMark := none
    marks := x.marks.filter fun m => !m.holdover
    applied := x.applied.filter fun p => !p.1.holdover }

/-! ## Applying marks -/

/-- The stride of phase marks when originating: the smallest k, at least STRIDE_LOG2, whose stride
lasts 256 cycles or more; PHASES_LOG2 when there is none below it (R42). -/
def strideFor (period pl2 least : Nat) : Nat :=
  ((List.range pl2).find? fun k => max least 4 ≤ k && 256 * 2 ^ pl2 ≤ period * 2 ^ k).getD pl2

/-- A position in steps, in units of 1/65,536 of a step. -/
def markPos (step phase pl2 : Nat) : Nat := step * 65536 + phase * 2 ^ (16 - pl2)

/-- The predicted length of a segment of `2 ^ k` phases that begins with the mark applied now (R43): the period hint
for the first segment after holdover; then, with no phase marks, the step period, which is the last one measured. -/
def State.segment (s : State) (m : Mark) : Nat :=
  let byHint := m.period * 2 ^ m.strideLog2 / 2 ^ m.phasesLog2
  if s.stepSrc != 0 then byHint
  else if m.strideLog2 == m.phasesLog2 then
    if s.stept.prevMark.isNone then byHint else s.stept.period.getD byHint
  else match s.stept.prevMark, s.stept.lastMark with
    | some (c0, p0), some (c1, p1) =>
      if p0 < p1 then (c1 - c0) * (2 ^ m.strideLog2 * 2 ^ (16 - m.phasesLog2)) / (p1 - p0) else byHint
    | _, _ => byHint

/-- The next phase begins: an originating device sends its phase mark when it is one (R42). -/
def State.oneMorePhase (s : State) : State :=
  let p := s.phi + 1
  let s := ((s.setFld Fld.STEP_PHASE_PHASE p).onStep fun x => { x with phaseAt := s.now }).sayWidened.atPhase
  let k := strideFor (s.fld Fld.STEP_CTL_PERIOD) (s.fld Fld.STEP_PHASE_PHASES_LOG2)
    (s.fld Fld.STEP_CTL_STRIDE_LOG2)
  if s.isSource && s.driveOut && k < s.fld Fld.STEP_PHASE_PHASES_LOG2 && p % 2 ^ k == 0 then
    s.emit (.campOut (phaseFrame p s.stepNow 0))
  else s

/-- The answer to a mark while no run is in progress: READY with IDLE (R50). -/
def State.answerIdle (s : State) (m : Mark) : State :=
  if m.fromLink && s.power != 2 then
    s.emit (.campReturn (readyFrame true (max s.stept.maxAcc m.acc) (m.step + 1)))
  else s

/-- Phases not yet begun, up to phase `p`, begin in this cycle, in order (R44). -/
def State.beginPhasesTo (s : State) (p : Nat) : State :=
  (List.range (p - s.phi)).foldl (fun s _ => s.oneMorePhase) s

/-- The watchdog is armed by the first mark that a run applies (R54). -/
def State.armWatch (s : State) (hint : Nat) : State :=
  if s.stepSrc == 0 && s.stept.predicted.isNone then
    match s.stept.instant with
    | some (_, c) => s.onStep fun x => { x with predicted := some (c + x.period.getD hint) }
    | none => s
  else s

/-- A step mark is applied in this cycle: the phases of the step in progress that have not begun begin (R44), and
it waits to start steps, or is answered (R45, R50). One with an index below the next step to start is ignored (R46). -/
def State.applyStepMark (s : State) (m : Mark) : State :=
  if s.nextStep.any fun n => decide (m.step < n) then s.record 0x2005 m.step
  else
    let s := if s.stept.anchor.isSome && s.stepNow < m.step then s.beginPhasesTo (s.phases - 1) else s
    let s := s.onStep fun x => { x with
      current := some m
      prevMark := x.lastMark
      lastMark := some (s.now, markPos m.step 0 m.phasesLog2) }
    if s.runOn then
      (s.armWatch m.period).onStep fun x => { x with applied := x.applied ++
        [(m, if x.applied.length < 256 then some s.now else none)] }
    else s.answerIdle m

/-- A phase mark is applied in this cycle: phases not yet begun begin now, in order, and the marked
phase begins (R44); when it falls where interpolation stands, nothing is adjusted (R58). Distances between marks are
measured without the lag of a late step (R43, R45). -/
def State.applyPhaseMark (s : State) (m : Mark) : State :=
  if s.stept.anchor.isSome && m.step == s.stepNow then
    let s := s.onStep fun x => { x with
      prevMark := x.lastMark
      lastMark := some (s.now - s.fld Fld.STEP_PHASE_LAG, markPos m.step m.phase m.phasesLog2) }
    let anchor : Anchor := ⟨m.phase, s.now, m.strideLog2, s.segment m⟩
    (s.onStep fun x => { x with anchor := some anchor }).beginPhasesTo m.phase
  else s

/-- A mark is applied in this cycle (R53): the compensation shown, then its effect. -/
def State.applyMark (s : State) (m : Mark) : State :=
  let s := (s.setFld Fld.STEP_SKEW_COMP_ACC_DELAY (min m.acc 0xFFFF)).setFld Fld.STEP_SKEW_COMP_APPLIED
    (m.dTotal - m.acc)
  let s := if m.fromLink then s.setFlag Fld.STEP_STAT_LOCKED true else s
  if m.isPhase then s.applyPhaseMark m else s.applyStepMark m

/-- STEP_PHASE as a read returns it, with SRC_AHEAD: the latest mark received, or generated here, minus STEP,
saturating (R60). -/
def State.stepPhase (s : State) : W64 :=
  insertBits (s.reg .STEP_PHASE) 24 8 (min (s.stept.latest.getD 0 - s.stepNow) 255)

/-! ## The hop-delay measurement (R53, R330) -/

/-- 64 echo sets are sent upstream on each pair that is up, one a cycle. -/
def Pair.startEcho (p : Pair) (now : Nat) : Pair :=
  if p.up then { p with echoSent := (List.range 64).map fun i => (i, now), echoSum := 0, echoCount := 0 }
  else p

/-- Echo sets leave on one pair. -/
def State.sendEchoes (s : State) (pairB : Bool) (up : Bool) : State :=
  if up then (List.range 64).foldl (fun s i => s.emit (.echoUp pairB i)) s else s

/-- The hop-delay measurement begins (R330). -/
def State.measureHop (s : State) : State :=
  let s := (s.sendEchoes false s.stept.inA.up).sendEchoes true s.stept.inB.up
  s.onStep fun x => { x with inA := x.inA.startEcho s.now, inB := x.inB.startEcho s.now, retrain := false }

/-! ## The end of a run -/

/-- The run ends for any reason while in holdover (R56); otherwise generation just stops (R39). A measurement of the
hop delay that waited for it begins (R53). -/
def State.endRunTime (s : State) : State :=
  let s := if s.inHoldover || s.holds then s.clearHoldover else s.onStep fun x => { x with gen := none }
  let s := s.setFlag Fld.STEP_STAT_BARRIER_WAIT false
  let s := s.onStep fun x => { x with
    run := none, applied := [], predicted := none, waitSince := none, waitsSent := 0, slowSaid := false,
    lossAt := none, anchor := none, current := none, stepMark := none, lastMark := none, prevMark := none }
  if s.stept.retrain then s.measureHop else s

/-- A valid MARK's instant, for the watchdog and the measured period (R54, R57). -/
def State.markInstant (s : State) (m : Nat) (hint : Nat) : State :=
  let s : State := match s.stept.predicted with
    | some p =>
      if s.meets (p + s.stept.effMargin) && !s.inHoldover && !s.holds then s.incFld Fld.STEP_AT_LIMIT_MARK else s
    | none => s
  let per := match s.stept.instant with
    | some (m0, c0) => if m0 < m then some ((s.now - c0) / (m - m0)) else s.stept.period
    | none => s.stept.period
  s.onStep fun x => { x with
    instant := some (m, s.now)
    period := per
    predicted := x.predicted.map fun _ => s.now + per.getD hint }

/-! ## MARK and PHASE frames -/

/-- A valid MARK arrives during holdover or hold (R56): one that carries the next step to start or more ends it; one
below stops generation. A loss of light reported in the mark's cycle counts from the next one, and stands (R58). -/
def State.resume (s : State) (step : Nat) (stale : Bool) : State :=
  if !(s.inHoldover || s.holds) || s.stept.lossAt == some s.now then s
  else if stale then s.onStep fun x => { x with genStopped := true }
  else s.clearHoldover.record 0x2004 step

/-- A valid MARK frame: forwarded, and kept until it is applied (R40, R53). One that is stale already measures
nothing (R46). -/
def State.takeMark (s : State) (b : List Byte) : State :=
  let step := fieldAt b 4 8
  let dTotal := fieldAt b 20 2
  let acc := s.accOf (fieldAt b 22 2)
  let s := if s.driveOut then
      s.emit (.campOut (markFrame (fieldAt b 1 1) (fieldAt b 2 1) (fieldAt b 3 1) step
        (fieldAt b 12 8) dTotal acc))
    else s
  let stale := match s.nextStep with | some n => decide (step < n) | none => false
  let s := (s.resume step stale).onStep fun x => { x with latest := some step }
  let s := if stale then s else s.markInstant step (fieldAt b 12 5)
  let s := if !stale && dTotal < acc then s.record 0x200C (acc % 65536 + dTotal * 65536) else s
  s.onStep fun x => { x with marks := x.marks ++
    [⟨false, step, 0, fieldAt b 2 1, fieldAt b 3 1, fieldAt b 12 5, acc, dTotal,
      false, s.now + (dTotal - acc), true⟩] }

/-- MARK_FRAME: received whole on a pair of Campanile In. Marks are used with SEL = 0 (R35). -/
def execMarkFrame (t : Nat) (pairB : Bool) (bytes : List Byte) (s : State) : Result :=
  s.when t (fun s => s.cUp && s.inFrame pairB bytes) fun s =>
    match s.checkFrame 1 bytes with
    | some s' => s'
    | none =>
      let s := s.onStep fun x => { x with recent := [(bytes, s.now)] }
      if s.stepSrc == 0 then s.takeMark bytes else s

/-- A PHASE field is one that a phase mark of the step in progress can carry: a non-zero multiple of `2 ^ k` below
PHASES_PER_STEP (R9, R40). -/
def State.phaseInStep (s : State) (c : Mark) (p : Nat) : Bool :=
  p != 0 && p < s.phases && p % 2 ^ c.strideLog2 == 0

/-- A valid PHASE frame: stale when its step is not the step in progress (R41); applied Λ later than
compensation alone gives, as every phase of a late step (R45). That one whose PHASE no phase mark of the step can
carry is discarded as a frame with a reserved field is the model's choice (log 23). -/
def State.takePhase (s : State) (b : List Byte) : State :=
  let acc := s.accOf (fieldAt b 8 2)
  let p := fieldAt b 2 2
  match s.stept.anchor, s.stept.stepMark with
  | some _, some c =>
    if fieldAt b 4 4 != s.stepNow % 2 ^ 32 then s.record 0x2005 (fieldAt b 4 4)
    else if !s.phaseInStep c p then s.record 0x2006 2
    else
      let s := if s.driveOut then s.emit (.campOut (phaseFrame p (fieldAt b 4 4) acc)) else s
      let s := if c.dTotal < acc then s.record 0x200C (acc % 65536 + c.dTotal * 65536) else s
      s.onStep fun x => { x with marks := x.marks ++
        [{ c with isPhase := true, phase := p, step := s.stepNow, acc := acc, fromLink := true,
                  applyAt := s.now + (c.dTotal - acc) + s.fld Fld.STEP_PHASE_LAG }] }
  | _, _ => s.record 0x2005 (fieldAt b 4 4)

/-- PHASE_FRAME. -/
def execPhaseFrame (t : Nat) (pairB : Bool) (bytes : List Byte) (s : State) : Result :=
  s.when t (fun s => s.cUp && s.inFrame pairB bytes) fun s =>
    match s.checkFrame 2 bytes with
    | some s' => s'
    | none =>
      let s := s.onStep fun x => { x with recent := [(bytes, s.now)] }
      if s.stepSrc == 0 then s.takePhase bytes else s

/-- The first mark that is due, and the marks without it. -/
def dueMark (now : Nat) : List Mark → Option (Mark × List Mark)
  | [] => none
  | m :: ms =>
    if m.applyAt ≤ now then some (m, ms)
    else (dueMark now ms).map fun p => (p.1, m :: p.2)

/-- MARK_APPLY: the first due mark is applied (R53). -/
def execMarkApply (t : Nat) (s : State) : Result :=
  s.when t (fun s => s.cUp && (dueMark s.now s.stept.marks).isSome) fun s =>
    match dueMark s.now s.stept.marks with
    | some (m, ms) => (s.onStep fun x => { x with marks := ms }).applyMark m
    | none => s

/-! ## READY and WAIT (R50 to R52) -/

/-- READY from downstream releases step `n`, where it is waited for: from the first READY after reset or after the
downstream link comes back. That the wait begins so after reset too is the model's choice (log 23). -/
def State.downReady (s : State) (n : Nat) : Bool :=
  !s.driveOut || !s.downUp || !s.stept.downWait || s.stept.ready.any fun m => decide (n ≤ m)

/-- READY for the step after the last one goes upstream once this device's boundary has ended and downstream is
ready, with IDLE when the run has ended with it (R50); none in P2 (R361), and none during the re-runs of a recovery
(R412). -/
def State.trySendReady (s : State) : State :=
  match s.stept.readyDue with
  | some n =>
    if s.stepSrc == 0 && !s.stept.stepOn && s.downReady n && s.power < 2 && s.boot.recovering.isNone then
      let acc := max s.stept.maxAcc (s.fld Fld.STEP_SKEW_COMP_ACC_DELAY)
      (s.emit (.campReturn (readyFrame (!s.runOn) acc n))).onStep fun x => { x with readyDue := none }
    else s
  | none => s

/-- The step a waiting barrier source awaits. -/
def State.awaited (s : State) : Nat :=
  match s.stept.gen with
  | some (g, _) => g + 1
  | none => 0

/-- READY_FRAME: from downstream, on a return fibre of Campanile Out. -/
def execReadyFrame (t : Nat) (bytes : List Byte) (s : State) : Result :=
  s.when t (fun s => s.cUp) fun s =>
    match s.checkFrame 3 bytes with
    | some s' => s'
    | none =>
      let step := fieldAt bytes 4 8
      let s := match s.stept.waitSince with
        | some w => if s.meets (w + s.stept.effMargin) && s.awaited ≤ step then s.incFld Fld.STEP_AT_LIMIT_BARRIER
          else s
        | none => s
      let s := s.onStep fun x => { x with
        ready := some step
        maxAcc := max x.maxAcc (fieldAt bytes 2 2)
        downWait := true }
      s.trySendReady

/-- WAIT_FRAME: received on Campanile In. Whatever the source, a stale one is discarded and another is forwarded; it
holds off the watchdog of a device that follows Campanile In (R52). -/
def execWaitFrame (t : Nat) (pairB : Bool) (bytes : List Byte) (s : State) : Result :=
  s.when t (fun s => s.cUp && s.inFrame pairB bytes) fun s =>
    match s.checkFrame 4 bytes with
    | some s' => s'
    | none =>
      let s := s.onStep fun x => { x with recent := [(bytes, s.now)] }
      let step := fieldAt bytes 4 8
      if s.runOn && s.nextStep != some step then s.record 0x2005 step
      else
        let s := if s.driveOut && !s.inHoldover then s.emit (.campOut bytes) else s
        if s.stept.predicted.isSome && s.stepSrc == 0 then
          s.onStep fun x => { x with predicted := some (s.now + 65536) }
        else s

/-! ## Generating marks (R38, R39, R42, R51) -/

/-- A generated mark: transmitted and compensated when DRIVE_OUT is 1, otherwise applied at once (R39, R53). The first
mark of a run takes the largest MAX_ACC received so far as the run's D_TOTAL, the least value that R53 allows, which is
the model's choice (log 23). -/
def State.makeMark (s : State) (step : Nat) : State :=
  let pl2 := s.fld Fld.STEP_CTL_PHASES_LOG2
  let per := s.fld Fld.STEP_CTL_PERIOD
  let k := if s.driveOut then strideFor per pl2 (s.fld Fld.STEP_CTL_STRIDE_LOG2) else pl2
  let d := if !s.driveOut then 0 else if s.stept.gen.isNone then s.stept.maxAcc else s.stept.dTotal
  let m : Mark := ⟨false, step, 0, pl2, pl2, per, 0, d, false, s.now + d, false⟩
  let s := s.onStep fun x => { x with
    dTotal := d, latest := some step
    gen := some (step, s.now), waitSince := none, waitsSent := 0, slowSaid := false }
  let s := s.setFlag Fld.STEP_STAT_BARRIER_WAIT false
  if s.driveOut then
    (s.emit (.campOut (markFrame (s.barrierPolicy.toNat * 2) pl2 k step per d 0))).onStep fun x =>
      { x with marks := x.marks ++ [m] }
  else s.applyMark m

/-- The next mark to generate and the cycle of its period or credit point, when that has come. -/
def State.dueGeneration (s : State) : Option (Nat × Nat) :=
  match s.stept.run with
  | none => none
  | some r =>
    let credit := s.fld Fld.STEP_STAT_ADV_CREDIT
    match s.stepSrc, s.stept.gen with
    | 1, none => if r.b ≤ s.now then some (r.first, r.b) else none
    | 2, none => if r.b ≤ s.now && credit != 0 then some (r.first, s.now) else none
    | 1, some (g, c) =>
      if g < r.last && c + s.fld Fld.STEP_CTL_PERIOD ≤ s.now then
        some (g + 1, c + s.fld Fld.STEP_CTL_PERIOD) else none
    | 2, some (g, _) =>
      let p := s.stept.startedAt + s.fld Fld.STEP_CTL_PERIOD
      if g < r.last && r.started && s.stepNow == g && p ≤ s.now && credit != 0 then
        some (g + 1, max p s.now) else none
    | _, _ => none

/-- A mark that the barrier policy holds back (R51). -/
def State.barrierHolds (s : State) (step : Nat) : Bool :=
  s.driveOut && s.barrierPolicy && s.stept.gen.isSome && !s.downReady step

/-- MARK_GENERATE. -/
def execMarkGenerate (t : Nat) (s : State) : Result :=
  s.when t (fun s => s.cUp && s.dueGeneration.isSome && s.boot.recovering.isNone) fun s =>
    match s.dueGeneration with
    | some (step, point) =>
      if s.barrierHolds step then
        match s.stept.waitSince with
        | some _ => s
        | none =>
          (s.setFlag Fld.STEP_STAT_BARRIER_WAIT true).onStep fun x => { x with
            waitSince := some point, waitsSent := 0, slowSaid := false }
      else
        let s := if s.stepSrc == 2 then
            s.setFld Fld.STEP_STAT_ADV_CREDIT (s.fld Fld.STEP_STAT_ADV_CREDIT - 1) else s
        s.makeMark step
    | none => s

/-- A write to STEP_ADVANCE.COUNT (R38). Under another source than HOST_ADVANCE the rule says nothing of it; that the
credit is added then too is the model's choice (log 23). -/
def State.stepAdvance (s : State) (a : RegAcc) : State :=
  match accField a Fld.STEP_ADVANCE_COUNT with
  | some n =>
    let c := s.fld Fld.STEP_STAT_ADV_CREDIT + n
    let s := s.setFld Fld.STEP_STAT_ADV_CREDIT (min c 0xFFFFFFFF)
    (if 0xFFFFFFFF < c then s.hwSet Fld.STEP_STAT_ADV_SAT else s).noteChange Reg.STEP_ADVANCE.offset n s.stepNow
      s.phi a.port.source
  | none => s.noteChange Reg.STEP_ADVANCE.offset 0 s.stepNow s.phi a.port.source

/-- STEP_ADVANCE. -/
def execStepAdvance (t : Nat) (acc : RegAcc) (s : State) : Result :=
  s.access t acc .STEP_ADVANCE fun s => s.stepAdvance acc

/-- WAIT_SEND: every 65,536 cycles past the period point while waiting (R52). -/
def execWaitSend (t : Nat) (s : State) : Result :=
  s.when t (fun s => s.cUp && !s.inHoldover &&
      match s.stept.waitSince with
      | some w => decide (w + 65536 * (s.stept.waitsSent + 1) ≤ s.now)
      | none => false) fun s =>
    (s.emit (.campOut (waitFrame s.awaited))).onStep fun x => { x with waitsSent := x.waitsSent + 1 }

/-- BARRIER_SLOW: the wait exceeds MARGIN past the period point (R51). -/
def execBarrierSlow (t : Nat) (s : State) : Result :=
  s.when t (fun s => s.cUp && !s.stept.slowSaid &&
      match s.stept.waitSince with
      | some w => s.past (w + s.stept.effMargin)
      | none => false) fun s =>
    (s.onStep fun x => { x with slowSaid := true }).record 0x200A s.awaited

/-! ## Loss of reference -/

/-- A loss of light that fell in the cycle of a mark's instant counts now (R58). -/
def State.lossCounts (s : State) : Bool := s.stept.lossAt.any fun c => decide (c < s.now)

/-- REFERENCE_LOST: no MARK within MARGIN of its predicted instant (R54), or the cycle after one in which a loss of
light and a mark's instant fell together (R58). -/
def execReferenceLost (t : Nat) (s : State) : Result :=
  s.when t (fun s => s.cUp && s.runOn && s.stepSrc == 0 && !s.inHoldover && !s.holds &&
      (s.lossCounts || s.stept.predicted.any fun p => s.past (p + s.stept.effMargin))) fun s =>
    s.enterHoldover s.lossCounts

/-- CAMPANILE_LOSS_OF_LIGHT: both pairs of Campanile In have lost light or lock (R54, R329). In the cycle of a MARK
instant the loss counts from the next cycle (R58). That before the first mark that a run applies no loss is declared is
the model's reading of R54 (log 23). -/
def execCampanileLossOfLight (t : Nat) (s : State) : Result :=
  s.when t (fun s => s.cUp) fun s =>
    let s := s.onStep fun x => { x with
      inA := { x.inA with up := false }, inB := { x.inB with up := false } }
    let s := (s.setFlag Fld.STEP_STAT_LINK_UP false).setFlag Fld.STEP_STAT_LOCKED false
    if s.runOn && s.stepSrc == 0 && !s.inHoldover && !s.holds && s.stept.predicted.isSome then
      let s := s.onStep fun x => { x with lossAt := some s.now }
      if s.stept.instant.any (·.2 == s.now) then s else s.enterHoldover true
    else s

/-- HOLDOVER_MARK: a mark generated at the last measured period, with the delay the last received
mark had (R55). -/
def execHoldoverMark (t : Nat) (s : State) : Result :=
  s.when t (fun s => s.cUp && s.runOn && s.inHoldover && !s.holds && !s.stept.genStopped &&
      match s.stept.gen with
      | some (_, c) => decide (c + s.heldPeriod ≤ s.now)
      | none => false) fun s =>
    match s.stept.gen with
    | some (g, c) =>
      let per := s.heldPeriod
      let pl2 := s.fld Fld.STEP_PHASE_PHASES_LOG2
      let acc := s.fld Fld.STEP_SKEW_COMP_ACC_DELAY
      let d := acc + s.fld Fld.STEP_SKEW_COMP_APPLIED
      let s := if s.driveOut then s.emit (.campOut (markFrame 1 pl2 pl2 (g + 1) per d acc)) else s
      s.onStep fun x => { x with
        gen := some (g + 1, c + per)
        latest := some (g + 1)
        marks := x.marks ++ [⟨false, g + 1, 0, pl2, pl2, per, acc, d, true, s.now + (d - acc), false⟩] }
    | none => s

/-- DOWNSTREAM_DOWN (R50). -/
def execDownstreamDown (t : Nat) (s : State) : Result :=
  s.when t (fun s => s.cUp && s.downUp) fun s =>
    ((s.onStep fun x => { x with outA := false, outB := false, downWait := false }).record 0x200B
      0).trySendReady

/-! ## Pairs, echoes and training (R329, R330) -/

/-- CAMPANILE_FAILOVER: a receiver takes the other pair at its first frame start. -/
def execCampanileFailover (t : Nat) (outPort : Bool) (s : State) : Result :=
  s.when t (fun s => s.cUp) fun s =>
    if outPort then
      (s.onStep fun x => { x with outA := !x.outA, outB := x.outA }).record 0x7010
        (1 + 256 * s.stept.outA.toNat)
    else
      let s := s.onStep fun x => { x with
        useB := !x.useB
        inA := if x.useB then x.inA else { x.inA with up := false }
        inB := if x.useB then { x.inB with up := false } else x.inB }
      let s := s.setFld Fld.STEP_SKEW_COMP_HOP_DELAY (min s.hopDelay 0xFFFF)
      s.record 0x7010 (256 * s.stept.useB.toNat)

/-- A write to STEP_SKEW_COMP: TRIM acts at the next boundary, RETRAIN measures again, after the run
when one is in progress (R36, R53). -/
def State.stepSkew (s : State) (a : RegAcc) : State :=
  let s := s.writeFields .STEP_SKEW_COMP a
  let s := s.noteConfig .STEP_SKEW_COMP a.port.source
  let s := if s.runOn then s else s.onStep fun x => { x with effTrim := s.fld Fld.STEP_SKEW_COMP_TRIM }
  if accSets a Fld.STEP_SKEW_COMP_RETRAIN then
    let s := s.swSet Fld.STEP_SKEW_COMP_RETRAIN
    if s.runOn then s.onStep fun x => { x with retrain := true } else s.measureHop
  else s

/-- STEP_RETRAIN. -/
def execStepRetrain (t : Nat) (acc : RegAcc) (s : State) : Result :=
  s.access t acc .STEP_SKEW_COMP fun s => s.stepSkew acc

/-- One round-trip sample; the 64th fixes the hop delay: half the mean, ties up (R330). -/
def Pair.echo (p : Pair) (id now : Nat) : Pair :=
  match p.echoSent.find? (·.1 == id) with
  | some (_, c) =>
    let p := { p with echoSent := p.echoSent.filter (·.1 != id), echoSum := p.echoSum + (now - c),
                      echoCount := p.echoCount + 1 }
    if p.echoCount == 64 then { p with hop := (p.echoSum + 64) / 128 } else p
  | none => p

/-- A measurement has ended: what asked for it reads 0, unless it was asked for again in this cycle (R12, R53). -/
def State.hopMeasured (s : State) : State :=
  if s.stept.retrain then s
  else (s.hwClear Fld.STEP_SKEW_COMP_RETRAIN).onStep fun x => { x with laneAsk := false }

/-- ECHO_RECEIVED: from upstream it completes a sample; from downstream it is returned later. -/
def execEchoReceived (t : Nat) (fromUp pairB : Bool) (id : Nat) (s : State) : Result :=
  s.when t (fun s => s.cUp && decide (id < 64)) fun s =>
    if fromUp then
      let s := s.onStep fun x =>
        if pairB then { x with inB := x.inB.echo id s.now } else { x with inA := x.inA.echo id s.now }
      let left := s.stept.inA.echoSent.length + s.stept.inB.echoSent.length
      let s := s.setFld Fld.STEP_SKEW_COMP_HOP_DELAY (min s.hopDelay 0xFFFF)
      if left == 0 then s.hopMeasured else s
    else s.onStep fun x => { x with echoOut := x.echoOut ++ [(pairB.toNat * 64 + id, s.now)] }

/-- ECHO_RETURN: exactly 2 × F_FWD = 192 cycles after decoding (R330). -/
def execEchoReturn (t : Nat) (s : State) : Result :=
  s.when t (fun s => s.cUp && match s.stept.echoOut with
      | (_, c) :: _ => decide (c + 192 ≤ s.now)
      | [] => false) fun s =>
    match s.stept.echoOut with
    | (k, _) :: rest => (s.emit (.echoBack (decide (64 ≤ k)) (k % 64))).onStep fun x => { x with
        echoOut := rest }
    | [] => s

/-- CAMPANILE_LINK_UP: light and lock return on a pair of In or Out; on In, training measures the
hop (R330). -/
def execCampanileLinkUp (t : Nat) (outPort pairB : Bool) (s : State) : Result :=
  s.when t (fun s => s.cUp) fun s =>
    if outPort then
      s.onStep fun x => if pairB then { x with outB := true } else { x with outA := true }
    else
      let s := (s.setFlag Fld.STEP_STAT_LINK_UP true).sendEchoes pairB true
      s.onStep fun x =>
        if pairB then { x with inB := { x.inB with up := true }.startEcho s.now
                               useB := if x.inA.up then x.useB else true }
        else { x with inA := { x.inA with up := true }.startEcho s.now
                      useB := if x.inB.up then x.useB else false }

/-! ## Configuration writes (R36, R37, R42) -/

/-- The bound of R42 on PERIOD. -/
def periodOk (period pl2 : Nat) : Bool := 4096 ≤ period && 4 * 2 ^ pl2 ≤ period

/-- A write to STEP_SRC or STEP_CTL: ignored whole and recorded while running or out of range; a
DRIVE_OUT that option C cannot serve stays 0 (R37). -/
def State.stepConfig (s : State) (r : Reg) (a : RegAcc) : State :=
  if s.running then (s.noteOwn r).record 0x2008 (r.offset % 65536 + 65536) a.port.source
  else
    let v := (r.layout.foldl (fun v f =>
      if accCovers a f.lo f.w then insertBits v f.lo f.w (bitsOf (accBits a) f.lo f.w) else v)
      (s.reg r)).toNat
    let good := if r == .STEP_SRC then bitsOf v 0 2 != 3
      else 8 ≤ bitsOf v 40 5 && bitsOf v 40 5 ≤ 16 && periodOk (bitsOf v 0 40) (bitsOf v 40 5)
    if !good then (s.noteOwn r).record 0x2008 (r.offset % 65536) a.port.source
    else
      let refuse := r == .STEP_SRC && !s.optC && v.testBit 4
      let s := s.setReg r (BitVec.ofNat 64 (if refuse then v - 16 else v))
      let s := s.noteConfig r a.port.source
      if refuse then s.record 0x2009 0 a.port.source else s

/-- STEP_CONFIG_WRITE: STEP_SRC or STEP_CTL. -/
def execStepConfigWrite (t : Nat) (ctl : Bool) (acc : RegAcc) (s : State) : Result :=
  let r := if ctl then Reg.STEP_CTL else Reg.STEP_SRC
  s.access t acc r fun s => s.stepConfig r acc

/-- A write to STEP_HOLDOVER or STEP_WATCHDOG acts at the next step boundary, at once when no run is
in progress (R36). -/
def State.stepLimits (s : State) (r : Reg) (a : RegAcc) : State :=
  let s := (s.writeFields r a).noteConfig r a.port.source
  if s.runOn then s
  else s.onStep fun x => { x with
    effLimit := s.fld Fld.STEP_HOLDOVER_LIMIT, effMargin := s.fld Fld.STEP_WATCHDOG_MARGIN }

/-- The held writes of R36 act at a step boundary. -/
def State.boundaryLimits (s : State) : State :=
  s.onStep fun x => { x with
    effLimit := s.fld Fld.STEP_HOLDOVER_LIMIT
    effMargin := s.fld Fld.STEP_WATCHDOG_MARGIN
    effTrim := s.fld Fld.STEP_SKEW_COMP_TRIM }

/-! ## Starting a step and interpolating its phases (R43 to R47) -/

/-- The first applied mark that can start step `n`. -/
def State.startMark (s : State) (n : Nat) : Option (Mark × Option Nat) :=
  s.stept.applied.find? fun p => decide (n ≤ p.1.step)

/-- The step that may start now (R45): its index, `a`, and whether holdover generated its mark. -/
def State.dueStart (s : State) : Option (Nat × Option Nat × Bool) :=
  match s.stept.run with
  | some r =>
    if s.stept.stepOn || r.last < r.next || s.halted || s.flag Fld.STEP_STAT_HELD || 2 ≤ s.power then none
    else (s.startMark r.next).bind fun m =>
      if max (m.2.getD 0) r.b ≤ s.now then some (r.next, m.2, m.1.holdover) else none
  | none => none

/-- The phases of step `n` that starts at `startAt` on mark `m`: PHASES_LOG2 in effect and the first segment (R41,
R43, R45). The mark of a later step changes PHASES_LOG2 from its own step on, so a step caught up on before it keeps
the value in effect, and no phase marks of it can come. -/
def State.startPhases (s : State) (n : Nat) (m : Mark) (startAt : Nat) (first : Bool) : State :=
  let l2 := if n < m.step then s.fld Fld.STEP_PHASE_PHASES_LOG2 else m.phasesLog2
  let k := if s.stepSrc == 0 && !m.holdover && n == m.step then m.strideLog2 else l2
  let m := { m with phasesLog2 := l2, strideLog2 := k }
  let len := if first then m.period * 2 ^ k / 2 ^ l2 else s.segment m
  (s.setFld Fld.STEP_PHASE_PHASES_LOG2 l2).onStep fun x => { x with
    anchor := some ⟨0, startAt, k, len⟩, stepMark := some m }

/-- Λ shown, and an overrun counted and recorded with its cause (R45, R47). -/
def State.startLag (s : State) (lag cause : Nat) : State :=
  let s := (s.setFld Fld.STEP_PHASE_LAG lag).setFlag Fld.STEP_STAT_OVERRUN (lag != 0)
  if lag == 0 then s
  else ((s.incFld Fld.STEP_OVERRUNS_COUNT).maxFld Fld.STEP_OVERRUNS_MAX_LAG lag).record 0x2001
    (lag + cause * 2 ^ 32)

/-- A step started on a mark that holdover generated counts in USED; at LIMIT no further step starts
(R55). -/
def State.startHeld (s : State) (hold : Bool) : State :=
  if hold then
    let s : State := s.incFld Fld.STEP_HOLDOVER_USED
    if s.stept.effLimit ≤ s.fld Fld.STEP_HOLDOVER_USED then s.onStep fun x => { x with endHold := true }
    else s
  else s

/-- Step `n` starts on an applied mark: its phases, lag, overrun and holdover count (R45, R47, R55). Other marks that
carried its index are stale from now on (R46). -/
def State.startClock (s : State) (n : Nat) (a : Option Nat) (hold : Bool) : State :=
  let b := (s.stept.run.map (·.b)).getD 0
  let startAt := max (a.getD 0) b
  let lag := match a with | some a => min (startAt - a) 0xFFFFFFFF | none => 0xFFFFFFFF
  let first := !((s.stept.run.map (·.started)).getD true)
  let mark := (s.startMark n).map (·.1)
  let catchUp := mark.any fun m => decide (n < m.step)
  let busy := match a with | some a => decide (a ≤ s.slog.endedAt) | none => false
  let stale := (s.stept.applied.filter fun p => p.1.step == n).drop (if catchUp then 0 else 1)
  let cause := if catchUp then 3 else if busy && s.stept.lateCause != 1 then 0 else s.stept.lateCause
  let s := (s.setFld Fld.STEP_NOW_STEP n).setFld Fld.STEP_PHASE_PHASE 0
  let s := match mark with
    | some m => s.startPhases n m startAt first
    | none => s
  let s := (s.startLag lag cause).startHeld hold
  let s := s.setFlag Fld.DEV_STAT_RUNNING true
  let s := stale.foldl (fun s p => s.record 0x2005 p.1.step) s
  s.onStep fun x => { x with
    stepOn := true
    startedAt := startAt
    phaseAt := startAt
    readyDue := none
    applied := x.applied.filter fun p => decide (n < p.1.step)
    run := x.run.map fun r => { r with next := n + 1, started := true } }

/-- The cycle in which the next phase begins by interpolation, if it may (R43, R44). -/
def State.nextPhaseAt (s : State) : Option Nat :=
  match s.stept.anchor with
  | some an =>
    let p := s.phi + 1
    if p < an.m + 2 ^ an.k && p < s.phases && an.m ≤ p then
      some (an.t + (p - an.m) * an.len / 2 ^ an.k)
    else none
  | none => none

/-- PHASE_BEGIN: one phase begins by interpolation. -/
def execPhaseBegin (t : Nat) (s : State) : Result :=
  s.when t (fun s => s.cUp && match s.nextPhaseAt with
      | some c => decide (c ≤ s.now)
      | none => false) State.oneMorePhase

end Sys2Proof.Machine
end

