-- ==== Sys2Proof/Machine/Ports.lean ====
section
/-! DEFINITION. The optical ports (R323, R327, R329, R344): lane pairs, their failure and the host
link. -/

namespace Sys2Proof.Machine

/-- Code 0x6010 for a spared unit of a kind, with its site (R292, R315). -/
def State.recordSpared (s : State) (kind site : Nat) : State :=
  s.record 0x6010 ((Config.unitKind kind).toNat + site * 65536)

/-- A change to every lane pair of a port. -/
def State.onLanes (s : State) (f : Lane → Lane) : State :=
  { s with ports := { s.ports with lanes := s.ports.lanes.map f } }

/-- The pairs a port has. -/
def lanesOf : Nat → Nat
  | 0 => 18
  | 1 => 5
  | 2 => 5
  | 3 => 2
  | 4 => 2
  | _ => 0

/-- The port is fitted (R317). -/
def State.portFitted (s : State) : Nat → Bool
  | 0 => true
  | 1 => s.optJ
  | 2 => s.optJ
  | 3 => true
  | 4 => s.optC
  | _ => false

/-- The working pairs of the host port, ascending. -/
def State.hostPairs (s : State) : List Nat :=
  (s.ports.lanes.filter fun l => l.port == 0 && !l.failed).map (·.lane)

/-- A host pair takes a PCIe lane, or none (31). -/
def State.setRole (s : State) (pair role : Nat) : State :=
  s.onLanes fun l => if l.port == 0 && l.lane == pair then
    { l with role := role, state := if role == 31 then l.state else 3 } else l

/-- A spare pair of a port is engaged: counted and recorded once (R292, R315, R316). -/
def State.useSpare (s : State) (port pair : Nat) : State :=
  let k := 32 * port + pair
  if s.ports.sparesUsed.contains k then s
  else
    let s : State := { s with ports := { s.ports with sparesUsed := k :: s.ports.sparesUsed } }
    (s.incFld Fld.SPARE_UNITS_OPT_LANES).recordSpared 2 0

/-- The lane map at first training with all pairs working: lanes 0 to 7 on pairs 0 to 7, lanes 8 to 15
on pairs 9 to 16; with pairs missing, the map follows R323's rules from there. -/
def firstMap (working : List Nat) : List (Nat × Nat) :=
  if working.length < 16 then (working.take 8).zip (List.range 8)
  else
    let want := (List.range 16).map fun k => if k < 8 then k else k + 1
    let spares := [8, 17].filter working.contains
    (want.zip (List.range 16)).foldl (fun acc p =>
      if working.contains p.1 then acc ++ [p]
      else
        let used := acc.map (·.1)
        match spares.find? fun x => !used.contains x with
        | some x => acc ++ [(x, p.2)]
        | none => acc) []

/-- The spare pairs of the host port that carry lanes while 16 pairs work (R323). -/
def sparesTaken (working : List Nat) : List Nat :=
  [8, 17].filter fun k => 16 ≤ working.length && (firstMap working).any (·.1 == k)

/-- The host link enters Recovery. -/
def State.hostRecovery (s : State) : State :=
  let s := { s with ports := { s.ports with inRecovery := true } }
  s.incFld Fld.HOST_LINK_RECOVERIES

/-- The host link goes down with fewer than 8 working pairs (R323). -/
def State.hostDown (s : State) : State :=
  let s := (s.setFld Fld.HOST_LINK_RATE 0).setFld Fld.HOST_LINK_WIDTH 0
  ((s.setFlag Fld.HOST_LINK_FLIT false).setFlag Fld.LANE_CTL_RETRAIN false).record 0x7003 0

/-- A host pair has failed: a spare takes its lane through Recovery, or the link narrows or goes down
(R323). -/
def State.hostPairFailed (s : State) (role : Nat) : State :=
  let working := s.hostPairs
  let linked := s.fld Fld.HOST_LINK_RATE != 0
  let s := if linked then s.hostRecovery else s
  if working.length < 8 then if linked then s.hostDown else s
  else if working.length < 16 then
    let s := s.onLanes fun l => if l.port == 0 then { l with role := 31 } else l
    let s := (firstMap working).foldl (fun s p => s.setRole p.1 p.2) s
    let s := if linked then s.setFld Fld.HOST_LINK_WIDTH 8 else s
    s.record 0x7004 (8 * 4)
  else
    match s.ports.lanes.find? fun l => l.port == 0 && !l.failed && l.role == 31 with
    | some sp =>
      if role == 31 then s
      else (s.setRole sp.lane role).useSpare 0 sp.lane
    | none => s

/-- LANE_FAILED: a lane pair of a port fails (R323, R327, R329). -/
def execLaneFailed (t port lane : Nat) (s : State) : Result :=
  if lanesOf port ≤ lane then .fault .noSuchUnit
  else s.when t (fun s => s.cUp && s.portFitted port &&
      s.ports.lanes.any fun l => l.port == port && l.lane == lane && !l.failed) fun s =>
    let old := (s.ports.lanes.find? fun l => l.port == port && l.lane == lane).getD
      ⟨port, lane, 1, false, 31, 0, 0, 0, 0⟩
    let s := s.record 0x7005 (port + lane * 256)
    let s := s.onLanes fun l => if l.port == port && l.lane == lane then
      { l with failed := true, role := 31, state := 1 } else l
    match port with
    | 0 => s.hostPairFailed old.role
    | 3 =>
      let s := s.onStep fun x =>
        if lane == 0 then { x with inA := { x.inA with up := false } }
        else { x with inB := { x.inB with up := false } }
      s.setFlag Fld.STEP_STAT_LINK_UP (s.stept.inA.up || s.stept.inB.up)
    | 4 => s.onStep fun x => if lane == 0 then { x with outA := false } else { x with outB := false }
    | _ =>
      let left := (s.ports.lanes.filter fun l => l.port == port && !l.failed).length
      let s := if left < 4 || old.role == 31 then s else
        (s.onLanes fun l => if l.port == port && !l.failed && l.role == 31 then
          { l with role := old.role } else l).useSpare port 4
      if s.fld (jState (port - 1)) == 3 then
        if left < 4 then s.portDown (port - 1) else s.startTraining (port - 1)
      else s

/-- HOST_LINK_RECOVERED: the link returns to L0 (R323). -/
def execHostLinkRecovered (t : Nat) (s : State) : Result :=
  s.when t (fun s => s.cUp && s.ports.inRecovery && s.fld Fld.HOST_LINK_RATE != 0) fun s =>
    let s := { s with ports := { s.ports with inRecovery := false } }
    let s := s.hwClear Fld.LANE_CTL_RETRAIN
    let s := s.record 0x7002 (s.fld Fld.HOST_LINK_RATE + s.fld Fld.HOST_LINK_WIDTH * 4)
    if s.flag Fld.LANE_CTL_RETRAIN then s.hostRecovery else s

/-- HOST_LINK_UP: PCIe training completes at a rate; the lane map is that of R323, and the width follows
from the working pairs. A partner without Flit mode gets no link (R318). -/
def execHostLinkUp (t rate : Nat) (flit : Bool) (s : State) : Result :=
  s.when t (fun s => (s.cUp && s.boot.stage6 || s.sec.romWait && s.pwr.rails) && flit && decide (1 ≤ rate && rate ≤ 3) &&
      decide (8 ≤ s.hostPairs.length)) fun s =>
    let working := s.hostPairs
    let width := if working.length < 16 then 8 else 16
    let s := s.onLanes fun l => if l.port == 0 then { l with role := 31, state := if l.failed then 1 else 3 } else l
    let s := (firstMap working).foldl (fun s p => s.setRole p.1 p.2) s
    let s := (sparesTaken working).foldl (fun s k => s.useSpare 0 k) s
    let s := ((s.setFld Fld.HOST_LINK_RATE rate).setFld Fld.HOST_LINK_WIDTH width).setFlag Fld.HOST_LINK_FLIT true
    let s := ({ s with ports := { s.ports with trained := true, inRecovery := false } } : State).setFlag
      Fld.LANE_CTL_RETRAIN false
    if width == 8 then s.record 0x7004 (8 * 4) else s

/-- A write to LANE_CTL retrains the port that the writing port's SEL_LANE selects (R344, R422). -/
def State.laneCtl (s : State) (a : RegAcc) : State :=
  if accSets a Fld.LANE_CTL_RETRAIN then
    let port := bitsOf (s.reg (Reg.at a.port .SEL_LANE)).toNat 0 3
    let s := s.onLanes fun l => if l.port == port && !l.failed then
      { l with retrains := satAdd 16 l.retrains 1 } else l
    match port with
    | 0 => if s.fld Fld.HOST_LINK_RATE == 0 then s else (s.swSet Fld.LANE_CTL_RETRAIN).hostRecovery
    | 1 => if 2 ≤ s.fld Fld.JRNL_STAT_J0_STATE then s.startTraining 0 else s
    | 2 => if 2 ≤ s.fld Fld.JRNL_STAT_J1_STATE then s.startTraining 1 else s
    | 3 =>
      let s := s.onStep fun x => { x with laneAsk := true }
      if s.runOn then s.onStep fun x => { x with retrain := true } else s.measureHop
    | _ => s
  else s

/-- LANE_RETRAIN. -/
def execLaneRetrain (t : Nat) (acc : RegAcc) (s : State) : Result :=
  s.access t acc .LANE_CTL fun s => s.laneCtl acc

/-! ## The function's configuration space (R320) -/

/-- What configuration space says of the function. -/
structure PciIdentity where
  vendor : Nat
  device : Nat
  classCode : Nat
  revision : Nat
  subVendor : Nat
  subsystem : Nat
  serial : Nat
  deriving DecidableEq, Repr

/-- The identity of the function. No row reads it. -/
def State.pciIdentity (s : State) : PciIdentity :=
  ⟨0x4B5A, 0xD1A0, 0x120000, s.fld Fld.DEV_STEPPING_STEPPING, 0x4B5A, (s.reg .DEV_GRADE).toNat % 64, s.fuse.serial⟩

/-- BUS_MASTER_ENABLE: host reads that waited after FLR or hot reset go out (R411). -/
def execBusMasterEnable (t : Nat) (s : State) : Result :=
  s.when t (fun s => s.cUp && !s.ports.busMaster) fun s =>
    let s := { s with ports := { s.ports with busMaster := true } }
    s.intake.asked.foldl (fun s q => s.emit (.hostRead q.1 q.2.1 q.2.2.1 q.2.2.2)) s

end Sys2Proof.Machine
end

