-- ==== Sys2Proof/Machine/Entropy.lean ====
section
/-! DEFINITION. The entropy source (chapter 14): noise samples and their health tests, the start,
conditioning, the pool and its consumers, the expander, and TRNG_WORD. -/

namespace Sys2Proof.Machine

/-- A change to the entropy source's hidden state. -/
def State.onTrng (s : State) (f : TrngSt → TrngSt) : State := { s with trng := f s.trng }

/-- VALID and STARTUP (R377, R382). -/
def State.trngValid (s : State) : Bool := s.flag Fld.TRNG_STAT_VALID
def State.trngStarting (s : State) : Bool := s.flag Fld.TRNG_STAT_STARTUP

/-- The sources in use. -/
def State.inUse (s : State) : Nat := s.trng.srcs.countP (·.inUse)

/-- A bit per source. -/
def srcBits (f : NoiseSrc → Bool) (l : List NoiseSrc) : Nat :=
  ((List.range 16).zip l).foldl (fun n p => if f p.2 then n + 2 ^ p.1 else n) 0

/-- The registers that show the sources: the map, the count in use, the count out of use (R376). -/
def State.showSources (s : State) : State :=
  let l := s.trng.srcs
  let s := (s.setFld Fld.TRNG_SRC_MAP_IN_USE (srcBits (·.inUse) l)).setFld Fld.TRNG_SRC_MAP_STARTUP_FAILED
    (srcBits (·.startFailed) l)
  let s := (s.setFld Fld.TRNG_SRC_MAP_RETIRED (srcBits (·.retired) l)).setFld
    Fld.TRNG_STAT_SOURCES_IN_USE s.inUse
  s.setFld Fld.SPARE_UNITS_NOISE (min (16 - s.inUse) 15)

/-- A start of the source: VALID 0, nothing from before it readable (R382). -/
def State.startEntropy (s : State) : State :=
  let s := s.onTrng fun x => { x with
    srcs := x.srcs.map fun n => { NoiseSrc.reset with rct := n.rct, apt := n.apt }
    settled := false, startAt := s.now, discard := 0, seedWords := [], pool := [], cond := [],
    expander := [], drbg := none }
  let s := ((s.setFlag Fld.TRNG_STAT_VALID false).setFlag Fld.TRNG_STAT_STARTUP true).setFlag
    Fld.TRNG_STAT_EXP_STALL false
  let s := (s.setFlag Fld.TRNG_STAT_STRETCHED false).setFld Fld.TRNG_DRBG_REQUESTS 0
  let s := { s with boot := { s.boot with entropyDone := false } }
  let s := (s.setFld Fld.TRNG_SRC_MAP_IN_USE 0).setFld Fld.TRNG_SRC_MAP_STARTUP_FAILED 0
  (s.setFld Fld.TRNG_SRC_MAP_RETIRED 0).setFld Fld.TRNG_STAT_SOURCES_IN_USE 0

/-- A recovery starts (R277, R412). -/
def State.startRecovery (s : State) (k : ResetKind) : State :=
  let s : State := { s with
    boot := { s.boot with recovering := some k, forced := false, adopted := 0, resetting := none } }
  s.setFlag Fld.INTAKE_STAT_RECOVERING true

/-- A boot with a higher SVN has completed: the DMC blows the fused SVN up to it (R371). -/
def State.blowSvn (s : State) : State :=
  let v := max s.fuse.svn (fieldAt s.sec.runningHeader 8 4)
  ({ s with fuse := { s.fuse with svn := v } } : State).setFld Fld.SEC_FW_FUSED_SVN v

/-- READY, in the cycle in which stage 6 and the entropy start have both ended; recovery starts with it (R403,
R412). -/
def State.tryReady (s : State) : State :=
  if s.boot.stage6 && s.boot.entropyDone && !s.boot.stopped && !s.readyUp then
    let s := (s.setFlag Fld.DEV_STAT_READY true).setFld Fld.DEV_BOOT_STAGE 7
    let s := s.setFld Fld.DEV_BOOT_ELAPSED (min ((s.now - s.boot.startedAt) / 2000000) (2 ^ 32 - 1))
    s.blowSvn.startRecovery (s.boot.resetting.getD .cold)
  else s

/-- The start has ended, in service or not (R382, R403). -/
def State.endStart (s : State) (valid : Bool) : State :=
  let s := (s.setFlag Fld.TRNG_STAT_STARTUP false).setFlag Fld.TRNG_STAT_VALID valid
  let s := { s with boot := { s.boot with entropyDone := true } }
  (s.record (if valid then 0x4017 else 0x4016) s.inUse).tryReady

/-- ENTROPY_SETTLED: 1,900 µs of settling have passed (R382). -/
def execEntropySettled (t : Nat) (s : State) : Result :=
  s.when t (fun s => s.trngStarting && !s.trng.settled && decide (s.trng.startAt + 3800000 ≤ s.now))
    fun s => s.onTrng fun x => { x with settled := true }

/-! ## Health tests (R378, R379) -/

/-- One sample through the repetition count test: the source after it, and whether a run reached 41. -/
def NoiseSrc.repetition (n : NoiseSrc) (b : Bool) : NoiseSrc × Bool :=
  let run := if n.run != 0 && n.last == b then n.run + 1 else 1
  if 41 ≤ run then ({ n with run := 1, last := b }, true) else ({ n with run := run, last := b }, false)

/-- One sample through the adaptive proportion test: the first sample of a window of 1,024 may not
occur 795 times in it. -/
def NoiseSrc.proportion (n : NoiseSrc) (b : Bool) : NoiseSrc × Bool :=
  let first := if n.aptPos == 0 then b else n.aptFirst
  let count := if n.aptPos == 0 then 1 else if b == first then n.aptCount + 1 else n.aptCount
  if 795 ≤ count then ({ n with aptFirst := first, aptCount := 0, aptPos := 0 }, true)
  else ({ n with aptFirst := first, aptCount := count, aptPos := (n.aptPos + 1) % 1024 }, false)

/-- A failure counts toward the alert window, while a threshold is set: 0x4012 once per window (R379). -/
def State.alertWindow (s : State) : State :=
  if s.fld Fld.TRNG_CTL_ALERT_THRESH == 0 then s else
  let w := s.mram.hours / 16
  let s := s.onTrng fun x => if x.alertWindow == w then { x with alertCount := x.alertCount + 1 }
    else { x with alertWindow := w, alertCount := 1, alertSaid := false }
  let th := s.fld Fld.TRNG_CTL_ALERT_THRESH
  if th != 0 && th ≤ s.trng.alertCount && !s.trng.alertSaid then
    (s.onTrng fun x => { x with alertSaid := true }).record 0x4012 s.trng.alertCount
  else s

/-- The sources in use that no retirement takes out at the next block boundary. -/
def State.staying (s : State) : Nat := s.trng.srcs.countP fun n => n.inUse && !n.retireDue

/-- The actions of one failure of a source (R378). RETIRE acts at a failure with which the count stands at or above it. -/
def State.healthFail (s : State) (src : Nat) (apt : Bool) : State :=
  let f := if apt then Fld.TRNG_APT_FAILS_FAILS else Fld.TRNG_RCT_FAILS_FAILS
  let s := s.incFld f
  let s := s.onTrng fun x => { x with srcs := x.srcs.modify src fun n =>
    { n with rct := if apt then n.rct else satAdd 32 n.rct 1
             apt := if apt then satAdd 32 n.apt 1 else n.apt
             sinceStart := n.sinceStart + 1 } }
  let s := s.record (if apt then 0x4011 else 0x4010) (src + s.fld f * 2 ^ 32)
  let retire := s.fld Fld.TRNG_CTL_RETIRE
  let n := (s.trng.srcs[src]?).getD NoiseSrc.reset
  let s :=
    if retire != 0 && retire ≤ n.sinceStart && !n.retireDue then
      if 13 ≤ s.staying then s.onTrng fun x => { x with srcs := x.srcs.modify src fun n =>
        { n with retireDue := true } }
      else s.record 0x4015 (src + 256)
    else s
  s.alertWindow

/-- The startup tests of all sources are over: fewer than 12 good sources end the start (R377, R382). -/
def State.judgeStart (s : State) : State :=
  if s.trngStarting && s.trng.srcs.all (fun n => 1024 ≤ n.taken) && s.inUse == 0 then
    let s := s.onTrng fun x => { x with srcs := x.srcs.map fun n =>
      { n with inUse := !n.startFailed, run := 0, aptPos := 0, aptCount := 0 } }
    let s := s.showSources
    if s.inUse < 12 then s.endStart false else s
  else s

/-- One sample of one source. -/
def State.sample (s : State) (src : Nat) (b : Bool) : State :=
  match s.trng.srcs[src]? with
  | none => s
  | some n =>
    let (n1, r) := n.repetition b
    let (n2, a) := n1.proportion b
    if s.trngStarting && n.taken < 1024 then
      let n3 := { n2 with taken := n.taken + 1, startFailed := n.startFailed || r || a }
      (s.onTrng fun x => { x with srcs := x.srcs.set src n3 }).judgeStart
    else if n.inUse then
      let s := s.onTrng fun x => { x with srcs := x.srcs.set src n2 }
      let s := if r then s.healthFail src false else s
      if a then s.healthFail src true else s
    else s

/-- NOISE_SAMPLE. -/
def execNoiseSample (t src : Nat) (bit : Bool) (s : State) : Result :=
  if 16 ≤ src then .fault .noSuchUnit
  else s.when t (fun s => s.pwr.rails && s.trng.settled) fun s => s.sample src bit

/-! ## Conditioning (R380, R381) -/

/-- The four conditioned words of a block of 64 raw words. -/
def conditioned (raw : List W64) : List Nat :=
  let out := shake256 ((raw.map fun w => natLe w.toNat 8).flatten) 32
  [fieldAt out 0 8, fieldAt out 8 8, fieldAt out 16 8, fieldAt out 24 8]

/-- The sources whose retirement is due leave at a block boundary (R378). -/
def State.retireDue (s : State) : State :=
  (List.range 16).foldl (fun s i =>
    match s.trng.srcs[i]? with
    | some n =>
      if n.retireDue then
        let n' := { n with retireDue := false, inUse := false, retired := true }
        let s := s.onTrng fun x => { x with srcs := x.srcs.set i n' }
        s.showSources.record 0x4015 i
      else s
    | none => s) s

/-- k, the requests since the last reseed. -/
def State.requests (s : State) : Nat := s.fld Fld.TRNG_DRBG_REQUESTS

/-- A reseed is due (R383). -/
def State.reseedDue (s : State) : Bool := s.trngValid && 65536 ≤ s.requests

/-- Words of the pool due to consumers that come before the FIFO: a fresh seed and a challenge nonce that wait for
them (R381). -/
def State.wordsDue (s : State) : Nat :=
  (if s.intake.slots.any fun x => x.st == .sealed && x.through && x.drawn.isNone && fieldAt x.bytes 0 1 == 3 &&
      fieldAt x.bytes 64 8 == 0 then 1 else 0) +
  (match s.intake.orders.find? fun o => fieldAt o.raw 0 1 == 9 && o.phase != .done && o.phase != .released with
   | some o => if o.phase == .accepted && fieldAt o.raw 64 1 == 1 then 4 else 0
   | none => 0)

/-- The conditioned FIFO of 64 words fills from the pool, after every other consumer (R381, R384). -/
def State.fillCond (s : State) : State :=
  if s.reseedDue then s
  else
    let d := s.wordsDue
    let n := 64 - s.trng.cond.length
    s.onTrng fun x => { x with
      cond := x.cond ++ (x.pool.drop d).take n
      pool := x.pool.take d ++ (x.pool.drop d).drop n }

/-- Words as the 48-byte entropy input of the expander. -/
def seedBytes (ws : List Nat) : List Byte := (ws.map fun w => natLe w 8).flatten

/-- The reseed takes 384 conditioned bits, and clears k and the flags of an overdue one (R383). -/
def State.reseed (s : State) : State :=
  let ws := s.trng.pool.take 6
  let s := s.onTrng fun x => { x with
    pool := x.pool.drop 6
    drbg := x.drbg.map fun d => d.reseed (seedBytes ws) }
  let s := (s.setFld Fld.TRNG_DRBG_REQUESTS 0).setFlag Fld.TRNG_STAT_STRETCHED false
  ((s.setFlag Fld.TRNG_STAT_EXP_STALL false).incFld Fld.TRNG_DRBG_RESEEDS).fillCond

/-- Words of a block during a start: 64 blocks are discarded, then the expander takes six words, and
what is left enters the pool (R382). -/
def State.startBlock (s : State) (ws : List Nat) : State :=
  if s.trng.discard < 64 then s.onTrng fun x => { x with discard := x.discard + 1 }
  else
    let got := s.trng.seedWords ++ ws
    if got.length < 6 then s.onTrng fun x => { x with seedWords := got }
    else
      let s := s.onTrng fun x => { x with
        seedWords := [], pool := got.drop 6
        drbg := some (Drbg.instantiate (seedBytes (got.take 6))) }
      (s.endStart true).fillCond

/-- CONDITIONED_BLOCK: 64 raw words in the order taken (R380). -/
def execConditionedBlock (t : Nat) (raw : List W64) (s : State) : Result :=
  s.when t (fun s => s.pwr.rails && decide (12 ≤ s.inUse) && decide (raw.length = 64)) fun s =>
    let s := s.retireDue
    if s.trngStarting then s.startBlock (conditioned raw)
    else if s.trng.pool.length + 4 ≤ 256 then
      (s.onTrng fun x => { x with pool := x.pool ++ conditioned raw }).fillCond
    else s.fillCond

/-- A consumer takes `n` words of the pool, oldest first; none while VALID is 0 or the pool lacks them
(R381). -/
def State.takeWords (s : State) (n : Nat) : Option (List Nat × State) :=
  if s.trngValid && n ≤ s.trng.pool.length then
    some (s.trng.pool.take n, s.onTrng fun x => { x with pool := x.pool.drop n })
  else none

/-! ## The expander (R383) -/

/-- EXPANDER_REQUEST: a request places 8 words; past the interval the reseed comes as soon as the pool
can supply it, else the expander is stretched, and at 2^24 it stalls. -/
def execExpanderRequest (t : Nat) (s : State) : Result :=
  s.when t (fun s => s.pwr.rails && s.trngValid && !s.flag Fld.TRNG_STAT_EXP_STALL &&
      decide (s.trng.expander.length + 8 ≤ 512)) fun s =>
    let s := if s.reseedDue && 6 ≤ s.trng.pool.length then s.reseed else s
    match s.trng.drbg with
    | some d =>
      let (ws, d) := d.generate
      let s := s.onTrng fun x => { x with
        expander := x.expander ++ ws.map (·.toNat), drbg := some d }
      let k := s.requests + 1
      let s := s.setFld Fld.TRNG_DRBG_REQUESTS k
      if k < 65536 then s
      else if 6 ≤ s.trng.pool.length then s.reseed
      else
        let s := if s.flag Fld.TRNG_STAT_STRETCHED then s else
          (s.setFlag Fld.TRNG_STAT_STRETCHED true).record 0x4013 k
        if 16777216 ≤ k then (s.setFlag Fld.TRNG_STAT_EXP_STALL true).record 0x4014 0 else s
    | none => s

/-- EXPANDER_RESEED: a due reseed, once 384 bits are available. -/
def execExpanderReseed (t : Nat) (s : State) : Result :=
  s.when t (fun s => s.pwr.rails && s.reseedDue && decide (6 ≤ s.trng.pool.length)) State.reseed

/-! ## TRNG_WORD (R384, R385) -/

/-- The FIFO that TRNG_CTL.SRC selects. -/
def State.wordFifo (s : State) : List Nat :=
  if s.fld Fld.TRNG_CTL_SRC == 0 then s.trng.expander else s.trng.cond

/-- A read of TRNG_WORD: the word, and the state without it; 0 on an empty read. -/
def State.readWord (s : State) : Nat × State :=
  if s.trngValid && !s.flag Fld.TRNG_STAT_EXP_STALL then
    match s.wordFifo with
    | w :: _ =>
      (w, (s.onTrng fun x =>
        if s.fld Fld.TRNG_CTL_SRC == 0 then { x with expander := x.expander.drop 1 }
        else { x with cond := x.cond.drop 1 }).fillCond)
    | [] => (0, (s.hwSet Fld.TRNG_STAT_EMPTY_READ).incFld Fld.TRNG_EMPTY_READS_COUNT)
  else (0, (s.hwSet Fld.TRNG_STAT_EMPTY_READ).incFld Fld.TRNG_EMPTY_READS_COUNT)

/-- TRNG_STAT as a read returns it, with the level of the selected FIFO. -/
def State.trngStat (s : State) : W64 := insertBits (s.reg .TRNG_STAT) 16 10 s.wordFifo.length

/-- TRNG_WORD_READ: a read from either port. -/
def execTrngWordRead (t : Nat) (port : Port) (s : State) : Result :=
  s.when t (fun s => s.reach port .TRNG_WORD) fun s =>
    let (w, s) := s.readWord
    match port with
    | .host => s.emit (.readData w false)
    | .mgmt => s.emit (.mgmtReply 0 (natLe w 8))

/-- A write to TRNG_CTL: one that covers SRC discards the conditioned FIFO (R384). -/
def State.trngCtl (s : State) (a : RegAcc) : State :=
  let s := (s.writeFields .TRNG_CTL a).noteConfig .TRNG_CTL a.port.source
  if accCovers a 0 1 then (s.onTrng fun x => { x with cond := [] }).fillCond else s

/-- TRNG_CTL_WRITE. -/
def execTrngCtlWrite (t : Nat) (acc : RegAcc) (s : State) : Result :=
  s.access t acc .TRNG_CTL fun s => s.trngCtl acc

end Sys2Proof.Machine
end

