-- ==== Sys2Proof/Machine/Interrupts.lean ====
section
/-! DEFINITION. The interrupt commands (R424 to R427): cause bits, enables, moderation of receipts,
masks and the MSI-X table. -/

namespace Sys2Proof.Machine

/-- The message of every vector of a set, in ascending order. -/
def State.sendVectors (s : State) (set : Nat) : State :=
  (List.range 16).foldl (fun s i => if set.testBit i then s.sendVector i else s) s

/-- A write to INT_STAT: W1C on the cause bits. One that hardware set in this cycle ends at 1, and its message is sent
again (R12, R425). -/
def State.intStatClear (s : State) (a : RegAcc) : State :=
  (s.writeFields .INT_STAT a).sendVectors
    (s.hwMask .INT_STAT &&& accBits a &&& s.fld Fld.INT_STAT_CAUSE &&& s.fld Fld.INT_ENABLE_ENABLE)

/-- INT_STAT_CLEAR. -/
def execIntStatClear (t : Nat) (acc : RegAcc) (s : State) : Result :=
  s.access t acc .INT_STAT fun s => s.intStatClear acc

/-- A write to INT_ENABLE: a bit newly set over a cause that is 1 sends its message (R425). -/
def State.intEnable (s : State) (a : RegAcc) : State :=
  let old := s.fld Fld.INT_ENABLE_ENABLE
  let s := (s.writeFields .INT_ENABLE a).noteConfig .INT_ENABLE a.port.source
  let new := s.fld Fld.INT_ENABLE_ENABLE
  s.sendVectors ((new - (new &&& old)) &&& s.fld Fld.INT_STAT_CAUSE)

/-- INT_ENABLE_WRITE. -/
def execIntEnableWrite (t : Nat) (acc : RegAcc) (s : State) : Result :=
  s.access t acc .INT_ENABLE fun s => s.intEnable acc

/-- A write to INT_SET sets causes as hardware events would (R427). -/
def State.intSet (s : State) (a : RegAcc) : State :=
  let set := (accField a Fld.INT_SET_SET).getD 0
  (List.range 16).foldl (fun s i => if set.testBit i then s.setCause i else s) s

/-- INT_SET. -/
def execIntSet (t : Nat) (acc : RegAcc) (s : State) : Result :=
  s.access t acc .INT_SET fun s => s.intSet acc

/-- A write to INT_MOD applies from the next receipt written (R426). -/
def State.intMod (s : State) (a : RegAcc) : State := (s.writeFields .INT_MOD a).noteConfig .INT_MOD a.port.source

/-- INT_MOD_WRITE. -/
def execIntModWrite (t : Nat) (acc : RegAcc) (s : State) : Result :=
  s.access t acc .INT_MOD fun s => s.intMod acc

/-- A release: cause bit 0 is set, U returns to 0 and the timer stops (R426). -/
def State.releaseReceipts (s : State) : State :=
  ({ s with intr := { s.intr with u := 0, timer := none } }).setCause 0

/-- The cycle in which a running moderation timer expires; TIME 0 means no timer (R426). -/
def State.modExpiry (s : State) : Option Nat :=
  match s.intr.timer with
  | some t0 => if s.intr.modTime == 0 then none else some (t0 + s.intr.modTime)
  | none => none

/-- A receipt is written (R426). The write takes INT_MOD as it now stands; COUNT and TIME in force for
a running timer are those of the receipt that started it, TIME being fixed then and COUNT renewed by
each receipt. A receipt in the expiry cycle is on time, and rides in the release of that cycle. -/
def State.moderate (s : State) : State :=
  if s.intr.releasedAt.any s.meets then s.incFld Fld.INT_AT_LIMIT_RECEIPT else
  let s := if s.modExpiry.any s.meets then s.incFld Fld.INT_AT_LIMIT_RECEIPT else s
  let u := s.intr.u + 1
  let i := s.intr
  let s := { s with intr := { i with
    u := u
    modCount := s.fld Fld.INT_MOD_COUNT
    modTime := if i.u == 0 then s.fld Fld.INT_MOD_TIME else i.modTime
    timer := if i.u == 0 then some s.now else i.timer } }
  if s.intr.modCount ≤ u then s.releaseReceipts else s

/-- RECEIPT_MODERATION_TIMER. -/
def execReceiptModerationTimer (t : Nat) (s : State) : Result :=
  s.when t (fun s => s.cUp && s.intr.u != 0 &&
    match s.modExpiry with | some e => decide (e ≤ s.now) | none => false) fun s =>
    ({ s with intr := { s.intr with
        releasedAt := s.modExpiry } } : State).releaseReceipts

/-- The pending messages that may now be sent, in ascending order of vector (R425). -/
def State.flushPba (s : State) : State :=
  (List.range 16).foldl (fun s i =>
    let masked := match s.intr.table[i]? with | some e => e.masked | none => true
    if s.intr.pba.testBit i && !masked && !s.intr.functionMask && s.intr.enable then
      let s := { s with intr := { s.intr with pba := s.intr.pba - 2 ^ i } }
      s.sendVector i
    else s) s

/-- What MSIX_UNMASK changes: one vector's mask, the function mask, or MSI-X Enable. -/
def State.msixControl (s : State) (k : MsixCtl) : State :=
  match k with
  | .vector v m =>
    match s.intr.table[v]? with
    | some e => ({ s with intr := { s.intr with table := s.intr.table.set v { e with masked := m } } }).flushPba
    | none => s
  | .function m => ({ s with intr := { s.intr with functionMask := m } }).flushPba
  | .enable b =>
    ({ s with intr := { s.intr with enable := b, pba := if b then s.intr.pba else 0 } }).flushPba

/-- MSIX_UNMASK: a mask bit or MSI-X Enable is written; what was pending and is no longer masked is
sent. A vector beyond the table does not exist. -/
def execMsixUnmask (t : Nat) (ctl : MsixCtl) (s : State) : Result :=
  match ctl with
  | .vector v _ =>
    if v < 64 then s.when t (fun s => s.cUp) fun s => s.msixControl ctl else .fault .noSuchUnit
  | _ => s.when t (fun s => s.cUp) fun s => s.msixControl ctl

end Sys2Proof.Machine
end

