-- ==== Sys2Proof/Machine/Intake.lean ====
section
/-! DEFINITION. The Intake Window and the receipts (R259 to R275): slots and seals, the acceptance steps,
order records, receipts and the Receipt Log. -/

namespace Sys2Proof.Machine

/-! ## Orders and slots -/

/-- A change to the hidden state of intake. -/
def State.onIntake (s : State) (f : IntakeSt → IntakeSt) : State := { s with intake := f s.intake }

/-- INTAKE_NEXT_SEQ. -/
def State.nextSeq (s : State) : Nat := s.fld Fld.INTAKE_NEXT_SEQ_NEXT

/-- INTAKE_CTL.ENABLE. -/
def State.intakeOn (s : State) : Bool := s.flag Fld.INTAKE_CTL_ENABLE

/-- INTAKE_STAT.LOG_FULL. -/
def State.logFull (s : State) : Bool := s.flag Fld.INTAKE_STAT_LOG_FULL

/-- An order by SEQ. -/
def State.order (s : State) (seq : Nat) : Option Order := s.intake.orders.find? (·.seq == seq)

/-- A change to one order. -/
def State.onOrder (s : State) (seq : Nat) (f : Order → Order) : State :=
  s.onIntake fun x => { x with orders := x.orders.map fun o => if o.seq == seq then f o else o }

/-- The opcode of an order (R260). -/
def Order.op (o : Order) : Nat := fieldAt o.raw 0 1
/-- BULK of an order's header. -/
def Order.bulkKind (o : Order) : Nat := fieldAt o.raw 1 1
/-- The body of an order. -/
def Order.body (o : Order) : List Byte := slice o.raw 64 (fieldAt o.raw 2 2)
/-- The order is accepted: its SEQ is consumed (R263). -/
def Order.accepted (o : Order) : Bool := o.phase != .journaled
/-- SOURCE of what an order causes (R388). -/
def Order.source (o : Order) : Source := o.src.source

/-- INTAKE_STAT's counts: FREE slots and accepted orders not yet RELEASED (R291). -/
def State.showIntake (s : State) : State :=
  (s.setFld Fld.INTAKE_STAT_FREE_SLOTS (4096 - s.intake.slots.length)).setFld Fld.INTAKE_STAT_UNRELEASED
    (s.intake.orders.filter (·.accepted)).length

/-- A slot that is not FREE. -/
def State.slotAt (s : State) (k : Nat) : Option Slot := s.intake.slots.find? (·.idx == k)

/-- A slot becomes FREE. -/
def State.freeSlot (s : State) (k : Nat) : State :=
  (s.onIntake fun x => { x with slots := x.slots.filter (·.idx != k) }).showIntake

/-- A slot given a value. -/
def State.setSlot (s : State) (x : Slot) : State :=
  (s.onIntake fun i => { i with slots := x :: i.slots.filter (·.idx != x.idx) }).showIntake

/-! ## Receipts (R268, R270) -/

/-- FLAGS bits of a receipt. -/
def repostFlag : Nat := 2
def degradedFlag : Nat := 16

/-- A receipt of now. -/
def State.receiptOf (s : State) (seq kind code payload opcode : Nat) (own : Bool) : Receipt :=
  ⟨seq, s.stepNow, payload % 2 ^ 64, kind, 0, code, opcode, s.phi, own⟩

/-- The 32 bytes of a receipt. -/
def Receipt.bytes (r : Receipt) : List Byte :=
  natLe r.seq 8 ++ natLe r.step 8 ++ natLe r.payload 8 ++ natLe r.kind 1 ++ natLe r.flags 1 ++
  natLe r.code 2 ++ natLe r.opcode 1 ++ [0] ++ natLe r.phaseAt 2

/-- Receipts in the Receipt Log. -/
def State.ringSize (s : State) : Nat := 2 ^ s.fld Fld.RECEIPT_SIZE_LOG2

/-- RECEIPT_BASE; 0 means that no receipt goes to host memory (R333). -/
def State.logBase (s : State) : Nat := s.fld Fld.RECEIPT_BASE_ADDR * 4096

/-- The log has room for a receipt. -/
def State.logRoom (s : State) : Bool :=
  s.logBase == 0 ||
  (s.fld Fld.RECEIPT_HEAD_PRODUCED + 2 ^ 32 - s.fld Fld.RECEIPT_HEAD_CONSUMED) % 2 ^ 32 < s.ringSize

/-- LOG_FULL follows the room; the seal timers stop while it is 1 and go on afterwards (R270). -/
def State.showLog (s : State) : State :=
  let full := !s.logRoom
  let was := s.logFull
  let s := s.setFlag Fld.INTAKE_STAT_LOG_FULL full
  if full == was then s
  else s.onIntake fun x => { x with slots := x.slots.map fun k =>
    if k.st == .filling then
      if full then { k with ran := k.ran + (s.now - k.since) } else { k with since := s.now }
    else k }

/-- What writing a receipt of an accepted order means for the order: it is the latest, and RELEASED ends
the order, which stays among the past ones for R264. -/
def State.ownReceipt (s : State) (r : Receipt) : State :=
  let s := s.onOrder r.seq fun o => { o with latest := some r }
  if r.kind == 3 && !r.flags.testBit 1 then
    match s.order r.seq with
    | some o =>
      (s.onIntake fun x => { x with
        orders := x.orders.filter (·.seq != r.seq)
        past := (r.seq, o.crc, some r) :: x.past.filter fun p => decide (s.nextSeq ≤ p.1 + 65536)
        }).showIntake.showUsed
    | none => s
  else s

/-- A receipt is written to the log: PHASE by pass, PRODUCED, and the receipt interrupt (R270, R426). -/
def State.writeReceipt (s : State) (r : Receipt) : State :=
  let c := s.fld Fld.RECEIPT_HEAD_PRODUCED
  let phase := if c / s.ringSize % 2 == 0 then 1 else 0
  let out := { r with flags := r.flags / 2 * 2 + phase }
  let s := if s.logBase == 0 then s else
    s.emit (.hostWrite (s.logBase + 32 * (c % s.ringSize)) out.bytes)
  let s := s.setFld Fld.RECEIPT_HEAD_PRODUCED (c + 1)
  let s := if r.kind == 4 && !r.flags.testBit 1 then s.incFld Fld.INTAKE_COUNTS_REJECTED else s
  let s := if r.own then s.ownReceipt out else s
  s.moderate.showLog

/-- Held receipts go out in order while the log has room (R270). -/
def State.flushHeld (s : State) : State :=
  s.intake.held.foldl (fun s r =>
    if s.intakeOn && s.boot.recovering.isNone && s.logRoom then
      (s.onIntake fun x => { x with held := x.held.drop 1 }).writeReceipt r
    else s) s

/-- A receipt is posted: at once, or after those held before it. -/
def State.post (s : State) (r : Receipt) : State :=
  (s.onIntake fun x => { x with held := x.held ++ [r] }).flushHeld

/-- A REJECTED before acceptance: no SEQ is consumed and the slot is FREE (R263). -/
def State.refuse (s : State) (x : Slot) (code payload : Nat) : State :=
  (s.freeSlot x.idx).post
    (s.receiptOf (fieldAt x.bytes 8 8) 4 code payload (fieldAt x.bytes 0 1) false)

/-! ## Seals and acceptance steps 1 to 3 (R261 to R264) -/

/-- Offset of the seal of a slot, from BODY_LEN as it stands. -/
def sealAt (b : List Byte) : Nat := 64 + fieldAt b 2 2

/-- CRC-32C over the header and body of a slot. -/
def orderCrc (b : List Byte) : Nat := crc crc32c (b.take (sealAt b))

/-- The cycle in which the running seal timer of a slot expires. -/
def State.sealExpiry (s : State) (x : Slot) : Nat := x.since + (s.fld Fld.INTAKE_CTL_SEAL_TIMEOUT - x.ran)

/-- Acceptance steps may run (R270, R277, R291). -/
def State.accepting (s : State) : Bool :=
  s.cUp && s.intakeOn && !s.logFull && s.boot.recovering.isNone

/-- The CRC and latest receipt of an accepted order, unreleased or among the last 65,536. -/
def State.acceptedCrc (s : State) (seq : Nat) : Option (Nat × Option Receipt) :=
  match s.intake.orders.find? fun o => o.seq == seq && o.accepted with
  | some o => some (o.crc, o.latest)
  | none => (s.intake.past.find? fun p => p.1 == seq && decide (s.nextSeq ≤ seq + 65536)).map (·.2)

/-- Steps 1 to 3: seal, QUIESCE hold, SEQ against INTAKE_NEXT_SEQ (R263, R264). -/
def State.early (s : State) (x : Slot) : State :=
  let b := x.bytes
  let seq := fieldAt b 8 8
  let n := s.nextSeq
  let crc := orderCrc b
  if fieldAt b (sealAt b) 4 != seq % 2 ^ 32 || fieldAt b (sealAt b + 4) 4 != crc then s.refuse x 0x1001 x.idx
  else if s.flag Fld.INTAKE_STAT_HELD then s.refuse x 0x1020 0
  else if seq == 0 || n + 4096 ≤ seq then s.refuse x 0x1003 n
  else if n ≤ seq then
    match s.intake.slots.find? fun y => y.idx != x.idx && y.checked && fieldAt y.bytes 8 8 == seq with
    | some y => if orderCrc y.bytes == crc then s.freeSlot x.idx else s.refuse x 0x1005 x.idx
    | none => s.setSlot { x with checked := true }
  else
    match s.acceptedCrc seq with
    | some (c, latest) =>
      if c == crc then
        let s := s.freeSlot x.idx
        match latest with
        | some r => s.post { r with flags := r.flags ||| repostFlag }
        | none => s
      else s.refuse x 0x1005 x.idx
    | none => s.refuse x 0x1004 n

/-- The seal of a slot is recognised (R261, R262): the slot is SEALED, and the policy in force governs its records
(R273). -/
def State.sealSlot (s : State) (x : Slot) : State :=
  let s := if !s.logFull && s.meets (s.sealExpiry x) then s.incFld Fld.INTAKE_AT_LIMIT_SEAL else s
  s.setSlot { x with st := .sealed, sealedAt := s.now, closing := s.intakeCloses, policy := s.policyNow }

/-- Bytes written into a slot at an offset. -/
def overwrite (b : List Byte) (off : Nat) (d : List Byte) : List Byte :=
  (b.take off ++ d ++ b.drop (off + d.length)).take b.length

/-- A write lands in a slot (R259, R261). -/
def State.writeSlot (s : State) (src : Port) (k off : Nat) (d : List Byte) : State :=
  let x := (s.slotAt k).getD ⟨k, .filling, zeros 4096, 0, s.now, src, 0, false, 0, false, false, none⟩
  if x.st == .sealed then
    (s.incFld Fld.INTAKE_COUNTS_LATE_WRITES).record 0x100D k src.source
  else
    let x := { x with bytes := overwrite x.bytes off d, src := src }
    let p := sealAt x.bytes
    if off ≤ p && p + 8 ≤ off + d.length && p + 8 ≤ 4096 then s.sealSlot x else s.setSlot x

/-- What a read of BAR4 returns, at any offset (R259). -/
def bar4Read (_off : Nat) : Nat := 0

/-- A write to the image buffer that BAR4 is while the boot ROM waits for an image (R371). -/
def State.writeImage (s : State) (off : Nat) (d : List Byte) : State :=
  let b := s.sec.bar4
  let b := b ++ zeros (off + d.length - b.length)
  { s with sec := { s.sec with bar4 := overwrite b off d } }

/-- INTAKE_SLOT_WRITE: a host write to BAR4 (R259); to the ROM's image buffer while the ROM waits (R371). A write in the
cycle in which a reset begins is lost with its slot (R407). -/
def execIntakeSlotWrite (t slot off : Nat) (data : List Byte) (s : State) : Result :=
  if 4096 ≤ slot then .fault .noSuchUnit
  else s.when t (fun s => (s.cUp || s.sec.romWait) && s.fld Fld.HOST_LINK_RATE != 0 && !s.ports.d3hot && decide (off < 4096) &&
      s.boot.lightAt != some s.now) fun s =>
    let d := data.take (4096 - off)
    if s.sec.romWait then s.writeImage (slot * 4096 + off) d else s.writeSlot .host slot off d

/-- SEAL_TIMEOUT: a FILLING slot whose timer has expired; a seal in the expiry cycle is on time (R57, R262). -/
def execSealTimeout (t slot : Nat) (s : State) : Result :=
  if 4096 ≤ slot then .fault .noSuchUnit
  else s.when t (fun s => s.cUp && !s.logFull && match s.slotAt slot with
      | some x => x.st == .filling && s.past (s.sealExpiry x)
      | none => false) fun s =>
    match s.slotAt slot with
    | some x => s.refuse x 0x1002 slot
    | none => s

/-! ## Step 5: header and body (R260, R266, R267) -/

/-- Body length and allowed BULK values of an opcode, by its body (R266, R358). -/
def opcodeForm (op : Nat) (body : List Byte) : Option (Nat × List Nat) :=
  match op with
  | 1 => some (8, [1, 2])
  | 2 => some (8, [1, 2])
  | 3 => some (64, [0])
  | 4 => some (16, [0])
  | 5 => some (16, [0])
  | 6 => some (16, if fieldAt body 0 1 == 0 then [1, 2] else [0])
  | 7 => some (64, [0])
  | 8 => some (128, [2])
  | 9 => some (32, if fieldAt body 0 1 == 2 || 7 ≤ fieldAt body 0 1 then [1] else [0])
  | 10 => some (8, [0])
  | _ => none

/-- The first offset of a list of checks that fails. -/
def firstOff (l : List (Nat × Bool)) : Option Nat := (l.find? fun x => !x.2).map (·.1)

/-- The first bad field of a header (R260, R266). A PROBE with a reserved ACTION is left to its body's
check (R358), and a ROW_SAMPLE's BULK 2 comes with zero bulk fields. -/
def headerBad (b : List Byte) : Option Nat :=
  let op := fieldAt b 0 1
  let len := fieldAt b 2 2
  let bulk := fieldAt b 1 1
  let body := slice b 64 len
  let form := opcodeForm op body
  let reservedProbe := op == 9 && !(1 ≤ fieldAt body 0 1 && fieldAt body 0 1 ≤ 8)
  let noBulk := bulk == 0 || op == 8
  firstOff [
    (0, form.isSome),
    (1, bulk < 3 && (reservedProbe || form.any fun f => f.2.contains bulk)),
    (2, form.any fun f => f.1 == len),
    (4, zeroAt b 4 4),
    (16, fieldAt b 16 8 % 64 == 0 && (!noBulk || fieldAt b 16 8 == 0)),
    (24, !noBulk || fieldAt b 24 8 == 0),
    (32, !noBulk || zeroAt b 32 32)]

/-- Bytes of an entry of a ROW_SAMPLE's score rows. -/
def rowSize (fmt : Nat) : Nat := if fmt == 6 then 4 else 2

/-- Bytes of a result record (R116). -/
def rowRecord (k : Nat) (vals : Bool) : Nat := roundUp (8 + 4 * k + (if vals then 4 * k else 0)) 8

/-- R114, in its two passes. -/
def rowBad (b : List Byte) : Option Nat :=
  let n := fieldAt b 28 4
  let fmt := fieldAt b 32 1
  let mode := fieldAt b 33 1
  let k := fieldAt b 34 2
  let fl := fieldAt b 36 1
  let invT := BitVec.ofNat 32 (fieldAt b 40 4)
  (firstOff [
    (0, fieldAt b 0 8 % 64 == 0), (8, fieldAt b 8 8 % 64 == 0),
    (24, 1 ≤ fieldAt b 24 4 && fieldAt b 24 4 ≤ 2 ^ 24), (28, 1 ≤ n && n ≤ 2 ^ 20),
    (32, 4 ≤ fmt && fmt ≤ 6), (33, mode ≤ 2), (34, 1 ≤ k && k ≤ 256), (36, fl < 8), (37, zeroAt b 37 3),
    (40, isFinite32 invT && lt32 0 invT), (44, zeroAt b 44 4), (56, fieldAt b 56 8 % 64 == 0),
    (72, fieldAt b 72 8 % 8 == 0), (80, fieldAt b 80 8 % 8 == 0), (96, zeroAt b 96 32)]).or
  (firstOff [
    (8, n * rowSize fmt ≤ fieldAt b 8 8), (34, k ≤ n), (56, mode != 0 || fieldAt b 56 8 == 0),
    (64, mode == 2 || fieldAt b 64 8 == 0), (80, rowRecord k (fl.testBit 1) ≤ fieldAt b 80 8),
    (88, fl.testBit 2 || fieldAt b 88 8 == 0)])

/-- R358: ACTION and the reserved fields of a PROBE body. -/
def probeBad (b : List Byte) : Option Nat :=
  firstOff [(0, 1 ≤ fieldAt b 0 1 && fieldAt b 0 1 ≤ 8), (1, zeroAt b 1 7), (8, fieldAt b 8 8 % 64 == 0),
    (24, zeroAt b 24 8)]

/-- The code and payload of a body that fails step 5. -/
def State.bodyBad (s : State) (op : Nat) (b : List Byte) : Option (Nat × Nat) :=
  let form := fun (l : List (Nat × Bool)) => (firstOff l).map fun k => (0x1006, 64 + k)
  match op with
  | 1 => form [(0, zeroAt b 0 8)]
  | 2 => form [(4, zeroAt b 4 4)]
  | 3 => form [(8, zeroAt b 8 56)]
  | 4 => if fieldAt b 8 8 < fieldAt b 0 8 then some (0x1009, s.fld Fld.RUN_NEXT_STEP_STEP) else none
  | 5 => form [(0, fieldAt b 0 8 % 4096 == 0)]
  | 6 => form [(0, fieldAt b 0 1 ≤ 1), (1, zeroAt b 1 7)]
  | 7 => form [(0, fieldAt b 0 1 ≤ 1), (1, fieldAt b 1 1 ≤ 2), (2, zeroAt b 2 62)]
  | 8 => (rowBad b).map fun k => (0xA021, k)
  | 9 => (probeBad b).map fun k => (0x8041, k)
  | _ => form [(0, fieldAt b 0 8 ≤ 1)]

/-! ## Bulk (R271, R324) -/

/-- A read of host memory is asked for; it waits for Bus Master Enable (R318, R411). -/
def State.askHost (s : State) (seq slot addr len : Nat) : State :=
  let s := s.onIntake fun x => { x with asked := x.asked ++ [(seq, slot, addr, len)] }
  if s.ports.busMaster then s.emit (.hostRead seq slot addr len) else s

/-- What a wanted read has brought: not yet, failed after some bytes, or data. -/
inductive Fetched where
  | wait (s : State)
  | bad (kind got : Nat)
  | ok (data : List Byte)

/-- A read for an order: asked for the first time, waited for, or answered. Zero bytes need no read. -/
def State.fetch (s : State) (seq slot addr len : Nat) : Fetched :=
  if len == 0 then .ok []
  else match s.intake.fetches.find? fun f => f.seq == seq && f.slot == slot with
    | some f => if f.err == 0 then .ok f.data else .bad f.err f.data.length
    | none =>
      if s.intake.asked.any fun q => q.1 == seq && q.2.1 == slot then .wait s
      else .wait (s.askHost seq slot addr len)

/-- The bulk that a header names, at most `most` bytes: its bytes, or the code with which it fails
(R271). -/
inductive Bulk where
  | wait (s : State)
  | bad (code payload : Nat)
  | ok (data : List Byte)

/-- Bulk fetched and verified. -/
def State.bulkOf (s : State) (b : List Byte) (most : Nat) : Bulk :=
  let len := fieldAt b 24 8
  if most < len then .bad 0x1008 0
  else match s.fetch (fieldAt b 8 8) 0 (fieldAt b 16 8) len with
    | .wait s => .wait s
    | .bad _ got => .bad 0x1008 got
    | .ok d => if shake256 d 32 == slice b 32 32 then .ok d else .bad 0x1007 0

/-- Everything fetched for an order is forgotten. -/
def State.dropFetches (s : State) (seq : Nat) : State :=
  s.onIntake fun x => { x with fetches := x.fetches.filter (·.seq != seq), asked := x.asked.filter (·.1 != seq) }

/-! ## Step 6: the opcode's checks at acceptance -/

/-- The length of a bound payload (R76): a Potts partner makes each of its values a table (R69). -/
def PlanData.bindLen (p : PlanData) (d : BlockD) (pay : List Byte) : Nat :=
  let qs := fun (off n : Nat) => p.qRecv d * ((readIdx pay off n).map (qPart p.runs)).sum
  match d.kind with
  | 1 => 260 + 5 * d.nnz + packedLen (fmtWidth d.fmt) (qs 260 d.nnz)
  | 2 => 5 * d.cols + 64 * packedLen (fmtWidth d.fmt) (qs 0 d.cols)
  | _ => impliedLen (p.qRecv d) d

/-- R267: the block exists and is BOUND, the length is that of R76, and no value is reserved. -/
def PlanData.bindFormOk (p : PlanData) (id : Nat) (pay : List Byte) : Bool :=
  match p.blocks[id]? with
  | some d => d.bound && pay.length == p.bindLen d pay && payloadClean p.runs (p.qRecv d) d pay
  | none => false

/-- The plan that a DATA_BIND being accepted will meet: that of the latest PLAN_LOAD accepted and not yet
ended, when its bulk is contained, else the plan in effect; none when it cannot be known yet. -/
def State.bindPlan (s : State) : Option PlanData :=
  match (s.intake.orders.filter fun o => o.op == 1 && o.phase != .done && o.phase != .released).getLast? with
  | some o => o.bulk.map readPlan
  | none => some (if s.planOn then s.plan.data else PlanData.empty)

/-- The checks of contained bulk that R88 and R267 place at acceptance. -/
def State.bulkBad (s : State) (op : Nat) (body bulk : List Byte) : Option (Nat × Nat) :=
  match op with
  | 1 => (s.checkImage bulk).map fun e => (e.code, e.payload)
  | 2 =>
    let id := fieldAt body 0 4
    match s.bindPlan with
    | some p => if p.bindFormOk id bulk then none else some (0x100A, id)
    | none => none
  | _ => none

/-! ## Step 7: fresh seeds (R189) -/

/-- A fresh seed: words of the pool until one is not 0. -/
def State.drawSeed (s : State) : Nat → Option (Nat × State)
  | 0 => none
  | n + 1 =>
    match s.takeWords 1 with
    | some ([w], s') => if w == 0 then s'.drawSeed n else some (w, s')
    | _ => none

/-! ## Step 8: the order record (R265, R280) -/

/-- Tiles of a record in a local ring: 17 for each full frame, and those of a last part (R275, R280). -/
def recordTiles (len : Nat) : Nat :=
  len / 65520 * 17 + (if len % 65520 == 0 && len != 0 then 0 else ceilDiv (68 + 16 + len % 65520) 4096)

/-- Both rings have room for an order's record (R265, R275). -/
def State.ringRoom (s : State) (b : List Byte) : Bool :=
  let bulk := if fieldAt b 1 1 == 1 then min (fieldAt b 24 8) (2 ^ 30) else 0
  s.occupancy + recordTiles (4096 + bulk) ≤ ringTiles

/-- The order record is journaled (R263 step 8): the slot's order, with any drawn seed in place of SEED, and
contained bulk. -/
def State.journalOrder (s : State) (x : Slot) (bulk : Option (List Byte)) (drawn : Option Nat) : State :=
  let b := x.bytes.take (sealAt x.bytes + 8)
  let b := match drawn with | some w => overwrite b 64 (natLe w 8) | none => b
  let seq := fieldAt b 8 8
  let s := s.addRecord 1 seq x.policy (padTo 4096 b ++ bulk.getD [])
  let o : Order := {
    seq := seq, phase := .journaled, raw := b, bulk := bulk, crc := orderCrc x.bytes, policy := x.policy
    src := x.src, recFseq := s.lastFseq, slot := x.idx, durFlags := 0, seedDrawn := drawn, effect := none
    final := none, finalPosted := false, rel := none, acceptedPosted := false, latest := none }
  (s.dropFetches seq).onIntake fun i => { i with orders := i.orders ++ [o] }

/-- JOURNAL_FULL follows the room; 0x100C once per episode (R265). -/
def State.showRoom (s : State) (room : Bool) : State :=
  let said := s.intake.episode
  let s := (s.setFlag Fld.INTAKE_STAT_JOURNAL_FULL (!room)).onIntake fun x => { x with episode := !room }
  if room || said then s else s.record 0x100C 0

/-- Step 8 waits while 16,384 accepted orders are unreleased or a ring lacks room (R265). -/
def State.tryJournal (s : State) (x : Slot) (bulk : Option (List Byte)) : State :=
  let room := s.ringRoom x.bytes
  let s := s.showRoom room
  if room && decide ((s.intake.orders.filter (·.accepted)).length < 16384) then s.journalOrder x bulk x.drawn else s

/-- Step 7, whose draw the slot holds while step 8 waits, and step 8. -/
def State.acceptSeed (s : State) (x : Slot) (bulk : Option (List Byte)) : State :=
  if fieldAt x.bytes 0 1 == 3 && fieldAt x.bytes 64 8 == 0 && x.drawn.isNone then
    if !s.trngValid then s.refuse x 0x4002 0
    else match s.drawSeed 256 with
      | some (w, s) =>
        let x := { x with drawn := some w }
        (s.setSlot x).tryJournal x bulk
      | none => s
  else s.tryJournal x bulk

/-- The check that reading the stored tiles of an image makes: the state after, and the code and payload of a
failure. -/
abbrev ImageCheck := State → State × Option (Nat × Nat)

/-- Step 6, then the rest: of a contained plan its tiles, with `tiles`, before its other checks (R88). A plan that
fails is recorded with its code (R89). -/
def State.acceptBulk (s : State) (tiles : ImageCheck) (x : Slot) : State :=
  let b := x.bytes
  let op := fieldAt b 0 1
  if fieldAt b 1 1 == 1 then
    match s.bulkOf b (2 ^ 30) with
    | .wait s => s
    | .bad c p => (s.dropFetches (fieldAt b 8 8)).refuse x c p
    | .ok d =>
      let v := if op == 1 then tiles s else (s, none)
      match v.2, v.1.bulkBad op (slice b 64 (fieldAt b 2 2)) d with
      | some (c, p), _ => (v.1.dropFetches (fieldAt b 8 8)).refuse x c p
      | none, some (c, p) =>
        let s := if op == 1 then v.1.record c p x.src.source else v.1
        (s.dropFetches (fieldAt b 8 8)).refuse x c p
      | none, none => v.1.acceptSeed x (some d)
  else s.acceptSeed x none

/-- Steps 5 to 8 for the order whose turn it is. -/
def State.accept (s : State) (tiles : ImageCheck) (x : Slot) : State :=
  let b := x.bytes
  match headerBad b with
  | some k => s.refuse x 0x1006 k
  | none =>
    match s.bodyBad (fieldAt b 0 1) (slice b 64 (fieldAt b 2 2)) with
    | some (c, p) => s.refuse x c p
    | none => s.acceptBulk tiles x

/-- Step 4 lets the slot go on: its SEQ is next, with no order of it in step 8, and an INTAKE window is open; a seal
sampled in the cycle in which the window closes counts as written inside it. Once passed, the step is not taken
again. -/
def State.myTurn (s : State) (x : Slot) : Bool :=
  x.checked && fieldAt x.bytes 8 8 == s.nextSeq && !(s.intake.orders.any fun o => o.phase == .journaled) &&
  (x.through || s.intakeOpen || x.closing)

/-- No seal before this one, nor one of its cycle in a lower slot, is still to be checked (R263). -/
def State.nextToCheck (s : State) (x : Slot) : Bool :=
  s.intake.slots.all fun y => y.st != .sealed || y.checked || decide (x.sealedAt < y.sealedAt) ||
    (x.sealedAt == y.sealedAt && decide (x.idx ≤ y.idx))

/-- What step 4 makes of a slot that has been checked: the order goes on, or waits for its turn and a window. -/
def State.afterChecks (s : State) (tiles : ImageCheck) (k : Nat) : State :=
  match s.slotAt k with
  | some x =>
    let x' := { x with through := s.myTurn x, closing := false }
    let y := s.setSlot x'
    if x'.through then y.accept tiles x' else y
  | none => s

/-! ## Step 9: ACCEPTED -/

/-- An order's records met a weaker policy than their own (R274). -/
def State.weaker (s : State) (fseq policy : Nat) : Nat := if s.ackedBy fseq policy then 0 else degradedFlag

/-- DUR_J0 and DUR_J1 of an order record. -/
def State.durFlags (s : State) (o : Order) : Nat :=
  (if o.recFseq ≤ s.fld Fld.JRNL_J0_ACKED_ACKED then 4 else 0) +
  (if o.recFseq ≤ s.fld Fld.JRNL_J1_ACKED_ACKED then 8 else 0)

/-- ACCEPTED is posted for an order (R263 step 9, R268); DUR_J0 and DUR_J1 stand as they were then in its later
receipts. -/
def State.postAccepted (s : State) (o : Order) : State :=
  let fl := s.durFlags o ||| s.weaker o.recFseq o.policy ||| o.durFlags
  let s := s.onOrder o.seq fun o => { o with acceptedPosted := true, durFlags := fl }
  s.post { s.receiptOf o.seq 1 0 0 o.op true with flags := fl }

/-- ACCEPTED: the record is durable. -/
def execAccepted (t seq : Nat) (s : State) : Result :=
  s.when t (fun s => s.accepting && match s.order seq with
      | some o => o.phase == .journaled && s.durable o.recFseq o.policy
      | none => false) fun s =>
    match s.order seq with
    | some o =>
      let s := s.onOrder seq fun o => { o with phase := .accepted }
      let s := (s.setFld Fld.INTAKE_NEXT_SEQ_NEXT (seq + 1)).freeSlot o.slot
      s.postAccepted o
    | none => s

/-! ## Completion and release (R269, R272) -/

/-- The ⟨S, φ⟩ from which what takes effect now applies: the start of the next step of a run in progress
(R29), now while the device is halted within a step, else now. -/
def State.effectAt (s : State) : Nat × Nat :=
  match s.stept.run with
  | some r => if s.halted && s.stept.stepOn then (s.stepNow, s.phi) else (r.next, 0)
  | none => (s.stepNow, s.phi)

/-- The EFFECT record of an order. -/
def State.effectBytes (s : State) (o : Order) : List Byte :=
  let r := s.receiptOf o.seq 5 0 0 o.op true
  { r with step := s.effectAt.1, phaseAt := s.effectAt.2 }.bytes

/-- An order takes effect: its EFFECT record is journaled (R268, R277). -/
def State.takesEffect (s : State) (o : Order) : State :=
  (s.addFrame 2 true o.seq o.policy (s.effectBytes o)).onOrder o.seq fun x =>
    { x with effect := some s.effectAt }

/-- An order ends: COMPLETED or REJECTED is journaled, with its EFFECT record in the same frame when it
takes effect now (R269). -/
def State.finishAs (s : State) (o : Order) (kind code payload : Nat) (eff : Bool) : State :=
  let r := s.receiptOf o.seq kind code payload o.op true
  let s' := s.addFrame 2 true o.seq o.policy ((if eff then s.effectBytes o else []) ++ r.bytes)
  (s'.dropFetches o.seq).onOrder o.seq fun x => { x with
    phase := .done
    effect := if eff then some s.effectAt else x.effect
    final := some (r, s'.lastFseq) }

/-- COMPLETED, the effect being already recorded or none. -/
def State.complete (s : State) (o : Order) (code payload : Nat) : State := s.finishAs o 2 code payload false
/-- COMPLETED with its effect. -/
def State.effectDone (s : State) (o : Order) (payload : Nat) : State := s.finishAs o 2 0 payload true
/-- REJECTED at execution: no effect (R269). -/
def State.rejectOrder (s : State) (o : Order) (code payload : Nat) : State := s.finishAs o 4 code payload false

/-- No host data of the order can be needed by a recovery (R272). -/
def State.hostFree (s : State) (o : Order) : Bool :=
  o.bulkKind != 2 || o.effect.isNone ||
  match o.op with
  | 1 => !s.planOn || s.plan.seq != o.seq
  | 2 => !(s.plan.binds.any (·.seq == o.seq))
  | 6 => (o.final.map (·.2)).getD 0 < s.jrnl.perFseq
  | _ => true

/-- RELEASED is journaled for every order whose completion has been posted and whose host data are no
longer needed (R269, R272). -/
def State.formReleases (s : State) : State :=
  s.intake.orders.foldl (fun s o =>
    if o.phase == .done && o.finalPosted && o.rel.isNone && s.hostFree o then
      let r := s.receiptOf o.seq 3 0 0 o.op true
      let s := s.addFrame 2 true o.seq o.policy r.bytes
      s.onOrder o.seq fun x => { x with rel := some (r, s.lastFseq) }
    else s) s

/-- The receipt of an order that is due and durable (R269). -/
def State.dueReceipt (s : State) (o : Order) : Option (Receipt × Nat) :=
  let now := fun (p : Receipt × Nat) => s.durable p.2 o.policy
  if !o.acceptedPosted then none
  else if !o.finalPosted then o.final.filter now
  else if o.phase == .released then none
  else o.rel.filter now

/-- An order that a recovery adopted has its ACCEPTED due once its record is durable (R277, R278). -/
def State.acceptedDue (s : State) (o : Order) : Bool :=
  o.accepted && !o.acceptedPosted && s.durable o.recFseq o.policy

/-- A due receipt is posted. -/
def State.postDue (s : State) (seq : Nat) : State :=
  match s.order seq with
  | some o =>
    if s.acceptedDue o then s.postAccepted o
    else match s.dueReceipt o with
    | some (r, fseq) =>
      let fl := o.durFlags ||| s.weaker fseq o.policy
      let s := s.onOrder seq fun o =>
        if o.finalPosted then { o with phase := .released, durFlags := fl }
        else { o with finalPosted := true, durFlags := fl }
      (s.post { r with flags := fl }).formReleases
    | none => s
  | none => s

/-- RECEIPT_POST: the due receipt of an order. -/
def execReceiptPost (t seq : Nat) (s : State) : Result :=
  s.when t (fun s => s.cUp && s.intakeOn && s.boot.recovering.isNone && match s.order seq with
      | some o => s.acceptedDue o || (s.dueReceipt o).isSome
      | none => false) fun s => s.postDue seq

/-- A write to RECEIPT_HEAD.CONSUMED frees room (R270). -/
def State.receiptHead (s : State) (a : RegAcc) : State :=
  ((s.writeFields .RECEIPT_HEAD a).showLog).flushHeld

/-- RECEIPT_CONSUMED. -/
def execReceiptConsumed (t : Nat) (acc : RegAcc) (s : State) : Result :=
  s.access t acc .RECEIPT_HEAD fun s => s.receiptHead acc

/-- R278: the latest receipt of each unreleased order again, then those due and never posted, in ascending
SEQ. -/
def State.repost (s : State) : State :=
  let held := s.intake.held
  let s := s.onIntake fun x => { x with held := [] }
  let s := (sortBy (fun a b => a.seq ≤ b.seq) s.intake.orders).foldl (fun s o =>
    if o.accepted then
      let s := match o.latest with
        | some r => s.post { r with flags := r.flags ||| repostFlag }
        | none => s
      let s := (held.filter fun r => r.own && r.seq == o.seq).foldl State.post s
      ((s.postDue o.seq).postDue o.seq).postDue o.seq
    else s) s
  (held.filter (!·.own)).foldl State.post s

/-! ## Configuration (R273, R291) -/

/-- A write to INTAKE_NEXT_SEQ, RECEIPT_BASE or RECEIPT_SIZE (R291). -/
def State.intakeConfig (s : State) (r : Reg) (a : RegAcc) : State :=
  if s.intakeOn || (r == .INTAKE_NEXT_SEQ && s.intake.orders.any (·.accepted)) then
    s.record 0x100E (r.offset % 65536) a.port.source
  else ((s.writeFields r a).noteConfig r a.port.source).showLog

/-- INTAKE_CONFIG_WRITE: one of the three registers. -/
def execIntakeConfigWrite (t : Nat) (reg : IntakeReg) (acc : RegAcc) (s : State) : Result :=
  let r := match reg with
    | .nextSeq => Reg.INTAKE_NEXT_SEQ
    | .base => Reg.RECEIPT_BASE
    | .size => Reg.RECEIPT_SIZE
  s.access t acc r fun s => s.intakeConfig r acc

/-- A write to DURABILITY_POLICY (R273, R274): ONE and BOTH need option J. -/
def State.policyWrite (s : State) (a : RegAcc) : State :=
  let want := (accField a Fld.DURABILITY_POLICY_POLICY).getD 0
  let old := s.policyNow
  let s := s.writeFields .DURABILITY_POLICY a
  if !s.optJ && (want == 1 || want == 2) then
    ((s.setFld Fld.DURABILITY_POLICY_POLICY old).noteOwn .DURABILITY_POLICY).checkPolicy.record 0x100B 0
      a.port.source
  else (s.noteConfig .DURABILITY_POLICY a.port.source).checkPolicy

/-- DURABILITY_POLICY_WRITE. -/
def execDurabilityPolicyWrite (t : Nat) (acc : RegAcc) (s : State) : Result :=
  s.access t acc .DURABILITY_POLICY fun s => s.policyWrite acc

end Sys2Proof.Machine
end

