-- ==== Sys2Proof/Machine/Memory.lean ====
section
/-! DEFINITION. External memory (R24, R229): one byte list in canonical form over every port, a byte that
nothing has written reading as 0 (log 19). -/

namespace Sys2Proof.Machine

/-- Where byte `addr` of a port stands in the list. -/
def memKey (port addr : Nat) : Nat := port * 2 ^ 48 + addr

/-- The canonical form: addresses rise, and no byte is listed as what an unlisted one reads. -/
def Memory.wf : List Host.Cell → Bool
  | [] => true
  | (a, v) :: m => v != 0 && (m.head?.all fun c => decide (a < c.1)) && Memory.wf m

/-- The byte at a place. -/
def memByte : List Host.Cell → Nat → Byte
  | [], _ => 0
  | (b, v) :: m, a => if a == b then v else if a < b then 0 else memByte m a

/-- A byte written: 0 removes the entry. -/
def memPut : List Host.Cell → Nat → Byte → List Host.Cell
  | [], a, v => if v == 0 then [] else [(a, v)]
  | (b, w) :: m, a, v =>
    if a < b then (if v == 0 then (b, w) :: m else (a, v) :: (b, w) :: m)
    else if a == b then (if v == 0 then m else (a, v) :: m)
    else (b, w) :: memPut m a v

/-- Bytes written from a place upward. -/
def memWrite (m : List Host.Cell) (a : Nat) : List Byte → List Host.Cell
  | [] => m
  | v :: vs => memWrite (memPut m a v) (a + 1) vs

/-- `n` bytes from a place upward. -/
def memRead (m : List Host.Cell) (a n : Nat) : List Byte := (List.range n).map fun i => memByte m (a + i)

/-- Bytes of a port read. -/
def State.readMem (s : State) (port addr n : Nat) : List Byte := memRead s.mem (memKey port addr) n

/-- Bytes of a port written. -/
def State.writeMem (s : State) (port addr : Nat) (d : List Byte) : State :=
  { s with mem := memWrite s.mem (memKey port addr) d }

/-- Tiles of the part behind a port, check area and reserve included (R229): half of a 36 GiB stack, or a
32 GiB package. -/
def portTiles (port : Nat) : Nat := if port < 16 then 4718592 else 8388608

/-- The first port of a tier and the port past its last. -/
def tierPorts (tier : Nat) : List Nat := if tier == 1 then List.range 16 else (List.range 16).map (16 + ·)

/-- A memory port. -/
def State.mport (s : State) (p : Nat) : MPort := s.mports.getD p MPort.reset

/-- A change to a memory port. -/
def State.onMport (s : State) (p : Nat) (f : MPort → MPort) : State := { s with mports := s.mports.modify p f }

/-- The levelling figures of R222: admission rate and depth, read latency, write acknowledgement. -/
def portRate (p : Nat) : Nat := if p < 16 then 270 else 30
def portDepth (p : Nat) : Nat := if p < 16 then 32768 else 8192
def portReadLat (p : Nat) : Nat := if p < 16 then 192 else 320
def portAckLat (p : Nat) : Nat := if p < 16 then 64 else 96

/-! ## Tile checks (R229, R230) -/

/-- The tiles that a byte range touches. -/
def tilesOf (addr len : Nat) : List Nat :=
  (List.range ((addr + len - 1) / 4096 + 1 - addr / 4096)).map (addr / 4096 + ·)

/-- A range covers a whole tile. -/
def wholeTile (addr len tile : Nat) : Bool := addr ≤ tile * 4096 && tile * 4096 + 4096 ≤ addr + len

/-- The tiles that a write covers only in part. -/
def partTiles (addr len : Nat) : List Nat := (tilesOf addr len).filter fun t => !wholeTile addr len t

/-- The check of a tile as its bytes give it: CRC-32C in address order. -/
def State.tileCrc (s : State) (port tile : Nat) : Nat := crc crc32c (s.readMem port (tile * 4096) 4096)

/-- A tile agrees with its stored check; one that nothing has written has none to fail (log 19). -/
def State.tileAgrees (s : State) (port tile : Nat) : Bool :=
  match (s.mport port).checks.find? (·.1 == tile) with
  | some c => c.2 == s.tileCrc port tile
  | none => true

/-- The bytes of a write stand in memory with a new check for each tile touched, and whole tiles are poisoned no more
(R230, R231). -/
def State.storeTiles (s : State) (port addr : Nat) (d : List Byte) : State :=
  let s := s.writeMem port addr d
  let ts := tilesOf addr d.length
  s.onMport port fun m => { m with
    checks := ts.map (fun t => (t, s.tileCrc port t)) ++ m.checks.filter fun c => !ts.contains c.1
    poison := m.poison.filter fun t => !wholeTile addr d.length t }

end Sys2Proof.Machine
end

