-- ==== Sys2Proof/Machine/Effects.lean ====
section
/-! DEFINITION. What orders do when they take effect: a plan (R86, R92, R93), a bind (R77), a seed (R188,
R189), a mode (R243) and a restored context (R289). -/

namespace Sys2Proof.Machine

/-! ## Spares as registers show them (R315, R316) -/

/-- The free universal site of a row. -/
def State.freeU (s : State) (r : Nat) : Bool := s.working (36 * r + 21) && (s.serves (36 * r + 21)).isNone

/-- Free fused or re-qualified M-sites of a row. -/
def State.freeInRow (s : State) (r : Nat) : Nat := ((rowSites r).filter fun i => s.spareM i && s.freeM i).length

/-- Code 0x600F when the free core spares fall below SPARE_CTL.LOW. -/
def State.checkLow (s : State) (m u : Nat) : State :=
  let low := decide (m + u < s.fld Fld.SPARE_CTL_LOW)
  let said := s.spare.lowSaid
  let s : State := { s with spare := { s.spare with lowSaid := low } }
  if low && !said then s.record 0x600F (m % 256 + u * 256) else s

/-- SPARE_BUDGET and SPARE_STAT follow the sites. -/
def State.showSpares (s : State) : State :=
  let rows := List.range 20
  let m := (rows.map s.freeInRow).sum
  let u := rows.countP s.freeU
  let all := List.range 720
  let idle := all.countP fun i => siteKind i == 0 && s.working i && !s.spareM i && (s.serves i).isNone
  let n := fun (f : SiteSt → Bool) => min (s.sites.countP f) 255
  let s' := s.setFld Fld.SPARE_BUDGET_ROWS
    (rows.map fun r => (min (s.freeInRow r) 3 + 4 * (s.freeU r).toNat) * 2 ^ (3 * r)).sum
  let s' := ((s'.setFld Fld.SPARE_STAT_M_FREE m).setFld Fld.SPARE_STAT_U_FREE u).setFld Fld.SPARE_STAT_M_IDLE
    (min idle 255)
  let s' := (s'.setFld Fld.SPARE_STAT_FAILED (n fun x => x.reason != 0 || x.dead)).setFld Fld.SPARE_STAT_BYPASSES
    (n (·.bypassed))
  (s'.setFld Fld.SPARE_STAT_HOLES (n (·.hole))).checkLow m u

/-- DEV_SHAPE with no plan loaded (R33), and the logical cores mapped afresh for it (R294). -/
def State.mapShape (s : State) : State :=
  if s.planOn then s
  else ((s.setFld Fld.DEV_SHAPE_M_CORES s.fillable).setFld Fld.DEV_SHAPE_SHAPE_SEL 0).remap s.fillable

/-- DEV_SHAPE with no plan loaded, SHAPE_SEL being 0 (R32), mapped afresh when the number of M-cores has changed;
otherwise substitution alone moves a core (R294). -/
def State.showShape (s : State) : State :=
  let s := if s.planOn then s else s.setFld Fld.DEV_SHAPE_SHAPE_SEL 0
  if s.spare.mapM.length == s.fillable then s else s.mapShape

/-! ## A plan takes effect (R86, R92, R93, R129, R137, R223, R253) -/

/-- Sites re-qualified behind a bypass or a hole join the pool when a plan takes effect (R313). -/
def State.joinRequalified (s : State) : State :=
  let s := s.spare.requalPassed.foldl (fun s i => s.onSite i fun x => { x with bypassed := false, hole := false, routerLost := false }) s
  { s with spare := { s.spare with requalPassed := [] } }

/-- The sequencers of a plan: M-cores of its shape, V_USED V-cores and S_USED S-cores. -/
def PlanData.nodes (p : PlanData) (n : Nat) : List Nat :=
  List.range n ++ (List.range p.vUsed).map (1024 + ·) ++ (List.range p.sUsed).map (2048 + ·)

/-- Streams before a seed: in place, with no state. -/
def PlanData.bareStreams (p : PlanData) : List Stream × List Stream :=
  ((p.laneIds 0).map (fun x => Stream.mk x.1 0 x.2), (p.ctrlIds 0).map fun x => Stream.mk x.1 0 x.2)

/-- Anneal state when a plan takes effect: hard groups are paired (R129, R131, R137). -/
def PlanData.firstAnneal (p : PlanData) : Anneal :=
  { Anneal.empty with
    slotMap := List.range p.replicas
    groups := ((List.range p.replicas).map fun _ => p.anneal.groups.map fun g => GroupSt.mk g.hard 0 0).flatten }

/-- The payload bytes of a residence go to its port in whole tiles, which R429 counts for it, the last filled up with
zeros; they are poisoned no more (R78, R231). -/
def State.placeBlock (s : State) (r : Residence) : State :=
  if r.tier == 0 then s
  else
    let p := s.plan.payload r.block
    s.storeTiles r.port r.addr (padTo (tile p.length) p)

/-- Every port's admission account is full (R223). -/
def State.fillPorts (s : State) : State :=
  { s with mports := s.mports.zipIdx.map fun m => { m.1 with account := portDepth m.2, accountAt := s.ccyc } }

/-- The chain state that a plan starts from, with its streams at w = 0 when a seed is in effect. -/
def State.firstChain (s : State) (p : PlanData) : ChainSt :=
  let st := if s.flag Fld.STRM_SEED_INFO_VALID then p.seedStreams (s.reg .STRM_SEED) 0 else p.bareStreams
  ⟨List.replicate (p.replicas * p.nVars) 0, st.1, st.2, p.firstAnneal⟩

/-- The shape selected and the mapping to sites (R86, R294). -/
def State.takeShape (s : State) (sel : Nat) (sh : ShapeP) : State :=
  let s := (s.setFld Fld.DEV_SHAPE_M_CORES sh.n).setFld Fld.DEV_SHAPE_SHAPE_SEL sel
  s.setFlag Fld.DEV_STAT_SHAPE_REDUCED (sel != 0)

/-- Chain state is covered and nothing has run: UNCOVERED, RUN_NEXT_STEP, and the digest registers with their snapshots
(R253, R258). -/
def State.freshSegment (s : State) : State :=
  let s := (s.setFlag Fld.MODE_STAT_UNCOVERED false).setReg .MODE_UNCOVERED (BitVec.allOnes 64)
  { s.setReg .RUN_NEXT_STEP (BitVec.allOnes 64) with
    dig := { s.dig with
      step := 0, value := 0, flags := 0, valid := false, snapHost := (0, 0, false), snapMgmt := (0, 0, false) } }

/-- A plan is in place in the shape at position `sel`, with nothing recorded or journaled. The repair that R132 asks for
before the first sweep is made here, so that the fields it reads leave out blocks that a DATA_BIND binds before that
sweep: the model's choice (log 33). The anneal registers are cleared, ANNEAL_SEL with them (R141). -/
def State.layPlan (s : State) (seq : Nat) (img : List Byte) (sel : Nat) : State :=
  let p := readPlan img
  let sh := ((p.shapes.find? (·.1 == sel)).map (·.2)).getD ShapeP.empty
  let key := if planSigned img then fieldAt (sectBytes img 15 0) 0 4 else 0
  let digest := planDigest img
  let s := s.joinRequalified
  let s : State := { s with plan := ⟨p, seq, digest, planSigned img, key, sel, sh, [], sh.res⟩ }
  let s := ((s.setFlag Fld.DEV_STAT_PLAN_LOADED true).takeShape sel sh).setFlag Fld.SPARE_STAT_PAUSED false
  let s := (s.remap sh.n).allocPlan
  let c := s.firstChain p
  let ex : Exec := { Exec.reset with
    chain := c, cores := (p.nodes sh.n).map CoreSt.start
    groupAcc := List.replicate (p.replicas * p.anneal.groups.length) 0
    swapTried := List.replicate (p.replicas - 1) 0, swapAcc := List.replicate (p.replicas - 1) 0 }
  let s : State := { s with ex := ex }
  let s := (s.setFlag Fld.STRM_SEED_INFO_SEEDED (s.flag Fld.STRM_SEED_INFO_VALID)).repairPaired.formBetas
  let s := s.setShadow
  let s := [Port.host, Port.mgmt].foldl (fun s p => s.setReg (Reg.at p .ANNEAL_SEL) 0) s
  let s := (sh.res.foldl State.placeBlock s).fillPorts
  (s.onStep fun x => { x with widened := [] }).freshSegment

/-- A plan takes effect: it is recorded, and its segment opens. -/
def State.takePlan (s : State) (o : Order) (img : List Byte) (sel : Nat) : State :=
  let s := s.layPlan o.seq img sel
  (s.record 0xA014 (fieldAt s.plan.digest 0 8) o.source).newSegment.showSpares

/-- PLAN_LOAD executed with its image at hand: validation, then effect (R88, R89). -/
def State.doPlan (s : State) (o : Order) (img : List Byte) : State :=
  match s.checkPlan img with
  | some e => (s.record e.code e.payload o.source).rejectOrder o e.code e.payload
  | none =>
    match (readPlan img).select s.fillable with
    | some sel => (s.takePlan o img sel).effectDone o (fieldAt (planDigest img) 0 8)
    | none => s.rejectOrder o 0xA008 0

/-! ## Binds (R77, R267) -/

/-- The checks of a bound payload at execution: form, then partners as a plan's are checked. -/
def PlanData.bindOk (p : PlanData) (id : Nat) (pay : List Byte) : Bool :=
  p.bindFormOk id pay &&
  match p.blocks[id]? with
  | some d =>
    (d.kind != 3 || orderOk pay d.cols) && p.payloadIdxOk d pay && (p.terms d pay).all (p.termTypeOk d) &&
    (p.synchronous || (p.guardBlock d pay).isNone) &&
    (d.kind != 3 || p.anneal.groups.all fun g =>
      (p.terms d pay).all fun t => ((p.termVars d t).filter g.members.contains).length ≤ 1)
  | none => false

/-- The payload stands for the block from this boundary. -/
def State.setBind (s : State) (seq id : Nat) (pay : List Byte) : State :=
  let b : Bind := ⟨id, seq, pay, shake256 pay 32⟩
  let s : State := { s with plan := { s.plan with binds := b :: s.plan.binds.filter (·.block != id) } }
  (s.plan.res.filter (·.block == id)).foldl State.placeBlock s

/-- A bind takes effect. -/
def State.takeBind (s : State) (o : Order) (id : Nat) (pay : List Byte) : State :=
  (s.setBind o.seq id pay).record 0xA015 id o.source

/-- DATA_BIND executed with its payload at hand. -/
def State.doBind (s : State) (o : Order) (pay : List Byte) : State :=
  let id := fieldAt o.body 0 4
  if s.planOn && s.plan.data.bindOk id pay then (s.takeBind o id pay).effectDone o 0
  else s.rejectOrder o 0x100A id

/-! ## Seeds (R188, R189) -/

/-- A seed becomes the seed in effect, and every sequential stream stands where it would stand at w. -/
def State.seedNow (s : State) (seed : W64) (fresh : Bool) : State :=
  let s := ((s.setReg .STRM_SEED seed).setFlag Fld.STRM_SEED_INFO_VALID true).setFlag Fld.STRM_SEED_INFO_FRESH fresh
  if s.planOn then
    let st := s.plan.data.seedStreams seed s.ex.chain.an.w
    let s := s.onChain fun c => { c with lanes := st.1, ctrl := st.2 }
    s.setFlag Fld.STRM_SEED_INFO_SEEDED true
  else s

/-- The seed that an order sets is noted for the row orders and recoveries that come to resolve it (R118, R412). -/
def State.noteSeed (s : State) (seq : Nat) (seed : W64) (fresh : Bool) : State :=
  { s with jrnl := { s.jrnl with seeds := ⟨seq, seed, fresh⟩ :: s.jrnl.seeds.filter (·.seq != seq) } }

/-- SEED_SET takes effect. -/
def State.doSeed (s : State) (o : Order) : State :=
  let seed := BitVec.ofNat 64 (fieldAt o.body 0 8)
  let s := (s.seedNow seed o.seedDrawn.isSome).noteSeed o.seq seed o.seedDrawn.isSome
  (s.record 0x4003 seed.toNat o.source).effectDone o seed.toNat

/-! ## Modes (R242, R243) -/

/-- The step from which a change of mode made now applies: the step after the one whose boundary this is,
or the next to run. -/
def State.modeFrom (s : State) : Nat :=
  match s.stept.run with
  | some r => r.next
  | none => if s.reg .RUN_NEXT_STEP == BitVec.allOnes 64 then s.stepNow else s.fld Fld.RUN_NEXT_STEP_STEP

/-- Mode and load balancing take the values given (none: unchanged). Replay mode under a SYNCHRONOUS plan
changes nothing and is recorded. -/
def State.setMode (s : State) (mode lb : Option Bool) (src : Source) : State :=
  if mode == some false && s.planOn && s.plan.data.synchronous then s.record 0xA00D 0 src
  else
    let was := s.flag Fld.MODE_STAT_MODE
    let m := mode.getD was
    let l := lb.getD (s.flag Fld.LOAD_BALANCE_ENABLE)
    let s := (s.setFlag Fld.MODE_CTL_MODE m).setFlag Fld.LOAD_BALANCE_ENABLE l
    let s := (s.setFlag Fld.MODE_STAT_MODE m).setFlag Fld.MODE_STAT_LB_ACTIVE (m && l)
    let s : State := if m == was then s else
      { s.setFld Fld.MODE_SINCE_STEP s.modeFrom with dig := { s.dig with sinceDue := true } }
    let s := if m then s else s.homeParcels
    let s := if mode.isSome then s.noteChange Reg.MODE_CTL.offset (s.reg .MODE_CTL).toNat s.modeFrom 0 src else s
    if lb.isSome then s.noteChange Reg.LOAD_BALANCE.offset (s.reg .LOAD_BALANCE).toNat s.modeFrom 0 src else s

/-- MODE_SET takes effect, or is refused: Replay mode under a SYNCHRONOUS plan (R91). -/
def State.doMode (s : State) (o : Order) : State :=
  if fieldAt o.body 0 1 == 0 && s.planOn && s.plan.data.synchronous then
    (s.record 0xA00D 0 o.source).rejectOrder o 0xA00D 0
  else
  let lb := match fieldAt o.body 1 1 with | 0 => some false | 1 => some true | _ => none
  (s.setMode (some (fieldAt o.body 0 1 == 1)) lb o.source).effectDone o 0

/-! ## RESTORE (R267, R289) -/

/-- A held write to MODE_CTL or LOAD_BALANCE applies at a boundary, after the orders (R243). -/
def State.heldMode (s : State) : State :=
  match s.dig.heldMode, s.dig.heldLb with
  | none, none => s
  | m, l =>
    let s := s.setMode m l s.dig.heldPort.source
    let s : State := { s with dig := { s.dig with heldMode := none, heldLb := none } }
    s.setFlag Fld.MODE_STAT_PENDING false

/-- A checked context replaces chain, stream and anneal state, with what stood beside it at its capture. The counters of
groups and swaps start again (R141), and paired groups are repaired. -/
def State.takeContext (s : State) (b : List Byte) (m : CtxMark) : State :=
  let seed := BitVec.ofNat 64 (fieldAt b 16 8)
  let unc := (fieldAt b 7 1).testBit 0
  let s := (s.onChain fun _ => s.plan.data.chainOfCtx b).setReg .STRM_SEED seed
  let s := ((s.setFlag Fld.STRM_SEED_INFO_VALID true).setFlag Fld.STRM_SEED_INFO_FRESH m.fresh).setFlag
    Fld.STRM_SEED_INFO_SEEDED true
  let s := (s.setFld Fld.RUN_NEXT_STEP_STEP (ctxNext b)).repairPaired.formBetas
  let s := s.onEx fun x => { x with
    shadow := x.chain
    groupAcc := x.groupAcc.map fun _ => 0, swapTried := x.swapTried.map fun _ => 0
    swapAcc := x.swapAcc.map fun _ => 0 }
  let s := (s.setFlag Fld.MODE_STAT_UNCOVERED unc).setReg .MODE_UNCOVERED
    (if unc then BitVec.ofNat 64 (ctxNext b) else BitVec.allOnes 64)
  s.onLog fun l => { l with restored := m.restored, taintNext := m.taint || (ctxMid b && unc) }

/-- The marks of a context that an order restores: the next step is the first after a RESTORE, a state write still waits
for its step, and the seed comes from the context (R253). -/
def State.restoreMark (s : State) : CtxMark := ⟨s.slog.taintNext, true, false⟩

/-- A RESTORE with its context at hand. -/
def State.restoreFrom (s : State) (o : Order) (b : List Byte) : State :=
  match s.checkContext b with
  | some (c, p) => s.rejectOrder o c p
  | none =>
    let s := (s.takeContext b s.restoreMark).setShadow
    (s.noteSeed o.seq (s.reg .STRM_SEED) false).effectDone o 0

/-- SOURCE 1: the latest complete device copy, HBM3E first. -/
def State.deviceCopy (s : State) : Option (List Byte) := s.jrnl.ctxHbm.or s.jrnl.ctxLp

/-- RESTORE executed with its bulk at hand when SOURCE is 0. -/
def State.doRestore (s : State) (o : Order) (bulk : List Byte) : State :=
  if fieldAt o.body 0 1 == 0 then s.restoreFrom o bulk
  else match s.deviceCopy with
    | some b =>
      let n := fieldAt o.body 8 8
      if n == 0 || n == ctxNext b then s.restoreFrom o b else s.rejectOrder o 0x1010 0
    | none => s.rejectOrder o 0x1010 0

/-! ## STATE_WRITE (R254, R359) -/

/-- The entries of a STATE_WRITE: index and stored form. -/
def stateEntries (b : List Byte) : List (Nat × Nat) :=
  (recs b 0 16 (b.length / 16)).map fun e => (fieldAt e 0 6, fieldAt e 8 4)

/-- Every entry is whole, its reserved bits are 0, its variable exists and its value is valid (R359). -/
def PlanData.stateEntriesOk (p : PlanData) (b : List Byte) : Bool :=
  b.length % 16 == 0 &&
  (recs b 0 16 (b.length / 16)).all fun e =>
    zeroAt e 6 2 && zeroAt e 12 4 && fieldAt e 0 6 < p.replicas * p.nVars &&
    match runOf p.runs (fieldAt e 0 6 % max 1 p.nVars) with
    | some r => fieldAt e 8 4 < 2 ^ storedBits r.typ && storedOk r (fieldAt e 8 4)
    | none => false

/-- Values are written in entry order, and paired groups are repaired (R254). -/
def State.putValues (s : State) (b : List Byte) : State :=
  (s.onChain fun c => { c with vals := (stateEntries b).foldl (fun v e => v.set e.1 e.2) c.vals }).repairPaired

/-! ## CHECKPOINT (R267, R286) -/

/-- CHECKPOINT captures the state entering step `next`, which is its effect (R266), and writes it to the host when it
fits there. -/
def State.doCheckpoint (s : State) (o : Order) (next : Nat) : State :=
  if !s.planOn || !s.seeded then s.rejectOrder o 0x101B 0
  else
    let b := s.context s.ex.chain next false s.uncovered s.lastMode
    let addr := fieldAt o.body 0 8
    let s := s.takesEffect o
    let s := if addr != 0 && b.length ≤ fieldAt o.body 8 8 then s.emit (.hostWrite addr b) else s
    (s.startTransfer b o.seq 2 o.policy).onOrder o.seq fun x => { x with phase := .executing }

/-- What a finished CHECKPOINT completes with: 0x1019 and the size needed when the host's buffer is short. -/
def State.endCheckpoint (s : State) (o : Order) (b : List Byte) : State :=
  let addr := fieldAt o.body 0 8
  if addr != 0 && fieldAt o.body 8 8 < b.length then s.complete o 0x1019 b.length
  else s.complete o 0 (fieldAt b 208 8)

end Sys2Proof.Machine
end

