-- ==== Sys2Proof/Machine/Rerun.lean ====
section
/-! DEFINITION. Running steps again from a canonical context (R255, R277, R310, R412): what the journal says
happened after the capture, and the steps that start without marks. -/

namespace Sys2Proof.Machine

/-! ## The journal read back -/

/-- A record's bytes, from the frames of a TYPE and an order, without OFFSET, TOTAL and padding. -/
def JrnlSt.recordOf (j : JrnlSt) (typ seq : Nat) : Option (List Byte) :=
  match j.frames.filter fun f => f.typ == typ && f.orderSeq == seq with
  | [] => none
  | f :: fs =>
    let total := fieldAt f.payload 8 8
    let b := (((f :: fs).map fun x => x.payload.drop 16).flatten).take total
    if b.length == total then some b else none

/-- An order's slot bytes and its bulk: the order itself while it is unreleased, else its journal record, with
referenced bulk as a recovery has fetched it (R271). -/
def State.orderRecord (s : State) (seq : Nat) : Option (List Byte × List Byte) :=
  let got := (s.intake.fetches.find? fun f => f.seq == seq && f.slot == 0 && f.err == 0).map (·.data)
  match s.order seq with
  | some o => some (o.raw, (o.bulk.or got).getD [])
  | none => (s.jrnl.recordOf 1 seq).map fun b => (b.take 4096, if fieldAt b 1 1 == 2 then got.getD [] else b.drop 4096)

/-- A step digest record is valid: its reserved fields are 0 (R252). -/
def digestRecOk (b : List Byte) : Bool := b.length == 32 && fieldAt b 24 2 < 128 && zeroAt b 28 4

/-- What a frame says happened: a step whose digest was journaled, with its mode, or the effect of an order,
with its opcode. -/
def JFrame.events (f : JFrame) : List (Bool × Nat × Nat) :=
  match f.typ with
  | 3 => if digestRecOk f.payload then [(true, fieldAt f.payload 0 8, fieldAt f.payload 24 1 % 2)] else []
  | 2 => ((recs f.payload 0 32 (f.payload.length / 32)).filter fun r => fieldAt r 24 1 == 5).map fun r =>
      (false, fieldAt r 0 8, fieldAt r 28 1)
  | _ => []

/-- The steps and effects of a list of events in journal order: a step counts when it follows the one before
it, so that records of steps run again are passed over. -/
def scriptOf : Option Nat → List (Bool × Nat × Nat) → List (Bool × Nat × Bool)
  | _, [] => []
  | high, (true, k, m) :: es =>
    if high.all (k == · + 1) then (true, k, m == 1) :: scriptOf (some k) es else scriptOf high es
  | high, (false, q, op) :: es => (false, q, false) :: scriptOf (if op == 6 then none else high) es

/-- The FSEQ of the frame that holds an order's EFFECT record. -/
def State.effectFseq (s : State) (seq : Nat) : Nat :=
  ((s.jrnl.frames.find? fun f => f.orderSeq == seq && f.events.any fun e => !e.1 && e.2.1 == seq).map
    (·.fseq)).getD 0

/-- The digest journaled for a step, the latest record standing for it (R255). -/
def State.journaledDigest (s : State) (step : Nat) : Option Nat :=
  ((s.jrnl.frames.reverse.find? fun f => f.typ == 3 && digestRecOk f.payload && fieldAt f.payload 0 8 == step).map
    fun f => fieldAt f.payload 8 8)

/-! ## Bulk fetched again (R271, R310) -/

/-- Orders of some OPCODEs whose referenced bulk is needed again: that of the plan in effect, and those after it that took
effect and are not released. -/
def State.bulkNeeded (s : State) (ops : List Nat) (plan : Nat) : List Order :=
  s.intake.orders.filter fun o =>
    o.bulkKind == 2 && o.effect.isSome && o.bulk.isNone && plan ≤ o.seq && ops.contains o.op &&
    (o.op != 1 || o.seq == plan)

/-- Those reads are asked for, and one that failed at once again. The flag says that all have been answered. -/
def State.fetchNeeded (s : State) (ops : List Nat) (plan : Nat) : State × Bool :=
  (s.bulkNeeded ops plan).foldl (fun (acc : State × Bool) o =>
    match acc.1.bulkOf o.raw (2 ^ 40) with
    | .ok d => (acc.1.onOrder o.seq fun x => { x with bulk := some d }, acc.2)
    | .wait s => (s, false)
    | .bad _ _ => match (acc.1.dropFetches o.seq).bulkOf o.raw (2 ^ 40) with
      | .wait s => (s, false)
      | _ => (acc.1.dropFetches o.seq, false)) (s, true)

/-- Referenced bulk that orders left behind in their execution counts for nothing: the device fetches it again. -/
def State.forgetBulk (s : State) : State :=
  s.onIntake fun x => { x with orders := x.orders.map fun o =>
    if o.bulkKind == 2 && o.effect.isSome then { o with bulk := none } else o }

/-- Frames in FSEQ order, one of each number. -/
def oncePerFseq : List JFrame → List JFrame
  | [] => []
  | f :: fs => match oncePerFseq fs with
    | g :: gs => if f.fseq == g.fseq then f :: gs else f :: g :: gs
    | [] => [f]

/-- The copies merged by FSEQ; both local rings hold every record again. -/
def mergeFrames (a b : List JFrame) : List JFrame :=
  (oncePerFseq (sortBy (fun x y => x.fseq ≤ y.fseq) (a ++ b))).map fun f => { f with inHbm := true, inLp := true }

/-! ## The state to start from -/

/-- The latest complete context as its journal frames hold it, here or at a partner (R286, R310). -/
def State.journalCopy (s : State) : Option (List Byte) :=
  match s.jrnl.frames.filter fun f => s.jrnl.ctxParts.contains f.fseq with
  | [] => none
  | f :: fs =>
    let total := fieldAt f.payload 8 8
    let b := (((f :: fs).map fun x => x.payload.drop 16).flatten).take total
    if b.length == total then some b else none

/-- A context some of whose CHECKPOINT_PART frames have been read: its first FSEQ, its FSEQs, TOTAL and bytes. -/
structure CtxPartial where
  first : Nat
  parts : List Nat
  total : Nat
  bytes : List Byte
  deriving DecidableEq, Repr

/-- One more frame of a context. -/
def CtxPartial.take (c : CtxPartial) (f : JFrame) : CtxPartial :=
  { c with parts := c.parts ++ [f.fseq], bytes := c.bytes ++ f.payload.drop 16 }

/-- The complete contexts among CHECKPOINT_PART frames in the order in which they become complete, those still partial
being carried along (R286). -/
def contextsIn : List CtxPartial → List JFrame → List CtxPartial
  | _, [] => []
  | acc, f :: fs =>
    let off := fieldAt f.payload 0 8
    let total := fieldAt f.payload 8 8
    let start : CtxPartial := ⟨f.fseq, [], total, []⟩
    let old := if off == 0 then some start else acc.find? fun c => c.total == total && c.bytes.length == off
    match old with
    | some c =>
      let rest := acc.filter (· != c)
      let c := c.take f
      if total ≤ c.bytes.length then { c with bytes := c.bytes.take total } :: contextsIn rest fs
      else contextsIn (rest ++ [c]) fs
    | none => contextsIn acc fs

/-- The latest complete device copy as a RESTORE found it whose EFFECT frame has an FSEQ (R267): the latest context
complete in the journal before that frame, else the copy in memory. -/
def State.copyBefore (s : State) (fseq : Nat) : Option (List Byte) :=
  let l := contextsIn [] (s.jrnl.frames.filter fun f => f.typ == 4 && decide (f.fseq < fseq))
  ((l.getLast?).map (·.bytes)).or s.deviceCopy

/-- The latest complete context that belongs to the plan in effect: captured after the plan took effect. -/
def State.baseContext (s : State) : Option (List Byte) :=
  if s.effectFseq s.plan.seq < s.jrnl.ctxFseq then
    (s.deviceCopy.or s.journalCopy).filter fun b => slice b 48 64 == s.planDigest64
  else none

/-- Chain state, binds and stream state as that context gives them, or as the plan taking effect left them,
with the seed then in effect; RUN_NEXT_STEP stands. -/
def State.toBase (s : State) : State :=
  let next := s.reg .RUN_NEXT_STEP
  let s : State := match s.baseContext with
  | some b =>
    let s : State := { s with plan := { s.plan with binds := s.jrnl.ctxBinds } }
    let s := s.plan.res.foldl State.placeBlock s
    s.takeContext b s.jrnl.ctxMark
  | none =>
    let s : State := { s with plan := { s.plan with binds := [] } }
    let s := s.plan.res.foldl State.placeBlock s
    let n := s.jrnl.seeds.find? fun p => p.seq < s.plan.seq
    let s := s.setReg .STRM_SEED ((n.map (·.seed)).getD 0)
    let s := (s.setFlag Fld.STRM_SEED_INFO_VALID n.isSome).setFlag Fld.STRM_SEED_INFO_FRESH (n.any (·.fresh))
    let s := s.setFlag Fld.STRM_SEED_INFO_SEEDED n.isSome
    let s := (s.onChain fun _ => s.firstChain s.plan.data).repairPaired.formBetas
    let s := s.onLog fun l => { l with restored := false, taintNext := false }
    (s.onEx fun x => { x with shadow := x.chain }).freshSegment
  s.setReg .RUN_NEXT_STEP next

/-- What is to run again after that state. -/
def State.makeScript (s : State) : List (Bool × Nat × Bool) :=
  let from_ := match s.baseContext with | some _ => s.jrnl.ctxFseq | none => s.effectFseq s.plan.seq + 1
  let high := match s.baseContext with
    | some b => if ctxNext b == 0 then none else some (ctxNext b - 1)
    | none => none
  scriptOf high (((s.jrnl.frames.filter fun f => decide (from_ ≤ f.fseq)).map JFrame.events).flatten)

/-- The seed of a SEED_SET's record was drawn: the record's seal is that of the order as it was sent (R189,
R280). -/
def seedFresh (raw : List Byte) : Bool := fieldAt raw (sealAt raw + 4) 4 != orderCrc raw

/-- An order's effect again: nothing is journaled or recorded anew. -/
def State.reapply (s : State) (seq : Nat) : State :=
  match s.orderRecord seq with
  | some (raw, bulk) =>
    let body := slice raw 64 (fieldAt raw 2 2)
    match fieldAt raw 0 1 with
    | 2 => s.setBind seq (fieldAt body 0 4) bulk
    | 3 => s.seedNow (BitVec.ofNat 64 (fieldAt body 0 8)) (seedFresh raw)
    | 6 =>
      match if fieldAt body 0 1 == 0 then some bulk else s.copyBefore (s.effectFseq seq) with
      | some b => (s.takeContext b s.restoreMark).setReg .RUN_NEXT_STEP (s.reg .RUN_NEXT_STEP)
      | none => s
    | 9 => if fieldAt body 0 1 == 7 then
        (s.putValues bulk).onLog fun l => { l with taintNext := true } else s
    | _ => s
  | none => s

/-! ## Steps begin -/

/-- Damage for which the step is run again: all but a worn SRAM bank (R296) and a site that served no core. -/
def State.reruns (s : State) : Damage → Bool
  | .bank _ _ => false
  | .failed i _ => (s.serves i).isSome
  | _ => true

/-- A step starts that no execution before it has run: what stands of Dense flags is not new (R167), and a capture made
before is not the step's (R176). -/
def State.firstGo (s : State) : State :=
  let s := s.onCores fun c => { c with stickyOld := c.sticky }
  { s with ocu := { s.ocu with taken := false, again := false } }

/-- What a step starts with: a log of its own, and the first sweep (R45, R103, R254). In a Replay step parcels stand
where the plan puts them (R242). -/
def State.beginStep (s : State) (throughput reexec : Bool) : State :=
  let s := if throughput then s else s.homeParcels
  let log : StepLog := { StepLog.reset with
    throughput := throughput, reexec := reexec, restored := s.slog.restored, tainted := s.slog.taintNext
    rerun := s.spare.damage.any s.reruns }
  let s : State := { s with
    slog := log
    mports := s.mports.map fun m => { m with uncorrStep := reexec && m.uncorrStep }
    sites := s.sites.map fun x => { x with flitErrors := if reexec then x.flitErrors else 0 } }
  let s := s.onCores fun c => { c with stepDelay := 0, stickyNew := 0, written := false }
  let s := s.onEx fun x => { x with sweep := x.chain.an.w % max 1 s.plan.data.sweeps, stepEnded := false, inFlight := [] }
  s.openSweep

/-- A step starts again without a mark (R412). -/
def State.startRerun (s : State) (step : Nat) (throughput reexec : Bool) : State :=
  let s := (s.setFld Fld.STEP_NOW_STEP step).setFld Fld.STEP_PHASE_PHASE 0
  let s := s.onStep fun x => { x with stepOn := true, startedAt := s.now, phaseAt := s.now, anchor := none }
  s.firstGo.beginStep throughput reexec

/-- Recovery's step 4 has ended (R277): RECOVERING clears and 0x1016 is recorded; the receipts of R278 follow
when intake is enabled. -/
def State.endRecovery (s : State) : State :=
  let n := s.boot.adopted
  let full := s.boot.recovering == some .warm || s.boot.recovering == some .cold
  let s := if full then s.onIntake fun x => { x with fetches := [], asked := [] } else s
  let s : State := { s with boot := { s.boot with recovering := none, forced := false, adopted := 0 } }
  let s := (s.setFlag Fld.INTAKE_STAT_RECOVERING false).onStep fun x => { x with
    run := x.run.map fun r => { r with b := s.now } }
  let s : State := { s with dig := { s.dig with rerunTo := none, script := [] } }
  let s := (s.record 0x1016 n).setCause 1
  (if s.intakeOn then s.repost else s).trySendReady

/-- The script goes on: effects are applied until a step is to run. When nothing is left, a rollback runs the
step in flight again, one with no run in progress is over, and a recovery ends. -/
def State.goOn (s : State) : List (Bool × Nat × Bool) → State
  | (true, k, m) :: rest => ({ s with dig := { s.dig with script := rest } }).startRerun k m true
  | (false, q, _) :: rest => (s.reapply q).goOn rest
  | [] =>
    let s : State := { s with dig := { s.dig with script := [] } }
    let s := s.onEx fun x => { x with shadow := x.chain }
    if s.boot.recovering == some .warm || s.boot.recovering == some .cold then s.endRecovery
    else match s.dig.rerunTo with
      | some k => if s.runOn then s.oldCounts.startRerun k (s.flag Fld.MODE_STAT_MODE) true
        else { s with dig := { s.dig with rerunTo := none } }
      | none => if s.boot.recovering.isSome then s.endRecovery else s

/-- From the base state through the script. -/
def State.rerunAll (s : State) : State :=
  let sc := s.makeScript
  s.toBase.goOn sc

end Sys2Proof.Machine
end

