-- ==== Sys2Proof/Machine/Spares.lean ====
section
/-! DEFINITION. Spares and faults (chapter 11): sites declared failed, bypasses and holes, substitution,
fallback shapes, pauses, rollbacks, loss of memory parts, re-qualification and self-test, in the order in
which a boundary settles them (R311). -/

namespace Sys2Proof.Machine

/-- A change to the hidden state of spares. -/
def State.onSpare (s : State) (f : SpareSt → SpareSt) : State := { s with spare := f s.spare }

/-- A change to the field spare map, made in both copies (R295). -/
def State.onMaps (s : State) (f : FieldMap → FieldMap) : State :=
  { s with mram := { s.mram with mapA := f s.mram.mapA, mapB := f s.mram.mapB } }

/-! ## Declaring sites failed (R297, R298, R312) -/

/-- A site is declared failed and fenced, and enters the field map (R295). -/
def State.declareFailed (s : State) (site reason : Nat) : State :=
  if (s.site site).reason != 0 then s
  else
    let s := s.onSite site fun x => { x with reason := reason, fenced := true, testing := false, requalified := false }
    let s := s.onMaps fun m => ⟨(site, reason) :: m.failed.filter (·.1 != site), m.requal.erase site⟩
    s.record 0x6002 (site + reason * 4096)

/-- A fault charged to a site: transient, or the reason for which the site is to be declared failed
(R297). -/
def State.chargeSite (s : State) (site mech : Nat) : State × Option (Nat × Nat) :=
  let recent := (s.site site).charged.filter fun h => decide (s.mram.hours < h + 1382400)
  let again := s.slog.reexec && s.slog.charged.contains site
  let s := s.onSite site fun x => { x with charged := s.mram.hours :: recent }
  let s := s.onLog fun l => { l with charged := site :: l.charged }
  if again then (s, some (site, 3))
  else if 2 ≤ recent.length then (s, some (site, 4))
  else (s.record 0x6001 (site + mech * 4096), none)

/-- Spare SRAM banks of a site: 3 in an M-core, a V-core or a universal site, 2 in an S-core (R292). -/
def spareBanks (site : Nat) : Nat := if siteKind site == 2 then 2 else 3

/-- A spare bank replaces one that is worn out or damaged (R296). -/
def State.replaceBank (s : State) (site bank : Nat) : State × Option (Nat × Nat) :=
  if (s.site site).banks < spareBanks site then
    let s := s.onSite site fun x => { x with
      banks := x.banks + 1, corrections := x.corrections.filter (·.1 != bank) }
    ((s.incFld Fld.SPARE_UNITS_SRAM_BANKS).recordSpared 0 site, none)
  else (s, some (site, 5))

/-- Every block of the parcels on a core can run in Lantern mode (R156). -/
def State.lanternFits (s : State) (node : Nat) : Bool :=
  (s.parcelsOf node).all fun q => (s.plan.data.blocksOf q).all fun d =>
    s.plan.data.lanternK d.1 (s.plan.terms d.2) != 0

/-- A Vault slice faults: the bank's spare slice takes its place; with that in use, the core enters Lantern
recovery on its other bank, or is to be declared failed (R150, R156). Bits 0 to 8 of a mask are the slices out of
use, 8 being the spare; bit 9 marks the spare slice engaged. -/
def State.faultSlice (s : State) (site : Nat) (bankB : Bool) (slice : Nat) : State × Option (Nat × Nat) :=
  let x := s.site site
  let mask := if bankB then x.slicesB else x.slicesA
  let put (s : State) (bits : Nat) : State := s.onSite site fun x =>
    if bankB then { x with slicesB := mask ||| bits } else { x with slicesA := mask ||| bits }
  if 8 < slice || (x.lantern && x.lanternB != bankB) then (s, none)
  else if slice == 8 && !mask.testBit 9 then (put s 256, none)
  else if mask &&& 768 == 0 then
    (((put s (2 ^ slice + 512)).incFld Fld.SPARE_UNITS_VAULT_SLICES).recordSpared 1 site, none)
  else if x.lantern then (put s (2 ^ slice), some (site, 5))
  else match s.serves site with
    | some node =>
      if node < 1024 && s.lanternFits node then
        let s := (put s (2 ^ slice)).onSite site fun x => { x with lantern := true, lanternB := !bankB }
        (s.record 0x3004 (site + bankB.toNat * 1024 + slice * 2048), none)
      else (put s (2 ^ slice), some (site, 5))
    | none => (put s (2 ^ slice), some (site, 5))

/-- What one piece of damage does before sites are declared: the sites it names. -/
def State.weigh (s : State) : Damage → State × Option (Nat × Nat)
  | .charge site mech => s.chargeSite site mech
  | .slice site b k => s.faultSlice site b k
  | .bank site bank => s.replaceBank site bank
  | _ => (s, none)

/-- Damage to a slice or a bank, which one spare makes good however often a check met it in the step (R150, R296). -/
def Damage.once : Damage → Bool
  | .slice _ _ _ | .bank _ _ => true
  | _ => false

/-- Damage with what stands twice for one slice or bank taken once. -/
def distinctDamage (ds : List Damage) : List Damage :=
  (ds.zipIdx.filter fun d => !(d.1.once && (ds.take d.2).contains d.1)).map (·.1)

/-- A core in Lantern recovery that has a block which Lantern mode does not serve is to fail (R156). -/
def State.lanternUnfit (s : State) : List Nat :=
  (List.range 720).filter fun i =>
    (s.site i).lantern && (s.site i).reason == 0 && (s.serves i).any fun n => !(decide (n < 1024) && s.lanternFits n)

/-- Action 1 of R311, with a site that failed its self-test. -/
def State.declareAll (s : State) (ds : List Damage) (selftest : Option Nat) : State :=
  let r := (distinctDamage ds).foldl (fun (acc : State × List (Nat × Nat)) d =>
    let x := acc.1.weigh d
    (x.1, x.2.toList ++ acc.2)) (s, (selftest.map fun i => (i, 6)).toList)
  (sortBy (fun a b => a.1 ≤ b.1) r.2).foldl (fun s x => s.declareFailed x.1 x.2) r.1

/-! ## Routers (R216, R303) -/

/-- No router of a row or column meets a condition. -/
def State.lineClear (s : State) (site : Nat) (bad : SiteSt → Bool) : Bool :=
  (List.range 720).all fun i =>
    (siteRow i != siteRow site && siteCol i != siteCol site) || !(bad (s.site i))

/-- Ports and ring nodes whose primary router this is go to their alternate site (R210). -/
def State.sayAlternates (s : State) (site : Nat) : State :=
  let s := (List.range 32).foldl (fun s p =>
    if portSite p == site && !(s.site (portAlt p)).dead then
      (s.onMport p fun m => { m with alt := true }).record 0x5007 (p + portAlt p * 65536)
    else s) s
  ringSites.foldl (fun s n =>
    if n.2.1 == site && !(s.site n.2.2).dead then s.record 0x5007 (0x80 + n.1 + n.2.2 * 65536) else s) s

/-- A failed router is bypassed, or made a hole, or can be neither. -/
def State.engageRouter (s : State) (site : Nat) : State × Bool :=
  if (s.site site).dead then (s, true)
  else if s.lineClear site (·.bypassed) then
    (((s.onSite site fun x => { x with bypassed := true }).record 0x5006 site).sayAlternates site, true)
  else if s.lineClear site (·.hole) then
    (((s.onSite site fun x => { x with hole := true }).record 0x6013 site).sayAlternates site, true)
  else (s.onSite site fun x => { x with routerLost := true }, false)

/-- The routers that failed, ascending. -/
def routersOf (ds : List Damage) : List Nat :=
  (sortNats (ds.filterMap fun d => match d with | .router i => some i | _ => none)).dedup

/-- Action 2 of R311, with whether every failed router found a place. -/
def State.engageRouters (s : State) (ds : List Damage) : State × Bool :=
  (routersOf ds).foldl (fun acc i => let r := acc.1.engageRouter i; (r.1, acc.2 && r.2)) (s, true)

/-! ## Substitution (R293, R302) -/

/-- A logical core stands on another site. -/
def State.moveCore (s : State) (node site : Nat) : State :=
  let i := node % 1024
  s.onSpare fun x => match node / 1024 with
    | 0 => { x with mapM := x.mapM.set i site }
    | 1 => { x with mapV := x.mapV.set i site }
    | _ => { x with mapS := x.mapS.set i site }

/-- The shortfall with a core on a candidate site, and how many hops are short. -/
def State.sigma (s : State) (node site : Nat) : Nat × Nat := ((s.moveCore node site).trialHops).shortfall

/-- Spare M-sites of a row that may take a core: none in Lantern recovery before (R156). -/
def State.candidates (s : State) (row : Nat) : List Nat :=
  (rowSites row).filter fun i => s.freeM i && !(s.site i).lantern

/-- The candidate with the least shortfall, then the least column distance, then the lowest site. -/
def State.chooseSpare (s : State) (node from_ : Nat) : Option Nat :=
  let key := fun i => (s.sigma node i).1 * 2 ^ 20 + (max (siteCol i) (siteCol from_) - min (siteCol i) (siteCol from_)) * 1024 + i
  (sortBy (fun a b => a.1 ≤ b.1) ((s.candidates (siteRow from_)).map fun i => (key i, i))).head?.map (·.2)

/-- The spare for a core that stands on a site. -/
def State.spareFor (s : State) (node from_ : Nat) : Option Nat :=
  if node < 1024 then s.chooseSpare node from_
  else s.universalFor (s.spare.mapV ++ s.spare.mapS) (siteRow from_)

/-- A spare is engaged: 0x6004, and 0x6005 when hops are short. -/
def State.engage (s : State) (node from_ site : Nat) : State :=
  let g := s.sigma node site
  let s := (s.moveCore node site).incFld Fld.SPARE_COUNTS_SUBSTITUTIONS
  let s := s.record 0x6004 (from_ + site * 2 ^ 16 + (if g.1 == 0 then 2 ^ 31 else 0))
  if g.1 == 0 then s else s.record 0x6005 (g.2 + g.1 * 2 ^ 32)

/-- Sites that serve a core and no longer work, ascending. -/
def State.lostSites (s : State) : List Nat :=
  (List.range 720).filter fun i => !s.working i && (s.serves i).isSome

/-- Action 3 of R311: what could not be served is left for action 4. A spare that takes over from a core in Lantern
recovery ends it (R156). -/
def State.substitute (s : State) : State :=
  s.lostSites.foldl (fun s i =>
    match s.serves i with
    | some node => match s.spareFor node i with
      | some site =>
        let s := s.engage node i site
        if (s.site i).lantern then s.record 0x3005 i else s
      | none => s
    | none => s) s

/-- A core in Lantern recovery moves to a spare at a later boundary (R156). -/
def State.endLantern (s : State) : State :=
  (List.range 720).foldl (fun s i =>
    if (s.site i).lantern && s.working i then
      match s.serves i with
      | some node => match s.spareFor node i with
        | some site => ((s.engage node i site).record 0x3005 i).reallocHops
        | none => s
      | none => s
    else s) s

/-! ## Re-qualification (R313) -/

/-- A requested test begins. -/
def State.beginRequal (s : State) : State :=
  match s.spare.requalAsk with
  | some i =>
    let s := s.onSpare fun x => { x with requalAsk := none, requalOn := some i }
    (s.onSite i fun x => { x with testing := true }).setFlag Fld.SPARE_STAT_REQUAL_BUSY true
  | none => s

/-- A site that passed joins the pool; behind a bypass or hole it waits for the next plan. -/
def State.applyRequal (s : State) : State :=
  let s := s.spare.requalPassed.foldl (fun s i =>
    if (s.site i).fenced || (s.site i).reason != 0 || (s.site i).testing then
      let s := s.onSite i fun x => { x with
        reason := 0, fenced := false, testing := false, requalified := true, charged := [] }
      (s.onMaps fun m => ⟨m.failed.filter (·.1 != i), i :: m.requal.erase i⟩).record 0x600C i
    else s) s
  (s.onSpare fun x => { x with requalPassed := x.requalPassed.filter fun i => (s.site i).dead }).showSpares

/-- What a boundary does about re-qualification, or at once with no run in progress. -/
def State.requalNow (s : State) : State := s.applyRequal.beginRequal.showShape

/-! ## Fallback shapes (R305) -/

/-- The lowest tile-aligned address of a port above every residence there. -/
def PlanSt.topOf (p : PlanSt) (port : Nat) : Nat :=
  (p.res.filter fun r => r.tier != 0 && r.port == port).foldl (fun a r => max a (tile (r.addr + p.data.footprint r.block))) 0

/-- Residences on ports out of use are dealt in turn to the surviving ports of their tier (R308, R309). -/
def State.dealTier (s : State) (tier : Nat) : State :=
  let ports := (tierPorts tier).filter s.portUsable
  let lost := fun (r : Residence) => r.tier == tier && !s.portUsable r.port
  let moving := sortBy (fun a b => a.block ≤ b.block) (s.plan.res.filter lost)
  let keep : State := { s with plan := { s.plan with res := s.plan.res.filter fun r => !lost r } }
  (moving.zipIdx.foldl (fun (s : State) x =>
    let port := ports.getD (x.2 % max 1 ports.length) 0
    let r : Residence := { x.1 with port := port, addr := s.plan.topOf port }
    { s with plan := { s.plan with res := s.plan.res ++ [r] } }) keep)

/-- Both tiers dealt, and whether everything fits (R308). -/
def State.deal (s : State) : State × Bool :=
  let s := (s.dealTier 1).dealTier 2
  (s, (s.checkCapacity s.plan.data s.plan.sel { s.plan.shape with res := s.plan.res }).isNone)

/-- A port out of use on which a shape places a block. -/
def State.unfitPort (s : State) (sh : ShapeP) : Nat :=
  ((sh.res.find? fun r => r.tier != 0 && !s.portUsable r.port).map (·.port)).getD 0

/-- A shape of the running plan is selected for the sites still working and mapped; false when none fits, or when its
residences do not fit the memory in use (R308). -/
def State.fallback (s : State) : State × Bool :=
  match (s.plan.data.select s.fillable).bind fun sel =>
      (s.plan.data.shapes.find? (·.1 == sel)).map fun x => (sel, x.2) with
  | some (sel, sh) =>
    let laid : State := { s with plan := { s.plan with sel := sel, shape := sh, res := sh.res } }
    let d := ((laid.takeShape sel sh).setFlag Fld.DEV_STAT_SHAPE_REDUCED true).deal
    if d.2 then
      let s := d.1.plan.res.foldl State.placeBlock d.1
      let cores := (s.plan.data.nodes sh.n).map fun n => (s.core n).getD (CoreSt.start n)
      let s := (s.onEx fun x => { x with cores := cores }).remap sh.n
      (s.allocPlan.record 0x6006 (sh.n + sel * 65536), true)
    else (s.record 0x6014 (s.unfitPort sh), false)
  | none => (s, false)

/-- Actions 3 and 4 of R311: spares for cores that stand on lost sites, then a fallback shape; false when the run is to
pause. A core in Lantern recovery that a new mapping gives unsuitable blocks fails in its turn (R156). -/
def State.coverSites : Nat → State → State × Bool
  | 0, s => (s, false)
  | n + 1, s =>
    let s := (s.lanternUnfit.foldl (fun s i => s.declareFailed i 5) s).substitute
    match s.lostSites.filterMap s.serves with
    | [] => (s, true)
    | nodes =>
      if nodes.any (1024 ≤ ·) then (s, false)
      else
        let f := s.fallback
        if f.2 && !f.1.lanternUnfit.isEmpty then State.coverSites n f.1 else f

/-! ## Ending a run, pausing (R306) -/

/-- Writes held until a step boundary (R36, R316). -/
def State.heldWrites (s : State) : State :=
  s.boundaryLimits.onSpare fun x => { x with effWdog := s.fld Fld.SPARE_WDOG_CYCLES }

/-- A site that moved out for a self-test whose step does not come goes back to the pool. -/
def State.dropSelftest (s : State) : State :=
  match s.spare.selftest with
  | some i => (s.onSpare fun x => { x with selftest := none }).onSite i fun x => { x with testing := false }
  | none => s

/-- A run ends for any reason: its order completes, RUN_NEXT_STEP holds the step to come, and step time stops
(R39, R56, R266). What waited for a boundary is applied (R36, R243, R313). -/
def State.endRun (s : State) (code payload next : Nat) : State :=
  let s := match s.stept.run.bind fun r => s.order r.seq with
    | some o => s.complete o code payload
    | none => s
  let s := (s.setFld Fld.RUN_NEXT_STEP_STEP next).endRunTime
  let s := (s.setFlag Fld.DEV_STAT_RUNNING false).onStep fun x => { x with stepOn := false }
  let s := s.onEx fun x => { x with sweepOn := false, stepEnded := false }
  let s := (s.onSpare fun x => { x with damage := [] }).onLog fun l => { l with rerun := false, abandoned := false }
  s.dropSelftest.heldMode.heldWrites.requalNow

/-- LAST_STEP of the run in progress. -/
def State.lastStep (s : State) : Nat := (s.stept.run.map (·.last)).getD 0

/-- The step that the state of an idle device enters: RUN_NEXT_STEP, or 0 while that is all ones (log 20). -/
def State.idleNext (s : State) : Nat :=
  if s.reg .RUN_NEXT_STEP == BitVec.allOnes 64 then 0 else s.fld Fld.RUN_NEXT_STEP_STEP

/-- Corrected memory errors and ghost flits of the step are recorded (R215, R232). -/
def State.reportTraffic (s : State) : State :=
  let l := s.slog
  let s := l.corrected.foldl (fun s x => s.record 0x5003 (x.1 + min x.2 (2 ^ 32 - 1) * 2 ^ 32)) s
  let s := l.ghosts.foldl (fun s x => s.record 0x5005 (x.1 + min x.2 (2 ^ 32 - 1) * 2 ^ 32)) s
  let s := if s.sec.refusedStep == 0 then s else s.record 0x8005 s.sec.refusedStep
  let s := if s.ports.bar2Drops == 0 then s else s.record 0x7006 s.ports.bar2Drops
  let s := s.onLog fun l => { l with corrected := [], ghosts := [] }
  { s with
    sec := { s.sec with refusedStep := 0 }
    ports := { s.ports with bar2Drops := 0 } }

/-- The run pauses with a context of the state that enters the next step. With no run in progress and no step under way
RUN_NEXT_STEP stands: the model's choice (log 38). -/
def State.pauseAt (s : State) (b : List Byte) : State :=
  let idle := !s.runOn && !s.stept.stepOn
  let next := s.reg .RUN_NEXT_STEP
  let s := s.reportTraffic.onEx fun x => { x with chain := x.shadow }
  let s := s.startTransfer b 0 1 s.policyNow
  let s : State := { s with dig := { s.dig with rerunTo := none, script := [], rollCount := 0 } }
  let s := (s.endRun 0x6003 s.lastStep (ctxNext b)).record 0x6003 s.fillable
  let s := if idle then s.setReg .RUN_NEXT_STEP next else s
  (s.setFlag Fld.SPARE_STAT_PAUSED true).setFlag Fld.DEV_STAT_SHAPE_REDUCED true

/-- The run pauses: the step in flight is not run, and the context is the step shadow. -/
def State.pause (s : State) : State :=
  let next := if s.stept.stepOn then s.stepNow else s.idleNext
  s.oldCounts.pauseAt (s.context s.ex.shadow next false s.uncovered s.lastMode)

/-- The run pauses at the rollback limit: the context is the latest complete one, or the state that the plan
started from when there is none. -/
def State.pauseLimit (s : State) : State :=
  let first := (s.stept.run.map (·.first)).getD 0
  let s := s.toBase
  s.pauseAt (s.baseContext.getD (s.context s.ex.shadow first false s.uncovered s.lastMode))

/-! ## Re-execution (R28, R300) -/

/-- Damaged plan data of a port. -/
def Damage.planTile : Damage → Option Nat
  | .tile p 0 => some p
  | _ => none

/-- Plan data damaged at a port is written again (R307). -/
def State.rewritePlan (s : State) (ds : List Damage) : State :=
  (ds.filterMap Damage.planTile).foldl (fun s p =>
    (s.plan.res.filter fun r => r.tier != 0 && r.port == p).foldl State.placeBlock s) s

/-- The step is run again from the step shadow; a capture made in it is to be replaced (R176). Sweeps, changes, conflict
totals and MALA counts of the execution given up stay counted: R121 does not say, and the model counts what the cores
did (log 27). Each shadow copy that could not be read is written again from the other (R307). -/
def State.reExecute (s : State) : State :=
  let l := s.slog
  let s : State := { s with ocu := { s.ocu with taken := false, again := s.ocu.taken || s.ocu.again } }
  let s := (s.mendShadows.onEx fun x => { x with chain := x.shadow }).oldCounts.formBetas
  let s := (s.incFld Fld.SPARE_COUNTS_REEXECUTIONS).beginStep l.throughput true
  s.onLog fun x => { x with
    charged := l.charged, restored := l.restored, tainted := l.tainted, ghosts := l.ghosts, corrected := l.corrected
    rerun := false }

/-! ## What is loaded again before steps are (R307, R310) -/

/-- The frames of the latest complete context are to come from a partner: no copy in memory survives, and an ACTIVE
partner that has acknowledged them has not yet returned them all. -/
def State.partnerOwes (s : State) (port : Nat) : Bool :=
  decide (s.effectFseq s.plan.seq < s.jrnl.ctxFseq) && s.deviceCopy.isNone && !s.jrnl.ctxParts.isEmpty &&
  s.fld (jState port) == 3 && decide ((s.jrnl.ctxParts.foldl max 0) ≤ s.fld (jAcked port)) &&
  !s.jrnl.ctxParts.all fun q => s.jrnl.replayed.any (·.fseq == q)

/-- The first partner that can return the context is asked for it. -/
def State.askPartner (s : State) : State :=
  match [0, 1].find? s.partnerOwes with
  | some port =>
    let q := s.jrnl.ctxParts
    (s.onPort port fun p => { p with fetchDue := some (q.foldl min (q.headD 0), q.foldl max 0) }).sendFetch port
  | none => s

/-- Referenced bulk that is waited for: of the plan and its binds, and in a rollback of restored contexts. -/
def State.reloadOps (s : State) : List Nat := if s.dig.reload == 1 then [1, 2, 6] else [1, 2]

/-- What was waited for has come: plan data is written again and the step run again, or the rollback runs. -/
def State.reloadEnd (s : State) : State :=
  let was := s.dig.reload
  let s : State := { s with
    dig := { s.dig with reload := 0 }
    jrnl := { s.jrnl with frames := if s.jrnl.replayed.isEmpty then s.jrnl.frames else mergeFrames s.jrnl.frames s.jrnl.replayed, replayed := [] } }
  if was == 1 then s.rerunAll
  else
    let ds := s.spare.damage
    let s := (s.rewritePlan ds).onSpare fun x => { x with damage := ds.filter fun d => d.planTile.isNone }
    if s.stept.stepOn then s.reExecute else s

/-- A wait for bulk or for a partner goes on, or ends. -/
def State.reloadGo (s : State) : State :=
  if s.dig.reload == 0 || s.boot.recovering.isSome then s
  else
    let x := s.fetchNeeded s.reloadOps s.plan.seq
    if !x.2 || (s.dig.reload == 1 && [0, 1].any x.1.partnerOwes) then x.1 else x.1.reloadEnd

/-- Bulk and, for a rollback, the context are asked for. -/
def State.startReload (s : State) (why : Nat) : State :=
  let s := (({ s with dig := { s.dig with reload := why } } : State)).forgetBulk
  (if why == 1 then s.askPartner else s).reloadGo

/-- A wait can end. -/
def State.reloadDue (s : State) : Bool :=
  s.cUp && s.dig.reload != 0 && s.boot.recovering.isNone && (s.fetchNeeded s.reloadOps s.plan.seq).2 &&
  !(s.dig.reload == 1 && [0, 1].any s.partnerOwes)

/-! ## Rollback (R310) -/

/-- The latest complete context is restored and what followed it is run again; the third rollback before the
run passes the step of the first pauses. With no run in progress the steps since the context run again, and no other. -/
def State.rollback (s : State) : State :=
  let k := s.stepNow
  let n := s.dig.rollCount + 1
  let first := if s.dig.rollCount == 0 then k else s.dig.rollStep
  let s := s.reportTraffic.incFld Fld.SPARE_COUNTS_ROLLBACKS
  let s : State := { s with dig := { s.dig with rollStep := first, rollCount := n } }
  let s := s.onEx fun x => { x with sweepOn := false, stepEnded := false }
  let s := s.oldCounts.onStep fun x => { x with stepOn := false }
  if 3 ≤ n then (s.record 0x6012 k).pauseLimit
  else
    let upTo := if s.runOn then k else k + 1
    let s : State := { s with dig := { s.dig with rerunTo := some (max upTo (s.dig.rerunTo.getD 0)) } }
    s.startReload 1

/-! ## Loss of a memory part (R308, R309) -/

/-- A tier's context copy is lost; its ring is written again from the other ring (R307). -/
def State.loseTier (s : State) (tier : Nat) : State :=
  let j := s.jrnl
  { s with jrnl := { j with
      ctxHbm := if tier == 1 then none else j.ctxHbm
      ctxLp := if tier == 1 then j.ctxLp else none
      frames := (j.frames.filter fun f => if tier == 1 then f.inLp else f.inHbm).map fun f =>
        { f with inHbm := true, inLp := true } } }

/-- What a port held is gone. -/
def State.wipePort (s : State) (port : Nat) : State :=
  ({ s with mem := s.mem.filter fun c => c.1 / 2 ^ 48 != port } : State).onMport port fun m => { m with checks := [] }

/-- A stack goes out of use. -/
def State.loseStack (s : State) (n : Nat) : State :=
  if (s.mport (2 * n)).state == 2 then s
  else
    let out := fun (m : MPort) => { m with state := 2, queue := [], reads := [], writes := [], entries := [] }
    let s := (((s.onMport (2 * n) out).onMport (2 * n + 1) out).wipePort (2 * n)).wipePort (2 * n + 1)
    let left := ((List.range 8).filter fun k => (s.mport (2 * k)).state != 2).length
    let s := (s.setFld Fld.DEV_CAPS_HBM_STACKS left).setFld Fld.DEV_CAPS_HBM_GB (36 * left)
    ((s.setFlag Fld.DEV_STAT_MEM_DEGRADED true).loseTier 1).record 0x6007 n

/-- A package is lost: the spare, when it is free, takes its place on the port, else the port goes out of use. -/
def State.losePackage (s : State) (port : Nat) : State :=
  if (s.mport port).state == 2 || (s.mport port).state == 1 then s
  else
    let s := (s.loseTier 2).wipePort port
    if !s.spare.lpddrSpareUsed then
      let s := (s.onSpare fun x => { x with lpddrSpareUsed := true }).setFlag Fld.SPARE_UNITS_LPDDR_SPARE true
      let s := s.onMport port fun m =>
        { m with poison := [], poisonFull := false, queue := [], reads := [], writes := [], entries := [] }
      s.record 0x6008 (port + 256)
    else
      let s := s.onMport port fun m => { m with state := 2, queue := [], reads := [], writes := [], entries := [] }
      let s := s.setFld Fld.DEV_CAPS_LPDDR_PORTS (s.fld Fld.DEV_CAPS_LPDDR_PORTS - 1)
      let s := s.setFld Fld.DEV_CAPS_LPDDR_GB (s.fld Fld.DEV_CAPS_LPDDR_GB - 32)
      (s.setFlag Fld.DEV_STAT_MEM_DEGRADED true).record 0x6008 port

/-- A memory port that routers cut off, for the first time (R303). -/
def State.portCut (s : State) (p : Nat) : Bool :=
  s.portUsable p && !(s.mport p).cut && (s.site (portSite p)).dead && (s.site (portAlt p)).dead

/-- The memory parts that damage or routers without a place have lost, in the order they were found, by a port. -/
def State.loseParts (s : State) (ds : List Damage) : State × List Nat :=
  let cut := (List.range 32).filter s.portCut
  let named := ds.filterMap fun d => match d with
    | .stack n => some (2 * n)
    | .package p => some p
    | _ => none
  let s := cut.foldl (fun s p => s.onMport p fun m => { m with cut := true }) s
  ((named ++ cut).foldl (fun s p => if p < 16 then s.loseStack (p / 2) else s.losePackage p) s, named ++ cut)

/-! ## Self-test rotation (R314) -/

/-- Spare M-sites that a row could still give (R293). -/
def State.rowSpares (s : State) (row : Nat) : Nat := (s.candidates row).length

/-- The next active M-site to test, with the spare that its core moves to. -/
def State.selftestPick (s : State) : Option (Nat × Nat × Nat) :=
  let order := (List.range 720).map fun k => (s.spare.selftestNext + k) % 720
  order.findSome? fun i =>
    if siteKind i == 0 && s.working i && 2 ≤ s.rowSpares (siteRow i) then
      match s.serves i with
      | some node =>
        match s.chooseSpare node i with
        | some site => if (s.sigma node site).1 == 0 then some (i, node, site) else none
        | none => none
      | none => none
    else none

/-- A site moves out for the self-test of the step to come. -/
def State.moveOut (s : State) : State :=
  match s.selftestPick with
  | some (i, node, site) =>
    let s := (s.engage node i site).onSite i fun x => { x with testing := true }
    (s.onSpare fun x => { x with selftest := some i, selftestNext := (i + 1) % 720 }).reallocHops
  | none => s.record 0x6011 0

/-- A step that holds a SELFTEST window comes next: one site moves out (R314). -/
def State.selftestFor (s : State) (step : Nat) : State :=
  if (s.windowsOf wSelftest step).isEmpty then s else s.moveOut

/-- The result of the self-test in the step that has ended: a site that passed joins the pool, and one that failed is to
be declared failed. -/
def State.selftestResult (s : State) (ok : Bool) : State × Option Nat :=
  match s.spare.selftest with
  | some i =>
    let s := s.dropSelftest
    if ok then (s.onSite i fun x => { x with requalified := x.requalified || !s.fusedSpare i }, none) else (s, some i)
  | none => (s, none)

/-! ## Damaged data (R300, R307) -/

/-- The buddy of a site (R299). -/
def buddy (site : Nat) : Nat := if siteCol site == 35 then site - 1 else site + 1

/-- The first site whose shadow and mirror are both lost: it and its buddy failed in this step, or its core's copies are
unreadable in both areas (R300; the latter is read from the rule, log 37). -/
def State.shadowLost (s : State) (new : List Nat) : Option Nat :=
  (List.range 720).find? fun i =>
    (new.contains i && new.contains (buddy i)) || ((s.site i).shadowBad && (s.site i).mirrorBad)

/-- A port whose tiles held chain state that entered the step. -/
def tileLost (ds : List Damage) : Option Nat :=
  ds.findSome? fun d => match d with | .tile p 2 => some p | _ => none

/-! ## Settling a step (R28 action 1, R311) -/

/-- The sites that failed in the step. -/
def State.newlyFailed (s : State) (before : List Nat) (ds : List Damage) : List Nat :=
  (List.range 720).filter fun i => !s.working i && (!before.contains i ||
    ds.any fun d => match d with | .failed j _ => j == i | _ => false)

/-- What actions 1 to 5 of R311 leave: the state, whether the run can go on, the sites that failed and whether one
of them served a core. -/
structure Settled where
  st : State
  fits : Bool
  failed : List Nat
  moved : Bool
  deriving DecidableEq, Repr

/-- Actions 1 to 5 of R311. A fallback shape has allocated its hops already. -/
def State.settleSites (s : State) (ds : List Damage) (selftest : Option Nat) : Settled :=
  let before := (List.range 720).filter fun i => !s.working i
  let r := (s.declareAll ds selftest).engageRouters ds
  let f := if s.planOn && !s.flag Fld.SPARE_STAT_PAUSED then r.1.coverSites 720 else (r.1, true)
  let st := if f.1.plan.sel == s.plan.sel then f.1.reallocFrom s else f.1
  ⟨st.showSpares, r.2 && f.2, r.1.newlyFailed before ds, !r.1.lostSites.isEmpty⟩

/-- Residences on lost parts are dealt anew and what followed the latest context is run again, or the run pauses. -/
def State.movePart (s : State) (port : Nat) : State :=
  let d := s.deal
  if d.2 then d.1.rollback else (d.1.record 0x6014 port).pause

/-- Damaged plan data is written again, once referenced bulk is at hand, and the step in flight is run again. -/
def State.mendPlan (s : State) (ds : List Damage) : State :=
  let tiles := ds.filter fun d => d.planTile.isSome
  if tiles.isEmpty then if s.stept.stepOn then s.reExecute else s
  else (s.onSpare fun x => { x with damage := x.damage ++ tiles }).startReload 2

/-- Action 6 of R311: a pause, a rollback, a re-execution, or nothing more; true when the step stands. -/
def State.settleRun (s : State) (ds : List Damage) (selftest : Option Nat) : State × Bool :=
  let rerun := s.slog.rerun
  let x := (s.onSpare fun y => { y with damage := [] }).settleSites ds selftest
  let (s, parts) := x.st.loseParts ds
  if !x.fits then (s.pause, false)
  else match parts with
    | p :: _ => (s.movePart p, false)
    | [] =>
      if rerun || x.moved then
        match (s.shadowLost x.failed).or ((tileLost ds).map portSite) with
        | some i => ((s.record 0x600A i).rollback, false)
        | none => (s.mendPlan ds, false)
      else (s, true)

/-- The step in progress is one of those run again before the last of them. -/
def State.inRerun (s : State) : Bool :=
  match s.dig.rerunTo with
  | some k => !(s.stepNow == k && s.dig.script.isEmpty)
  | none => false

/-- A step that stands: a spare takes over from a core in Lantern recovery (R156), and a site moves out for the self-test
of the step to come (action 7 of R311). -/
def State.afterSettled (s : State) : State :=
  let s := s.endLantern
  if s.stepNow < s.lastStep then s.selftestFor (s.stepNow + 1) else s

/-- Action 1 of R28: what the step left behind is settled, with the result of its self-test; true when the step
stands. -/
def State.settle (s : State) (selfOk : Bool) : State × Bool :=
  let x := s.selftestResult selfOk
  let r := if x.1.slog.rerun || !x.1.spare.damage.isEmpty || x.2.isSome then x.1.settleRun x.1.spare.damage x.2
    else (x.1, true)
  if r.2 && !r.1.inRerun then (r.1.afterSettled, true) else r

/-- Faults with no step in flight and no run in progress are settled at once (log 21): sites are covered, or the device
pauses; memory parts lost and chain state lost with them cost a rollback. While the device is paused, only the plan's data
is kept whole: its chains go on from the pause context (log 38). -/
def State.settleIdle (s : State) : State :=
  if s.engaged || s.stept.stepOn then s
  else
    let ds := s.spare.damage
    let x := (s.onSpare fun y => { y with damage := [] }).settleSites ds none
    let (s, parts) := x.st.loseParts ds
    let s := s.onLog fun l => { l with rerun := false }
    if !s.planOn then s.showShape.showSpares
    else if s.flag Fld.SPARE_STAT_PAUSED then
      (if parts.isEmpty then s.rewritePlan ds else s.deal.1.plan.res.foldl State.placeBlock s.deal.1).showSpares
    else if !x.fits then s.pause.showSpares
    else match parts with
      | p :: _ => (s.movePart p).showSpares
      | [] => match (s.shadowLost x.failed).or ((tileLost ds).map portSite) with
        | some i => ((s.record 0x600A i).rollback).showSpares
        | none => (s.mendPlan ds).showSpares

/-! ## Requests to re-qualify (R313) -/

/-- The end of the test in progress falls in this cycle and still waits in the queue. -/
def State.requalEnds (s : State) : Bool :=
  s.pending.any fun c => match c with | .reQualificationDone t _ => decide (t ≤ s.now) | _ => false

/-- A test of a site is asked for. -/
def State.askRequal (s : State) (i : Nat) : State :=
  let s := (s.swSet Fld.SPARE_CTL_RE_QUALIFY).onSpare fun x => { x with requalAsk := some i }
  if s.runOn then s else s.requalNow

/-- A write to SPARE_CTL: LOW, and a request for the site that the writing port's SPARE_SEL names. One in the cycle in
which a test ends starts the action again (R12). -/
def State.spareCtl (s : State) (a : RegAcc) : State :=
  let s := (s.writeFields .SPARE_CTL a).noteConfig .SPARE_CTL a.port.source
  if accSets a Fld.SPARE_CTL_RE_QUALIFY then
    let i := bitsOf (s.reg (Reg.at a.port .SPARE_SEL)).toNat 0 10
    let src : Source := if a.port == .host then .host else .mgmt
    let x := s.site i
    let ended := s.spare.requalEnd == some (s.now, i)
    if i < 720 && s.flag Fld.SPARE_STAT_REQUAL_BUSY && s.requalEnds then
      (s.swSet Fld.SPARE_CTL_RE_QUALIFY).onSpare fun x => { x with requalNext := some i }
    else if 720 ≤ i || !(x.reason != 0 || x.dead || ended) || s.flag Fld.SPARE_STAT_REQUAL_BUSY then s.record 0x600E i src
    else s.askRequal i
  else s

/-- RE_QUALIFY. -/
def execReQualify (t : Nat) (acc : RegAcc) (s : State) : Result :=
  s.access t acc .SPARE_CTL fun s => s.spareCtl acc

/-- A site fails its re-qualification: it stays failed, or is declared failed when only its router had been (R297). -/
def State.failRequal (s : State) (i : Nat) : State :=
  let s := s.onSite i fun x => { x with testing := false }
  if (s.site i).reason == 0 then s.declareFailed i 7
  else
    (s.onSite i fun x => { x with reason := 7 }).onMaps fun m =>
      { m with failed := (i, 7) :: m.failed.filter (·.1 != i) }

/-- The result of a test: a pass is applied at the next boundary, or at once with no run in progress; which test failed
the spec leaves to the test (log 5). -/
def State.requalResult (s : State) (i : Nat) (pass : Bool) : State :=
  if pass then
    let s := s.onSpare fun x => { x with requalPassed := i :: x.requalPassed }
    if s.runOn then s else s.requalNow
  else
    let v := s.freshVal
    (v.2.failRequal i).record 0x600D (i + v.1.toNat % 16 * 4096)

/-- RE_QUALIFICATION_DONE: the test of a site has ended. -/
def execReQualificationDone (t : Nat) (pass : Bool) (s : State) : Result :=
  s.when t (fun s => s.cUp && s.spare.requalOn.isSome) fun s =>
    match s.spare.requalOn with
    | some i =>
      let next := s.spare.requalNext
      let s := (s.onSpare fun x => { x with requalOn := none, requalEnd := some (s.now, i), requalNext := none }).setFlag
        Fld.SPARE_STAT_REQUAL_BUSY false
      let s := (s.hwClear Fld.SPARE_CTL_RE_QUALIFY).requalResult i pass
      match next with
      | some j => s.askRequal j
      | none => s
    | none => s

/-! ## Monitors and switches (R292, R296, R298) -/

/-- ISLAND_MONITOR: a core or a router has lost supply or clock. -/
def execIslandMonitor (t site : Nat) (router : Bool) (s : State) : Result :=
  if 720 ≤ site then .fault .noSuchUnit
  else s.when t (fun s => s.cUp && !s.unused site) fun s =>
    (if router then (s.onSite site fun x => { x with routerOff := true }).damage (.router site)
     else if (s.site site).reason != 0 then s
     else
       let s := s.declareFailed site 1
       if (s.serves site).isSome then s.damage (.failed site 1)
       else (s.onSpare fun x => { x with damage := x.damage ++ [.failed site 1] }).showSpares).settleIdle

/-- The participant that alone is missing at a barrier whose watchdog has expired. -/
def State.watchdogDue (s : State) (id : Nat) : Option (Nat × Nat) :=
  match s.ex.barriers.find? (·.id == id) with
  | some b =>
    match s.missing b with
    | [n] => if !b.arrived.isEmpty && b.lastAt + s.spare.effWdog ≤ s.ccyc then
        (s.siteOf (n / 1024) (n % 1024)).map fun i => (n, i) else none
    | _ => none
  | none => none

/-- CORE_WATCHDOG: the site is declared failed and fenced, the barrier released, the rest of the step
abandoned (R298). -/
def execCoreWatchdog (t barrier : Nat) (s : State) : Result :=
  s.when t (fun s => s.sweeping && (s.watchdogDue barrier).isSome) fun s =>
    match s.watchdogDue barrier with
    | some (_, site) =>
      let s := (s.declareFailed site 2).damage (.failed site 2)
      (s.release barrier).onLog fun l => { l with abandoned := true }
    | none => s

/-- PLL_SWITCH: a field runs on its standby PLL; a field whose standby fails too has no PLL. -/
def execPllSwitch (t field : Nat) (s : State) : Result :=
  if 6 ≤ field then .fault .noSuchUnit
  else s.when t (fun s => s.pwr.rails) fun s =>
    if s.pwr.pllStandby.contains field then
      if s.pwr.noPll.contains field then s
      else { s with pwr := { s.pwr with noPll := field :: s.pwr.noPll } }
    else
      let s : State := { s with pwr := { s.pwr with pllStandby := field :: s.pwr.pllStandby } }
      (s.setFld Fld.SPARE_UNITS_PLL s.pwr.pllStandby.length).recordSpared 3 0

/-- REGULATOR_SWITCH: a phase is taken out of use. -/
def execRegulatorSwitch (t : Nat) (s : State) : Result :=
  s.when t (fun s => s.pwr.rails) fun s => (s.incFld Fld.SPARE_UNITS_VR_PHASES).recordSpared 4 0

end Sys2Proof.Machine
end

