-- ==== Sys2Proof/Machine/Orders.lean ====
section
/-! DEFINITION. Orders at execution (R266, R267): what each waits for, and PLAN_LOAD, DATA_BIND, SEED_SET,
RUN, CHECKPOINT, RESTORE, MODE_SET and QUIESCE. -/

namespace Sys2Proof.Machine

/-- The order has ended. -/
def Order.ended (o : Order) : Bool := o.phase == .done || o.phase == .released

/-- The order has taken effect, or can no longer. -/
def Order.inEffect (o : Order) : Bool := o.effect.isSome || o.ended

/-- Unreleased orders with a lower SEQ. -/
def State.earlier (s : State) (o : Order) : List Order := s.intake.orders.filter fun x => decide (x.seq < o.seq)

/-- Every earlier order with one of some opcodes is in effect. -/
def State.effectsBefore (s : State) (o : Order) (ops : List Nat) : Bool :=
  (s.earlier o).all fun x => !(ops.contains x.op) || x.inEffect

/-- ACTION of a PROBE order (R358). -/
def Order.action (o : Order) : Nat := fieldAt o.body 0 1

/-- What an order waits for (R266, R358); a ROW_SAMPLE's conditions stand with it (R118). -/
def State.waitsMet (s : State) (o : Order) : Bool :=
  match o.op with
  | 2 => s.effectsBefore o [1, 6, 2]
  | 3 => s.effectsBefore o [1, 6, 3]
  | 4 => s.effectsBefore o [1, 6, 2, 3, 7] && (s.earlier o).all fun x => x.op != 4 || x.ended
  | 5 => (s.earlier o).all fun x => x.op == 4 || x.inEffect
  | 7 => s.effectsBefore o [1]
  | 8 => true
  | 9 => ((s.earlier o).all fun x => x.op != 9 || x.ended) &&
      (o.action < 4 || o.action == 8 || s.effectsBefore o [1, 6, 2, 3, 7])
  | _ => (s.earlier o).all Order.ended

/-- An accepted order of an opcode that may execute now. -/
def State.executable (s : State) (seq op : Nat) : Option Order :=
  (s.order seq).filter fun o => o.op == op && o.phase == .accepted && s.waitsMet o && s.boot.recovering.isNone && s.cUp

/-- The order with its bulk: contained, or fetched at execution (R271). -/
def State.withBulk (s : State) (o : Order) (f : State → List Byte → State) : State :=
  if o.bulkKind != 2 then f s (o.bulk.getD [])
  else match o.bulk with
    | some d => f s d
    | none => match s.bulkOf o.raw (2 ^ 40) with
      | .wait s => s
      | .bad c p => s.rejectOrder o c p
      | .ok d => f (s.onOrder o.seq fun x => { x with bulk := some d }) d

/-- A row that executes the order it names, when it may. -/
def State.orderRow (s : State) (t seq op : Nat) (f : State → Order → State) : Result :=
  s.when t (fun s => (s.executable seq op).isSome) fun s =>
    match s.executable seq op with
    | some o => f s o
    | none => s

/-- DATA_BIND: at execution, or at the next boundary of a run in progress, with its payload fetched. -/
def execDataBind (t seq : Nat) (s : State) : Result :=
  s.orderRow t seq 2 fun s o => s.withBulk o fun s d => if s.engaged then s else s.doBind o d

/-- SEED_SET: at execution, or at the next boundary of a run in progress (R188). -/
def execSeedSet (t seq : Nat) (s : State) : Result :=
  s.orderRow t seq 3 fun s o => if s.engaged then s else s.doSeed o

/-- A BOUND block has never been bound (R77). -/
def State.unbound (s : State) : Bool :=
  s.plan.data.blocks.zipIdx.any fun d => d.1.bound && !(s.plan.binds.any (·.block == d.2))

/-- Why a RUN is refused, if it is (R77, R190, R267, R306). -/
def State.runRefused (s : State) (first : Nat) : Option (Nat × Nat) :=
  if s.flag Fld.SPARE_STAT_PAUSED then some (0x6003, s.fillable)
  else if s.reg .RUN_NEXT_STEP != BitVec.allOnes 64 && first != s.fld Fld.RUN_NEXT_STEP_STEP then
    some (0x1009, s.fld Fld.RUN_NEXT_STEP_STEP)
  else if !s.seeded || !s.planOn then some (0x4001, 0)
  else if s.unbound then some (0xA013, 0)
  else none

/-- A mark applied in the cycle in which a RUN executes, before it, counts for the run's first step (R45). -/
def State.markNow (s : State) (first : Nat) : Option Mark :=
  match s.stept.current, s.stept.lastMark with
  | some m, some (c, _) => if s.stepSrc == 0 && c == s.now && first ≤ m.step then some m else none
  | _, _ => none

/-- A RUN executes: its first step starts under R45 and R39. -/
def State.doRun (s : State) (o : Order) : State :=
  let first := fieldAt o.body 0 8
  match s.runRefused first with
  | some (c, p) => s.rejectOrder o c p
  | none =>
    let s := (s.takesEffect o).onOrder o.seq fun x => { x with phase := .executing }
    let run : RunSt := ⟨o.seq, first, fieldAt o.body 8 8, first, s.now, false⟩
    let early := s.markNow first
    let s := s.onStep fun x => { x with
      run := some run, gen := none, lateCause := 0, current := early, anchor := none
      applied := early.toList.map fun m => (m, some s.now) }
    let s := match early with | some m => s.armWatch m.period | none => s
    s.selftestFor first

/-- RUN. -/
def execRun (t seq : Nat) (s : State) : Result :=
  s.orderRow t seq 4 fun s o => if s.engaged then s else s.doRun o

/-- CHECKPOINT: captured at execution, or at the next boundary of a run in progress. -/
def execCheckpoint (t seq : Nat) (s : State) : Result :=
  s.orderRow t seq 5 fun s o => if s.engaged then s else s.doCheckpoint o s.idleNext

/-- RESTORE. -/
def execRestore (t seq : Nat) (s : State) : Result :=
  s.orderRow t seq 6 fun s o =>
    if s.engaged then s
    else if fieldAt o.body 0 1 == 0 then s.withBulk o fun s d => s.doRestore o d else s.doRestore o []

/-- MODE_SET: at execution, or at the next boundary of a run in progress (R243). -/
def execModeSet (t seq : Nat) (s : State) : Result :=
  s.orderRow t seq 7 fun s o => if s.engaged then s else s.doMode o

/-- Every journal record is durable under its own policy (R266, R274). -/
def State.allDurable (s : State) : Bool := s.jrnl.frames.all fun f => s.durable f.fseq f.policy

/-- QUIESCE: completes once every record is durable; HOLD then holds intake (R267). -/
def execQuiesce (t seq : Nat) (s : State) : Result :=
  s.orderRow t seq 10 fun s o =>
    if s.allDurable then
      let s := s.effectDone o 0
      if fieldAt o.body 0 8 == 1 then s.setFlag Fld.INTAKE_STAT_HELD true else s
    else s

/-- One order whose effect falls at a boundary is applied there (R28 action 3). -/
def State.applyAtBoundary (s : State) (seq : Nat) : State :=
  let at_ (op : Nat) (f : State → Order → State) : State :=
    match s.executable seq op with | some o => f s o | none => s
  match (s.order seq).map Order.op with
  | some 2 => at_ 2 fun s o => s.withBulk o fun s d => s.doBind o d
  | some 3 => at_ 3 State.doSeed
  | some 5 => at_ 5 fun s o => s.doCheckpoint o ((s.stept.run.map (·.next)).getD s.idleNext)
  | some 7 => at_ 7 State.doMode
  | _ => s

/-- Orders applied at a boundary, one at a time, in sequence order. -/
def State.applyOrders (s : State) : State :=
  (sortNats (s.intake.orders.map (·.seq))).foldl State.applyAtBoundary s

end Sys2Proof.Machine
end

