-- ==== Sys2Proof/Machine/PowerStates.lean ====
section
/-! DEFINITION. Power states and debug sessions as they meet at a step boundary (R356, R357, R361 to R364):
a session's end, halting, entry to P2 and P3. -/

namespace Sys2Proof.Machine

/-! ## Halting and sessions -/

/-- The level of the open session. -/
def State.dbgLevel (s : State) : Nat := s.fld Fld.DBG_LEVEL_LEVEL

/-- The cores run again: a step halted between sweeps goes on with its next sweep. -/
def State.resumeCores (s : State) : State :=
  let s := (s.setFlag Fld.DBG_STAT_HALTED false).setFlag Fld.DBG_CTL_RESUME false
  if s.stept.stepOn && !s.ex.sweepOn && !s.ex.stepEnded && !s.slog.abandoned then s.openSweep else s

/-- A session ends: level 0, a halt released, code 0x8002 (R356). -/
def State.closeSession (s : State) (reason : Nat) : State :=
  if s.dbgLevel == 0 then s
  else
    let s := s.setReg .DBG_LEVEL 0
    let s := (s.setFlag Fld.DBG_STAT_HALT_PENDING false).setReg .DBG_CTL 0
    (if s.halted then s.resumeCores else s).record 0x8002 reason

/-! ## Changes of state -/

/-- The power state changes: recorded as 0x8011 and journaled (R361). -/
def State.toPower (s : State) (dst : Nat) : State :=
  if s.power == dst then s.setFlag Fld.PWR_STATE_PENDING false
  else
    let was := s.power
    let s := (s.setFld Fld.PWR_STATE_STATE dst).setFlag Fld.PWR_STATE_PENDING false
    (s.noteOwn .PWR_STATE).record 0x8011 (was + dst * 256)

/-- P0 or P1, by whether a stretch is in effect (R361, R367). -/
def State.runPower (s : State) : Nat := if 256 < s.fld Fld.PWR_STAT_STRETCH then 1 else 0

/-- The snapshot buffer of Oculus is cleared (R364, Z). -/
def State.clearOculus (s : State) : State :=
  let s : State := { s with ocu := { s.ocu with
    cols := [], outs := [], badLimb := none, taken := false, again := false } }
  s.setFlag Fld.OCU_STAT_CAPTURED false

/-- A run is suspended: the context of the state entering the next step, or of the halted state, and the end
of the RUN order (R362). -/
def State.suspend (s : State) : State :=
  if !s.runOn then s
  else
    let b := if s.halted && s.stept.stepOn then
        s.context s.ex.chain s.stepNow true (s.uncovered || s.slog.tainted) s.lastMode
      else s.context s.ex.chain ((s.stept.run.map (·.next)).getD 0) false s.uncovered s.lastMode
    let s := s.startTransfer b 0 1 s.policyNow
    (s.endRun 0x8010 s.lastStep (ctxNext b)).record 0x8010 (ctxNext b)

/-- Entry to P3: a run is suspended; a D2 session ends with the suspend context, or now when there is none; at D1
the snapshot buffer is cleared. What the cores held stays in their shadow areas. -/
def State.enterP3 (s : State) : State :=
  let ran := s.runOn
  let s := s.suspend
  let s := if s.dbgLevel == 1 then s.clearOculus else s
  let s := if ran then s.onEx fun x => { x with chain := x.shadow } else s
  let s := if s.dbgLevel == 2 && !ran then s.closeSession 4 else s
  s.toPower 3

/-- A request that awaited a boundary takes effect (R361). -/
def State.powerBoundary (s : State) : State :=
  if s.flag Fld.PWR_STATE_PENDING then
    match s.fld Fld.PWR_STATE_REQ with
    | 2 => s.toPower 2
    | 3 => s.enterP3
    | _ => s
  else s

end Sys2Proof.Machine
end

