-- ==== Sys2Proof/Machine/Steps.lean ====
section
/-! DEFINITION. The start of a step, the boundary actions and the end of a context's transfer (R28, R45, R252 to
R255, R286, R310). -/

namespace Sys2Proof.Machine

/-! ## STEP_START -/

/-- The step takes the mode in effect; its shadow is the state that enters it, from which a periodic context is
captured when the step holds a CHECKPOINT window (R286). With the mark of a later step already applied, every phase
begins now (R44, R46). -/
def State.startStep (s : State) (n : Nat) (a : Option Nat) (hold : Bool) : State :=
  let s := s.setShadow
  let s := if (s.windowsOf wCheckpoint n).isEmpty then s else s.periodic n
  let s := if s.dig.sinceDue then
      { (s.setFld Fld.MODE_SINCE_STEP n) with dig := { s.dig with sinceDue := false } } else s
  let s := ((s.startClock n a hold).firstGo.beginStep (s.flag Fld.MODE_STAT_MODE) false).sayWidened.atPhase
  if s.stept.applied.isEmpty then s else s.beginPhasesTo (s.phases - 1)

/-- A halt asked for with no run in progress stops the next RUN before its first sweep (R357). -/
def State.haltFirst (s : State) : State :=
  if s.flag Fld.DBG_STAT_HALT_PENDING && (s.ex.sweepOn || s.ex.awaitOpen) then
    (s.onEx fun x => { x with sweepOn := false }).haltNow
  else s

/-- STEP_START. -/
def execStepStart (t : Nat) (s : State) : Result :=
  s.when t (fun s => s.cUp && s.dueStart.isSome && s.boot.recovering.isNone && s.dig.rerunTo.isNone) fun s =>
    match s.dueStart with
    | some (n, a, hold) =>
      let first := (s.stept.run.map (!·.started)).getD false
      let s := s.startStep n a hold
      if first then s.haltFirst else s
    | none => s

/-! ## When boundary actions are due -/

/-- Write-back has ended or the step is abandoned, the journal is flushed, and the DMC can settle faults
(R372). -/
def State.boundaryDue (s : State) : Bool :=
  s.cUp && s.stept.stepOn && s.dig.reload == 0 && (s.slog.abandoned || (s.ex.stepEnded && s.flushDone)) && !s.halted &&
  !(s.sec.dmcDown && (s.slog.rerun || !s.spare.damage.isEmpty))

/-! ## Action 2: the step digest (R252, R253) -/

/-- The flags of the step's digest record. -/
def State.digestFlags (s : State) : Nat :=
  let l := s.slog
  l.throughput.toNat + 2 * l.tainted.toNat + 4 * s.uncovered.toNat + 8 * l.reexec.toNat + 16 * l.restored.toNat +
  32 * s.plan.data.synchronous.toNat + 64 * (s.flag Fld.STEP_STAT_OVERRUN).toNat

/-- The state is uncovered from a step on. -/
def State.setUncovered (s : State) (step : Nat) : State :=
  if s.uncovered then s
  else (s.setFlag Fld.MODE_STAT_UNCOVERED true).setReg .MODE_UNCOVERED (BitVec.ofNat 64 step)

/-- The CRC-64 of the state that the step leaves (R250). -/
def State.stateDigest (s : State) : Nat := s.plan.data.digest s.ex.chain

/-- The digest of the step closes and its record is journaled. -/
def State.closeDigest (s : State) : State :=
  let k := s.stepNow
  let s := if s.slog.throughput || s.slog.tainted then s.setUncovered k else s
  let v := s.stateDigest
  let fl := s.digestFlags
  let rec_ := natLe k 8 ++ natLe v 8 ++ s.planDigest64.take 8 ++ natLe fl 2 ++
    natLe (s.fld Fld.DEV_SHAPE_M_CORES) 2 ++ zeros 4
  let s := s.addFrame 3 true 0 s.policyNow rec_
  let s := s.onLog fun l => { l with restored := false }
  ({ s with dig := { s.dig with step := k, value := v, flags := fl, valid := true } }).setCause 2

/-! ## What the step reports -/

/-- The largest presentation delay of the step and the M-core that had it, the lowest of several. -/
def State.worstDelay (s : State) : Nat × Nat :=
  s.ex.cores.foldl (fun acc c => if acc.1 < c.stepDelay then (c.stepDelay, c.node) else acc) (0, 0)

/-- Records of what happened in the step (R107, R113, R163 to R167, R215, R232, R355). -/
def State.reportStep (s : State) : State :=
  let l := s.slog
  let opt (s : State) (code : Nat) (x : Option Nat) : State := match x with | some p => s.record code p | none => s
  let s := opt (opt s 0x3001 l.saturated) 0x3003 l.fieldNan
  let s := s.ex.cores.foldl (fun s c => if c.stickyNew == 0 then s else
    s.record 0x3002 (c.sticky % 16 + c.node % 1024 * 65536)) s
  let d := s.worstDelay
  let s := if d.1 == 0 then s else s.record 0x3006 (d.1 % 2 ^ 32 + d.2 % 1024 * 2 ^ 32)
  let s := if l.conflicts == 0 then s else s.record 0xA025 l.conflicts
  let s := opt s 0xA026 (l.nonfinite.map fun v => v % 2 ^ 40 + min l.nonfiniteCount (2 ^ 24 - 1) * 2 ^ 40)
  s.reportTraffic

/-- Steps counted by mode (R258). -/
def State.countStep (s : State) : State :=
  let s := if s.slog.throughput then s.incFld Fld.MODE_COUNTS_THROUGHPUT_STEPS else s
  if s.slog.tainted then s.incFld Fld.MODE_COUNTS_TAINTED_STEPS else s

/-- An armed capture whose step completes without a match is missed (R176). -/
def State.ocuMissed (s : State) : State :=
  if s.flag Fld.OCU_CTL_ARM && s.fld Fld.OCU_TRIG_STEP_STEP ≤ s.stepNow then
    ((s.setFlag Fld.OCU_CTL_ARM false).hwSet Fld.OCU_STAT_MISSED).setCause 4
  else s

/-! ## Actions 3 and 4, and what else a boundary does -/

/-- Why the next step will have started late, if it does (R47). -/
def State.lateness (s : State) (applied : Bool) : Nat :=
  if s.slog.reexec then 1
  else if s.slog.flushLate then 2
  else if applied then 4
  else 0

/-- The step has ended, and a run past its last step with it. -/
def State.endStep (s : State) (cause : Nat) : State :=
  let k := s.stepNow
  let s := (s.onStep fun x => { x with
    stepOn := false, lateCause := cause
    run := x.run.map fun r => { r with b := s.now } }).onEx fun x => { x with stepEnded := false }
  let s := if s.dig.rollCount != 0 && s.dig.rollStep ≤ k then
      { s with dig := { s.dig with rollCount := 0 } } else s
  let s := if s.lastStep ≤ k then s.endRun 0 s.lastStep (s.lastStep + 1) else s
  let s := if s.flag Fld.DBG_STAT_HALT_PENDING then s.haltNow else s
  (s.onStep fun x => { x with readyDue := some (k + 1) }).trySendReady.holdNow

/-- What a step that stands reports. -/
def State.closeStep (s : State) : State := s.closeDigest.reportStep.countStep.ocuMissed

/-- What follows the orders of a boundary: held writes and re-qualification, and the shadow of the next step. -/
def State.applyHeld (s : State) : State :=
  let s := s.heldMode.heldWrites.requalNow.setShadow
  { s with dig := { s.dig with rerunTo := none } }

/-- The step is over, and with the last one of a recovery the recovery. -/
def State.leaveStep (s : State) (cause : Nat) : State :=
  let s := ((s.endStep cause).powerBoundary).showSpares
  if s.boot.recovering.isSome then s.endRecovery else s

/-- A step that stands, in the order of R28. -/
def State.finishStep (s : State) : State :=
  let x := s.closeStep
  let y := x.applyOrders
  let cause := y.lateness (x.intake.orders.countP (·.ended) != y.intake.orders.countP (·.ended))
  y.applyHeld.leaveStep cause

/-! ## Steps run again (R255, R310, R412) -/

/-- A step run again: its digest is compared with the one journaled, and journaled with REEXECUTED; then the script goes
on. A step whose digest differs leaves the state uncovered, as its own record says. -/
def State.finishRerun (s : State) : State :=
  let k := s.stepNow
  let s := if (s.journaledDigest k).any (· != s.stateDigest) then (s.setUncovered k).record 0x600B k else s
  let s := s.closeDigest.reportStep.ocuMissed
  let s := s.onEx fun x => { x with shadow := x.chain, stepEnded := false }
  (s.onStep fun x => { x with stepOn := false }).goOn s.dig.script

/-- HBM3E lane and post-package repairs made at the boundary, by stack, with the data kept (R292). -/
def State.repairStacks (s : State) (hbm : List Nat) : State :=
  (hbm.filter fun n => n < 8 && s.portUsable (2 * n)).foldl (fun s _ =>
    (s.incFld Fld.SPARE_UNITS_HBM_REPAIRS).recordSpared 5 0) s

/-- BOUNDARY_ACTIONS: faults are settled, and a step that stands is finished. `found` holds the result of the
self-test of the step, when it held one, and the stacks in which the HBM3E standard's repairs are made. -/
def execBoundaryActions (t : Nat) (found : AtBoundary) (s : State) : Result :=
  s.when t State.boundaryDue fun s =>
    let x := (s.repairStacks found.repairs).settle found.selfOk
    if !x.2 then x.1
    else if x.1.inRerun then x.1.finishRerun
    else x.1.finishStep

/-! ## CONTEXT_COMPLETE -/

/-- The order that asked for a context completes with it; a session that a suspend context held open ends
(R267, R362). -/
def State.contextDone (s : State) (x : Transfer) : State :=
  let s := s.endTransfer x
  let s := if x.kind == 2 then
      match s.order x.seq with
      | some o => if o.phase == .executing then s.endCheckpoint o x.bytes else s
      | none => s
    else s
  let s := if x.kind == 1 && s.power == 3 && s.dbgLevel == 2 then s.closeSession 4 else s
  s.formReleases

/-- CONTEXT_COMPLETE: the first transfer whose copies are written and whose frames are durable. -/
def execContextComplete (t : Nat) (s : State) : Result :=
  s.when t (fun s => s.cUp && s.jrnl.transfers.any s.transferDone) fun s =>
    match s.jrnl.transfers.find? s.transferDone with
    | some x => s.contextDone x
    | none => s

end Sys2Proof.Machine
end

