-- ==== Sys2Proof/Machine/Mesh.lean ====
section
/-! DEFINITION. What moves on the mesh (chapter 08): scheduled hops (R209 to R213), the fence (R215), free-slot
packets, their credits, branches and acknowledgements (R206, R207, R218 to R220). -/

namespace Sys2Proof.Machine

/-- A change to what is on the mesh. -/
def State.onMesh (s : State) (f : MeshSt → MeshSt) : State := { s with mesh := f s.mesh }

/-! ## Scheduled hops -/

/-- A hop and its allocation. -/
def State.hopAt (s : State) (i : Nat) : Option (Hop × HopAlloc) :=
  match s.plan.shape.hops[i]?, s.mesh.hops[i]? with
  | some h, some a => some (h, a)
  | _, _ => none

/-- A hop may inject from a site: from A′ of the pass on, once a pass, from where its source node stands; a fenced core
that no node stands on may still emit. -/
def State.injectDue (s : State) (i site : Nat) : Bool :=
  s.sweeping && match s.hopAt i with
  | some (h, a) =>
    ((s.site site).fenced && (s.serves site).isNone) ||
    ((s.nodeAt h.src).map (·.1) == some site && s.ex.passAt + a.a' ≤ s.ccyc && !s.ex.sent.contains i)
  | none => false

/-- The source is a memory port joined at a site. -/
def State.portHop (s : State) (h : Hop) (site : Nat) : Bool :=
  h.src / 1024 == 3 && (s.nodeAt h.src).map (·.1) == some site

/-- HOP_INJECT: at A′ or when the data is ready; the fence drops what a fenced core emits. T of the hop counts from the
pass in which it is injected. -/
def execHopInject (t i site : Nat) (s : State) : Result :=
  if 720 ≤ site then .fault .noSuchUnit
  else s.when t (·.injectDue i site) fun s =>
    match s.hopAt i with
    | some (h, a) =>
      if (s.site site).fenced && !s.portHop h site then s.ghost site (h.flits * h.duration)
      else s.onEx fun x => { x with
        inFlight := x.inFlight ++ [(i, s.ccyc, x.passAt + a.t)], sent := i :: x.sent }
    | none => s

/-- The cycle in which a hop in flight is delivered: the later of T and its arrival (R212, R213). -/
def State.deliveryAt (s : State) (x : Nat × Nat × Nat) : Nat :=
  max x.2.2 (x.2.1 + ((s.mesh.hops[x.1]?).map (·.l')).getD 0)

/-- A hop in flight, the earliest injected of several, may be delivered. -/
def State.deliveryDue (s : State) (i : Nat) : Bool :=
  s.sweeping && match s.ex.inFlight.find? (·.1 == i) with
  | some x => s.deliveryAt x ≤ s.ccyc
  | none => false

/-- HOP_DELIVERY: the delay element hands the data over; a slot ends no earlier than a delivery in it (R213). -/
def execHopDelivery (t i : Nat) (parity : Option Nat) (s : State) : Result :=
  if parity.any (720 ≤ ·) then .fault .noSuchUnit
  else s.when t (·.deliveryDue i) fun s =>
    match s.ex.inFlight.find? (·.1 == i) with
    | some x => (s.onEx fun y => { y with
        inFlight := y.inFlight.erase x, lastCommit := max y.lastCommit (s.deliveryAt x) }).flitCheck parity
    | none => s

/-! ## Free-slot packets: where they go -/

/-- The next router in a direction that is not bypassed, bypassed ones being crossed by their wires (R216): 0 west,
1 east, 2 north, 3 south. No way leads into a hole (R303). -/
def State.nextRouter (s : State) (dir : Nat) : Nat → Nat → Option Nat
  | 0, _ => none
  | n + 1, site =>
    let edge := match dir with
      | 0 => siteCol site == 0
      | 1 => siteCol site == 35
      | 2 => siteRow site == 0
      | _ => siteRow site == 19
    let j := match dir with | 0 => site - 1 | 1 => site + 1 | 2 => site - 36 | _ => site + 36
    if edge || (s.site j).gap then none
    else if (s.site j).bypassed then s.nextRouter dir n j else some j

/-- The direction from a site to one beside it. -/
def dirTo (a b : Nat) : Nat := if b + 1 == a then 0 else if b == a + 1 then 1 else if b < a then 2 else 3

/-- The direction in which a path leaves a site on it. -/
def leaves (site : Nat) : List Nat → Option Nat
  | a :: b :: rest => if a == site then some (dirTo a b) else leaves site (b :: rest)
  | _ => none

/-- The output that dimension order takes towards a target (R207): the packet keeps to the route from its source, and
from a router off that route to the route from there. -/
def State.orderDir (s : State) (src site target : Nat) : Option Nat :=
  (leaves site (s.route src target)).or (leaves site (s.route site target))

/-- Packets that an output has sent and whose buffer downstream is not yet free. -/
def State.creditUsed (s : State) (site dir : Nat) : Nat :=
  ((s.mesh.inUse.find? fun x => x.1 == site && x.2.1 == dir).map (·.2.2)).getD 0

/-- The downstream input holds credit for a packet (R218). -/
def State.hasCredit (s : State) (site dir : Nat) : Bool := decide (s.creditUsed site dir < Config.routerCredit site dir)

/-- The output that a lone target is reached by in Throughput mode: any minimal path with credit, X first (R207). -/
def State.adaptiveDir (s : State) (src site target : Nat) : Option Nat :=
  let x := if siteCol target < siteCol site then some 0 else if siteCol site < siteCol target then some 1 else none
  let y := if siteRow target < siteRow site then some 2 else if siteRow site < siteRow target then some 3 else none
  match x.filter fun d => (s.nextRouter d 36 site).isSome, y.filter fun d => (s.nextRouter d 36 site).isSome with
  | some x, some y => if s.hasCredit site x then some x else if s.hasCredit site y then some y else some x
  | _, _ => s.orderDir src site target

/-- The output for a target of a packet from `src` that names `n` targets in all. -/
def State.outputFor (s : State) (src n site target : Nat) : Option Nat :=
  if n == 1 && s.flag Fld.MODE_STAT_MODE then s.adaptiveDir src site target else s.orderDir src site target

/-- The branches of a packet at a router: outputs in ascending direction with the targets beyond each. -/
def State.branches (s : State) (src n site : Nat) (targets : List Nat) : List (Nat × List Nat) :=
  ((List.range 4).map fun d => (d, targets.filter fun t => s.outputFor src n site t == some d)).filter (!·.2.isEmpty)

/-! ## Flits give way to scheduled traffic (R206) -/

/-- A link is held in a cycle: by a reservation of the pass, cyclic in CYCLES_PER_SWEEP, or by a hop injected later
than its reservation. -/
def State.linkHeldAt (s : State) (link c : Nat) : Bool :=
  let cps := max 1 s.plan.shape.cycles
  (s.plan.shape.hops.zip s.mesh.hops).zipIdx.any fun p =>
    match s.hopPath p.1.1 with
    | some (ls, _, _) => ls.any fun l =>
      l.1 == link && (
        decide ((c + cps - (s.ex.passAt + p.1.2.a' + l.2.1) % cps) % cps < l.2.2) ||
        s.ex.inFlight.any fun x => x.1 == p.2 && decide (x.2.1 + l.2.1 ≤ c) && decide (c < x.2.1 + l.2.1 + l.2.2))
    | none => false

/-- The routed link that leaves a router in a direction. -/
def State.linkOf (s : State) (site dir : Nat) : Option Nat :=
  (s.nextRouter dir 36 site).map fun j => site * 4096 + j + 2 ^ 24

/-- An output must give way to scheduled traffic in a cycle. -/
def State.outputHeld (s : State) (site dir c : Nat) : Bool :=
  s.sweeping && (s.linkOf site dir).any fun l => s.linkHeldAt l c

/-- The cycle after the one in which the last of `n` flits goes, one in each cycle that is not held, from a cycle on.
The fuel bounds the cycles looked at. -/
def sendUntil (held : Nat → Bool) (n c : Nat) : Nat → Nat
  | 0 => c
  | k + 1 => if n == 0 then c else if held c then sendUntil held n (c + 1) k else sendUntil held (n - 1) (c + 1) k

/-- The first cycle in which an output serves no packet. -/
def State.outputFree (s : State) (site dir : Nat) : Nat :=
  max s.ccyc (((s.mesh.busy.find? fun x => x.1 == site && x.2.1 == dir).map (·.2.2)).getD 0)

/-- The cycle by which an output has sent a packet that it starts on now: after the packet before it, in the cycles that
scheduled traffic leaves, as reservations stand (log 35). -/
def State.sentBy (s : State) (site dir flits : Nat) : Nat :=
  sendUntil (s.outputHeld site dir) flits (s.outputFree site dir) (flits * (s.plan.shape.cycles + 1))

/-! ## Branches sent and held -/

/-- Copies that a router's copy buffer holds: of packets with a branch that still waits, or is still being sent (R219). -/
def State.copies (s : State) (site : Nat) : List Nat :=
  ((s.mesh.waiting ++ s.mesh.flying.filter fun b => decide (s.ccyc < b.done)).filterMap fun b =>
    if b.site == site && b.copy then some b.pkt else none).dedup

/-- MESH_MCAST.MAX_HELD follows the copy buffer. -/
def State.showCopies (s : State) (site : Nat) : State :=
  let n := (s.copies site).length
  s.onSite site fun x => { x with maxHeld := max x.maxHeld n }

/-- Flits of a packet. -/
def State.flitsOf (s : State) (id : Nat) : Nat := ((s.mesh.packets.find? (·.id == id)).map (·.flits)).getD 0

/-- A branch goes, taking one credit, and its output until its last flit has gone. -/
def State.sendBranch (s : State) (b : Branch) : State :=
  let n := s.creditUsed b.site b.dir + 1
  let c := s.sentBy b.site b.dir (s.flitsOf b.pkt)
  let other := fun (x : Nat × Nat × Nat) => !(x.1 == b.site && x.2.1 == b.dir)
  s.onMesh fun m => { m with
    flying := m.flying ++ [{ b with done := c }]
    busy := (b.site, b.dir, c) :: m.busy.filter other
    inUse := (b.site, b.dir, n) :: m.inUse.filter other }

/-- The oldest branch waiting on an output goes when there is credit: a retry when it is from a held copy. -/
def State.serveOutput (s : State) (site dir : Nat) : State :=
  match s.mesh.waiting.find? fun b => b.site == site && b.dir == dir with
  | some b =>
    if s.hasCredit site dir then
      let s := (s.onMesh fun m => { m with waiting := m.waiting.erase b }).sendBranch b
      (if b.copy then s.onSite site fun x => { x with retries := satAdd 32 x.retries 1 } else s).showCopies site
    else s
  | none => s

/-- An output has credit, and no earlier branch waits on it. -/
def State.outputOpen (s : State) (site dir : Nat) : Bool :=
  s.hasCredit site dir && !s.mesh.waiting.any fun w => w.site == site && w.dir == dir

/-- A branch with credit goes at once, and one without queues on its output. -/
def State.takeBranch (s : State) (b : Branch) : State :=
  if s.outputOpen b.site b.dir then s.sendBranch b else s.onMesh fun m => { m with waiting := m.waiting ++ [b] }

/-- A change to a packet. -/
def State.onPacket (s : State) (id : Nat) (f : Packet → Packet) : State :=
  s.onMesh fun m => { m with packets := m.packets.map fun p => if p.id == id then f p else p }

/-- A packet reaches a target: it is ejected, or dropped at the target's fence and so failed (R215, R220). -/
def State.eject (s : State) (p : Packet) (site : Nat) : State :=
  let fenced := (s.site site).fenced
  let s := s.onPacket p.id fun x => { x with reached := site :: x.reached, failed := x.failed || fenced }
  if fenced then s.ghost site p.flits else s

/-- Targets that a packet names in all, while none has acknowledged. -/
def Packet.names (p : Packet) : Nat := p.waiting.length + p.reached.length

/-- A packet branches at a router where its targets split (R219). -/
def State.fork (s : State) (p : Packet) (site : Nat) (targets : List Nat) : State :=
  let here := targets.contains site
  let s := if here then s.eject p site else s
  let bs := s.branches p.src p.names site (targets.filter (· != site))
  let copy := 1 < bs.length + here.toNat
  (bs.foldl (fun s b => s.takeBranch ⟨site, b.1, p.id, b.2, copy, 0⟩) s).showCopies site

/-- The copy buffer has room for a packet that would leave a branch behind, or none would be left. -/
def State.roomToFork (s : State) (src n site : Nat) (targets : List Nat) : Bool :=
  let bs := s.branches src n site (targets.filter (· != site))
  (s.copies site).length < 8 || bs.length + (targets.contains site).toNat ≤ 1 || bs.all fun b => s.outputOpen site b.1

/-! ## FREE_SLOT_PACKET, CREDIT_RETURN, FREE_SLOT_ACK -/

/-- A port or ring node joins the grid at a site. -/
def State.nodeJoins (s : State) (site : Nat) : Bool :=
  (List.range 32).any (fun p => (s.portAt p).1 == site) ||
  ringSites.any fun n => !s.ringLost n && s.ringAt n == site

/-- The branch of a packet that is on its way to a router, its last flit sent. -/
def State.arriving (s : State) (id site : Nat) : Option Branch :=
  s.mesh.flying.find? fun b => b.pkt == id && s.nextRouter b.dir 36 b.site == some site && decide (b.done ≤ s.ccyc)

/-- The packets of a new sender are well formed: 2 to 34 flits, 1 to 64 targets (R218, R219). -/
def packetOk (targets : List Nat) (flits : Nat) : Bool :=
  2 ≤ flits && flits ≤ 34 && !targets.isEmpty && targets.dedup.length ≤ 64

/-- A router can take what arrives, or what its core or, with `node`, a port or ring node that joins there sends. -/
def State.packetDue (s : State) (id site : Nat) (node : Bool) (targets : List Nat) (flits : Nat) : Bool :=
  s.cUp && !(s.site site).dead &&
  match s.arriving id site with
  | some b => (s.mesh.packets.find? (·.id == id)).any fun p => s.roomToFork p.src p.names site b.targets
  | none => !s.mesh.packets.any (·.id == id) && packetOk targets flits && (!node || s.nodeJoins site) &&
      s.roomToFork site targets.dedup.length site targets.dedup

/-- A packet arrives at a router. -/
def State.passPacket (s : State) (b : Branch) (site : Nat) : State :=
  let s := s.onMesh fun m => { m with flying := m.flying.erase b }
  match s.mesh.packets.find? (·.id == b.pkt) with
  | some p => s.fork p site b.targets
  | none => s

/-- A sender gives a packet to its own router, whose fence drops what a fenced core emits (R215). -/
def State.givePacket (s : State) (p : Packet) (node : Bool) : State :=
  if (s.site p.src).fenced && !node then s.ghost p.src p.flits
  else (s.onMesh fun m => { m with packets := m.packets ++ [p] }).fork p p.src p.waiting

/-- FREE_SLOT_PACKET: a packet arrives at a router, or its sender gives it to its own. -/
def execFreeSlotPacket (t id site : Nat) (targets : Targets) (flits : Flits) (s : State) : Result :=
  if 720 ≤ site || targets.sites.any (720 ≤ ·) || flits.parity.any (720 ≤ ·) then .fault .noSuchUnit
  else s.when t (·.packetDue id site targets.node targets.sites flits.count) fun s =>
    let x := match s.arriving id site with
      | some b => s.passPacket b site
      | none => s.givePacket ⟨id, site, flits.count, targets.sites.dedup, [], false⟩ targets.node
    x.flitCheck flits.parity

/-- Packets that an output has sent and that have not yet reached the next router. -/
def State.underWay (s : State) (site dir : Nat) : Nat := s.mesh.flying.countP fun b => b.site == site && b.dir == dir

/-- CREDIT_RETURN: the buffer that a packet took beyond an output is free again, and the oldest branch waiting on the
output goes in this cycle. -/
def execCreditReturn (t site dir : Nat) (s : State) : Result :=
  if 720 ≤ site || 4 ≤ dir then .fault .noSuchUnit
  else s.when t (fun s => s.cUp && s.underWay site dir < s.creditUsed site dir) fun s =>
    let s := s.onMesh fun m => { m with inUse := m.inUse.map fun x =>
      if x.1 == site && x.2.1 == dir then (x.1, x.2.1, x.2.2 - 1) else x }
    s.serveOutput site dir

/-- A packet is complete once every target has acknowledged (R220). -/
def State.ackPacket (s : State) (p : Packet) (target : Nat) : State :=
  let left := p.waiting.erase target
  if left.isEmpty then s.onMesh fun m => { m with
    packets := m.packets.filter (·.id != p.id), lastDone := some (p.id, p.failed) }
  else s.onPacket p.id fun x => { x with waiting := left }

/-- FREE_SLOT_ACK: a target that the packet has reached acknowledges, positively or, fenced, negatively. -/
def execFreeSlotAck (t id : Nat) (target : AckFlit) (s : State) : Result :=
  if target.parity.any (720 ≤ ·) then .fault .noSuchUnit
  else s.when t (fun s => s.cUp && s.mesh.packets.any fun p =>
      p.id == id && p.reached.contains target.site && p.waiting.contains target.site) fun s =>
    let x := match s.mesh.packets.find? (·.id == id) with
      | some p => s.ackPacket p target.site
      | none => s
    x.flitCheck target.parity

end Sys2Proof.Machine
end

