-- ==== Sys2Proof/Machine/Mport.lean ====
section
/-! DEFINITION. Memory ports (chapter 08): admission, merging, delivery and acknowledgement of scheduled requests
(R222 to R226), atomic adds and free-slot requests (R227, R228), tile checks and poison (R230 to R233), and the
check-value unit (R236). -/

namespace Sys2Proof.Machine

/-! ## Tiles (R230 to R232) -/

/-- A range lies in the part behind a port. -/
def inPart (port addr len : Nat) : Bool := port < 32 && addr + len ≤ portTiles port * 4096

/-- A range lies in the usable capacity behind a port, which scheduled traffic of a plan keeps to (R229). -/
def inUsable (port addr len : Nat) : Bool := decide (addr + len ≤ portBytes port)

/-- The port carries traffic. -/
def State.portActive (s : State) (port : Nat) : Bool := s.cUp && (s.mport port).state == 0

/-- The tile belongs to a residence of the plan in effect. -/
def State.inResidence (s : State) (port tile : Nat) : Bool :=
  s.plan.res.any fun r => r.tier != 0 && r.port == port &&
    r.addr < tile * 4096 + 4096 && tile * 4096 < r.addr + (s.plan.payload r.block).length

/-- The part behind a port is lost (R308, R309). -/
def lostPart (port : Nat) : Damage := if port < 16 then .stack (port / 2) else .package port

/-- The context copy of a tier is damaged: the other copy stands (R307). -/
def State.dropCopy (s : State) (hbm : Bool) : State :=
  { s with jrnl := if hbm then { s.jrnl with ctxHbm := none } else { s.jrnl with ctxLp := none } }

/-- What a tile that failed its check held decides what is done (R307). -/
def State.tileDamaged (s : State) (port tile content : Nat) : State :=
  if s.inResidence port tile || content == 0 then (s.damage (.tile port 0)).settleIdle
  else if content == 1 || content == 2 then (s.damage (.tile port content)).settleIdle
  else if content == 4 then s.dropCopy (port < 16)
  else s

/-- A tile enters the poison list; a full list loses the port (R231). -/
def State.poisonTile (s : State) (port tile : Nat) : State :=
  let m := s.mport port
  if m.poison.contains tile || m.poisonFull then s
  else
    let s := s.onMport port fun m => { m with poison := tile :: m.poison }
    if m.poison.length + 1 < 256 then s
    else (((s.onMport port fun m => { m with poisonFull := true }).record 0x5009 port).damage (lostPart port)).settleIdle

/-- Uncorrectable errors at both ports of a stack in one step lose it (R308). -/
def State.markUncorr (s : State) (port : Nat) : State :=
  if 16 ≤ port || !s.stept.stepOn then s
  else
    let other := if port % 2 == 0 then port + 1 else port - 1
    let s := s.onMport port fun m => { m with uncorrStep := true }
    if (s.mport other).uncorrStep then s.damage (.stack (port / 2)) else s

/-- An uncorrectable tile (R231): counted, poisoned, recorded and signalled. -/
def State.badTile (s : State) (port tile : Nat) (scrub ecc : Bool) (content : Nat) : State :=
  let s := s.onMport port fun m => { m with
    uncorrectable := satAdd 32 m.uncorrectable ecc.toNat
    checkFails := satAdd 32 m.checkFails (!ecc).toNat }
  let s := s.record (if ecc then 0x5002 else 0x5001) (port + 32 * scrub.toNat + tile % 2 ^ 40 * 256)
  ((s.poisonTile port tile).markUncorr port).tileDamaged port tile content

/-- A correction by the HBM3E device (R232). -/
def State.eccCorrected (s : State) (port : Nat) : State :=
  let s := s.onMport port fun m => { m with corrected := satAdd 32 m.corrected 1 }
  s.onLog fun l => { l with
    corrected := if l.corrected.any (·.1 == port) then l.corrected.map fun x => if x.1 == port then (x.1, x.2 + 1) else x
    else l.corrected ++ [(port, 1)] }

/-- A double-bit error in a port's own SRAM: charged to the site where the port joins, with nothing sound to deliver
(R296). -/
def State.portSram (s : State) (port : Nat) : State := (s.damage (.charge (s.portAt port).1 2)).settleIdle

/-- A tile is verified before any byte of it is used: the state after, and whether it is sound. LPDDR5X has no ECC
of its own (R232). -/
def State.verifyTile (s : State) (port tile : Nat) (scrub : Bool) (f : TileFault) : State × Bool :=
  if (s.mport port).poison.contains tile then
    let s := s.record 0x5004 (port + 32 * scrub.toNat + tile % 2 ^ 40 * 256)
    (s.tileDamaged port tile (match f with | .mismatch c => c | .uncorrectable c => c | _ => 5), false)
  else match f with
    | .ok => if s.tileAgrees port tile then (s, true) else (s.badTile port tile scrub false 5, false)
    | .sram false => (s.onMport port fun m => { m with sramCorrected := satAdd 32 m.sramCorrected 1 }, true)
    | .sram true => (s.portSram port, false)
    | .corrected => (if port < 16 then s.eccCorrected port else s, true)
    | .mismatch c => (s.badTile port tile scrub false c, false)
    | .uncorrectable c => (s.badTile port tile scrub (port < 16) c, false)

/-- What reading a tile finds, as the operand lists it. -/
def findingAt (fs : List TileCheck) (port tile : Nat) : TileFault :=
  ((fs.find? fun x => x.port == port && x.tile == tile).map (·.fault)).getD .ok

/-- Several tiles verified in ascending order, and those that are not sound. -/
def State.verifyTiles (s : State) (port : Nat) (fs : List TileCheck) : List Nat → State × List Nat
  | [] => (s, [])
  | t :: ts =>
    let r := s.verifyTile port t false (findingAt fs port t)
    let q := r.1.verifyTiles port fs ts
    (q.1, if r.2 then q.2 else t :: q.2)

/-- Bytes from an address upward, none from a tile that is not sound (R231). -/
def deliverFrom (bad : List Nat) (addr : Nat) (d : List Byte) : List (Option Byte) :=
  d.zipIdx.map fun b => if bad.contains ((addr + b.2) / 4096) then none else some b.1

/-- A write: tiles covered in part are verified first, and a failure cancels the request (R230), all of it where it
touches several tiles: the model's choice (log 34). -/
def State.putTiles (s : State) (port addr : Nat) (d : List Byte) (fs : List TileCheck) : State :=
  let v := s.verifyTiles port fs (partTiles addr d.length)
  if v.2.isEmpty then v.1.storeTiles port addr d else v.1

/-! ## The check-value unit (R236) -/

/-- The unit folds the bytes of a write that fall in its range. -/
def MPort.fold (m : MPort) (addr : Nat) (d : List Byte) : MPort :=
  if m.cvuArm then
    let c := crcOfPoly m.cvuPoly
    let bs := (d.zipIdx.filter fun b => m.cvuBase ≤ addr + b.2 && addr + b.2 < m.cvuLimit).map (·.1)
    let r := crcRun c m.cvuReg bs
    { m with cvuReg := r, cvuValue := crcOut c r, cvuBytes := m.cvuBytes + bs.length }
  else m

/-- A write to MPORT_CVU_CTL: POLY while ARM is 0, and ARM, whose rise resets the unit. -/
def MPort.cvuWrite (m : MPort) (a : RegAcc) : MPort :=
  let arm := (accField a ⟨.MPORT_CVU_CTL, 0, 1⟩).map (· == 1)
  let m := if m.cvuArm then m else { m with cvuPoly := (accField a ⟨.MPORT_CVU_CTL, 1, 2⟩).getD m.cvuPoly }
  match arm with
  | none => m
  | some false => { m with cvuArm := false }
  | some true =>
    if m.cvuArm then m
    else
      let c := crcOfPoly m.cvuPoly
      { m with cvuArm := true, cvuReg := c.init, cvuValue := crcOut c c.init, cvuBytes := 0 }

/-- The memory port that an access selects. -/
def State.selMport (s : State) (p : Port) : Nat := bitsOf (s.reg (Reg.SEL_MPORT.at p)).toNat 0 5

/-- CVU_ARM: a write to MPORT_CVU_CTL. -/
def execCvuArm (t : Nat) (a : RegAcc) (s : State) : Result :=
  s.access t a .MPORT_CVU_CTL fun s => s.onMport (s.selMport a.port) (·.cvuWrite a)

/-! ## Writing -/

/-- Bytes `cur` at `addr` with those of an earlier content put back. -/
def putBack (addr : Nat) (cur : List Byte) (at_ : Nat) (old : List Byte) : List Byte :=
  cur.zipIdx.map fun b =>
    if at_ ≤ addr + b.2 && addr + b.2 < at_ + old.length then old.getD (addr + b.2 - at_) 0 else b.1

/-- Two byte ranges share a tile. -/
def sameTile (a n b m : Nat) : Bool := (tilesOf a n).any fun t => (tilesOf b m).contains t

/-! ## Scheduled requests (R223, R225) -/

/-- The account has gained its rate in every cycle, up to its depth. -/
def State.accrue (s : State) (port : Nat) : State :=
  s.onMport port fun m => { m with
    account := min (portDepth port) (m.account + portRate port * (s.ccyc - m.accountAt)), accountAt := s.ccyc }

/-- What a write costs. -/
def writeCost (addr len : Nat) : Nat :=
  ((tilesOf addr len).map fun t => if wholeTile addr len t then 4096 else 8192).sum

/-- A read meets a merge entry, opens one, or is served alone, tile by tile: what it costs. -/
def State.openRead (s : State) (port tile : Nat) : State × Nat :=
  let m := s.mport port
  if m.entries.any fun e => e.1 == tile && s.ccyc ≤ e.2 + 16 then
    (s.onMport port fun m => { m with merged := satAdd 48 m.merged 1 }, 0)
  else if m.entries.length < 64 then
    (s.onMport port fun m =>
      { m with entries := m.entries ++ [(tile, s.ccyc)], maxOpen := max m.maxOpen (m.entries.length + 1) }, 4096)
  else (s, 4096)

/-- A read's cost with its merge entries opened. -/
def State.openReads (s : State) (port addr len : Nat) : State × Nat :=
  (tilesOf addr len).foldl (fun acc t => let r := acc.1.openRead port t; (r.1, acc.2 + r.2)) (s, 0)

/-- The contents owed to a read that arrives as a write to its tile is admitted: those from before it. -/
def State.owed (s : State) (port addr len : Nat) : Option (List Byte) :=
  let w := (s.mport port).former.filter fun x => x.1 == s.ccyc && sameTile addr len x.2.1 x.2.2.length
  if w.isEmpty then none
  else some (w.foldl (fun cur x => putBack addr cur x.2.1 x.2.2) (s.readMem port addr len))

/-- A request joins the queue: arrival order, and within a cycle reads before writes. -/
def enqueue (q : List MReq) (r : MReq) : List MReq :=
  if r.write then q ++ [r]
  else
    let now := fun (x : MReq) => x.write && x.arrived == r.arrived
    q.filter (!now ·) ++ [r] ++ q.filter now

/-- MPORT_REQUEST. -/
def execMportRequest (t port id : Nat) (write : Bool) (addr len : Nat) (data : List Byte) (s : State) : Result :=
  let n := if write then data.length else len
  if !inPart port addr n then .fault .noSuchUnit
  else s.when t (fun s => s.portActive port && s.planOn && n != 0 && inUsable port addr n) fun s =>
    if write then s.onMport port fun m => { m with
      queue := enqueue m.queue ⟨id, true, addr, n, some data, s.ccyc, writeCost addr n⟩ }
    else
      let owed := s.owed port addr n
      let r := s.openReads port addr n
      r.1.onMport port fun m => { m with queue := enqueue m.queue ⟨id, false, addr, n, owed, s.ccyc, r.2⟩ }

/-- The first request of a port's queue, when the account holds its cost. -/
def State.admittable (s : State) (port : Nat) : Option MReq :=
  match (s.accrue port).mport port |>.queue with
  | r :: _ => if r.cost ≤ ((s.accrue port).mport port).account then some r else none
  | [] => none

/-- The cost is taken, and a wait counted. -/
def State.charge (s : State) (port : Nat) (r : MReq) : State :=
  let wait := s.ccyc - r.arrived
  (s.accrue port).onMport port fun m => { m with
    account := m.account - r.cost, queue := m.queue.drop 1
    delayed := if wait == 0 then m.delayed else satAdd 32 m.delayed 1, maxWait := max m.maxWait (min wait (2 ^ 32 - 1)) }

/-- Contents kept for a read that a write overtakes: those from before it for a read that arrived in its cycle
(R225); otherwise nothing orders the two (R226), and a free value decides. -/
def State.keepFor (s : State) (r : MReq) (at_ : Nat) (old : List Byte) (port : Nat) : MReq × State :=
  if r.write || r.data.isSome || !sameTile r.addr r.len at_ old.length then (r, s)
  else
    let before := putBack r.addr (s.readMem port r.addr r.len) at_ old
    if r.arrived == s.ccyc then ({ r with data := some before }, s)
    else
      let v := s.freshVal
      (if v.1.getLsbD 0 then { r with data := some before } else r, v.2)

/-- A write takes effect; reads in flight keep what they are owed, its merge entries close, and the unit folds
it. -/
def State.admitWrite (s : State) (port : Nat) (r : MReq) (d : List Byte) : State :=
  let old := s.readMem port r.addr r.len
  let reads := (s.mport port).reads
  let waiting := ((s.mport port).queue).filter fun q => !q.write && q.arrived == s.ccyc
  let s := s.storeTiles port r.addr d
  let k := reads.foldl (fun (acc : List (MReq × Nat) × State) x =>
    let y := acc.2.keepFor x.1 r.addr old port
    (acc.1 ++ [(y.1, x.2)], y.2)) ([], s)
  let same := waiting.map fun q => (k.2.keepFor q r.addr old port).1
  k.2.onMport port fun m =>
    let m := m.fold r.addr d
    { m with
      reads := k.1
      queue := m.queue.map fun q => (same.find? fun w => w.id == q.id && w.addr == q.addr && !q.write).getD q
      writes := m.writes ++ [({ r with data := some old }, s.ccyc)]
      entries := m.entries.filter fun e => !(tilesOf r.addr r.len).contains e.1
      former := (s.ccyc, r.addr, old) :: m.former.filter (·.1 == s.ccyc) }

/-- A read is under way. One admitted before the acknowledgement of a write to its tile is ordered with it by
nothing (R226): a free value decides which contents it takes. -/
def State.admitRead (s : State) (port : Nat) (r : MReq) : State :=
  let ws := (s.mport port).writes.filter fun w => sameTile r.addr r.len w.1.addr w.1.len && w.2 < s.ccyc
  let k := ws.foldr (fun w (acc : MReq × State) => acc.2.keepFor acc.1 w.1.addr (w.1.data.getD []) port) (r, s)
  k.2.onMport port fun m => { m with reads := m.reads ++ [(k.1, s.ccyc)] }

/-- MPORT_ADMIT: the first request of the queue. A write of part of a tile verifies the tile first, and is cancelled
when that fails (R230). -/
def execMportAdmit (t port : Nat) (faults : List TileCheck) (s : State) : Result :=
  if 32 ≤ port then .fault .noSuchUnit
  else s.when t (fun s => s.portActive port && (s.admittable port).isSome) fun s =>
    match s.admittable port with
    | some r =>
      let s := s.charge port r
      match r.write, r.data with
      | true, some d =>
        let v := s.verifyTiles port faults (partTiles r.addr r.len)
        if v.2.isEmpty then v.1.admitWrite port r d else v.1
      | _, _ => s.admitRead port r
    | none => s

/-- MPORT_READ_DELIVERY: every tile is verified before a byte of it is delivered. -/
def execMportReadDelivery (t port : Nat) (faults : List TileCheck) (s : State) : Result :=
  if 32 ≤ port then .fault .noSuchUnit
  else s.when t (fun s => s.portActive port &&
      ((s.mport port).reads.head?.any fun r => r.2 + portReadLat port ≤ s.ccyc)) fun s =>
    match (s.mport port).reads with
    | (r, _) :: _ =>
      let s := s.onMport port fun m => { m with reads := m.reads.drop 1 }
      let v := s.verifyTiles port faults (tilesOf r.addr r.len)
      v.1.onMport port fun m => { m with
        delivered := deliverFrom v.2 r.addr (r.data.getD (s.readMem port r.addr r.len)) }
    | [] => s

/-- MPORT_WRITE_ACK. -/
def execMportWriteAck (t port : Nat) (s : State) : Result :=
  if 32 ≤ port then .fault .noSuchUnit
  else s.when t (fun s => s.portActive port &&
      ((s.mport port).writes.head?.any fun w => w.2 + portAckLat port ≤ s.ccyc)) fun s =>
    s.onMport port fun m => { m with writes := m.writes.drop 1 }

/-- MERGE_ENTRY_CLOSE: entries close at the end of the sixteenth cycle after the one they opened in. -/
def execMergeEntryClose (t port : Nat) (s : State) : Result :=
  if 32 ≤ port then .fault .noSuchUnit
  else s.when t (fun s => s.portActive port) fun s =>
    s.onMport port fun m => { m with entries := m.entries.filter fun e => s.ccyc ≤ e.2 + 16 }

/-! ## SCRUB_READ, ATOMIC_ADD, FREE_SLOT_REQUEST -/

/-- SCRUB_READ: the next tile, in a SCRUB window; a tile that the device corrected is rewritten with its data. -/
def execScrubRead (t port : Nat) (f : TileFault) (s : State) : Result :=
  if 32 ≤ port then .fault .noSuchUnit
  else s.when t (fun s => s.portActive port && s.stept.anchor.isSome && s.windowOpen wScrub) fun s =>
    let p := (s.mport port).scrubPos
    let s := (s.verifyTile port p true f).1
    s.onMport port fun m =>
      if p + 1 < portTiles port then { m with scrubPos := p + 1 }
      else { m with scrubPos := 0, passes := satAdd 24 m.passes 1 }

/-- ATOMIC_ADD: an FP64 value is added into memory, rounded to nearest, in Throughput mode (R170, R227). -/
def execAtomicAdd (t port addr : Nat) (value : W64) (faults : List TileCheck) (s : State) : Result :=
  if !inPart port addr 8 then .fault .noSuchUnit
  else s.when t (fun s => s.portActive port && s.slog.throughput && s.stept.stepOn) fun s =>
    let v := s.verifyTiles port faults (tilesOf addr 8)
    if v.2.isEmpty then
      let x := leNat (v.1.readMem port addr 8)
      v.1.storeTiles port addr (natLe (fAdd fp64 x value.toNat) 8)
    else v.1

/-- FREE_SLOT_REQUEST: served with neither account nor merge entry. -/
def execFreeSlotRequest (t port : Nat) (write : Bool) (addr len : Nat) (data : List Byte)
    (faults : List TileCheck) (s : State) : Result :=
  let n := if write then data.length else len
  if !inPart port addr n then .fault .noSuchUnit
  else s.when t (fun s => s.portActive port && n != 0) fun s =>
    if write then s.putTiles port addr data faults
    else
      let v := s.verifyTiles port faults (tilesOf addr n)
      v.1.onMport port fun m => { m with delivered := deliverFrom v.2 addr (s.readMem port addr n) }

end Sys2Proof.Machine
end

