-- ==== Sys2Proof/Machine/Row.lean ====
section
/-! DEFINITION. ROW_SAMPLE orders (R114 to R119) and the completions of host reads (R324). One row is fetched at a
time: slot 1 of the order's reads is the shared mask, slots 2r + 2 and 2r + 3 the scores and the mask of row r. -/

namespace Sys2Proof.Machine

/-! ## One row (R115, R116, R196) -/

/-- An entry converted exactly to FP32. -/
def rowEntry (fmt : Nat) (raw : Nat) : W32 :=
  if fmt == 6 then BitVec.ofNat 32 raw
  else if fmt == 5 then BitVec.ofNat 32 (raw * 65536)
  else match fp16.decode raw with
    | .fin q => if q == 0 then (if fp16.sign raw then 0x80000000 else 0) else rn32 q
    | .inf n => inf32 n
    | .nan => nan32

/-- The entries of a row of bytes. -/
def rowEntries (fmt n : Nat) (d : List Byte) : List W32 :=
  (List.range n).map fun e => rowEntry fmt (fieldAt d (e * rowSize fmt) (rowSize fmt))

/-- z of every entry, in order. -/
def rowZ (seed : W64) (rid : Nat) (greedy : Bool) (invT : W32) (xs : List W32) (mask : Option (List W32)) : List W32 :=
  xs.zipIdx.map fun p =>
    let y := mul32 p.1 invT
    let y' := match mask with | some m => add32 y (m.getD p.2 0) | none => y
    if greedy then y' else add32 y' (rowGumbel seed rid p.2)

/-- The included entries in the order of the result. -/
def rowOrder (zs : List W32) : List (W32 × Nat) :=
  sortBy (fun a b => lt32 b.1 a.1 || (!lt32 a.1 b.1 && a.2 ≤ b.2))
    (zs.zipIdx.filter fun p => match val32 p.1 with | .nan => false | .inf true => false | _ => true)

/-- The result record of a row. -/
def rowRecordBytes (k : Nat) (vals : Bool) (zs : List W32) : List Byte :=
  let inc := rowOrder zs
  let top := inc.take k
  let st := inc.isEmpty.toNat + 2 * (decide (top.length < k)).toNat +
    4 * (zs.any fun z => val32 z == .inf false).toNat
  let idx := top.map (fun p => natLe p.2 4) ++ List.replicate (k - top.length) (natLe 0xFFFFFFFF 4)
  let vs := top.map (fun p => natLe p.1.toNat 4) ++ List.replicate (k - top.length) (natLe 0xFF800000 4)
  padTo (rowRecord k vals) (natLe st 4 ++ natLe top.length 4 ++ idx.flatten ++ (if vals then vs.flatten else []))

/-! ## An order in service -/

/-- A change to a job. -/
def State.onJob (s : State) (seq : Nat) (f : RowJob → RowJob) : State :=
  { s with rows := s.rows.map fun j => if j.seq == seq then f j else j }

/-- A job ends with its order. -/
def State.endJob (s : State) (o : Order) (code payload : Nat) (rejected : Bool) : State :=
  let s : State := { s with rows := s.rows.filter (·.seq != o.seq) }
  if rejected then s.rejectOrder o code payload else s.complete o code payload

/-- What a job reads before it can form its next row: mask and scores, by slot, address and length. -/
def rowReads (b : List Byte) (row : Nat) : List (Nat × Nat × Nat) :=
  let len := fieldAt b 28 4 * rowSize (fieldAt b 32 1)
  let scores := (2 * row + 2, (fieldAt b 0 8 + row * fieldAt b 8 8) % 2 ^ 64, len)
  match fieldAt b 33 1 with
  | 0 => [scores]
  | 1 => [(1, fieldAt b 56 8, len), scores]
  | _ => [(2 * row + 3, (fieldAt b 56 8 + row * fieldAt b 64 8) % 2 ^ 64, len), scores]

/-- The reads of a row are asked for, or what they brought is at hand. -/
def State.rowFetch (s : State) (seq : Nat) : List (Nat × Nat × Nat) → State × Option (Nat × Nat) × Option (List (List Byte))
  | [] => (s, none, some [])
  | (slot, addr, len) :: rest =>
    match s.fetch seq slot addr len with
    | .wait s => let r := s.rowFetch seq rest; (r.1, r.2.1, none)
    | .bad k got => (s, some (k, (addr + got) % 2 ^ 64), none)
    | .ok d => let r := s.rowFetch seq rest; (r.1, r.2.1, r.2.2.map (d :: ·))

/-- A row's record is formed and written, and the CRC goes on over its score bytes (R119). -/
def State.rowDone (s : State) (o : Order) (j : RowJob) (data : List (List Byte)) : State :=
  let b := o.body
  let fmt := fieldAt b 32 1
  let n := fieldAt b 28 4
  let fl := fieldAt b 36 1
  let scores := data.getLastD []
  let mask := if fieldAt b 33 1 == 0 then none else some (rowEntries fmt n (data.headD []))
  let zs := rowZ j.seed ((fieldAt b 16 8 + j.row) % 2 ^ 64) (fl.testBit 0) (BitVec.ofNat 32 (fieldAt b 40 4))
    (rowEntries fmt n scores) mask
  let out := rowRecordBytes (fieldAt b 34 2) (fl.testBit 1) zs
  let s := s.emit (.hostWrite ((fieldAt b 72 8 + j.row * fieldAt b 80 8) % 2 ^ 64) out)
  let s := s.onIntake fun x => { x with fetches := x.fetches.filter fun f => f.seq != o.seq || f.slot == 1 }
  s.onJob o.seq fun j => { j with row := j.row + 1, crcReg := crcRun crc64ecma j.crcReg scores }

/-- All rows are written: the order completes with the CRC formed (R119). -/
def State.rowsEnd (s : State) (o : Order) (j : RowJob) : State :=
  let v := crcOut crc64ecma j.crcReg
  let bad := (fieldAt o.body 36 1).testBit 2 && fieldAt o.body 88 8 != v
  s.endJob o (if bad then 0xA024 else 0) v false

/-- A job goes as far as the data at hand allow. -/
def State.rowGo (s : State) (seq : Nat) : Nat → State
  | 0 => s
  | n + 1 =>
    match s.rows.find? (·.seq == seq), s.order seq with
    | some j, some o =>
      if fieldAt o.body 24 4 ≤ j.row then s.rowsEnd o j
      else
        match s.rowFetch seq (rowReads o.body j.row) with
        | (s, some (k, addr), _) => s.endJob o 0x7001 (k % 16 + addr / 64 * 64) true
        | (s, none, some data) => (s.rowDone o j data).rowGo seq n
        | (s, none, none) => s
    | _, _ => s

/-- What a ROW_SAMPLE waits for (R118). -/
def State.rowMayStart (s : State) (o : Order) : Bool :=
  s.effectsBefore o [1, 7, 3, 6] && (s.earlier o).all fun x => x.op != 8 || x.ended || x.phase == .executing

/-- The seed of the latest SEED_SET or RESTORE before an order (R118). -/
def State.seedBefore (s : State) (seq : Nat) : Option W64 :=
  ((s.jrnl.seeds.filter fun p => decide (p.seq < seq)).foldl (fun (acc : Option SeedNote) p =>
    match acc with | some q => if q.seq < p.seq then some p else some q | none => some p) none).map (·.seed)

/-- The seed that a body resolves to. -/
def State.rowSeed (s : State) (o : Order) : Option W64 :=
  if fieldAt o.body 48 8 == 0 then s.seedBefore o.seq else some (BitVec.ofNat 64 (fieldAt o.body 48 8))

/-- The plan leaves the row path no V-core or no S-core. -/
def State.noRowCores (s : State) : Bool := s.planOn && (140 ≤ s.plan.data.vUsed || 60 ≤ s.plan.data.sUsed)

/-- A ROW_SAMPLE starts. Where no core is free and no seed resolves either, the spec does not say which code ends the
order; that 0xA023 is tested first is the model's choice (log 25). -/
def State.rowStart (s : State) (o : Order) : State :=
  if s.noRowCores then s.rejectOrder o 0xA023 (s.plan.data.vUsed % 256 + s.plan.data.sUsed % 256 * 256)
  else match s.rowSeed o with
    | none => s.rejectOrder o 0xA022 0
    | some seed =>
      let s := s.onOrder o.seq fun x => { x with phase := .executing }
      let s : State := { s with rows := s.rows ++ [⟨o.seq, seed, 0, crc64ecma.init⟩] }
      s.rowGo o.seq 2

/-- ROW_SAMPLE. -/
def execRowSample (t seq : Nat) (s : State) : Result :=
  s.when t (fun s => (s.executable seq 8).any s.rowMayStart) fun s =>
    match s.executable seq 8 with
    | some o => s.rowStart o
    | none => s

/-! ## HOST_READ_COMPLETION -/

/-- The read an order waits for. -/
def State.askedFor (s : State) (seq slot : Nat) : Option (Nat × Nat × Nat × Nat) :=
  s.intake.asked.find? fun q => q.1 == seq && q.2.1 == slot

/-- HOST_READ_COMPLETION: data of the length asked for, or a failure of a kind of R343 after some bytes. -/
def execHostReadCompletion (t seq slot : Nat) (data : List Byte) (err : Nat) (s : State) : Result :=
  s.when t (fun s => s.cUp && s.ports.busMaster && (s.askedFor seq slot).any fun q =>
      if err == 0 then data.length == q.2.2.2 else err ≤ 4 && data.length < q.2.2.2) fun s =>
    let s := s.onIntake fun x => { x with
      asked := x.asked.filter fun q => !(q.1 == seq && q.2.1 == slot)
      fetches := x.fetches ++ [⟨seq, slot, data, err⟩] }
    let s := if err == 0 then s else s.incFld Fld.HOST_ERR_READ_FAILS
    (s.rowGo seq 2).reloadGo

end Sys2Proof.Machine
end

