-- ==== Sys2Proof/Machine/Modes.lean ====
section
/-! DEFINITION. MODE_CTL and LOAD_BALANCE (R243), the digest snapshot (R258, R422) and Oculus captures (R176). -/

namespace Sys2Proof.Machine

/-- A write to MODE_CTL or LOAD_BALANCE: at once when no run is in progress, else held for the boundary. -/
def State.writeMode (s : State) (lb : Bool) (a : RegAcc) : State :=
  match accField a (if lb then Fld.LOAD_BALANCE_ENABLE else Fld.MODE_CTL_MODE) with
  | none => s
  | some v =>
    let on := v == 1
    if s.running then
      let s : State := { s with dig :=
        if lb then { s.dig with heldLb := some on, heldPort := a.port }
        else { s.dig with heldMode := some on, heldPort := a.port } }
      s.setFlag Fld.MODE_STAT_PENDING true
    else
      let src := a.port.source
      if lb then s.setMode none (some on) src else s.setMode (some on) none src

/-- MODE_CTL_WRITE. -/
def execModeCtlWrite (t : Nat) (lb : Bool) (a : RegAcc) (s : State) : Result :=
  s.access t a (if lb then .LOAD_BALANCE else .MODE_CTL) fun s => s.writeMode lb a

/-- The state after boundary actions that fall in this cycle and still wait in the queue: a read of what they update
returns the updated value (R34, R258). -/
def State.afterBoundary (s : State) : State :=
  match s.pending.find? fun c => match c with | .boundaryActions t _ => decide (t ≤ s.now) | _ => false with
  | some (.boundaryActions t found) => match execBoundaryActions t found s with | .next s' => s' | _ => s
  | _ => s

/-- A read of DIGEST_STEP takes the snapshot of the reading port; in the cycle in which a digest closes, of the new
record. -/
def State.snapDigest (s : State) (p : Port) : State :=
  let d := s.afterBoundary.dig
  let snap := (d.value, d.flags, d.valid)
  { s with dig := if p == .host then { s.dig with snapHost := snap } else { s.dig with snapMgmt := snap } }

/-- What a register read returns to the port that made it. -/
def State.answer (s : State) (p : Port) (v : W64) : State :=
  if p == .host then s.emit (.readData v.toNat false) else s.emit (.mgmtReply 0 (natLe v.toNat 8))

/-- DIGEST_STEP_READ. -/
def execDigestStepRead (t : Nat) (p : Port) (s : State) : Result :=
  s.when t (fun s => s.reach p .DIGEST_STEP) fun s =>
    (s.snapDigest p).answer p (BitVec.ofNat 64 s.afterBoundary.dig.step)

/-- The step that comes next, or is in progress: no trigger before it can still match. -/
def State.stepToCome (s : State) : Nat :=
  if s.stept.stepOn then s.stepNow
  else match s.stept.run with
    | some r => r.next
    | none => s.idleNext

/-- A write to OCU_CTL: MODE, and ARM, which misses when its step has already completed. -/
def State.writeOcuCtl (s : State) (a : RegAcc) : State :=
  let s := s.writeFields .OCU_CTL a
  if accSets a Fld.OCU_CTL_ARM then
    if s.fld Fld.OCU_TRIG_STEP_STEP < s.stepToCome then
      ((s.setFlag Fld.OCU_CTL_ARM false).hwSet Fld.OCU_STAT_MISSED).setCause 4
    else
      let was := s.flag Fld.OCU_CTL_ARM
      let s := s.swSet Fld.OCU_CTL_ARM
      if was then s else { s with ocu := { s.ocu with armedAt := s.now } }
  else s

/-- An Oculus access at D0 is ignored and counted (R355). -/
def State.ocuRefuse (s : State) : State :=
  let s := s.incFld Fld.SEC_COUNTS_OCULUS_REFUSED
  { s with sec := { s.sec with refusedStep := s.sec.refusedStep + 1 } }

/-- OCULUS_ARM. -/
def execOculusArm (t : Nat) (a : RegAcc) (s : State) : Result :=
  s.access t a .OCU_CTL fun s => if s.dbgLevel == 0 then s.ocuRefuse else s.writeOcuCtl a

end Sys2Proof.Machine
end

