-- ==== Sys2Proof/Machine/Mgmt.lean ====
section
/-! DEFINITION. The management port (R331 to R337): its address, MCTP control messages, the heartbeat
timer and the alert pin. -/

namespace Sys2Proof.Machine

/-- MCTP control messages and PLDM Firmware Update are answered from stage 0 on (R404), except while
the DMC restarts (R372). -/
def State.mctpUp (s : State) : Bool := s.pwr.auxGood && !s.sec.dmcDown

/-- A change to the management port's hidden state. -/
def State.onMgmt (s : State) (f : MgmtSt → MgmtSt) : State := { s with mgmt := f s.mgmt }

/-- A response of the Keazia set: STATUS 3 while the boot ROM runs, else what the command answers
(R332, R404). -/
def State.keazia (s : State) (t : Nat) (f : State → State) : Result :=
  s.when t (fun s => s.mctpUp) fun s => if s.dmcUp then f s else s.emit (.mgmtReply 3 [])

/-- PRESENT_N is driven low: the main rails are up and READY is 1 (R337). -/
def State.present (s : State) : Bool := s.pwr.rails && s.readyUp

/-- ALERT_N is asserted: PRESENT_N is high or an alert is pending (R337). -/
def State.alertAsserted (s : State) : Bool := !s.present || s.mgmt.alertPending

/-- The static address (R331). -/
def State.staticAddress (s : State) : Nat := 0x50 + s.fuse.addrSel % 4

/-- I3C_DYNAMIC_ADDRESS: ENTDAA or SETDASA; `legacy` is a legacy transaction of the controller at an address, which at
the port's static address makes it an SMBus target (R331). -/
def execI3cDynamicAddress (t : Nat) (legacy : Bool) (addr : Nat) (s : State) : Result :=
  s.when t (fun s => s.pwr.auxGood) fun s =>
    if legacy && addr != s.staticAddress then s
    else if legacy then
      let was := s.flag Fld.MGMT_STAT_I3C
      let s := s.setFlag Fld.MGMT_STAT_I3C false
      if was then s.record 0x7021 0 .dmc else s
    else (s.setFlag Fld.MGMT_STAT_I3C true).setFld Fld.MGMT_STAT_DYN_ADDR addr

/-- SET_ENDPOINT_ID. -/
def execSetEndpointId (t eid : Nat) (s : State) : Result :=
  s.when t (fun s => s.mctpUp) fun s =>
    (s.setFld Fld.MGMT_STAT_EID eid).emit (.ctlReply 0 (natLe eid 1))

/-- GET_ENDPOINT_ID. -/
def execGetEndpointId (t : Nat) (s : State) : Result :=
  s.when t (fun s => s.mctpUp) fun s => s.emit (.ctlReply 0 (natLe (s.fld Fld.MGMT_STAT_EID) 1))

/-- A response whose content an external standard fixes and the spec does not state: free bytes (log 9). -/
def State.openReply (s : State) (n : Nat) : State :=
  let v := s.freshVal
  v.2.emit (.ctlReply 0 (natLe v.1.toNat n))

/-- GET_MCTP_VERSION_SUPPORT. -/
def execGetMctpVersionSupport (t : Nat) (s : State) : Result :=
  s.when t (fun s => s.mctpUp) fun s => s.openReply 4

/-- GET_MESSAGE_TYPE_SUPPORT: types 0x00, 0x01 and 0x7E (R332). -/
def execGetMessageTypeSupport (t : Nat) (s : State) : Result :=
  s.when t (fun s => s.mctpUp) fun s => s.emit (.ctlReply 0 [0x00, 0x01, 0x7E])

/-- GET_VENDOR_MESSAGE_SUPPORT: vendor ID 0x4B5A (R332). -/
def execGetVendorMessageSupport (t : Nat) (s : State) : Result :=
  s.when t (fun s => s.mctpUp) fun s => s.emit (.ctlReply 0 (natLe 0x4B5A 2))

/-- Ticks of 1 µs since the heartbeat timer started (R335, R10). -/
def State.hbTicks (s : State) : Nat := (s.now - s.mgmt.hbStart) / 2000

/-- HEARTBEAT. -/
def execHeartbeat (t : Nat) (s : State) : Result :=
  s.keazia t fun s =>
    let per := s.fld Fld.MGMT_WDOG_PERIOD
    let s := if per != 0 && s.hbTicks == per && !s.flag Fld.MGMT_STAT_BMC_LOST then
      s.incFld Fld.MGMT_AT_LIMIT_HEARTBEAT else s
    let s := (s.setFlag Fld.MGMT_STAT_BMC_LOST false).onMgmt fun m => { m with hbStart := s.now }
    s.emit (.mgmtReply 0 [])

/-- MGMT_WDOG_EXPIRED: a HEARTBEAT in the tick of expiry is on time, so the timer acts when that tick is over
(R57, R335). -/
def execMgmtWdogExpired (t : Nat) (s : State) : Result :=
  s.when t (fun s => s.pwr.auxGood && s.fld Fld.MGMT_WDOG_PERIOD != 0 &&
      !s.flag Fld.MGMT_STAT_BMC_LOST && decide (s.fld Fld.MGMT_WDOG_PERIOD < s.hbTicks)) fun s =>
    ((s.setFlag Fld.MGMT_STAT_BMC_LOST true).onMgmt fun m => { m with alertPending := true }).record
      0x7020 0 .dmc

/-- A write to MGMT_WDOG restarts the timer (R335). -/
def State.mgmtWdog (s : State) (a : RegAcc) : State :=
  let s := s.writeFields .MGMT_WDOG a
  (s.noteConfig .MGMT_WDOG a.port.source).onMgmt fun m => { m with hbStart := s.now }

/-- MGMT_WDOG_WRITE. -/
def execMgmtWdogWrite (t : Nat) (acc : RegAcc) (s : State) : Result :=
  s.access t acc .MGMT_WDOG fun s => s.mgmtWdog acc

/-- MGMT_STAT as a read returns it: ALERT and PRESENT follow the pins (R337, R344). -/
def State.mgmtStat (s : State) : W64 :=
  insertBits (insertBits (s.reg .MGMT_STAT) 2 1 s.alertAsserted.toNat) 3 1 s.present.toNat

/-- MGMT_STAT_READ: a read over the management port, which clears a pending alert (R337, R420). -/
def execMgmtStatRead (t : Nat) (s : State) : Result :=
  s.keazia t fun s =>
    let v := s.mgmtStat
    (s.onMgmt fun m => { m with alertPending := false }).emit (.mgmtReply 0 (natLe v.toNat 8))

end Sys2Proof.Machine
end

