-- ==== Sys2Proof/Machine/Belfry.lean ====
section
/-! DEFINITION. The Belfry commands (chapter 15): events, ticks, refills, freezing, reading and
clearing. -/

namespace Sys2Proof.Machine

/-! ## Copies that fail (R394, R395) -/

/-- With both copies failed, LOG_LOST counts once per power cycle and 0x9003 goes out as an alert (R395). -/
def State.sayLost (s : State) : State :=
  if !s.logLost || s.bel.lostCounted then s else
    let s := ({ s with bel := { s.bel with lostCounted := true } } : State).incFld Fld.BELFRY_TALLY_LOG_LOST
    (s.setFlag Fld.BELFRY_STAT_LOG_LOST true).record 0x9003 (s.fld Fld.BELFRY_TALLY_POWER_CYCLES) .dmc

/-- A write to copy `c` failed twice: the copy is marked failed for life, and 0x9002 goes to the other copy, or 0x9003
out when there is none. -/
def State.failCopy (s : State) (c : Nat) : State :=
  let f := if c == 0 then Fld.BELFRY_STAT_COPY0_FAILED else Fld.BELFRY_STAT_COPY1_FAILED
  let g := if c == 0 then Fld.BELFRY_TALLY_COPY0_LOST else Fld.BELFRY_TALLY_COPY1_LOST
  if s.flag f then s
  else
    let s := (s.setFlag f true).setFlag g true
    if s.logLost then s.sayLost else s.record 0x9002 c .dmc

/-- BELFRY_EVENT. `fail0` and `fail1` say that the write to that copy is read back wrong twice, if the event makes
one. -/
def execBelfryEvent (t code payload : Nat) (src : Source) (fail0 fail1 : Bool) (s : State) : Result :=
  s.when t (fun s => s.pwr.auxGood) fun s =>
    let n := s.fld Fld.BELFRY_TOTAL_TOTAL
    let s := s.record code payload src
    let wrote := s.fld Fld.BELFRY_TOTAL_TOTAL != n
    let s := if fail0 && wrote then s.failCopy 0 else s
    if fail1 && wrote then s.failCopy 1 else s

/-! ## Ticks (R389, R391) -/

/-- OPERATING_HOURS_TICK: one tick of 1/16 s while auxiliary power is present (R389). -/
def execOperatingHoursTick (t : Nat) (s : State) : Result :=
  s.when t (fun s => s.pwr.auxGood) fun s =>
    let s := { s with mram := { s.mram with hours := (s.mram.hours + 1) % 2 ^ 40 } }
    s.summaries

/-- BELFRY_REFILL: due when RATE_TICKS ticks have passed since the last refill (R391). -/
def execBelfryRefill (t : Nat) (s : State) : Result :=
  s.when t (fun s => s.pwr.auxGood && s.refillDue) fun s => s.refillAll.summaries

/-! ## Freezing (R398) and clearing (R399) -/

/-- R399 at the first cycle in which FREEZE is 0. -/
def State.clearLast (s : State) (keyId : Nat) : State :=
  let s := s.refillFirst
  let n := s.fld Fld.BELFRY_STAT_LAST_COUNT
  let m := s.mram
  let s := { s with
    mram := { m with
      last0 := if s.flag Fld.BELFRY_STAT_COPY0_FAILED then m.last0 else []
      last1 := if s.flag Fld.BELFRY_STAT_COPY1_FAILED then m.last1 else [] }
    bel := { s.bel with clearKey := none } }
  let s := ((s.setFld Fld.BELFRY_STAT_LAST_COUNT 0).setFlag Fld.BELFRY_STAT_CLEAR_PENDING false).endWrote
  let s := s.incFld Fld.BELFRY_TALLY_LOG_CLEARS
  (s.record 0x9001 (n + keyId * 2 ^ 32) .dmc).endWrote

/-- FREEZE goes to 0: a waiting clear acts first, then the pending buffer drains. -/
def State.unfreeze (s : State) : State :=
  let s := s.setFlag Fld.BELFRY_CTL_FREEZE false
  let s := match s.bel.clearKey with
    | some k => s.clearLast k
    | none => s
  if s.sec.dmcDown then s else s.drainPending

/-- The tick at whose end FREEZE expires (R398). -/
def State.freezeEnd (s : State) : Nat := s.bel.freezeTick + s.fld Fld.BELFRY_CTL_FREEZE_LIMIT

/-- A write to BELFRY_CTL (R391, R398, R401). A change of its other fields than FREEZE is a configuration change, which
stands behind the records that waited. -/
def State.belfryCtl (s : State) (a : RegAcc) : State :=
  let was := s.flag Fld.BELFRY_CTL_FREEZE
  let fin := s.freezeEnd
  let limit := s.fld Fld.BELFRY_CTL_FREEZE_LIMIT
  let old := (s.reg .BELFRY_CTL).toNat / 2
  let s := s.writeFields .BELFRY_CTL a
  let is := s.flag Fld.BELFRY_CTL_FREEZE
  let s :=
    if !was && is then ({ s with bel := { s.bel with freezeTick := s.mram.hours } } : State).endWrote
    else if was && !is then
      (if limit != 0 && s.mram.hours == fin then s.incFld Fld.BELFRY_AT_LIMIT_FREEZE else s).unfreeze
    else s
  if (s.reg .BELFRY_CTL).toNat / 2 == old then s else s.noteConfig .BELFRY_CTL a.port.source

/-- BELFRY_FREEZE_SET. -/
def execBelfryFreezeSet (t : Nat) (acc : RegAcc) (s : State) : Result :=
  s.access t acc .BELFRY_CTL fun s => s.belfryCtl acc

/-- BELFRY_FREEZE_CLEAR. -/
def execBelfryFreezeClear (t : Nat) (acc : RegAcc) (s : State) : Result :=
  s.access t acc .BELFRY_CTL fun s => s.belfryCtl acc

/-- FREEZE_EXPIRED: due once tick t0 + FREEZE_LIMIT has ended (R398). -/
def execFreezeExpired (t : Nat) (s : State) : Result :=
  s.when t (fun s => s.pwr.auxGood && s.flag Fld.BELFRY_CTL_FREEZE &&
      s.fld Fld.BELFRY_CTL_FREEZE_LIMIT != 0 && decide (s.freezeEnd < s.mram.hours)) fun s =>
    s.unfreeze.record 0x9005 (s.fld Fld.BELFRY_CTL_FREEZE_LIMIT) .dmc

/-- An accepted BELFRY_CLEAR token (R399): a second one during the wait makes no second clear. -/
def State.acceptClear (s : State) (keyId : Nat) : State :=
  if s.flag Fld.BELFRY_CTL_FREEZE then
    if s.bel.clearKey.isSome then s
    else ({ s with bel := { s.bel with clearKey := some keyId } }).setFlag
      Fld.BELFRY_STAT_CLEAR_PENDING true
  else s.clearLast keyId

/-- BELFRY_CLEARED: the waiting clear, at the first cycle in which FREEZE is 0. -/
def execBelfryCleared (t : Nat) (s : State) : Result :=
  s.when t (fun s => s.pwr.auxGood && s.bel.clearKey.isSome && !s.flag Fld.BELFRY_CTL_FREEZE)
    fun s => s.clearLast (s.bel.clearKey.getD 0)

/-! ## Reading (R397) -/

/-- One copy's record replaced. -/
def State.rewriteCopy (s : State) (area copy i : Nat) (r : List Byte) : State :=
  let m := s.mram
  { s with mram := { m with
    first0 := if area == 0 && copy == 0 then m.first0.set i r else m.first0
    first1 := if area == 0 && copy == 1 then m.first1.set i r else m.first1
    last0 := if area == 1 && copy == 0 then m.last0.set i r else m.last0
    last1 := if area == 1 && copy == 1 then m.last1.set i r else m.last1 } }

/-- A write to BELFRY_INDEX captures a record into the writing port's registers (R397, R422). -/
def State.belfryIndex (s : State) (a : RegAcc) : State :=
  let s := s.writeFields (Reg.at a.port .BELFRY_INDEX) a
  let i := (s.reg (Reg.at a.port .BELFRY_INDEX)).toNat % 2 ^ 17
  let area := (s.reg (Reg.at a.port .BELFRY_SEL_AREA)).toNat % 2
  let c := s.belfryCapture a.port
  let s : State := { s with bel :=
    if a.port == .host then { s.bel with capHost := some s.now } else { s.bel with capMgmt := some s.now } }
  let s := s.putCapture a.port c
  match c.repair with
  | some k =>
    let s := s.rewriteCopy area k i c.bytes
    s.record 0x9006 (k + area * 256 + i % 65536 * 65536) .dmc
  | none => s

/-- BELFRY_INDEX_WRITE. -/
def execBelfryIndexWrite (t : Nat) (acc : RegAcc) (s : State) : Result :=
  s.access t acc .BELFRY_INDEX fun s => s.belfryIndex acc

end Sys2Proof.Machine
end

