-- ==== Sys2Proof/Machine/Recovery.lean ====
section
/-! DEFINITION. Recovery after a reset (R277, R278, R409, R412 to R414): records merged, orders adopted, plan,
context and configuration restored, steps run again; and the writes to INTAKE_CTL. -/

namespace Sys2Proof.Machine

/-! ## Records merged (R277 steps 1 and 2) -/

/-- A port's queue with the records new to the rings that its partner has not stored. -/
def JPort.bring (p : JPort) (up : Bool) (new : List JFrame) : JPort :=
  match p.stored with
  | some n =>
    let add := (new.filter fun f => decide (n < f.fseq)).map fun f => (f.fseq, true)
    if up then { p with queue := sortBy (fun x y => x.1 ≤ y.1) (p.queue ++ add) } else p
  | none => p

/-- What FETCH returned joins the rings and goes to the partners that lack it; numbering goes on past the
highest record. -/
def State.mergeRecords (s : State) : State :=
  let j := s.jrnl
  let all := mergeFrames j.frames j.replayed
  let new := all.filter fun f => !(j.frames.any (·.fseq == f.fseq))
  let next := all.foldl (fun n f => max n (f.fseq + 1)) (s.fld Fld.JRNL_NEXT_FSEQ_FSEQ)
  let seg := all.foldl (fun n f => max n f.segment) (s.fld Fld.JRNL_STAT_SEGMENT)
  let s : State := { s with
    jrnl := { j with
      frames := all
      replayed := []
      j0 := j.j0.bring (s.fld (jState 0) == 3) new
      j1 := j.j1.bring (s.fld (jState 1) == 3) new }
    mram := { s.mram with fseq := max s.mram.fseq next } }
  ((s.setFld Fld.JRNL_NEXT_FSEQ_FSEQ next).setFld Fld.JRNL_STAT_SEGMENT seg).showUsed

/-! ## Waiting for partners (R277, R413) -/

/-- A partner that has trained in this recovery and is reachable. -/
def State.reached (s : State) : Bool :=
  (s.fld (jState 0) == 3 && s.jrnl.j0.stored.isSome) || (s.fld (jState 1) == 3 && s.jrnl.j1.stored.isSome)

/-- A reachable partner has not yet returned all that was fetched from it. -/
def State.fetchOwed (s : State) (port : Nat) : Bool :=
  match (s.jport port).stored with
  | some n => s.fld (jState port) == 3 && n != 0 &&
      !((s.jrnl.frames ++ s.jrnl.replayed).any fun f => f.fseq == n)
  | none => false

/-- Recovery waits: after a cold reset with ONE or BOTH for a partner, and for what partners still return. -/
def State.recoveryWaits (s : State) : Bool :=
  !s.boot.forced &&
  ((s.boot.recovering == some .cold && s.optJ && s.policyNow != 0 && !s.reached) || s.fetchOwed 0 || s.fetchOwed 1)

/-! ## Orders adopted (R277 step 3) -/

/-- A receipt read back from its 32 bytes (R268). -/
def Receipt.ofBytes (b : List Byte) : Receipt :=
  ⟨fieldAt b 0 8, fieldAt b 8 8, fieldAt b 16 8, fieldAt b 24 1, fieldAt b 25 1, fieldAt b 26 2,
   fieldAt b 28 1, fieldAt b 30 2, true⟩

/-- The receipts journaled for an order, each with the FSEQ of its frame. -/
def JrnlSt.receiptsOf (j : JrnlSt) (seq : Nat) : List (Receipt × Nat) :=
  ((j.frames.filter fun f => f.typ == 2 && f.orderSeq == seq).map fun f =>
    (recs f.payload 0 32 (f.payload.length / 32)).map fun b => (Receipt.ofBytes b, f.fseq)).flatten

/-- The SEQs that have a complete order record, ascending. -/
def JrnlSt.recorded (j : JrnlSt) : List Nat :=
  (sortNats ((j.frames.filter (·.typ == 1)).map (·.orderSeq)).dedup).filter fun q => (j.recordOf 1 q).isSome

/-- An order rebuilt from its records. Which port sealed it is not journaled; the host stands for it (log 20). Which of
its receipts had been posted the device knows after every reset (R278, log 26). A CHECKPOINT that has not completed
captures again. -/
def JrnlSt.rebuild (j : JrnlSt) (seq : Nat) (b : List Byte) : Order :=
  let raw := b.take (sealAt b + 8)
  let rs := j.receiptsOf seq
  let of := fun (kinds : List Nat) => (rs.filter fun r => kinds.contains r.1.kind).getLast?
  let fin := of [2, 4]
  let rel := of [3]
  let fs := j.frames.filter fun f => f.typ == 1 && f.orderSeq == seq
  let recd := fs.getLast?
  let op := fieldAt raw 0 1
  let eff := if op == 5 && fin.isNone then none else (of [5]).map fun r => (r.1.step, r.1.phaseAt)
  let was := (j.posted.find? (·.1 == seq)).map (·.2)
  let posted := was.isSome || eff.isSome || fin.isSome
  let first : Receipt := ⟨seq, (recd.map (·.step)).getD 0, 0, 1, 0, 0, op, (recd.map (·.phase)).getD 0, true⟩
  { seq := seq
    phase := if fin.isSome then .done else if eff.isSome && op == 4 then .executing else .accepted
    raw := raw
    bulk := if fieldAt raw 1 1 == 1 then some (b.drop 4096) else none
    crc := fieldAt raw (sealAt raw + 4) 4
    policy := (recd.map (·.policy)).getD 0
    src := .host
    recFseq := (recd.map (·.fseq)).getD 0
    slot := 4096
    durFlags := (was.map fun p => p.1.flags &&& 28).getD 0
    seedDrawn := if op == 3 && seedFresh raw then some (fieldAt raw 64 8) else none
    effect := eff
    final := fin
    finalPosted := rel.isSome || (was.any (·.2) && fin.isSome)
    rel := rel
    acceptedPosted := posted
    latest := (was.map (·.1)).or (if rel.isSome then fin.map (·.1) else if posted then some first else none) }

/-- An order enters the table, or the past when its RELEASED is durable. -/
def State.adopt (s : State) (seq : Nat) : State :=
  match s.jrnl.recordOf 1 seq with
  | some b =>
    let o := s.jrnl.rebuild seq b
    match o.rel with
    | some r =>
      if s.durable r.2 o.policy then s.onIntake fun x => { x with past := (seq, o.crc, some r.1) :: x.past }
      else s.onIntake fun x => { x with orders := x.orders ++ [o] }
    | none => s.onIntake fun x => { x with orders := x.orders ++ [o] }
  | none => s

/-- The seeds whose orders took effect as the records tell, or whose records have gone (R412). -/
def State.seedsKept (s : State) : List SeedNote :=
  if s.boot.recovering == some .cold && !s.reached then []
  else s.jrnl.seeds.filter fun n =>
    !(s.jrnl.recorded.contains n.seq) || (s.jrnl.receiptsOf n.seq).any (·.1.kind == 5)

/-- Every order with a complete record becomes accepted. What has been fetched for orders is kept. -/
def State.adoptAll (s : State) : State :=
  let qs := s.jrnl.recorded
  let s := s.onIntake fun x => { x with orders := [], past := [], held := [] }
  let s : State := { s with jrnl := { s.jrnl with seeds := s.seedsKept } }
  let s := qs.foldl State.adopt s
  let next := qs.foldl (fun n q => max n (q + 1)) 1
  let s : State := { s with boot := { s.boot with adopted := s.intake.orders.length } }
  ((s.setFld Fld.INTAKE_NEXT_SEQ_NEXT next).onIntake fun x => { x with
    past := x.past.filter fun p => decide (next ≤ p.1 + 65536) }).showIntake

/-! ## The plan, its binds and contexts (R277 step 4) -/

/-- The last PLAN_LOAD in effect. -/
def State.lastPlan (s : State) : Option Nat :=
  (s.jrnl.recorded.filter fun q =>
    ((s.jrnl.recordOf 1 q).map fun b => fieldAt b 0 1) == some 1 &&
    (s.jrnl.receiptsOf q).any (·.1.kind == 5)).getLast?

/-- The FSEQ that was next when a context was captured, as the journal shows it: the transfer of a periodic context
begins in the step that it enters, so the capture precedes the frames of that step before its first part. -/
def State.capturedAt (s : State) (c : CtxPartial) : Nat :=
  let before := (s.jrnl.frames.filter fun f => decide (f.fseq < c.first)).reverse
  let run := if ctxMid c.bytes then [] else before.takeWhile (·.step == ctxNext c.bytes)
  ((run.getLast?).map (·.fseq)).getD c.first

/-- What stood beside a context at its capture, as the records before it tell (R204, R253). -/
def State.markAt (s : State) (fseq : Nat) : CtxMark :=
  let es := ((s.jrnl.frames.filter fun f => decide (f.fseq < fseq)).map JFrame.events).flatten
  let since := (es.reverse.takeWhile fun e => !e.1)
  let writes := fun (q : Nat) => (s.orderRecord q).any fun r => fieldAt r.1 64 1 == 7
  let seed := (s.jrnl.seeds.filter fun n => decide (s.effectFseq n.seq < fseq)).head?
  ⟨since.any fun e => e.2.2 == 9 && writes e.2.1, since.any fun e => e.2.2 == 6, seed.any (·.fresh)⟩

/-- The latest complete context: the copy in LPDDR5X when it survives, else the journal's frames. -/
def State.findContext (s : State) : State :=
  let last := (contextsIn [] (s.jrnl.frames.filter (·.typ == 4))).getLast?
  let s : State := if s.jrnl.ctxLp.isSome then s else
    let at_ := (last.map s.capturedAt).getD 0
    { s with jrnl := { s.jrnl with
        ctxFseq := at_, perFseq := at_, ctxParts := (last.map (·.parts)).getD [], ctxMark := s.markAt at_ } }
  match s.deviceCopy.or (last.map (·.bytes)) with
  | some b => (s.setFlag Fld.CKPT_STAT_VALID true).setFld Fld.CKPT_LAST_NEXT_STEP (ctxNext b)
  | none => s

/-- The binds in effect at the capture of that context. -/
def State.bindsAt (s : State) (fseq : Nat) : List Bind :=
  let from_ := s.effectFseq s.plan.seq
  let seqs := ((s.jrnl.frames.filter fun f => decide (from_ < f.fseq ∧ f.fseq < fseq)).map fun f =>
    (f.events.filter fun e => !e.1 && e.2.2 == 2).map (·.2.1)).flatten
  seqs.foldl (fun bs q => match s.orderRecord q with
    | some (raw, pay) =>
      let id := fieldAt raw 64 4
      Bind.mk id q pay (shake256 pay 32) :: bs.filter (·.block != id)
    | none => bs) []

/-- No shape of the plan fits the sites now working: the device is paused (R306). -/
def State.sayPaused (s : State) : State :=
  ((s.setFlag Fld.SPARE_STAT_PAUSED true).setFlag Fld.DEV_STAT_SHAPE_REDUCED true).record 0x6003 s.fillable

/-- The plan stands again as its order record gives it, in the shape that fits the sites now working. -/
def State.restorePlan (s : State) (seq : Nat) : State :=
  match s.orderRecord seq with
  | some (_, img) =>
    match (readPlan img).select s.fillable with
    | some sel =>
      let f := (s.layPlan seq img sel).coverSites 720
      let s := if f.2 then f.1.showSpares else f.1.sayPaused
      { s with jrnl := { s.jrnl with ctxBinds := s.bindsAt s.jrnl.ctxFseq } }
    | none => s.sayPaused
  | none => s

/-! ## Configuration (R409) -/

/-- The registers that recovery reinstates; where it reinstates only some fields, the first bit of each. -/
def reinstated : List (Reg × List Nat) :=
  [(.STEP_SRC, []), (.STEP_CTL, []), (.STEP_HOLDOVER, [Fld.STEP_HOLDOVER_LIMIT.lo]), (.STEP_WATCHDOG, []),
   (.STEP_SKEW_COMP, [Fld.STEP_SKEW_COMP_TRIM.lo]), (.MODE_CTL, []), (.LOAD_BALANCE, []), (.DURABILITY_POLICY, []),
   (.INTAKE_CTL, [Fld.INTAKE_CTL_SEAL_TIMEOUT.lo]),
   (.JRNL_CTL, [Fld.JRNL_CTL_ACK_TIMEOUT.lo, Fld.JRNL_CTL_RETRIES.lo]), (.SPARE_WDOG, []),
   (.SPARE_CTL, [Fld.SPARE_CTL_LOW.lo]), (.PWR_CAP, []), (.TRNG_CTL, [])]

/-- One register takes the last value journaled for it. -/
def State.reinstate (s : State) (x : Reg × List Nat) : State :=
  match s.jrnl.configs.find? (·.offset == x.1.offset) with
  | some c =>
    let fs := x.1.layout.filter fun f => f.acc == .rw && (x.2.isEmpty || x.2.contains f.lo)
    s.setReg x.1 (fs.foldl (fun v f => insertBits v f.lo f.w (bitsOf c.value f.lo f.w)) (s.reg x.1))
  | none => s

/-- Every register of R409, and what follows it. After a cold reset with no partner reached nothing is known. -/
def State.reinstateAll (s : State) : State :=
  if s.boot.recovering == some .cold && !s.reached then { s with jrnl := { s.jrnl with configs := [] } }
  else
    let s := reinstated.foldl State.reinstate s
    let m := s.flag Fld.MODE_CTL_MODE
    let s := (s.setFlag Fld.MODE_STAT_MODE m).setFlag Fld.MODE_STAT_LB_ACTIVE (m && s.flag Fld.LOAD_BALANCE_ENABLE)
    let s := s.boundaryLimits.onSpare fun x => { x with effWdog := s.fld Fld.SPARE_WDOG_CYCLES }
    s.checkPolicy

/-! ## The run (R412) -/

/-- RUN_NEXT_STEP after the events that followed the plan's effect. -/
def State.nextAfter (s : State) (es : List (Bool × Nat × Nat)) : W64 :=
  es.foldl (fun n e =>
    if e.1 then BitVec.ofNat 64 (e.2.1 + 1)
    else if e.2.2 == 6 then match s.orderRecord e.2.1 with
      | some (raw, bulk) =>
        if fieldAt raw 64 1 == 0 then BitVec.ofNat 64 (ctxNext bulk)
        else ((s.copyBefore (s.effectFseq e.2.1)).map fun b => BitVec.ofNat 64 (ctxNext b)).getD n
      | none => n
    else n) (BitVec.allOnes 64)

/-- Events journaled after a record. -/
def State.eventsAfter (s : State) (fseq : Nat) : List (Bool × Nat × Nat) :=
  ((s.jrnl.frames.filter fun f => decide (fseq < f.fseq)).map JFrame.events).flatten

/-- The last step journaled among events. -/
def lastDigest (es : List (Bool × Nat × Nat)) : Option Nat := ((es.filter (·.1)).map (·.2.1)).getLast?

/-- A RUN that took effect and has not ended is in progress again, at the step after its last journaled one. -/
def State.resumeRun (s : State) : State :=
  match s.intake.orders.find? fun o => o.op == 4 && o.phase == .executing with
  | some o =>
    let first := fieldAt o.body 0 8
    let last := fieldAt o.body 8 8
    let done := lastDigest (s.eventsAfter (s.effectFseq o.seq))
    let next := (done.map (· + 1)).getD first
    let s := s.onStep fun x => { x with
      run := some ⟨o.seq, first, last, next, s.now, done.isSome⟩, gen := none, applied := [], lateCause := 0
      current := none, anchor := none }
    let s := if done.isSome then s.setFlag Fld.DEV_STAT_RUNNING true else s
    if last < next then s.endRun 0 last (last + 1) else s
  | none => s

/-- STEP_NOW and the digest registers show the last step journaled. -/
def State.showLast (s : State) (es : List (Bool × Nat × Nat)) : State :=
  match lastDigest es with
  | some k =>
    let s := s.setFld Fld.STEP_NOW_STEP k
    match s.jrnl.frames.reverse.find? fun f => f.typ == 3 && digestRecOk f.payload && fieldAt f.payload 0 8 == k with
    | some f => { s with dig := { s.dig with
        step := k, value := fieldAt f.payload 8 8, flags := fieldAt f.payload 24 2, valid := true } }
    | none => s
  | none => s

/-- Accepted PROBE orders other than QUOTE that have no effect end REJECTED (R360). -/
def State.voidProbes (s : State) : State :=
  s.intake.orders.foldl (fun s o =>
    if o.op == 9 && o.action != 8 && o.phase == .accepted && o.effect.isNone then s.rejectOrder o 0x8040 o.action
    else s) s

/-! ## The two forms of recovery (R412) -/

/-- The seed in effect with no plan: that of the latest SEED_SET or RESTORE. -/
def State.seedAlone (s : State) : State :=
  match s.jrnl.seeds.head? with
  | some n => s.seedNow n.seed n.fresh
  | none => s

/-- Plan, state and run after a warm or cold reset; the steps that follow the base run again. -/
def State.restoreAll (s : State) : State :=
  let s := s.voidProbes.reinstateAll.findContext
  match s.lastPlan with
  | none => s.seedAlone.endRecovery
  | some q =>
    let s := s.restorePlan q
    if !s.planOn then s.seedAlone.endRecovery
    else
      let es := s.eventsAfter (s.effectFseq q)
      let s := ((s.setReg .RUN_NEXT_STEP (s.nextAfter es)).showLast es).resumeRun
      let s : State := { s with dig := { s.dig with rerunTo := some ((lastDigest es).getD 0 + 1) } }
      s.rerunAll

/-- Recovery from the journal. -/
def State.recoverFull (s : State) : State :=
  let s := s.mergeRecords.adoptAll
  let x := s.fetchNeeded [1, 2, 6] (s.lastPlan.getD 0)
  if x.2 then x.1.restoreAll else x.1

/-- Journaled orders become accepted; an order abandoned while it executed executes again; other PROBE orders
without effect end (R360, R411). -/
def State.keepOrders (s : State) : State :=
  let js := s.intake.orders.filter (·.phase == .journaled)
  let next := js.foldl (fun n o => max n (o.seq + 1)) s.nextSeq
  let s := s.onIntake fun x => { x with orders := x.orders.map fun o =>
    if o.phase == .journaled || (o.phase == .executing && (o.op == 8 || o.op == 9)) then
      { o with phase := .accepted } else o }
  let s : State := { s with boot := { s.boot with adopted := js.length } }
  (s.setFld Fld.INTAKE_NEXT_SEQ_NEXT next).showIntake

/-- Recovery after FLR or hot reset: only the abandoned step runs again, or the re-run that was in progress. -/
def State.recoverStep (s : State) : State :=
  let s := s.keepOrders.voidProbes
  if s.dig.reload == 1 then s.startReload 1
  else match s.dig.rerunTo with
  | some k =>
    let l := s.slog
    if s.dig.script.isEmpty then
      (s.startRerun k l.throughput false).onLog fun x => { x with charged := l.charged, tainted := l.tainted }
    else s.rerunAll
  | none => s.endRecovery

/-- A recovery is to start or go on. -/
def State.recoveryDue (s : State) : Bool :=
  s.boot.recovering.isSome && s.cUp && !s.stept.stepOn &&
  match s.boot.recovering with
  | some .warm | some .cold => s.readyUp && !s.recoveryWaits
  | _ => true

/-- Recovery goes as far as it can, or a rollback that has what it waited for. -/
def State.recover (s : State) : State :=
  if s.reloadDue then s.reloadGo
  else if s.recoveryDue then
    match s.boot.recovering with
    | some .warm | some .cold => s.recoverFull
    | _ => s.recoverStep
  else s

/-- RECOVERY: also a rollback goes on whose partner can no longer return what it was asked for. -/
def execRecovery (t : Nat) (s : State) : Result :=
  s.when t (fun s => s.recoveryDue || s.reloadDue) State.recover

/-- REPLAY: what a partner returns is merged, and recovery goes on when no partner is still training. -/
def execReplay (t port : Nat) (bytes : List Byte) (s : State) : Result :=
  if 2 ≤ port then .fault .noSuchUnit
  else s.when t (fun s => s.cUp && s.fld (jState port) == 3) fun s =>
    let s := s.takeReplay port bytes
    if s.fld (jState 0) == 2 || s.fld (jState 1) == 2 then s else s.recover

/-! ## INTAKE_CTL (R267, R277, R278, R291) -/

/-- A write to INTAKE_CTL: its fields; a rise of ENABLE posts what is due, RESUME ends a QUIESCE hold, FORCE_OPEN
ends a recovery's wait. -/
def State.intakeCtl (s : State) (a : RegAcc) : State :=
  let was := s.intakeOn
  let s := (s.writeFields .INTAKE_CTL a).noteConfig .INTAKE_CTL a.port.source
  let s := if accSets a Fld.INTAKE_CTL_RESUME then s.setFlag Fld.INTAKE_STAT_HELD false else s
  let s := if !was && s.intakeOn && s.boot.recovering.isNone then s.repost else s
  if accSets a Fld.INTAKE_CTL_FORCE_OPEN && s.boot.recovering.isSome && s.readyUp && s.recoveryWaits then
    (({ s with boot := { s.boot with forced := true } }).record 0x1017 0).recover
  else s

/-- INTAKE_ENABLE. -/
def execIntakeEnable (t : Nat) (acc : RegAcc) (s : State) : Result :=
  s.access t acc .INTAKE_CTL fun s => s.intakeCtl acc

/-- INTAKE_RESUME. -/
def execIntakeResume (t : Nat) (acc : RegAcc) (s : State) : Result :=
  s.access t acc .INTAKE_CTL fun s => s.intakeCtl acc

/-- FORCE_OPEN. -/
def execForceOpen (t : Nat) (acc : RegAcc) (s : State) : Result :=
  s.access t acc .INTAKE_CTL fun s => s.intakeCtl acc

end Sys2Proof.Machine
end

