-- ==== Sys2Proof/Machine/Reset.lean ====
section
/-! DEFINITION. The kinds of reset and what each keeps (R406 to R411), the clearing of user secrets (R347), and the
rows that trigger a reset. -/

namespace Sys2Proof.Machine

/-! ## Registers (R408, R410) -/

/-- Registers of C blocks whose counters only cold reset clears, and at-limit counters. -/
def warmKept : List Reg :=
  [.STEP_OVERRUNS, .STEP_AT_LIMIT, .INTAKE_AT_LIMIT, .JRNL_AT_LIMIT, .INT_AT_LIMIT, .MODE_COUNTS, .ARITH_SLICES,
   .TRNG_RCT_FAILS, .TRNG_APT_FAILS, .TRNG_EMPTY_READS, .HOST_ERR]

/-- Fields of the same kind in registers that are not kept whole. -/
def warmKeptFields : List Field :=
  [Fld.STEP_HOLDOVER_ENTRIES, Fld.HOST_LINK_RECOVERIES, Fld.TRNG_DRBG_RESEEDS]

/-- Fields of M blocks that MRAM or fuses hold (R393, R408). -/
def heldForLife : List Field :=
  [Fld.SEC_LIFECYCLE_STATE, Fld.SEC_LIFECYCLE_USED, Fld.SEC_LIFECYCLE_OWNER, Fld.SEC_FW_FUSED_SVN,
   Fld.SEC_COUNTS_DEBUG_FIELD, Fld.BELFRY_STAT_COPY0_FAILED, Fld.BELFRY_STAT_COPY1_FAILED, Fld.BELFRY_STAT_LOG_LOST,
   Fld.BELFRY_STAT_LAST_COUNT, Fld.BELFRY_TOTAL_TOTAL, Fld.BELFRY_TOTAL_FIRST_COUNT, Fld.BELFRY_TALLY_LOG_LOST,
   Fld.BELFRY_TALLY_LOG_CLEARS, Fld.BELFRY_TALLY_COPY0_LOST, Fld.BELFRY_TALLY_COPY1_LOST,
   Fld.BELFRY_TALLY_POWER_CYCLES]

/-- The part is a KZ-DJ1-S (R3). -/
def Fuse.gradeS (f : Fuse) : Bool := f.part % 16 == 2

/-- The part has option J fitted (R3, R4). -/
def Fuse.hasJ (f : Fuse) : Bool := f.part.testBit 4

/-- The reset value of a register of this part: what is fused follows the fuses, and what option J or the grade
decides follows them (R3, R4, R32, R33, R428). -/
def Fuse.resetValue (f : Fuse) (r : Reg) : W64 :=
  match r with
  | .DEV_STEPPING => BitVec.ofNat 64 (f.stepping % 256)
  | .DEV_GRADE => BitVec.ofNat 64 (f.part % 64)
  | .DEV_SHAPE => if f.gradeS then 0x3C8C01600160#64 else r.resetValue
  | .DEV_CAPS => if f.gradeS then 0x1012001000808#64 else r.resetValue
  | .DURABILITY_POLICY | .JRNL_STAT => if f.hasJ then r.resetValue else 0
  | _ => r.resetValue

/-- Registers take their reset values, but for those kept and the fields kept. -/
def State.resetRegs (s : State) (keep : Reg → Bool) (fields : List Field) : State :=
  let s' := Reg.every.foldl (fun s r => if keep r then s else s.setReg r (s.fuse.resetValue r)) s
  fields.foldl (fun x f => x.setFld f (s.fld f)) s'

/-- Which stage runs (R402, R416). -/
def State.setStage (s : State) (n : Nat) : State := s.setFld Fld.DEV_BOOT_STAGE n

/-- The power-up sequence starts at a stage, with no plan loaded. -/
def State.startBoot (s : State) (stage : Nat) (k : ResetKind) : State :=
  let s : State := { s with boot := { BootSt.reset with startedAt := s.now, resetting := some k } }
  (((s.setReg .DEV_BOOT 0).setStage stage).setReg .DEV_STAT 0).setFld Fld.DEV_SHAPE_SHAPE_SEL 0

/-! ## What every reset does (R407, R408) -/

/-- CAUSE and the counts of DEV_RESET. -/
def State.noteReset (s : State) (k : ResetKind) (cause : Nat) : State :=
  let s := s.setFld Fld.DEV_RESET_CAUSE cause
  match k with
  | .cold => (s.setFld Fld.DEV_RESET_WARM_COUNT 0).setFld Fld.DEV_RESET_HOT_COUNT 0
  | .warm => s.incFld Fld.DEV_RESET_WARM_COUNT
  | _ => s.incFld Fld.DEV_RESET_HOT_COUNT

/-- Slots emptied, nonces consumed, Oculus disarmed; the session has been ended. -/
def State.resetAny (s : State) (reason : Nat) : State :=
  let s := s.closeSession reason
  let s := (s.onIntake fun x => { x with slots := [] }).showIntake
  let s : State := { s with sec := { s.sec with nonceHost := none, nonceMgmt := none } }
  let s := (s.setFlag Fld.DBG_CHALLENGE_HOST_NONCE false).setFlag Fld.DBG_CHALLENGE_MGMT_NONCE false
  s.setFlag Fld.OCU_CTL_ARM false

/-! ## FLR and hot reset (R408, R411) -/

/-- The step in flight is abandoned: its state returns to the step shadow, and recovery runs it again. A re-run in
progress is begun again. -/
def State.abandonStep (s : State) : State :=
  if s.stept.stepOn || s.dig.rerunTo.isSome then
    let again := s.dig.rerunTo.isSome && s.inRerun
    let k := s.dig.rerunTo.getD s.stepNow
    let s := s.onEx fun x => { x with chain := x.shadow, sweepOn := false, stepEnded := false }
    let s : State := { s with dig := { s.dig with
      rerunTo := some k, script := if again then [(true, k, false)] else [], reload := s.dig.reload % 2 } }
    s.oldCounts.formBetas.onStep fun x => { x with stepOn := false }
  else s

/-- PCI Express state that the reset of the function clears (R408: as PCIe prescribes; log 39). -/
def State.resetFunction (s : State) : State :=
  { s with
    ports := { s.ports with busMaster := false, inRecovery := false, d3hot := false, bar2Size := 2 ^ 36 }
    intr := { s.intr with table := IntrSt.reset.table, pba := 0, enable := false, functionMask := false } }

/-- The host link goes down to train again. -/
def State.dropHostLink (s : State) : State :=
  let s := ((s.setFld Fld.HOST_LINK_RATE 0).setFld Fld.HOST_LINK_WIDTH 0).setFlag Fld.HOST_LINK_FLIT false
  let s : State := { s with ports := { s.ports with trained := false } }
  s.onLanes fun l => if l.port == 0 && !l.failed then { l with state := 2, role := 31 } else l

/-- The heavier of a recovery in progress and one that starts (R414). -/
def heavier : Option ResetKind → ResetKind → ResetKind
  | some .warm, .flr | some .warm, .hot => .warm
  | some .cold, .flr | some .cold, .hot => .cold
  | _, k => k

/-- FLR or hot reset. -/
def State.lightReset (s : State) (k : ResetKind) (cause : Nat) : State :=
  let was := s.boot.recovering
  let s := ((s.resetAny 1).noteReset k cause).abandonStep
  let s : State := { s with rows := [], boot := { s.boot with lightAt := some s.now } }
  let s := s.onIntake fun x => { x with asked := [], fetches := [] }
  let s := ((s.setFlag Fld.INTAKE_CTL_ENABLE false).setReg .RECEIPT_BASE 0).setReg .RECEIPT_SIZE Reg.RECEIPT_SIZE.resetValue
  let s := (s.setReg .RECEIPT_HEAD 0).showLog
  let s := if k == .hot then s.resetFunction.dropHostLink else s.resetFunction
  s.startRecovery (heavier was k)

/-! ## Warm reset (R408) -/

/-- A lane pair goes dark; its counters and its failure stay. -/
def Lane.dark (l : Lane) : Lane := { l with state := 1, role := 31 }

/-- A memory port has nothing attached: the odd LPDDR5X ports of a KZ-DJ1-S (R25). -/
def Fuse.portEmpty (f : Fuse) (port : Nat) : Bool := f.gradeS && 16 ≤ port && port % 2 == 1

/-- The memory ports as a cold reset leaves them (R25, R234). -/
def Fuse.freshPorts (f : Fuse) : List MPort :=
  (List.range 32).map fun i => { MPort.reset with state := if f.portEmpty i then 1 else MPort.reset.state }

/-- A memory port goes back to training, unless it is absent; its counters stay. -/
def MPort.retrain (m : MPort) : MPort :=
  { MPort.reset with
    state := if m.state == 1 then 1 else MPort.reset.state
    checks := m.checks, sramCorrected := m.sramCorrected
    corrected := m.corrected, uncorrectable := m.uncorrectable, checkFails := m.checkFails, passes := m.passes
    merged := m.merged, maxOpen := m.maxOpen, delayed := m.delayed, maxWait := m.maxWait }

/-- What the journal keeps: LPDDR5X holds its ring and its context copy (R408). -/
def JrnlSt.warm (j : JrnlSt) : JrnlSt :=
  { JrnlSt.reset with
    frames := (j.frames.filter (·.inLp)).map fun f => { f with inHbm := false }
    ctxLp := j.ctxLp, ctxFseq := j.ctxFseq, ctxParts := j.ctxParts, perFseq := j.perFseq, configs := j.configs
    ctxBinds := j.ctxBinds, ctxMark := j.ctxMark, seeds := j.seeds, posted := j.posted }

/-- The receipts posted for orders that are not released are noted, and stay known after the reset (R278). -/
def State.notePosted (s : State) : State :=
  let now := s.intake.orders.filterMap fun o =>
    if o.acceptedPosted then o.latest.map fun r => (o.seq, r, o.finalPosted) else none
  { s with jrnl := { s.jrnl with
      posted := now ++ s.jrnl.posted.filter fun p => !(now.any fun q => q.1 == p.1) } }

/-- The compute die's state as a warm reset leaves it. Bypasses and holes are found again in stage 4. -/
def State.loseCompute (s : State) : State :=
  { s with
    stept := StepT.reset
    intake := IntakeSt.reset
    intr := IntrSt.reset
    plan := PlanSt.reset
    ex := Exec.reset
    slog := StepLog.reset
    dig := DigestSt.reset
    mesh := MeshSt.reset
    ocu := State.reset.ocu
    rows := []
    spare := { SpareSt.reset with lpddrSpareUsed := s.spare.lpddrSpareUsed }
    ports := { PortSt.reset with lanes := s.ports.lanes.map Lane.dark, sparesUsed := s.ports.sparesUsed }
    mports := s.mports.map MPort.retrain
    sites := s.sites.map fun x => { x with
      bypassed := false, hole := false, routerLost := false, routerOff := false, testing := false, shadowBad := false
      mirrorBad := false }
    sec := { s.sec with refusedStep := 0, forming := s.sec.forming.filter (·.seq == 0) } }

/-- JRNL_NEXT_FSEQ as the compute die starts with it: numbering never begins again (R280, R347; log 20). -/
def State.loadFseq (s : State) : State := s.setFld Fld.JRNL_NEXT_FSEQ_FSEQ s.mram.fseq

/-- Warm reset. -/
def State.warmReset (s : State) (cause : Nat) : State :=
  let s := (((s.resetAny 1).noteReset .warm cause).toPower 0).notePosted
  let s : State := { s with
    jrnl := s.jrnl.warm
    mem := s.mem.filter fun c => decide (16 ≤ c.1 / 2 ^ 48)
    mports := s.mports.zipIdx.map fun m => if m.2 < 16 then { m.1 with checks := [] } else m.1
    pwr := { s.pwr with returnAt := none } }
  let s := (s.loseCompute.resetRegs (fun r => r.onM || warmKept.contains r) warmKeptFields).loadFseq
  let s := (s.setFlag Fld.SPARE_STAT_PAUSED false).setFlag Fld.SPARE_STAT_REQUAL_BUSY false
  (s.startBoot 2 .warm).startEntropy

/-! ## Cold reset (R408, R410) -/

/-- The rails may rise, or stay up (R341, R345, R361, R410). -/
def State.mayRise (s : State) : Bool :=
  s.pwr.auxGood && s.pwr.mainGood && s.pwr.mainEn && s.fld Fld.PWR_STATE_REQ != 4 && !s.pwr.tripped &&
  s.fld Fld.SEC_LIFECYCLE_STATE != 3

/-- The power state that follows a cold reset. -/
def State.coldPower (s : State) : State :=
  s.toPower (if s.pwr.mainEn && s.fld Fld.PWR_STATE_REQ != 4 && s.fld Fld.SEC_LIFECYCLE_STATE != 3 then 0 else 4)

/-- The lanes after a cold reset: the host port's failed pairs return to service only after the module is repaired
(R323, log 40). -/
def State.coldLanes (s : State) : PortSt := { PortSt.reset with
  lanes := PortSt.reset.lanes.map fun l =>
    { l with failed := l.port == 0 && s.ports.lanes.any fun x => x.port == 0 && x.lane == l.lane && x.failed } }

/-- What every cold reset loses: the compute die with its counters, and both memories. -/
def State.loseAll (s : State) : State :=
  let s := s.notePosted.loseCompute
  { s with
    jrnl := { JrnlSt.reset with configs := s.jrnl.configs, seeds := s.jrnl.seeds, posted := s.jrnl.posted }
    mem := []
    trng := TrngSt.reset
    ports := s.coldLanes
    spare := SpareSt.reset
    mports := s.fuse.freshPorts
    sites := s.sites.map fun x => { SiteSt.reset with
      reason := x.reason, fenced := x.fenced, requalified := x.requalified, charged := x.charged }
    pwr := { s.pwr with rails := false, returnAt := none, pllStandby := [], noPll := [] } }

/-- The sequence stays stopped while the ROM waits for an image (R371, R402). -/
def State.holdRom (s : State) : State := { s with boot := { s.boot with stopped := true } }

/-- The cold reset of R410: auxiliary power stays good, M blocks keep their registers, and the sequence waits in
stage 1. -/
def State.coldKeepM (s : State) (cause : Nat) : State :=
  let s := (s.resetAny (if cause == 11 then 2 else 1)).noteReset .cold cause
  let s := (s.loseAll.resetRegs Reg.onM []).loadFseq
  let s := (s.setFlag Fld.SPARE_STAT_PAUSED false).setFlag Fld.SPARE_STAT_REQUAL_BUSY false
  if s.sec.romWait then (((s.toPower 4).startBoot 0 .cold).setFlag Fld.DEV_BOOT_FAILED true).holdRom
  else (s.toPower 4).startBoot 1 .cold

/-- The whole cold reset: the management die starts again through the boot ROM, and keeps what MRAM and fuses
hold. Records that waited are written first. -/
def State.coldReset (s : State) (cause : Nat) : State :=
  let s : State := { s with sec := { s.sec with dmcDown := false } }
  let s := s.unfreeze.resetAny (if cause == 3 then 3 else 1)
  let was := s.power
  let s := s.loseAll
  let s : State := { s with
    bel := { BelfrySt.reset with lostCounted := s.bel.lostCounted }
    mgmt := { MgmtSt.reset with sensors := s.mgmt.sensors }
    sec := SecSt.reset
    pwr := { PwrSt.reset with
      mainGood := s.pwr.mainGood, mainEn := s.pwr.mainEn, auxGood := s.pwr.auxGood, tripped := s.pwr.tripped
      hot := s.pwr.hot } }
  let s := ((s.resetRegs (fun _ => false) heldForLife).loadFseq).noteReset .cold cause
  ((s.setFld Fld.PWR_STATE_STATE was).coldPower).startBoot 0 .cold

/-! ## Overlap (R407) -/

/-- A reset of a kind that arrives now is absorbed into a heavier one, or into the power-up sequence of one. -/
def State.absorbs (s : State) (k : ResetKind) : Bool :=
  match k, s.boot.resetting with
  | .flr, some _ | .hot, some _ => true
  | .warm, some .cold => true
  | _, _ => false

/-- A reset of a kind and cause; ending a D3 session makes it a cold one (R356). -/
def State.resetBy (s : State) (k : ResetKind) (cause : Nat) : State :=
  if s.absorbs k then s
  else if s.dbgLevel == 3 && k != .cold then s.coldReset 4
  else match k with
    | .cold => if cause == 1 || cause == 5 || cause == 11 then s.coldKeepM cause else s.coldReset cause
    | .warm => s.warmReset cause
    | _ => s.lightReset k cause

/-- A session ends for a reason other than a reset; the end of D3 causes a cold reset (R356). -/
def State.endSession (s : State) (reason : Nat) : State :=
  if s.dbgLevel == 3 then (s.closeSession reason).coldReset 4 else s.closeSession reason

/-! ## User secrets (R347) -/

/-- Key slots 1 to 15, the seed in effect and all memory contents are cleared, and with them the plan. Journal
numbering goes on. -/
def State.clearSecrets (s : State) : State :=
  let s : State := { s with
    mram := { s.mram with keys := [] }
    jrnl := { JrnlSt.reset with j0 := s.jrnl.j0, j1 := s.jrnl.j1, configs := s.jrnl.configs }
    intake := IntakeSt.reset
    plan := PlanSt.reset
    ex := Exec.reset
    dig := DigestSt.reset
    mesh := MeshSt.reset
    ocu := State.reset.ocu
    rows := []
    mports := s.mports.map fun m => { m with checks := [] }
    mem := [] }
  let s := ((s.setFlag Fld.SEC_LIFECYCLE_OWNER false).setReg .STRM_SEED 0).setReg .STRM_SEED_INFO 0
  let s := (s.setFlag Fld.DEV_STAT_PLAN_LOADED false).setFlag Fld.CKPT_STAT_VALID false
  (s.setFlag Fld.OCU_STAT_CAPTURED false).showIntake.showUsed.showShape

/-! ## The rows -/

/-- FLR: Initiate Function Level Reset, over the host link. -/
def execFlr (t : Nat) (s : State) : Result :=
  s.when t (fun s => s.cUp && s.fld Fld.HOST_LINK_RATE != 0) fun s => s.resetBy .flr 10

/-- HOT_RESET: a hot reset from upstream, or the loss of the host link after it has trained. -/
def execHotReset (t : Nat) (lost : Bool) (s : State) : Result :=
  s.when t (fun s => s.cUp && s.ports.trained) fun s => s.resetBy .hot (if lost then 9 else 8)

/-- WARM_RST_N: low for 10 µs while the main rails are up. -/
def execWarmRstN (t : Nat) (s : State) : Result :=
  s.when t (fun s => s.pwr.auxGood && s.pwr.rails) fun s => s.resetBy .warm 6

/-- A write to DEV_RESET: from the host it is ignored (R407). COLD governs when both are set. -/
def State.devReset (s : State) (a : RegAcc) : State :=
  if a.port == .host then s
  else if accSets a Fld.DEV_RESET_COLD then s.resetBy .cold 2
  else if accSets a Fld.DEV_RESET_WARM && s.pwr.rails then s.resetBy .warm 7
  else s

/-- DEV_RESET_WARM. -/
def execDevResetWarm (t : Nat) (acc : RegAcc) (s : State) : Result :=
  s.access t acc .DEV_RESET fun s => s.devReset acc

/-- DEV_RESET_COLD. -/
def execDevResetCold (t : Nat) (acc : RegAcc) (s : State) : Result :=
  s.access t acc .DEV_RESET fun s => s.devReset acc

/-- AUX_POWER_LOSS: every supply is lost; what MRAM and fuses do not hold is gone when power returns. -/
def execAuxPowerLoss (t : Nat) (s : State) : Result :=
  s.when t (fun s => s.pwr.auxGood) fun s =>
    let s := s.loseAll
    { s with
      bel := BelfrySt.reset
      mgmt := { MgmtSt.reset with sensors := s.mgmt.sensors }
      sec := SecSt.reset
      pwr := { s.pwr with auxGood := false, mainGood := false } }

/-- AUX_POWER_RISE: the sequence starts at stage 0, main input being present again (log 20). -/
def execAuxPowerRise (t : Nat) (s : State) : Result :=
  s.when t (fun s => !s.pwr.auxGood) fun s =>
    let s : State := { s with pwr := { s.pwr with auxGood := true, mainGood := true } }
    (s.incFld Fld.BELFRY_TALLY_POWER_CYCLES).coldReset 0

end Sys2Proof.Machine
end

