-- ==== Sys2Proof/Machine/Boot.lean ====
section
/-! DEFINITION. The power-up sequence (R402 to R405), the verification of the DMC image (R370, R371) and the return
from P4 (R410). -/

namespace Sys2Proof.Machine

/-! ## Images (R370, R371) -/

/-- What an image fails on, with its code and payload: header, signature, code digest, then its security version. -/
def State.imageFault (s : State) (b : List Byte) : Option (Nat × Nat) :=
  let h := b.take 128
  let len := fieldAt h 16 4
  let code := slice b 29920 len
  if !(b.length == 29920 + len && decide (b.length ≤ 8388608) && h.take 4 == [0x4B, 0x5A, 0x46, 0x57] &&
      fieldAt h 4 2 == 1 && zeroAt h 6 2 && fieldAt h 20 4 == 0x4B5A0001 && zeroAt h 24 40) then some (0x8030, 1)
  else if !Config.slhDsaVerify s.fuse.rootKey h (slice b 128 29792) then some (0x8030, 2)
  else if shake256 code 64 != slice h 64 64 then some (0x8030, 3)
  else if fieldAt h 8 4 < s.fuse.svn then some (0x8032, fieldAt h 8 4)
  else none

/-- An image of the length that its header states, without what follows it in a buffer. -/
def trimImage (b : List Byte) : List Byte := b.take (29920 + fieldAt b 16 4)

/-- The DMC starts from the image in flash. -/
def State.startDmc (s : State) : State :=
  let h := s.mram.image.take 128
  let s : State := { s with sec := { s.sec with romWait := false, dmcDown := false, runningHeader := h } }
  ((s.setFlag Fld.SEC_FW_RECOVERY false).setFld Fld.SEC_FW_SVN (fieldAt h 8 4 % 65536)).sayLost

/-- The sequence stops in its stage (R402, R416). -/
def State.stopBoot (s : State) (detail : Nat) : State :=
  let s : State := { s with boot := { s.boot with stopped := true } }
  (s.setFlag Fld.DEV_BOOT_FAILED true).setFld Fld.DEV_BOOT_DETAIL detail

/-- Which stage the sequence is in. -/
def State.inStage (s : State) (n : Nat) : Bool :=
  s.pwr.auxGood && s.fld Fld.DEV_BOOT_STAGE == n && !s.boot.stopped && !s.readyUp

/-- The boot ROM verifies the image in flash: the DMC starts and stage 1 follows, or the ROM waits for an image. -/
def State.romVerify (s : State) : State :=
  match s.imageFault s.mram.image with
  | some (c, p) =>
    let s : State := { s with sec := { s.sec with romWait := true } }
    ((s.setFlag Fld.SEC_FW_RECOVERY true).stopBoot 0).record c p .rom
  | none => s.startDmc.setStage 1

/-- BOOT_ROM_VERIFY: stage 0. -/
def execBootRomVerify (t : Nat) (s : State) : Result := s.when t (fun s => s.inStage 0) State.romVerify

/-! ## Stages 1 to 6 -/

/-- MAIN_RAILS_SEQUENCED: the rails are in regulation, or rail `bad` is not and they stop. While the ROM waits for
an image, the rails serve the host port alone (R371). -/
def execMainRailsSequenced (t : Nat) (bad : Option Nat) (s : State) : Result :=
  s.when t (fun s => s.mayRise && !s.pwr.rails && s.power != 4 && (s.inStage 1 || s.sec.romWait)) fun s =>
    match bad with
    | some r => if s.sec.romWait then s else s.stopBoot r
    | none =>
      let s : State := { s with pwr := { s.pwr with rails := true } }
      if s.sec.romWait then s else (s.setStage 2).startEntropy

/-- PLL_LOCK: `one` are the fields with one PLL locked, `dead` those with neither. -/
def execPllLock (t : Nat) (one dead : List Nat) (s : State) : Result :=
  s.when t (fun s => s.inStage 2 && s.pwr.rails) fun s =>
    let one := one.filter (· < 6)
    let s : State := { s with pwr := { s.pwr with pllStandby := one, noPll := dead.filter (· < 6) } }
    let s := s.setFld Fld.SPARE_UNITS_PLL one.length
    let s := one.foldl (fun s _ => s.recordSpared 3 0) s
    match dead with
    | f :: _ => s.stopBoot f
    | [] => s.setStage 3

/-- A site with what the field map says of it (R295). -/
def FieldMap.mark (m : FieldMap) (i : Nat) (x : SiteSt) : SiteSt :=
  match m.failed.find? fun p => p.1 == i with
  | some p => { x with reason := p.2, fenced := true, requalified := false }
  | none => { x with reason := 0, fenced := false, requalified := m.requal.contains i }

/-- SPARE_MAP_APPLIED: the fused map and the field map, of which a copy that cannot be read is written again from the
other, or the fused map alone when neither can be read. The compute die's blocks work from here on (R421), and the policy
in force may be short already (R274). -/
def execSpareMapApplied (t : Nat) (readable : MapCopies) (s : State) : Result :=
  s.when t (fun s => s.inStage 3 && s.pwr.rails) fun s =>
    let m := if readable.a then s.mram.mapA else if readable.b then s.mram.mapB else ⟨[], []⟩
    let s := if readable.a || readable.b then s.onMaps fun _ => m else s
    let s : State := { s with sites := s.sites.zipIdx.map fun x => m.mark x.2 x.1 }
    (s.setStage 4).checkPolicy

/-- Sites that the self-test runs on. -/
def State.tested (s : State) (i : Nat) : Bool := (s.site i).reason == 0 && !(s.fuse.unused.contains i) && i < 720

/-- The result of a replaced bank or slice: its site fails the self-test when no spare was left. -/
def State.orFailed (x : State × Option (Nat × Nat)) : State :=
  match x.2 with
  | some (i, _) => x.1.declareFailed i 6
  | none => x.1

/-- START_UP_SELF_TEST: sites that failed a test, routers that failed, and failing banks and slices by site. -/
def execStartUpSelfTest (t : Nat) (failed routers : List Nat) (banks : List (Nat × Nat))
    (slices : List (Nat × Bool × Nat)) (s : State) : Result :=
  s.when t (fun s => s.inStage 4 && s.pwr.rails) fun s =>
    let s := (banks.filter fun b => s.tested b.1).foldl (fun s b => State.orFailed (s.replaceBank b.1 b.2)) s
    let s := (slices.filter fun x => s.tested x.1).foldl
      (fun s x => State.orFailed (s.faultSlice x.1 x.2.1 x.2.2)) s
    let s := (failed.filter s.tested).foldl (fun s i => s.declareFailed i 6) s
    let s := (sortNats (routers.filter s.tested)).foldl (fun s i => (s.engageRouter i).1) s
    s.mapShape.showSpares.setStage 5

/-- Every port that has memory attached is in use, with the capacities that go with it (R24, R25). -/
def State.allMemory (s : State) : State :=
  let s : State := { s with mports := s.mports.map fun m => if m.state == 1 then m else { m with state := 0 } }
  let n := (s.mports.drop 16).countP (·.state != 1)
  let s := (s.setFld Fld.DEV_CAPS_HBM_STACKS 8).setFld Fld.DEV_CAPS_HBM_GB 288
  ((s.setFld Fld.DEV_CAPS_LPDDR_PORTS n).setFld Fld.DEV_CAPS_LPDDR_GB (32 * n)).setFlag Fld.DEV_STAT_MEM_DEGRADED false

/-- MEMORY_TRAINING: a stack with a port that failed is out of use, and a package that failed gives way to the spare
or is out of use; nothing is rolled back. -/
def execMemoryTraining (t : Nat) (failed : List Nat) (s : State) : Result :=
  s.when t (fun s => s.inStage 5 && s.pwr.rails) fun s =>
    let s := failed.foldl (fun s p =>
      if p < 16 then s.loseStack (p / 2) else if p < 32 then s.losePackage p else s) s.allMemory
    s.setStage 6

/-- The lane of its journal port that a pair carries from bring-up: pairs 0 to 3 their own, the spare that of the
first failed pair (R327). -/
def State.journalRole (s : State) (l : Lane) : Nat :=
  let bad := (List.range 4).filter fun k => s.ports.lanes.any fun x => x.port == l.port && x.lane == k && x.failed
  if l.port != 1 && l.port != 2 then l.role
  else if l.lane < 4 then l.lane
  else bad.headD 31

/-- OPTICAL_BRING_UP: lane pairs that failed their test, by port and lane; training is released. -/
def execOpticalBringUp (t : Nat) (failed : List (Nat × Nat)) (s : State) : Result :=
  s.when t (fun s => s.inStage 6 && s.pwr.rails && !s.boot.stage6) fun s =>
    let s := (failed.filter fun f => f.2 < lanesOf f.1 && s.portFitted f.1).foldl (fun s f =>
      (s.onLanes fun l => if l.port == f.1 && l.lane == f.2 then { l with failed := true } else l).record 0x7005
        (f.1 + f.2 * 256)) s
    let s := s.onLanes fun l => if l.failed || !s.portFitted l.port then l else
      { l with state := 2, role := s.journalRole l }
    let s := (s.ports.lanes.filter fun l => (l.port == 1 || l.port == 2) && l.lane == 4 && !l.failed && l.role != 31).foldl
      (fun s l => s.useSpare l.port 4) s
    let s : State := { s with boot := { s.boot with stage6 := true } }
    s.tryReady

/-! ## Leaving P4 (R410) -/

/-- P4_EXIT: the conditions of R410 hold, and the sequence goes on from stage 1. -/
def execP4Exit (t : Nat) (s : State) : Result :=
  s.when t (fun s => s.power == 4 && s.mayRise && s.fld Fld.DEV_BOOT_STAGE == 1) fun s => s.toPower 0

end Sys2Proof.Machine
end

