-- ==== Sys2Proof/Machine/Power.lean ====
section
/-! DEFINITION. Power states, the power cap and thermal protection (R341, R342, R361 to R367). -/

namespace Sys2Proof.Machine

/-! ## The stretch (R366) -/

/-- PWR_STAT follows S_P and the thermal stretch; P0 and P1 follow the stretch in effect. -/
def State.showStretch (s : State) : State :=
  let p := s.pwr
  let s := (s.setFld Fld.PWR_STAT_STRETCH (max p.sP p.sT)).setFlag Fld.PWR_STAT_CAP (decide (256 < p.sP))
  let s := s.setFlag Fld.PWR_STAT_THERMAL (decide (256 < p.sT))
  if s.power ≤ 1 then s.toPower s.runPower else s

/-- A change to the power manager's hidden state. -/
def State.onPwr (s : State) (f : PwrSt → PwrSt) : State := { s with pwr := f s.pwr }

/-! ## Requests (R361 to R363) -/

/-- A reserved value, or a state that the lifecycle or an open D3 session refuses. -/
def State.refusesPower (s : State) (req : Nat) : Bool :=
  !(req == 0 || req == 2 || req == 3 || req == 4) ||
  (s.fld Fld.SEC_LIFECYCLE_STATE == 3 && req != 4) || (s.dbgLevel == 3 && (req == 0 || req == 3))

/-- No step boundary need be awaited: no step can start or end before the request. -/
def State.powerNow (s : State) : Bool := !s.runOn || s.halted || 2 ≤ s.power

/-- A request for P0 takes back one that awaits a boundary, or starts the return from P2 or P3. In P4 the
conditions of R410 decide. -/
def State.requestRun (s : State) : State :=
  let s := s.setFlag Fld.PWR_STATE_PENDING false
  match s.power with
  | 2 => s.onPwr fun p => { p with returnAt := some (s.now + 20000) }
  | 3 => s.onPwr fun p => { p with returnAt := some (s.now + 40000000) }
  | _ => s

/-- An accepted request. -/
def State.requestPower (s : State) (req : Nat) : State :=
  match req with
  | 0 => s.requestRun
  | 4 => if s.power == 4 then s else s.resetBy .cold 11
  | _ =>
    if s.power == 4 then s
    else
      let s := s.onPwr fun p => { p with returnAt := none }
      if s.power == req then s.setFlag Fld.PWR_STATE_PENDING false
      else if s.powerNow then if req == 2 then s.toPower 2 else s.enterP3
      else s.setFlag Fld.PWR_STATE_PENDING true

/-- A write to PWR_STATE. -/
def State.pwrState (s : State) (a : RegAcc) : State :=
  match accField a Fld.PWR_STATE_REQ with
  | none => s
  | some req =>
    if s.refusesPower req then s.record 0x8012 req a.port.source
    else (s.setFld Fld.PWR_STATE_REQ req).requestPower req

/-- PWR_REQ_P0. -/
def execPwrReqP0 (t : Nat) (acc : RegAcc) (s : State) : Result := s.access t acc .PWR_STATE fun s => s.pwrState acc

/-- PWR_REQ_P2. -/
def execPwrReqP2 (t : Nat) (acc : RegAcc) (s : State) : Result := s.access t acc .PWR_STATE fun s => s.pwrState acc

/-- PWR_REQ_P3. -/
def execPwrReqP3 (t : Nat) (acc : RegAcc) (s : State) : Result := s.access t acc .PWR_STATE fun s => s.pwrState acc

/-- PWR_REQ_P4. -/
def execPwrReqP4 (t : Nat) (acc : RegAcc) (s : State) : Result := s.access t acc .PWR_STATE fun s => s.pwrState acc

/-- POWER_STATE_RETURN: P0 or P1 again, and a RESUME recorded in P2 acts (R364). -/
def execPowerStateReturn (t : Nat) (s : State) : Result :=
  s.when t (fun s => match s.pwr.returnAt with | some c => decide (c ≤ s.now) | none => false) fun s =>
    let s := (s.onPwr fun p => { p with returnAt := none }).toPower s.runPower
    let s := if s.flag Fld.DBG_CTL_RESUME then s.resumeCores else s
    s.trySendReady

/-! ## The cap (R365) -/

/-- A write to PWR_CAP: a value out of range is ignored. -/
def State.pwrCap (s : State) (a : RegAcc) : State :=
  match accField a Fld.PWR_CAP_CAP_W with
  | none => s
  | some w =>
    if 600 ≤ w && w ≤ 1200 then (s.writeFields .PWR_CAP a).noteConfig .PWR_CAP a.port.source
    else s.record 0x8021 w a.port.source

/-- PWR_CAP_WRITE. -/
def execPwrCapWrite (t : Nat) (acc : RegAcc) (s : State) : Result := s.access t acc .PWR_CAP fun s => s.pwrCap acc

/-- A mean of whole watts. -/
def meanOf (l : List Nat) : Nat := if l.isEmpty then 0 else l.sum / l.length

/-- A sensor reading (R334), in the unit of its event. -/
def State.setSensor (s : State) (i : Nat) (v : Int) : State :=
  { s with mgmt := { s.mgmt with sensors := s.mgmt.sensors.set i v } }

/-- POWER_MEASUREMENT: every 1 µs; above 1,250 W the stretch goes to its maximum. -/
def execPowerMeasurement (t watts : Nat) (s : State) : Result :=
  s.when t (fun s => s.pwr.rails && decide (s.pwr.lastMeasure + 2000 ≤ s.now)) fun s =>
    let l := (watts :: s.pwr.samples).take 1000
    let s := s.onPwr fun p => { p with
      lastMeasure := s.now, samples := l, sP := if 1250 < watts then 1024 else p.sP }
    ((s.setFld Fld.PWR_STAT_POWER_W (min (meanOf l) 65535)).setSensor 13 watts).showStretch

/-- POWER_MANAGER_ADJUST: every 10 µs, by at most 16/256. An adjustment upward from the maximum holds it, and is
recorded while the power is above the cap. During a DMC restart the power manager holds its stretch (R372). -/
def execPowerManagerAdjust (t : Nat) (delta : Int) (s : State) : Result :=
  s.when t (fun s => s.pwr.rails && decide (s.pwr.lastAdjust + 20000 ≤ s.now) &&
      decide (-16 ≤ delta ∧ delta ≤ 16) && !s.sec.dmcDown) fun s =>
    let want := (s.pwr.sP : Int) + delta
    let p' := (min 1024 (max 256 want)).toNat
    let w := s.pwr.samples.headD 0
    let s := (s.onPwr fun p => { p with lastAdjust := s.now, sP := p' }).showStretch
    if p' == 1024 && s.fld Fld.PWR_CAP_CAP_W < w then (s.incFld Fld.PWR_STAT_AT_MAX).record 0x8020 (min w 65535) .dmc
    else s

/-! ## Temperature (R342) -/

/-- A temperature as a signed 16-bit payload, in 1/16 °C. -/
def degBits (deg : Int) : Nat := encSigned 16 deg

/-- The hotspot as MODULE_ENV and the sensors show it. -/
def State.showHot (s : State) (deg : Int) : State :=
  (s.setFld Fld.MODULE_ENV_DIE_TEMP (degBits deg)).setSensor 0 deg

/-- THERMAL_THROTTLE: the hotspot reaches 100 °C, and the compute die runs at `stretch`; below 95 °C it ends, and a
trip no longer holds the rails (R410). -/
def execThermalThrottle (t : Nat) (deg : Int) (stretch : Nat) (s : State) : Result :=
  s.when t (fun s => s.pwr.auxGood) fun s =>
    let s := s.showHot deg
    if 1600 ≤ deg then
      if s.pwr.hot || !s.pwr.rails then s
      else ((s.onPwr fun p => { p with hot := true, sT := min 1024 (max 257 stretch) }).showStretch).record 0x7030
        (degBits deg) .dmc
    else if deg < 1520 then (s.onPwr fun p => { p with hot := false, sT := 256, tripped := false }).showStretch
    else s

/-- THERMAL_TRIP: at 110 °C the main rails stop. -/
def execThermalTrip (t : Nat) (deg : Int) (s : State) : Result :=
  s.when t (fun s => s.pwr.rails && decide (1760 ≤ deg)) fun s =>
    let s := (s.showHot deg).record 0x7031 (degBits deg) .dmc
    (s.onPwr fun p => { p with tripped := true }).resetBy .cold 5

/-- A minute of reference cycles. -/
def minute : Nat := 120000000000

/-- COOLANT_HIGH: the inlet exceeds 40 °C; recorded once per minute. -/
def execCoolantHigh (t : Nat) (deg : Int) (s : State) : Result :=
  s.when t (fun s => s.pwr.auxGood && decide (640 < deg)) fun s =>
    let s := (s.setFld Fld.MODULE_ENV_INLET_TEMP (degBits deg)).setSensor 10 deg
    if s.pwr.coolantSaid.all fun c => decide (c + minute ≤ s.now) then
      (s.onPwr fun p => { p with coolantSaid := some s.now }).record 0x7032 (degBits deg) .dmc
    else s

/-! ## Main power (R341) -/

/-- The main rails stop: a cold reset; while the ROM waits for an image, only the host port goes dark (R371). -/
def State.stopRails (s : State) : State :=
  if s.sec.romWait then (s.onPwr fun p => { p with rails := false }).dropHostLink else s.resetBy .cold 1

/-- MAIN_INPUT_RANGE: the input in mV. Below 44 V for 1 ms the rails stop; between 44 V and 48 V it is recorded once
per minute. -/
def execMainInputRange (t millivolts : Nat) (s : State) : Result :=
  s.when t (fun s => s.pwr.auxGood) fun s =>
    let s := s.setFld Fld.MODULE_ENV_MAIN_VOLTS (min (millivolts / 10) 65535)
    let s := s.setSensor 12 millivolts
    if millivolts < 44000 then
      let since := s.pwr.lowVoltSince.getD s.now
      let s := s.onPwr fun p => { p with lowVoltSince := some since }
      if since + 2000000 ≤ s.now && s.pwr.mainGood then
        let s := s.onPwr fun p => { p with mainGood := false }
        if s.pwr.rails then s.stopRails else s
      else s
    else
      let s := s.onPwr fun p => { p with
        lowVoltSince := none, mainGood := p.mainGood || decide (48000 ≤ millivolts) }
      if millivolts < 48000 && s.pwr.inputSaid.all fun c => decide (c + minute ≤ s.now) then
        (s.onPwr fun p => { p with inputSaid := some s.now }).record 0x7040 (millivolts / 10) .dmc
      else s

/-- MAIN_EN_CHANGE: a fall stops the main rails; in SCRAP the pin is ignored (R345). -/
def execMainEnChange (t : Nat) (high : Bool) (s : State) : Result :=
  s.when t (fun _ => true) fun s =>
    let s := s.onPwr fun p => { p with mainEn := high }
    if high || !s.pwr.auxGood || s.fld Fld.SEC_LIFECYCLE_STATE == 3 then s
    else if s.pwr.rails then s.stopRails
    else s.toPower 4

end Sys2Proof.Machine
end

