-- ==== Sys2Proof/Machine/Debug.lean ====
section
/-! DEFINITION. Debug sessions and their actions (R354 to R359, R364): DBG_CTL, management DEBUG_CTL, and the PROBE
orders END, HALT, SWEEP, RESUME and STATE_WRITE. -/

namespace Sys2Proof.Machine

/-! ## Actions -/

/-- Why a control action is refused: the other port holds the session, the level or the absence of a session, or
what R364 and R357 allow in the state held. -/
inductive DebugRefusal where
  | port | level | held
  deriving DecidableEq, Repr

/-- The port that holds the open session. -/
def State.holder (s : State) : Port := if s.flag Fld.DBG_LEVEL_PORT then .mgmt else .host

/-- Whether an action of R358 (3 END, 4 HALT, 5 SWEEP, 6 RESUME, 7 STATE_WRITE) from a port is refused. -/
def State.debugRefused (s : State) (p : Port) (action : Nat) : Option DebugRefusal :=
  if s.dbgLevel == 0 then some .level
  else if s.holder != p then some .port
  else if action != 3 && s.dbgLevel < 2 then some .level
  else if s.power == 2 && (action == 5 || action == 7) then some .held
  else if action == 7 && !s.halted then some .held
  else none

/-- Code 0x8006 for a refusal other than that of the level. -/
def State.sayRefused (s : State) (why : DebugRefusal) (action : Nat) (src : Source) : State :=
  if why == .level then s else s.record 0x8006 action src

/-- A sweep of the step ended in this very cycle, and of the next one no core has begun an entry (R357). -/
def State.atBoundary (s : State) : Bool :=
  s.ex.sweepOn && s.ex.sweep != 0 && s.ex.pass == 0 && s.ex.passAt == s.ccyc && s.ex.sent.isEmpty &&
    s.ex.cores.all (·.pos == 0)

/-- HALT: the cores stop at the next sweep boundary, which is the one passed in the cycle of the request if there is
one (R357). -/
def State.askHalt (s : State) : State :=
  let s := s.setFlag Fld.DBG_CTL_RESUME false
  if s.halted then s else
    let s := (s.setFlag Fld.DBG_STAT_HALT_PENDING true).swSet Fld.DBG_CTL_HALT
    if s.atBoundary then (s.onEx fun x => { x with sweepOn := false }).haltNow else s

/-- SWEEP: one sweep, then a halt again. -/
def State.askSweep (s : State) : State :=
  let s := (s.swSet Fld.DBG_CTL_SWEEP).setFlag Fld.DBG_STAT_HALT_PENDING true
  if s.halted then s.resumeCores else s

/-- RESUME: the cores run; in P2 they run on the return to P0 (R364). -/
def State.askResume (s : State) : State :=
  let s := ((s.setFlag Fld.DBG_STAT_HALT_PENDING false).setFlag Fld.DBG_CTL_HALT false).setFlag Fld.DBG_CTL_SWEEP false
  if s.power == 2 then s.setFlag Fld.DBG_CTL_RESUME true
  else if s.halted then s.resumeCores else s

/-- An action that is not refused. -/
def State.debugAct (s : State) (action : Nat) : State :=
  match action with
  | 3 => s.endSession 0
  | 4 => s.askHalt
  | 5 => s.askSweep
  | 6 => s.askResume
  | _ => s

/-- The source of what a port causes. -/
def portSource (p : Port) : Source := if p == .host then .host else .mgmt

/-! ## DBG_CTL -/

/-- One bit of a write to DBG_CTL. -/
def State.dbgBit (s : State) (a : RegAcc) (f : Field) (action : Nat) : State :=
  if accSets a f then
    match s.debugRefused a.port action with
    | some w => s.sayRefused w action (portSource a.port)
    | none => s.debugAct action
  else s

/-- A write to DBG_CTL. -/
def State.dbgCtl (s : State) (a : RegAcc) : State :=
  (((s.dbgBit a Fld.DBG_CTL_HALT 4).dbgBit a Fld.DBG_CTL_SWEEP 5).dbgBit a Fld.DBG_CTL_RESUME 6).dbgBit a
    Fld.DBG_CTL_END 3

/-- DBG_CTL_HALT. -/
def execDbgCtlHalt (t : Nat) (acc : RegAcc) (s : State) : Result := s.access t acc .DBG_CTL fun s => s.dbgCtl acc

/-- DBG_CTL_SWEEP. -/
def execDbgCtlSweep (t : Nat) (acc : RegAcc) (s : State) : Result := s.access t acc .DBG_CTL fun s => s.dbgCtl acc

/-- DBG_CTL_RESUME. -/
def execDbgCtlResume (t : Nat) (acc : RegAcc) (s : State) : Result := s.access t acc .DBG_CTL fun s => s.dbgCtl acc

/-- DBG_CTL_END. -/
def execDbgCtlEnd (t : Nat) (acc : RegAcc) (s : State) : Result := s.access t acc .DBG_CTL fun s => s.dbgCtl acc

/-! ## Management DEBUG_CTL (R373): STATUS 2 when refused -/

/-- DEBUG_CTL with an action. -/
def State.debugCtl (s : State) (action : Nat) : State :=
  match s.debugRefused .mgmt action with
  | some w => (s.sayRefused w action .mgmt).emit (.mgmtReply 2 [])
  | none => (s.debugAct action).emit (.mgmtReply 0 [])

/-- DEBUG_CTL, action END. -/
def execDebugCtlEnd (t : Nat) (s : State) : Result := s.keazia t fun s => s.debugCtl 3

/-- DEBUG_CTL, action HALT. -/
def execDebugCtlHalt (t : Nat) (s : State) : Result := s.keazia t fun s => s.debugCtl 4

/-- DEBUG_CTL, action SWEEP. -/
def execDebugCtlSweep (t : Nat) (s : State) : Result := s.keazia t fun s => s.debugCtl 5

/-- DEBUG_CTL, action RESUME. -/
def execDebugCtlResume (t : Nat) (s : State) : Result := s.keazia t fun s => s.debugCtl 6

/-! ## PROBE orders (R358) -/

/-- A PROBE order of an action, when it may execute. -/
def State.probeRow (s : State) (t seq action : Nat) (f : State → Order → State) : Result :=
  s.when t (fun s => (s.executable seq 9).any fun o => o.action == action) fun s =>
    match s.executable seq 9 with
    | some o => f s o
    | none => s

/-- An order refused as an action: 0x8041 outside the session's level, else 0x8006 (log 20). -/
def State.probeRefused (s : State) (o : Order) (w : DebugRefusal) : State :=
  match w with
  | .level => s.rejectOrder o 0x8041 0
  | _ => (s.record 0x8006 o.action o.source).rejectOrder o 0x8006 o.action

/-- A control action by order. The order completes before its action, which may end in a reset. -/
def State.probeAct (s : State) (o : Order) : State :=
  match s.debugRefused o.src o.action with
  | some w => s.probeRefused o w
  | none => (s.effectDone o 0).debugAct o.action

/-- PROBE, action END. -/
def execProbeEnd (t seq : Nat) (s : State) : Result := s.probeRow t seq 3 State.probeAct

/-- PROBE, action HALT. -/
def execProbeHalt (t seq : Nat) (s : State) : Result := s.probeRow t seq 4 State.probeAct

/-- PROBE, action SWEEP. -/
def execProbeSweep (t seq : Nat) (s : State) : Result := s.probeRow t seq 5 State.probeAct

/-- PROBE, action RESUME. -/
def execProbeResume (t seq : Nat) (s : State) : Result := s.probeRow t seq 6 State.probeAct

/-! ## STATE_WRITE (R254, R359) -/

/-- The offset of the first entry that breaks R359. -/
def PlanData.badEntry (p : PlanData) (b : List Byte) : Nat :=
  (((List.range (b.length / 16)).find? fun i => !p.stateEntriesOk (slice b (16 * i) 16)).getD (b.length / 16)) * 16

/-- The values are written: within a step they taint it and its shadow, else they taint the next one. -/
def State.taintedWrite (s : State) (b : List Byte) : State :=
  let s := (s.putValues b).setShadow
  s.onLog fun l => if s.stept.stepOn then { l with tainted := true } else { l with taintNext := true }

/-- STATE_WRITE with its entries at hand. -/
def State.doStateWrite (s : State) (o : Order) (b : List Byte) : State :=
  match s.debugRefused o.src 7 with
  | some w => s.probeRefused o w
  | none =>
    if !s.planOn || !s.plan.data.stateEntriesOk b then s.rejectOrder o 0x8041 (s.plan.data.badEntry b % 65536)
    else
      let s := s.taintedWrite b
      (s.record 0x8007 (b.length / 16 % 2 ^ 32 + s.ex.chain.an.w % 2 ^ 32 * 2 ^ 32) o.source).effectDone o 0

/-- STATE_WRITE. -/
def execStateWrite (t seq : Nat) (s : State) : Result :=
  s.probeRow t seq 7 fun s o => s.withBulk o fun s d => s.doStateWrite o d

end Sys2Proof.Machine
end

