-- ==== Sys2Proof/Machine/Security.lean ====
section
/-! DEFINITION. Challenges, tokens, keys, measurements and quotes (R345 to R353, R368, R369, R373). -/

namespace Sys2Proof.Machine

/-- A change to the hidden state of security. -/
def State.onSec (s : State) (f : SecSt → SecSt) : State := { s with sec := f s.sec }

/-- The lifecycle code (R345). -/
def State.lifecycle (s : State) : Nat := s.fld Fld.SEC_LIFECYCLE_STATE

/-- KEY_ID of the Keazia root (R348). -/
def rootId : Nat := 0x4B5A0001

/-! ## Challenges (R349) -/

/-- The nonce flag of a port. -/
def nonceFlag (p : Port) : Field := if p == .host then Fld.DBG_CHALLENGE_HOST_NONCE else Fld.DBG_CHALLENGE_MGMT_NONCE

/-- The nonce that a port holds. -/
def State.nonce (s : State) (p : Port) : Option (List Byte) := if p == .host then s.sec.nonceHost else s.sec.nonceMgmt

/-- A port's nonce given a value. -/
def State.setNonce (s : State) (p : Port) (n : Option (List Byte)) : State :=
  (s.onSec fun x => if p == .host then { x with nonceHost := n } else { x with nonceMgmt := n }).setFlag (nonceFlag p)
    n.isSome

/-- What asking for a challenge gives: refused, no words in the pool yet, or a nonce, issued. -/
inductive Challenge where
  | refused
  | wait
  | issued (nonce : List Byte) (s : State)

/-- The nonce that the DMC forms in SCRAP, and the counter after it. -/
def State.scrapNonce (s : State) : List Byte × State :=
  let c := s.mram.scrapCount
  (shake256 ([0x4B, 0x5A, 0x4E, 0x43] ++ natLe s.fuse.serial 8 ++ natLe c 8) 32,
   { s with mram := { s.mram with scrapCount := c + 1 } })

/-- A challenge for a port. -/
def State.challenge (s : State) (p : Port) : Challenge :=
  let give := fun (n : List Byte) (s : State) =>
    Challenge.issued n ((s.setNonce p (some n)).setFld Fld.DBG_CHALLENGE_ISSUED (s.fld Fld.DBG_CHALLENGE_ISSUED + 1))
  if s.lifecycle == 3 then give s.scrapNonce.1 s.scrapNonce.2
  else if !s.trngValid then .refused
  else match s.takeWords 4 with
    | some (ws, s) => give ((ws.map fun w => natLe w 8).flatten) s
    | none => .wait

/-- CHALLENGE over the management port. The spec gives no STATUS for one refused with 0x8004: a free value (log 5). -/
def execChallenge (t : Nat) (s : State) : Result :=
  s.keazia t fun s =>
    match s.challenge .mgmt with
    | .issued n s => s.emit (.mgmtReply 0 n)
    | .wait => s.emit (.mgmtReply 3 [])
    | .refused =>
      let v := (s.record 0x8004 0 .mgmt).freshVal
      v.2.emit (.mgmtReply (v.1.toNat % 256) [])

/-- PROBE, action CHALLENGE: the nonce goes to HOST_ADDR. It waits for words of the pool. -/
def execProbeChallenge (t seq : Nat) (s : State) : Result :=
  s.probeRow t seq 1 fun s o =>
    if fieldAt o.body 16 8 < 32 then s.rejectOrder o 0x8041 16
    else match s.challenge o.src with
      | .issued n s => (s.emit (.hostWrite (fieldAt o.body 8 8) n)).effectDone o 0
      | .wait => s
      | .refused => (s.record 0x8004 0 o.source).rejectOrder o 0x8004 0

/-! ## Tokens (R350 to R352) -/

/-- Fields of a token. -/
def tokKind (b : List Byte) : Nat := fieldAt b 6 1
def tokTarget (b : List Byte) : Nat := fieldAt b 7 1
def tokSigner (b : List Byte) : Nat := fieldAt b 48 4
def tokRoles (b : List Byte) : Nat := fieldAt b 52 4
def tokNewId (b : List Byte) : Nat := fieldAt b 56 4
def tokNewKey (b : List Byte) : List Byte := slice b 64 64

/-- Check 1: length, MAGIC, FORMAT, KIND and reserved fields; TARGET as its KIND allows. -/
def tokForm (b : List Byte) : Bool :=
  let k := tokKind b
  b.length == 29920 && b.take 4 == [0x4B, 0x5A, 0x54, 0x4B] && fieldAt b 4 2 == 1 && 1 ≤ k && k ≤ 5 && zeroAt b 60 4 &&
  (match k with
   | 1 => 1 ≤ tokTarget b && tokTarget b ≤ 3
   | 2 => tokTarget b == 0
   | 3 => tokTarget b ≤ 3
   | _ => 1 ≤ tokTarget b && tokTarget b ≤ 15) &&
  (k == 4 || (tokRoles b == 0 && zeroAt b 64 64)) && (4 ≤ k || tokNewId b == 0)

/-- A key slot. -/
def State.keySlot (s : State) (n : Nat) : Option KeySlot := s.mram.keys.find? (·.slot == n)

/-- The slot that holds a KEY_ID. -/
def State.keyById (s : State) (id : Nat) : Option KeySlot := s.mram.keys.find? (·.id == id)

/-- The signer is an enrolled key with a role. -/
def State.hasRole (s : State) (id role : Nat) : Bool := (s.keyById id).any fun k => k.roles.testBit role

/-- A KEY_ENROLL that claims the empty slot 1 (R351). -/
def State.isClaim (s : State) (b : List Byte) : Bool :=
  s.lifecycle == 1 && tokKind b == 4 && tokTarget b == 1 && (s.keySlot 1).isNone && tokSigner b == tokNewId b &&
  tokRoles b == 0xF

/-- Check 4: the authority of R346 and R351. -/
def State.tokAuthority (s : State) (b : List Byte) : Bool :=
  let id := tokSigner b
  let root := id == rootId
  let lc := s.lifecycle
  match tokKind b with
  | 1 =>
    if lc == 1 then tokTarget b < 3 && s.hasRole id 0
    else (lc == 0 || lc == 2) && root
  | 2 => if lc == 1 then s.hasRole id 2 else root
  | 3 => lc != 3 && (root || (lc == 1 && tokTarget b == 3 && (s.keySlot 1).any (·.id == id)))
  | _ => lc == 1 && (s.hasRole id 3 || s.isClaim b)

/-- The public key that signs a token. -/
def State.signerKey (s : State) (b : List Byte) : List Byte :=
  if s.isClaim b then tokNewKey b
  else if tokSigner b == rootId then s.fuse.rootKey
  else ((s.keyById (tokSigner b)).map (·.key)).getD []

/-- No run is in progress, and no accepted order but one is unreleased. -/
def State.quiet (s : State) (seq : Nat) : Bool := !s.runOn && !(s.intake.orders.any fun o => o.accepted && o.seq != seq)

/-- The transitions of R346, with the fuse pairs left. -/
def State.transitionOk (s : State) (dst : Nat) : Bool :=
  let used := s.fld Fld.SEC_LIFECYCLE_USED
  [(0, 1), (1, 2), (2, 1), (0, 3), (2, 3), (1, 3)].contains (s.lifecycle, dst) && (used < 15 || (used == 15 && dst == 3))

/-- Check 6: the KIND's own conditions. -/
def State.tokConditions (s : State) (b : List Byte) (seq : Nat) : Bool :=
  let slot := tokTarget b
  let id := tokNewId b
  match tokKind b with
  | 1 => tokTarget b != 3 || s.quiet seq
  | 2 => true
  | 3 => s.transitionOk (tokTarget b) && s.quiet seq
  | 4 =>
    id != 0 && id != 0xFFFFFFFF && id != rootId && !(s.mram.keys.any fun k => k.id == id && k.slot != slot) &&
    (if slot == 1 then tokRoles b == 0xF else (s.keySlot slot).isNone && tokRoles b < 8)
  | _ => slot != 1 && (s.keySlot slot).any (·.id == id)

/-- The first check of R352 that fails, for a token whose port holds nonce `n`. -/
def State.tokFails (s : State) (b : List Byte) (n : Option (List Byte)) (seq : Nat) : Option Nat :=
  if !tokForm b then some 1
  else if fieldAt b 8 8 != s.fuse.serial then some 2
  else if n != some (slice b 16 32) then some 3
  else if !s.tokAuthority b then some 4
  else if !Config.slhDsaVerify (s.signerKey b) (b.take 128) (slice b 128 29792) then some 5
  else if !s.tokConditions b seq then some 6
  else none

/-! ## Accepted tokens -/

/-- A session opens or rises (R356). D3 clears user secrets and moves to P2; what P3 and P4 do to a session they do
at once (R364). -/
def State.openSession (s : State) (p : Port) (level id : Nat) (src : Source) : State :=
  if level ≤ s.dbgLevel then s
  else
    let s := ((s.setFld Fld.DBG_LEVEL_LEVEL level).setFlag Fld.DBG_LEVEL_PORT (p == .mgmt)).setFld Fld.DBG_LEVEL_KEY_ID id
    let s := if s.lifecycle == 1 then s.incFld Fld.SEC_COUNTS_DEBUG_FIELD else s
    let s := s.record 0x8001 (level + s.lifecycle * 256 + id * 2 ^ 32) src
    if s.power == 4 then s.closeSession 2
    else if level == 3 then s.clearSecrets.toPower 2
    else if level == 2 && s.power == 3 then s.closeSession 4
    else s

/-- A lifecycle transition (R346). -/
def State.changeLifecycle (s : State) (dst : Nat) (src : Source) : State :=
  let from_ := s.lifecycle
  let s := s.closeSession 3
  let s := if from_ == 0 && dst == 1 then
      ({ s with mram := { s.mram with keys := [] } } : State).setFlag Fld.SEC_LIFECYCLE_OWNER false
    else s.clearSecrets
  let s := (s.setFld Fld.SEC_LIFECYCLE_STATE dst).setFld Fld.SEC_LIFECYCLE_USED
    (if dst == 3 && s.fld Fld.SEC_LIFECYCLE_USED == 15 then 16 else s.fld Fld.SEC_LIFECYCLE_USED + 1)
  (s.record 0x8008 (from_ + dst * 256) src).resetBy .cold 3

/-- A key enters or leaves its slot (R351, R352). -/
def State.changeKey (s : State) (b : List Byte) (src : Source) : State :=
  let slot := tokTarget b
  let id := tokNewId b
  let claim := s.isClaim b
  let rest := s.mram.keys.filter (·.slot != slot)
  let keys := if tokKind b == 4 then KeySlot.mk slot id (tokRoles b) (tokNewKey b) :: rest else rest
  let s : State := { s with mram := { s.mram with keys := keys } }
  let s := s.setFlag Fld.SEC_LIFECYCLE_OWNER (s.keySlot 1).isSome
  if claim then s.record 0x800A (id * 2 ^ 32) src
  else s.record 0x8009 (slot + (if tokKind b == 5 then 256 else 0) + id * 2 ^ 32) src

/-- What an accepted token does. -/
def State.actOn (s : State) (p : Port) (b : List Byte) (src : Source) : State :=
  match tokKind b with
  | 1 => s.openSession p (tokTarget b) (tokSigner b) src
  | 2 => s.acceptClear (tokSigner b)
  | 3 => s.changeLifecycle (tokTarget b) src
  | _ => s.changeKey b src

/-- The checks: the nonce is consumed by a token that passes check 2; a failure is counted and recorded. The answer
is the check that failed, if any. -/
def State.checkToken (s : State) (p : Port) (b : List Byte) (seq : Nat) (src : Source) : State × Option Nat :=
  let r := s.tokFails b (s.nonce p) seq
  let s := if r == some 1 || r == some 2 then s else s.setNonce p none
  match r with
  | some k => ((s.incFld Fld.SEC_COUNTS_TOKENS_REJECTED).record 0x8003 (k + tokKind b * 256) src, r)
  | none => (s, none)

/-- TOKEN_SUBMIT. The answer goes out before what the token does, which may be a reset. -/
def execTokenSubmit (t : Nat) (s : State) : Result :=
  s.keazia t fun s =>
    let b := s.mgmt.token
    let x := s.checkToken .mgmt b 0 .mgmt
    match x.2 with
    | some _ => x.1.emit (.mgmtReply 0 (natLe 0x8003 2))
    | none => (x.1.emit (.mgmtReply 0 (natLe 0 2))).actOn .mgmt b .mgmt

/-- PROBE, action TOKEN. -/
def execProbeToken (t seq : Nat) (s : State) : Result :=
  s.probeRow t seq 2 fun s o => s.withBulk o fun s b =>
    let x := s.checkToken o.src b seq o.source
    match x.2 with
    | some k => x.1.rejectOrder o 0x8003 (k + tokKind b * 256)
    | none => (x.1.effectDone o 0).actOn o.src b o.source

/-- TOKEN_PUT: bytes into the token buffer. -/
def execTokenPut (t off : Nat) (data : List Byte) (s : State) : Result :=
  s.keazia t fun s =>
    if data.length < 8 || 992 < data.length then s.emit (.mgmtReply 4 [])
    else if 29920 < off + data.length then s.emit (.mgmtReply 1 [])
    else (s.onMgmt fun m => { m with token := overwrite m.token off data }).emit (.mgmtReply 0 [])

/-! ## Measurements (R368) -/

/-- What a site is (SPARE_MAP.STATE, R316). -/
def State.siteState (s : State) (i : Nat) : Nat :=
  let x := s.site i
  if s.unused i then 3
  else if x.gap then 6
  else if x.reason != 0 || x.bypassed then 4
  else if x.testing then 5
  else if (s.serves i).isSome then 0
  else if siteKind i == 3 || s.spareM i then 1
  else 2

/-- SPARE_MAP of a site (R316). -/
def State.spareMapOf (s : State) (i : Nat) : Nat :=
  if 720 ≤ i then 0
  else
    let x := s.site i
    let st := s.siteState i
    let node := (s.serves i).getD 0
    siteKind i + st * 4 + (s.fusedSpare i).toNat * 32 + x.fenced.toNat * 64 + x.reason * 256 +
    (if st == 0 then node / 1024 * 65536 + node % 1024 * 262144 else 0)

/-- The input of each measurement but that of the ROM. -/
def State.measured (s : State) : Nat → List Byte
  | 1 => (s.sec.runningHeader ++ zeros 128).take 128
  | 2 => if s.planOn then
      s.planDigest64 ++ natLe s.plan.signed.toNat 1 ++ natLe s.plan.keyId 4 ++ natLe s.plan.shape.n 2
    else zeros 71
  | 3 => natLe ((s.reg .MODE_STAT).toNat % 8) 1
  | 4 => natLe s.lifecycle 1 ++ natLe (s.fld Fld.SEC_LIFECYCLE_USED) 1
  | 5 => natLe s.dbgLevel 1 ++ natLe (s.fld Fld.SEC_COUNTS_DEBUG_FIELD) 4 ++ natLe (s.fld Fld.DBG_LEVEL_KEY_ID) 4
  | 6 => (List.range 720).map fun i => BitVec.ofNat 8 (s.spareMapOf i)
  | _ => []

/-- Measurement `k`: 64 bytes. -/
def State.measurement (s : State) (k : Nat) : List Byte :=
  if k == 0 then (s.fuse.romDigest ++ zeros 64).take 64 else shake256 (s.measured k) 64

/-! ## Quotes (R369) -/

/-- The body of a quote of now. -/
def State.quoteBody (s : State) (nonce : List Byte) : List Byte :=
  [0x4B, 0x5A, 0x51, 0x54] ++ natLe 1 2 ++ natLe s.lifecycle 1 ++ natLe s.dbgLevel 1 ++ natLe s.fuse.serial 8 ++
  natLe s.stepNow 8 ++ natLe (fieldAt s.sec.runningHeader 8 4) 4 ++ natLe (s.fld Fld.SEC_COUNTS_DEBUG_FIELD) 4 ++
  (nonce ++ zeros 32).take 32 ++ natLe 7 4 ++ zeros 4 ++ ((List.range 7).map s.measurement).flatten ++
  (s.mram.attestKey ++ zeros 64).take 64 ++ zeros 8

/-- A quote: body and signature. -/
def quoteBytes (body : List Byte) : List Byte := body ++ (Config.slhDsaSign body ++ zeros 49856).take 49856

/-- A quote begins to form. -/
def State.startQuote (s : State) (seq : Nat) (nonce : List Byte) : State :=
  let b := s.quoteBody nonce
  s.onSec fun x => { x with forming := some ⟨seq, b⟩ }

/-- QUOTE over the management port; busy while another forms. -/
def execQuote (t : Nat) (nonce : List Byte) (s : State) : Result :=
  s.keazia t fun s =>
    if nonce.length != 32 then s.emit (.mgmtReply 4 [])
    else if s.sec.forming.isSome then s.emit (.mgmtReply 3 [])
    else s.startQuote 0 nonce

/-- PROBE, action QUOTE: waits while another forms. -/
def execProbeQuote (t seq : Nat) (s : State) : Result :=
  s.probeRow t seq 8 fun s o => s.withBulk o fun s b =>
    if fieldAt o.body 16 8 < 50448 then s.rejectOrder o 0x8041 16
    else if b.length != 32 then s.rejectOrder o 0x8041 0
    else if s.sec.forming.isSome then s
    else (s.startQuote seq b).onOrder seq fun x => { x with phase := .executing }

/-- QUOTE_FORMED: about 40 ms after its request. -/
def execQuoteFormed (t : Nat) (s : State) : Result :=
  s.when t (fun s => s.pwr.auxGood && s.sec.forming.isSome) fun s =>
    match s.sec.forming with
    | some q =>
      let b := quoteBytes q.body
      let s := s.onSec fun x => { x with forming := none }
      if q.seq == 0 then (s.onSec fun x => { x with lastQuote := b }).emit (.mgmtReply 0 (natLe b.length 4))
      else match s.order q.seq with
        | some o => if o.phase == .executing then
            (s.emit (.hostWrite (fieldAt o.body 8 8) b)).effectDone o 0 else s
        | none => s
    | none => s

/-- Up to 992 bytes of a buffer from an offset; STATUS 1 beyond its end. -/
def State.chunk (s : State) (b : List Byte) (off : Nat) : State :=
  if b.length ≤ off then s.emit (.mgmtReply 1 []) else s.emit (.mgmtReply 0 (slice b off 992))

/-- QUOTE_READ. -/
def execQuoteRead (t off : Nat) (s : State) : Result := s.keazia t fun s => s.chunk s.sec.lastQuote off

/-- CERT_READ. -/
def execCertRead (t off : Nat) (s : State) : Result := s.keazia t fun s => s.chunk s.mram.cert off

/-- KEY_LIST: the key in a slot, zeros when it is empty. The Keazia root stands in slot 0, with no role bits. -/
def execKeyList (t slot : Nat) (s : State) : Result :=
  s.keazia t fun s =>
    if slot == 0 then s.emit (.mgmtReply 0 (natLe rootId 4 ++ zeros 4 ++ s.fuse.rootKey))
    else if 16 ≤ slot then s.emit (.mgmtReply 1 [])
    else match s.keySlot slot with
      | some k => s.emit (.mgmtReply 0 (natLe k.id 4 ++ natLe k.roles 4 ++ k.key))
      | none => s.emit (.mgmtReply 0 (zeros 72))

end Sys2Proof.Machine
end

