-- ==== Sys2Proof/Machine/Firmware.lean ====
section
/-! DEFINITION. Firmware: ROM recovery by the host (R371), and PLDM Firmware Update with its activation (R334, R372).
What a response holds beyond what the spec states is left free (log 9). -/

namespace Sys2Proof.Machine

/-- An image goes to flash. -/
def State.writeFlash (s : State) (b : List Byte) : State := { s with mram := { s.mram with image := b } }

/-- The security version of an image. -/
def imageSvn (b : List Byte) : Nat := fieldAt b 8 4

/-- The ROM has written an image and starts again from stage 0. -/
def State.restartRom (s : State) : State :=
  let s : State := { s with
    sec := { s.sec with romWait := false }
    boot := { s.boot with stopped := false }
    pwr := { s.pwr with rails := false } }
  ((s.setFlag Fld.SEC_FW_RECOVERY false).setFlag Fld.DEV_BOOT_FAILED false).dropHostLink

/-- An image that the ROM has received by a route: verified, written to flash, and started. -/
def State.recoverImage (s : State) (b : List Byte) (host : Bool) : State :=
  match s.imageFault b with
  | some (c, p) => s.record c p .rom
  | none => ((s.writeFlash b).record 0x8033 (imageSvn b + host.toNat * 2 ^ 32) .rom).restartRom

/-- SEC_FW_LOAD: works only in ROM recovery. -/
def execSecFwLoad (t : Nat) (acc : RegAcc) (s : State) : Result :=
  s.access t acc .SEC_FW fun s =>
    if s.sec.romWait && accSets acc Fld.SEC_FW_LOAD then s.recoverImage (trimImage s.sec.bar4) true else s

/-! ## PLDM Firmware Update (R334) -/

/-- A refusal: a completion code other than success, which DSP0267 gives and the spec does not. -/
def State.refuseCtl (s : State) : State :=
  let v := s.freshVal
  v.2.emit (.ctlReply (v.1.toNat % 255 + 1) [])

/-- An update command that is due in some states of the firmware device. -/
def State.fwRow (s : State) (t : Nat) (states : List FwState) (f : State → State) : Result :=
  s.when t (fun s => s.mctpUp) fun s => if states.contains s.mgmt.fw then f s else s.refuseCtl

/-- The firmware device goes to a state. -/
def State.setFw (s : State) (x : FwState) : State := s.onMgmt fun m => { m with fw := x }

/-- QUERY_DEVICE_IDENTIFIERS: PCI Vendor ID and Device ID. -/
def execQueryDeviceIdentifiers (t : Nat) (s : State) : Result :=
  s.when t (fun s => s.mctpUp) fun s => s.emit (.ctlReply 0 (natLe 0x4B5A 2 ++ natLe 0xD1A0 2))

/-- GET_FIRMWARE_PARAMETERS. -/
def execGetFirmwareParameters (t : Nat) (s : State) : Result := s.when t (fun s => s.mctpUp) fun s => s.openReply 8

/-- REQUEST_UPDATE. -/
def execRequestUpdate (t : Nat) (s : State) : Result :=
  s.fwRow t [.idle] fun s => (s.setFw .learn).emit (.ctlReply 0 [])

/-- PASS_COMPONENT_TABLE. -/
def execPassComponentTable (t : Nat) (s : State) : Result :=
  s.fwRow t [.learn] fun s => (s.setFw .ready).emit (.ctlReply 0 [])

/-- UPDATE_COMPONENT: the image's size, at most 8 MiB (R370). -/
def execUpdateComponent (t size : Nat) (s : State) : Result :=
  s.fwRow t [.ready] fun s =>
    if size ≤ 8388608 then
      (s.onMgmt fun m => { m with fw := .download, fwSize := size, fwImage := [], fwGood := false }).emit (.ctlReply 0 [])
    else s.refuseCtl

/-- REQUEST_FIRMWARE_DATA: the answer to Dajor's request for the next chunk of 1,024 bytes. -/
def execRequestFirmwareData (t off : Nat) (data : List Byte) (s : State) : Result :=
  s.when t (fun s => s.mctpUp && s.mgmt.fw == .download && decide (off = s.mgmt.fwImage.length ∧ data.length ≤ 1024 ∧
      off + data.length ≤ s.mgmt.fwSize)) fun s =>
    s.onMgmt fun m => { m with fwImage := m.fwImage ++ data }

/-- TRANSFER_COMPLETE: every byte has arrived. -/
def execTransferComplete (t : Nat) (s : State) : Result :=
  s.when t (fun s => s.mctpUp && s.mgmt.fw == .download && decide (s.mgmt.fwImage.length = s.mgmt.fwSize))
    fun s => s.setFw .verify

/-- VERIFY_COMPLETE: the checks of R371; a failed image goes no further. -/
def execVerifyComplete (t : Nat) (s : State) : Result :=
  s.when t (fun s => s.mctpUp && s.mgmt.fw == .verify) fun s =>
    match s.imageFault s.mgmt.fwImage with
    | some (c, p) => s.record c p (if s.sec.romWait then .rom else .dmc)
    | none => s.onMgmt fun m => { m with fw := .apply, fwGood := true }

/-- APPLY_COMPLETE: the image is written to flash. -/
def execApplyComplete (t : Nat) (s : State) : Result :=
  s.when t (fun s => s.mctpUp && s.mgmt.fw == .apply) fun s => (s.writeFlash s.mgmt.fwImage).setFw .ready

/-- ACTIVATE_FIRMWARE: 1 s is reported, and the DMC alone restarts; in ROM recovery the ROM restarts. -/
def execActivateFirmware (t : Nat) (s : State) : Result :=
  s.fwRow t [.ready] fun s =>
    if s.mgmt.fwGood then
      let s := (s.onMgmt fun m => { m with fw := .idle, fwGood := false, fwImage := [], fwSize := 0 }).emit
        (.ctlReply 0 (natLe 1 2))
      if s.sec.romWait then (s.record 0x8033 (imageSvn s.mram.image) .rom).restartRom
      else (s.onSec fun x => { x with dmcDown := true }).endWrote
    else s.refuseCtl

/-- DMC_RESTART_DONE: the DMC runs the image in flash; what waited in the pending buffer is written. -/
def execDmcRestartDone (t : Nat) (s : State) : Result :=
  s.when t (fun s => s.pwr.auxGood && s.sec.dmcDown) fun s =>
    let s := s.startDmc.blowSvn
    let s := if s.flag Fld.BELFRY_CTL_FREEZE then s else s.drainPending
    s.record 0x8031 (imageSvn s.mram.image) .dmc

/-- GET_STATUS. -/
def execGetStatus (t : Nat) (s : State) : Result := s.when t (fun s => s.mctpUp) fun s => s.openReply 8

/-- CANCEL_UPDATE_COMPONENT. -/
def execCancelUpdateComponent (t : Nat) (s : State) : Result :=
  s.fwRow t [.download, .verify, .apply] fun s =>
    (s.onMgmt fun m => { m with fw := .ready, fwImage := [], fwGood := false }).emit (.ctlReply 0 [])

/-- CANCEL_UPDATE. -/
def execCancelUpdate (t : Nat) (s : State) : Result :=
  s.fwRow t [.learn, .ready, .download, .verify, .apply] fun s =>
    (s.onMgmt fun m => { m with fw := .idle, fwImage := [], fwGood := false }).emit (.ctlReply 0 [])

end Sys2Proof.Machine
end

