-- ==== Sys2Proof/Machine/Pldm.lean ====
section
/-! DEFINITION. PLDM base, monitoring and control (R334). What DSP0240 and DSP0248 fix and the spec does not state is
left free (log 9). -/

namespace Sys2Proof.Machine

/-- A PLDM command of types 0 and 2: the boot ROM answers it with STATUS 3 (R404). -/
def State.pldm (s : State) (t : Nat) (f : State → State) : Result :=
  s.when t (fun s => s.mctpUp) fun s => if s.dmcUp then f s else s.emit (.ctlReply 3 [])

/-- GET_TID. -/
def execGetTid (t : Nat) (s : State) : Result := s.pldm t fun s => s.emit (.ctlReply 0 (natLe s.mgmt.tid 1))

/-- SET_TID. -/
def execSetTid (t tid : Nat) (s : State) : Result :=
  s.pldm t fun s => (s.onMgmt fun m => { m with tid := tid % 256 }).emit (.ctlReply 0 [])

/-- The PLDM types supported. -/
def pldmTypes : List Nat := [0, 2, 5]

/-- GET_PLDM_VERSION. -/
def execGetPldmVersion (t typ : Nat) (s : State) : Result :=
  s.pldm t fun s => if pldmTypes.contains typ then s.openReply 4 else s.refuseCtl

/-- GET_PLDM_TYPES: a bit per type supported. -/
def execGetPldmTypes (t : Nat) (s : State) : Result :=
  s.pldm t fun s => s.emit (.ctlReply 0 (natLe ((pldmTypes.map (2 ^ ·)).sum) 8))

/-- GET_PLDM_COMMANDS. -/
def execGetPldmCommands (t typ : Nat) (s : State) : Result :=
  s.pldm t fun s => if pldmTypes.contains typ then s.openReply 8 else s.refuseCtl

/-- GET_PDR_REPOSITORY_INFO. -/
def execGetPdrRepositoryInfo (t : Nat) (s : State) : Result := s.pldm t fun s => s.openReply 8

/-- GET_PDR: a descriptor of the repository, by its handle. -/
def execGetPdr (t handle : Nat) (s : State) : Result :=
  s.pldm t fun s => if handle ≤ 16 then s.openReply 8 else s.refuseCtl

/-- GET_SENSOR_READING: sensors 0 to 14 as MgmtSt names them. Hotspot, inlet, main input voltage and power hold what
the events last reported; the others are read where the spec gives no event, and are free. -/
def execGetSensorReading (t sensor : Nat) (s : State) : Result :=
  s.pldm t fun s =>
    if sensor == 0 || sensor == 10 || sensor == 12 || sensor == 13 then
      s.emit (.ctlReply 0 (natLe (encSigned 32 (s.mgmt.sensors.getD sensor 0)) 4))
    else if sensor < 15 then s.openReply 4
    else s.refuseCtl

/-- GET_STATE_SENSOR_READINGS: the spec lists no state sensor. -/
def execGetStateSensorReadings (t _sensor : Nat) (s : State) : Result := s.pldm t State.refuseCtl

/-- SET_NUMERIC_EFFECTER_VALUE: effecter 0 is the module power cap, which writes PWR_CAP. -/
def execSetNumericEffecterValue (t effecter value : Nat) (s : State) : Result :=
  s.pldm t fun s =>
    if effecter == 0 then (s.pwrCap ⟨.mgmt, .whole, BitVec.ofNat 64 (value % 65536)⟩).emit (.ctlReply 0 [])
    else s.refuseCtl

/-- GET_NUMERIC_EFFECTER_VALUE. -/
def execGetNumericEffecterValue (t effecter : Nat) (s : State) : Result :=
  s.pldm t fun s =>
    if effecter == 0 then s.emit (.ctlReply 0 (natLe (s.fld Fld.PWR_CAP_CAP_W) 2)) else s.refuseCtl

/-- SET_EVENT_RECEIVER. -/
def execSetEventReceiver (t eid : Nat) (s : State) : Result :=
  s.pldm t fun s => (s.onMgmt fun m => { m with receiver := eid % 256 }).emit (.ctlReply 0 [])

/-- POLL_FOR_PLATFORM_EVENT: the oldest event not yet polled: a Belfry record of ALERT severity. -/
def execPollForPlatformEvent (t : Nat) (s : State) : Result :=
  s.pldm t fun s =>
    match s.mgmt.events with
    | r :: rs => (s.onMgmt fun m => { m with events := rs }).emit (.ctlReply 0 r)
    | [] => s.emit (.ctlReply 0 [])

end Sys2Proof.Machine
end

