-- ==== Sys2Proof/Machine/Access.lean ====
section
/-! DEFINITION. Access to BAR0 and BAR2 (R322, R332, R333, R418 to R422): what a register reads as, what a write to one
does, the management register commands, and the device-memory window. -/

namespace Sys2Proof.Machine

/-! ## Selections (R422, R423) -/

/-- Fields at their places: low bit, width and value. -/
def packBits (l : List (Nat × Nat × Nat)) : W64 := l.foldl (fun v x => insertBits v x.1 x.2.1 x.2.2) 0

/-- A field of the select register that a port uses. -/
def State.sel (s : State) (p : Port) (r : Reg) (lo w : Nat) : Nat := bitsOf (s.reg (Reg.at p r)).toNat lo w

/-- How many logical cores of a kind the shape presents. -/
def State.coreCount (s : State) : Nat → Nat
  | 0 => s.fld Fld.DEV_SHAPE_M_CORES
  | 1 => s.fld Fld.DEV_SHAPE_V_CORES
  | 2 => s.fld Fld.DEV_SHAPE_S_CORES
  | _ => 0

/-- The site and the logical node that SEL_CORE selects, if any. -/
def State.selCore (s : State) (p : Port) : Option Nat × Option Nat :=
  let i := s.sel p .SEL_CORE 0 10
  let kind := s.sel p .SEL_CORE 12 2
  if s.sel p .SEL_CORE 16 1 == 1 then
    if i < 720 then (some i, s.serves i) else (none, none)
  else if i < s.coreCount kind then (s.siteOf kind i, some (kind * 1024 + i))
  else (none, none)

/-- A value of the selected core; 0 when none is selected or no plan gives it a sequencer. -/
def State.coreView (s : State) (p : Port) (f : CoreSt → List (Nat × Nat × Nat)) : W64 :=
  match (s.selCore p).2.bind s.core with
  | some c => packBits (f c)
  | none => 0

/-- A value of the selected site. -/
def State.siteView (s : State) (p : Port) (f : Nat → List (Nat × Nat × Nat)) : W64 :=
  match (s.selCore p).1 with
  | some i => packBits (f i)
  | none => 0

/-! ## The core window (R121, R141, R180, R204, R239, R423) -/

/-- CORE_INFO. -/
def State.coreInfo (s : State) (p : Port) : W64 :=
  s.siteView p fun i =>
    match s.serves i with
    | some n => [(0, 10, i), (16, 10, n % 1024), (26, 2, n / 1024), (28, 1, 1)]
    | none => [(0, 10, i)]

/-- The V- or S-core of a node serves a ROW_SAMPLE order: one is in service, and no loaded plan addresses the core
(R118). -/
def State.onRowPath (s : State) (node : Nat) : Bool :=
  !s.rows.isEmpty && match node / 1024 with
    | 1 => !s.planOn || s.plan.data.vUsed ≤ node % 1024
    | 2 => !s.planOn || s.plan.data.sUsed ≤ node % 1024
    | _ => false

/-- SAMP_STAT of the selected core. -/
def State.sampStat (s : State) (p : Port) : W64 :=
  match (s.selCore p).2 with
  | some n => packBits [(0, 32, ((s.core n).map (·.nonfinite)).getD 0),
      (32, 1, (s.planOn && s.plan.data.synchronous).toNat), (33, 1, (s.onRowPath n).toNat)]
  | none => 0

/-- ARITH_SLICES, of a site with Vaults. -/
def State.arithSlices (s : State) (p : Port) : W64 :=
  s.siteView p fun i =>
    let x := s.site i
    let used := fun (m : Nat) => (m.testBit 9 && !m.testBit 8).toNat
    if siteKind i == 1 || siteKind i == 2 || ((s.selCore p).2.any fun n => 1024 ≤ n) then []
    else [(0, 9, x.slicesA % 512), (16, 9, x.slicesB % 512), (32, 1, used x.slicesA), (33, 1, used x.slicesB),
      (34, 1, x.lantern.toNat), (35, 1, (x.lantern && x.lanternB).toNat)]

/-- β_s(w) as ANNEAL_TEMP shows it: 0 with no plan. -/
def State.betaShown (s : State) : Nat :=
  if s.planOn then (betaS s.plan.data.anneal.betas s.ex.chain.an.w).toNat else 0

/-- E of the best state: E12/12 in FP64 (R137, R141). -/
def bestBits (e12 : Int) : Nat := fp64.round .rne ((e12 : Rat) / ((12 * 2 ^ 298 : Nat) : Rat))

/-- ANNEAL_BEST_INFO. -/
def State.bestInfo (s : State) : W64 :=
  match s.ex.chain.an.best with
  | some b => packBits [(0, 48, b.w), (48, 8, b.chain), (56, 1, b.feasible.toNat), (57, 1, 1)]
  | none => 0

/-- ANNEAL_GROUP of the selected group and chain. -/
def State.annealGroup (s : State) (p : Port) : W64 :=
  let g := s.sel p .ANNEAL_SEL 0 32
  let chain := s.sel p .ANNEAL_SEL 32 8
  if s.planOn && g < s.nGroups && chain < s.replicas then
    let k := chain * s.nGroups + g
    let x := (s.ex.chain.an.groups[k]?).getD ⟨false, 0, 0⟩
    let hard := ((s.plan.data.anneal.groups[g]?).map (·.hard)).getD false
    packBits [(0, 1, x.paired.toNat), (1, 1, hard.toNat), (2, 8, if x.paired then x.pos else 0),
      (16, 16, min x.run 0xFFFF), (32, 32, s.ex.groupAcc.getD k 0)]
  else 0

/-- ANNEAL_SWAP of the selected pair. -/
def State.annealSwap (s : State) (p : Port) : W64 :=
  let k := s.sel p .ANNEAL_SEL 40 8
  if s.planOn && k + 1 < s.replicas then packBits [(0, 32, s.ex.swapTried.getD k 0), (32, 32, s.ex.swapAcc.getD k 0)]
  else 0

/-- ANNEAL_SLOT of the selected slot and chain. -/
def State.annealSlot (s : State) (p : Port) : W64 :=
  let k := s.sel p .ANNEAL_SEL 48 8
  let chain := s.sel p .ANNEAL_SEL 32 8
  if s.planOn && k < s.replicas && chain < s.replicas then
    packBits [(0, 8, s.ex.chain.an.slotMap.getD k 0), (8, 8, slotOfChain s.ex.chain.an chain)]
  else 0

/-- The selected stream as it stood at the last step boundary: the stream, and whether it is keyed; the base state of a
keyed one, from which no word is drawn. -/
def State.selStream (s : State) (p : Port) : Option (Stream × Bool) :=
  let id := s.sel p .STRM_SEL 0 48
  let c := if s.stept.stepOn then s.ex.shadow else s.ex.chain
  if !s.planOn || !s.seeded then none
  else match (c.lanes ++ c.ctrl).find? (·.id == id) with
    | some x => some (x, false)
    | none =>
      if s.plan.data.ctrls.any fun r => r.role == 2 && r.base ≤ id && id < r.base + r.count then
        some (⟨id, streamInit (s.reg .STRM_SEED) id, 0⟩, true)
      else none

/-- A value of the selected stream. -/
def State.strmView (s : State) (p : Port) (f : Stream → Nat) : W64 :=
  match s.selStream p with
  | some x => BitVec.ofNat 64 (f x.1)
  | none => 0

/-- STRM_POLY. -/
def State.strmPoly (s : State) (p : Port) : W64 :=
  match s.selStream p with
  | some (x, keyed) => packBits [(0, 16, polyIndex x.id), (17, 1, keyed.toNat)]
  | none => packBits [(16, 1, 1)]

/-- The selected entry of the polynomial ROM. -/
def State.selPoly (s : State) (p : Port) : Nat := (polyRom (s.sel p .STRM_ROM_SEL 0 16)).toNat

/-- A memory port or ring node uses a site's router as its alternate. -/
def State.altHost (s : State) (i : Nat) : Bool :=
  ((List.range 32).any fun k => s.portAt k == (i, true)) ||
  ringSites.any fun n => n.2.2 == i && (s.site n.2.1).dead

/-- MESH_ROUTER. -/
def State.meshRouter (s : State) (p : Port) : W64 :=
  s.siteView p fun i =>
    let x := s.site i
    [(0, 1, (!x.routerOff).toNat), (1, 1, x.fenced.toNat), (2, 1, x.bypassed.toNat), (3, 1, (s.altHost i).toNat), (16, 10, i)]

/-- MESH_PAD: the least padding of the hops delivered at the selected router. -/
def State.meshPad (s : State) (p : Port) : W64 :=
  s.siteView p fun i =>
    let hs := (s.plan.shape.hops.zip s.mesh.hops).filter fun h => (s.nodeAt h.1.dst).map (·.1) == some i
    [(0, 16, (hs.map fun h => h.2.t - h.2.a' - h.2.l').foldl min 0xFFFF)]

/-! ## The memory-port window (R240) -/

/-- MPORT_STAT. -/
def State.mportStat (s : State) (p : Port) : W64 :=
  let k := s.selMport p
  let m := s.mport k
  let at_ := s.portAt k
  packBits [(0, 2, m.state), (2, 1, (decide (16 ≤ k)).toNat), (3, 1, at_.2.toNat),
    (4, 1, (s.stept.anchor.isSome && s.windowOpen wScrub).toNat), (5, 1, m.poisonFull.toNat), (16, 10, at_.1)]

/-- A value of the selected memory port. -/
def State.mportView (s : State) (p : Port) (f : MPort → List (Nat × Nat × Nat)) : W64 := packBits (f (s.mport (s.selMport p)))

/-! ## The lane window (R344) -/

/-- The selected lane pair, if it is fitted. -/
def State.selLane (s : State) (p : Port) : Option Lane :=
  let k := s.sel p .SEL_LANE 0 3
  let l := s.sel p .SEL_LANE 8 5
  if s.portFitted k then s.ports.lanes.find? fun x => x.port == k && x.lane == l else none

/-- The state of a lane pair: that of its journal port, of its Campanile pair, or its own. -/
def State.laneState (s : State) (l : Lane) : Nat :=
  if l.failed then 1
  else match l.port with
    | 0 => l.state
    | 1 | 2 => s.fld (jState (l.port - 1))
    | 3 => if (if l.lane == 0 then s.stept.inA.up else s.stept.inB.up) then 3 else l.state
    | _ => if (if l.lane == 0 then s.stept.outA else s.stept.outB) then 3 else l.state

/-- A lane pair carries traffic; the Campanile pair received from. -/
def State.laneInUse (s : State) (l : Lane) : Bool :=
  s.laneState l == 3 &&
  match l.port with
  | 3 => s.stept.useB == (l.lane == 1)
  | 4 => l.lane == 0 || !s.stept.outA
  | _ => l.role != 31

/-- LANE_STAT. A pair that is not fitted reads ABSENT with all other fields 0. -/
def State.laneStat (s : State) (p : Port) : W64 :=
  match s.selLane p with
  | none => 0
  | some l =>
    let st := s.laneState l
    packBits [(0, 2, st), (2, 1, (st == 3 && l.port ≤ 2 && l.role == 31).toNat), (3, 1, l.failed.toNat),
      (4, 1, (s.laneInUse l).toNat), (8, 5, l.role), (16, 16, l.rx)]

/-- LANE_ERR. -/
def State.laneErr (s : State) (p : Port) : W64 :=
  match s.selLane p with
  | none => 0
  | some l => packBits [(0, 32, l.corrected), (32, 16, l.uncorrected), (48, 16, l.retrains)]

/-- LANE_CTL: RETRAIN while the selected port trains again. -/
def State.laneCtlShown (s : State) (p : Port) : W64 :=
  if (s.selLane p).isNone then 0
  else packBits [(0, 1, match s.sel p .SEL_LANE 0 3 with
    | 0 => (s.flag Fld.LANE_CTL_RETRAIN).toNat
    | 1 => (s.fld Fld.JRNL_STAT_J0_STATE == 2).toNat
    | 2 => (s.fld Fld.JRNL_STAT_J1_STATE == 2).toNat
    | 3 => s.stept.laneAsk.toNat
    | _ => 0)]

/-! ## Other views -/

/-- The column that OCU_SEL selects of the snapshot buffer: the one item there is in MODE 1 (R181). -/
def State.ocuCol (s : State) (p : Port) : Nat := if s.ocu.cols.length ≤ 1 then 0 else s.sel p .OCU_SEL 0 6

/-- The parity that a read of OCU_DATA checks does not match: the limb read is the one captured so (R177). -/
def State.ocuBad (s : State) (p : Port) : Bool :=
  s.sel p .OCU_SEL 12 2 == 0 && s.ocu.badLimb == some (s.ocuCol p, s.sel p .OCU_SEL 8 4)

/-- OCU_DATA: a limb, a tag or a converted output of the snapshot buffer (R181); one item in MODE 1. -/
def State.ocuData (s : State) (p : Port) : W64 :=
  let col := s.ocuCol p
  let limb := s.sel p .OCU_SEL 8 4
  match s.sel p .OCU_SEL 12 2, s.ocu.cols[col]? with
  | 0, some v => if limb < 10 then BitVec.ofNat 64 (v.bits.toNat / 2 ^ (64 * limb)) else 0
  | 1, some v => match v.tag with | .finite => 0 | .posInf => 1 | .negInf => 2 | .nan => 3
  | 2, _ => BitVec.ofNat 64 (s.ocu.outs.getD col 0)
  | _, _ => 0

/-- The snapshot of a port: DIGEST_VALUE and DIGEST_FLAGS (R258, R422). -/
def State.digestSnap (s : State) (p : Port) : Nat × Nat × Bool := if p == .host then s.dig.snapHost else s.dig.snapMgmt

/-- INTAKE_STAT, with OPEN. -/
def State.intakeStat (s : State) : W64 :=
  let held := s.flag Fld.INTAKE_STAT_HELD || s.flag Fld.INTAKE_STAT_DUR_HOLD || s.flag Fld.INTAKE_STAT_RECOVERING
  insertBits (s.reg .INTAKE_STAT) 0 1 (s.intakeOn && !held && s.intakeOpen).toNat

/-- DEV_BOOT, with ELAPSED while the sequence runs (R416). -/
def State.devBoot (s : State) : W64 :=
  if s.readyUp then s.reg .DEV_BOOT
  else insertBits (s.reg .DEV_BOOT) 16 32 (min ((s.now - s.boot.startedAt) / 2000000) (2 ^ 32 - 1))

/-- What a register reads as to a port. -/
def State.readReg (s : State) (p : Port) (r : Reg) : W64 :=
  match r with
  | .DEV_BOOT => s.devBoot
  | .STEP_PHASE => s.stepPhase
  | .INTAKE_STAT => s.intakeStat
  | .DIGEST_STEP => BitVec.ofNat 64 s.dig.step
  | .DIGEST_VALUE => BitVec.ofNat 64 (s.digestSnap p).1
  | .DIGEST_FLAGS => packBits [(0, 16, (s.digestSnap p).2.1), (16, 1, (s.digestSnap p).2.2.toNat)]
  | .CORE_INFO => s.coreInfo p
  | .SAMP_SWEEPS => s.coreView p fun c => [(0, 64, c.sweeps)]
  | .SAMP_CHANGES => s.coreView p fun c => [(0, 64, c.changes)]
  | .SAMP_CONFLICTS => s.coreView p fun c => [(0, 32, c.conflLast), (32, 32, c.conflTotal)]
  | .SAMP_MALA => s.coreView p fun c => [(0, 32, c.malaAcc), (32, 32, c.malaRej)]
  | .SAMP_STAT => s.sampStat p
  | .ANNEAL_SWEEP => BitVec.ofNat 64 s.ex.chain.an.w
  | .ANNEAL_TEMP => packBits [(0, 32, s.betaShown), (32, 32, s.ex.chain.an.tOff.toNat)]
  | .ANNEAL_STAT =>
    packBits [(0, 16, min s.ex.chain.an.ni 0xFFFF), (16, 5, s.ex.chain.an.penK),
      (32, 32, min s.ex.chain.an.penRun (2 ^ 32 - 1))]
  | .ANNEAL_BEST => match s.ex.chain.an.best with | some b => BitVec.ofNat 64 (bestBits b.e12) | none => 0
  | .ANNEAL_BEST_INFO => s.bestInfo
  | .ANNEAL_GROUP => s.annealGroup p
  | .ANNEAL_SWAP => s.annealSwap p
  | .ANNEAL_SLOT => s.annealSlot p
  | .ARITH_STAT => s.coreView p fun c => [(0, 32, c.redrains), (32, 16, c.saturated), (48, 16, c.maxDelay)]
  | .ARITH_STICKY => s.coreView p fun c => [(0, 5, c.sticky)]
  | .ARITH_SLICES => s.arithSlices p
  | .STRM_POS => s.strmView p (·.drawn)
  | .STRM_STATE_LO => s.strmView p (·.state.toNat)
  | .STRM_STATE_HI => s.strmView p (·.state.toNat / 2 ^ 64)
  | .STRM_POLY => s.strmPoly p
  | .STRM_ROM_LO => BitVec.ofNat 64 (s.selPoly p)
  | .STRM_ROM_HI => BitVec.ofNat 64 (s.selPoly p / 2 ^ 64)
  | .MESH_ROUTER => s.meshRouter p
  | .MESH_GHOST => s.siteView p fun i => [(0, 32, (s.site i).ghostFlits), (32, 32, (s.site i).ghostSteps)]
  | .MESH_MCAST => s.siteView p fun i =>
    [(0, 32, (s.site i).retries), (32, 4, (s.copies i).length), (36, 4, (s.site i).maxHeld)]
  | .MESH_PAD => s.meshPad p
  | .MPORT_STAT => s.mportStat p
  | .MPORT_LEVEL =>
    let k := s.selMport p
    packBits [(0, 16, portReadLat k), (16, 16, portAckLat k), (32, 16, portRate k), (48, 16, portDepth k)]
  | .MPORT_ECC => s.mportView p fun m => [(0, 32, m.corrected), (32, 32, m.uncorrectable)]
  | .MPORT_TILE => s.mportView p fun m => [(0, 32, m.checkFails), (32, 9, m.poison.length)]
  | .MPORT_SCRUB => s.mportView p fun m => [(0, 40, m.scrubPos), (40, 24, m.passes)]
  | .MPORT_MERGE => s.mportView p fun m => [(0, 48, m.merged), (48, 7, m.maxOpen)]
  | .MPORT_ADMIT => s.mportView p fun m => [(0, 32, m.delayed), (32, 32, m.maxWait)]
  | .MPORT_CVU_CTL => s.mportView p fun m => [(0, 1, m.cvuArm.toNat), (1, 2, m.cvuPoly)]
  | .MPORT_CVU_BASE => s.mportView p fun m => [(0, 48, m.cvuBase)]
  | .MPORT_CVU_LIMIT => s.mportView p fun m => [(0, 48, m.cvuLimit)]
  | .MPORT_CVU_VALUE => s.mportView p fun m => [(0, 64, m.cvuValue)]
  | .MPORT_CVU_BYTES => s.mportView p fun m => [(0, 64, m.cvuBytes)]
  | .LANE_STAT => s.laneStat p
  | .LANE_ERR => s.laneErr p
  | .LANE_CTL => s.laneCtlShown p
  | .MGMT_STAT => s.mgmtStat
  | .TRNG_STAT => s.trngStat
  | .TRNG_SRC_FAILS =>
    let n := s.trng.srcs.getD (s.sel p .TRNG_SEL 0 4) NoiseSrc.reset
    packBits [(0, 32, n.rct), (32, 32, n.apt)]
  | .SPARE_MAP => BitVec.ofNat 64 (s.spareMapOf (s.sel p .SPARE_SEL 0 10))
  | .OCU_DATA => s.ocuData p
  | .INT_SET => 0
  | .STEP_ADVANCE => 0
  | r => s.reg (Reg.at p r)

/-! ## Reads with effects (R177, R420) -/

/-- An offset lies in the Oculus block. -/
def inOculus (off : Nat) : Bool := 0xD0000 ≤ off && off < 0xE0000

/-- A read of a register by a port: the value, and what the read leaves behind. -/
def State.readEffect (s : State) (p : Port) (r : Reg) : W64 × State :=
  let v := s.readReg p r
  match r with
  | .DIGEST_STEP => (BitVec.ofNat 64 s.afterBoundary.dig.step, s.snapDigest p)
  | .DEV_STAT | .DEV_CAPS => (s.afterBoundary.readReg p r, s)
  | .TRNG_WORD => let x := s.readWord; (BitVec.ofNat 64 x.1, x.2)
  | .MGMT_STAT => (v, if p == .mgmt then s.onMgmt fun m => { m with alertPending := false } else s)
  | .OCU_DATA => (v, if s.ocuBad p then s.hwSet Fld.OCU_STAT_PARITY else s)
  | _ => (v, s)

/-- A quadword of the MSI-X table (R427), as PCIe lays it out. -/
def State.msixRead (s : State) (off : Nat) : W64 :=
  match s.intr.table[off / 16]? with
  | some e => if off % 16 == 0 then BitVec.ofNat 64 e.addr else packBits [(0, 32, e.data), (32, 1, e.masked.toNat)]
  | none => 0

/-- A read at an offset of BAR0, 8-byte aligned: unassigned offsets read 0 (R419). -/
def State.readAt (s : State) (p : Port) (off : Nat) : W64 × State :=
  if inOculus off && s.dbgLevel == 0 then (0, s.ocuRefuse)
  else match Reg.ofOffset off with
    | some r => s.readEffect p r
    | none =>
      if 0xC8000 ≤ off && off < 0xC8400 then (s.msixRead (off - 0xC8000), s)
      else if off == 0xC9000 then (BitVec.ofNat 64 s.intr.pba, s)
      else (0, s)

/-! ## Writes -/

/-- A write to a quadword of the MSI-X table: what is unmasked and pending is sent (R425, R427). -/
def State.msixWrite (s : State) (a : RegAcc) (off : Nat) : State :=
  match s.intr.table[off / 16]? with
  | some e =>
    let put := fun (old lo w : Nat) => if accCovers a lo w then bitsOf (accBits a) lo w else old
    let e : Msix := if off % 16 == 0 then
        { e with addr := put (e.addr % 2 ^ 32) 0 32 + put (e.addr / 2 ^ 32) 32 32 * 2 ^ 32 }
      else { e with data := put e.data 0 32, masked := put e.masked.toNat 32 1 == 1 }
    ({ s with intr := { s.intr with table := s.intr.table.set (off / 16) e } } : State).flushPba
  | none => s

/-- A write to ARITH_STICKY clears flags of the selected core; one set in this cycle ends at 1 (R12). -/
def State.stickyClear (s : State) (a : RegAcc) : State :=
  match (s.selCore a.port).2 with
  | some n => s.onCore n fun c =>
    let keep := if c.stickyAt.1 == s.now then c.stickyAt.2 else 0
    let gone := c.sticky &&& (accBits a % 32)
    { c with sticky := (c.sticky - gone) ||| (c.sticky &&& keep), stickyOld := c.stickyOld - (c.stickyOld &&& gone) }
  | none => s

/-- A write to a 48-bit address of the selected check-value unit. -/
def cvuAddr (a : RegAcc) (old : Nat) : Nat := if accCovers a 0 48 then accBits a % 2 ^ 48 else old

/-- A write to SPARE_WDOG acts at the next step boundary, at once when no run is in progress (R298). -/
def State.spareWdog (s : State) (a : RegAcc) : State :=
  let s := (s.writeFields .SPARE_WDOG a).noteConfig .SPARE_WDOG a.port.source
  if s.runOn then s else s.onSpare fun x => { x with effWdog := s.fld Fld.SPARE_WDOG_CYCLES }

/-- A write to SEC_FW: LOAD works only in ROM recovery (R371). -/
def State.secFw (s : State) (a : RegAcc) : State :=
  if s.sec.romWait && accSets a Fld.SEC_FW_LOAD then s.recoverImage (trimImage s.sec.bar4) true else s

/-- An offset lies in the step-time block, every write to which is journaled and recorded (R36). -/
def inStepTime (off : Nat) : Bool := 0x10000 ≤ off && off < 0x20000

/-- A write to a register. -/
def State.writeReg (s : State) (a : RegAcc) (r : Reg) : State :=
  match r with
  | .DEV_RESET => s.devReset a
  | .STEP_SRC => s.stepConfig .STEP_SRC a
  | .STEP_CTL => s.stepConfig .STEP_CTL a
  | .STEP_ADVANCE => s.stepAdvance a
  | .STEP_SKEW_COMP => s.stepSkew a
  | .STEP_HOLDOVER => s.stepLimits .STEP_HOLDOVER a
  | .STEP_WATCHDOG => s.stepLimits .STEP_WATCHDOG a
  | .INTAKE_CTL => s.intakeCtl a
  | .INTAKE_NEXT_SEQ => s.intakeConfig .INTAKE_NEXT_SEQ a
  | .RECEIPT_BASE => s.intakeConfig .RECEIPT_BASE a
  | .RECEIPT_SIZE => s.intakeConfig .RECEIPT_SIZE a
  | .RECEIPT_HEAD => s.receiptHead a
  | .DURABILITY_POLICY => s.policyWrite a
  | .MODE_CTL => s.writeMode false a
  | .LOAD_BALANCE => s.writeMode true a
  | .ARITH_STICKY => s.stickyClear a
  | .MPORT_CVU_CTL => s.onMport (s.selMport a.port) (·.cvuWrite a)
  | .MPORT_CVU_BASE => s.onMport (s.selMport a.port) fun m => { m with cvuBase := cvuAddr a m.cvuBase }
  | .MPORT_CVU_LIMIT => s.onMport (s.selMport a.port) fun m => { m with cvuLimit := cvuAddr a m.cvuLimit }
  | .LANE_CTL => s.laneCtl a
  | .MGMT_WDOG => s.mgmtWdog a
  | .JRNL_CTL => s.jrnlCtl a
  | .TRNG_CTL => s.trngCtl a
  | .BELFRY_CTL => s.belfryCtl a
  | .BELFRY_INDEX => s.belfryIndex a
  | .DBG_CTL => s.dbgCtl a
  | .PWR_STATE => s.pwrState a
  | .PWR_CAP => s.pwrCap a
  | .SEC_FW => s.secFw a
  | .SPARE_CTL => s.spareCtl a
  | .SPARE_WDOG => s.spareWdog a
  | .INT_STAT => s.intStatClear a
  | .INT_ENABLE => s.intEnable a
  | .INT_SET => s.intSet a
  | .INT_MOD => s.intMod a
  | .OCU_CTL => s.writeOcuCtl a
  | .HOST_WIN => (s.writeFields .HOST_WIN a).noteConfig .HOST_WIN a.port.source
  | r =>
    let s := s.writeFields (Reg.at a.port r) a
    if inStepTime r.offset then s.noteConfig r a.port.source else s

/-- A write at an offset of BAR0, 8-byte aligned: unassigned offsets ignore it (R419). -/
def State.writeAt (s : State) (a : RegAcc) (off : Nat) : State :=
  if inOculus off && s.dbgLevel == 0 then s.ocuRefuse
  else match Reg.ofOffset off with
    | some r => s.writeReg a r
    | none =>
      if 0xC8000 ≤ off && off < 0xC8400 then s.msixWrite a (off - 0xC8000)
      else if inStepTime off then s.noteChange off 0 s.stepNow s.phi a.port.source
      else s

/-! ## Who reaches what (R421) -/

/-- An offset lies in a block held on the management die. -/
def offOnM (off : Nat) : Bool :=
  off < 0x10000 || (0x90000 ≤ off && off < 0xC0000) || (0x60060 ≤ off && off < 0x60088)

/-- A port reaches an offset. -/
def State.reachOff (s : State) (p : Port) (off : Nat) : Bool :=
  match p with
  | .host =>
    s.fld Fld.HOST_LINK_RATE != 0 && !s.ports.d3hot && (if s.sec.romWait then Reg.ofOffset off == some .SEC_FW else s.cUp)
  | .mgmt => s.mUp && (offOnM off || s.cUp)

/-- REGISTER_WRITE: a write to any register, by its offset; `acc` says which half it covers. -/
def execRegisterWrite (t off : Nat) (acc : RegAcc) (s : State) : Result :=
  s.when t (fun s => off % 8 == 0 && s.reachOff acc.port off) fun s => s.writeAt acc off

/-! ## Bad accesses (R418) -/

/-- An access of another size or alignment is counted. -/
def State.badAccess (s : State) (p : Port) (off : Nat) : State :=
  ((s.incFld Fld.DEV_ACCESS_BAD_ACCESSES).setFld Fld.DEV_ACCESS_LAST_OFFSET off).setFlag Fld.DEV_ACCESS_LAST_PORT
    (p == .mgmt)

/-- BAR0_BAD_ACCESS: a read returns 0, a write has no effect. -/
def execBar0BadAccess (t : Nat) (port : Port) (write : Bool) (off : Nat) (s : State) : Result :=
  s.when t (fun s => decide (off < 2 ^ 26) && s.reachOff port off) fun s =>
    let s := s.badAccess port off
    if write then s else s.answer port 0

/-! ## Management register commands (R332, R333, R404) -/

/-- REG_READ. In stage 0 the boot ROM answers for the identity block alone. -/
def execRegRead (t off : Nat) (s : State) : Result :=
  s.when t (fun s => s.mctpUp) fun s =>
    if !s.dmcUp then
      if off % 8 == 0 && off < 0x10000 then
        let r := s.readAt .mgmt off
        r.2.answer .mgmt r.1
      else s.emit (.mgmtReply 3 [])
    else if 2 ^ 26 ≤ off then s.emit (.mgmtReply 1 [])
    else if off % 8 != 0 then (s.badAccess .mgmt off).emit (.mgmtReply 1 [])
    else if s.reachOff .mgmt off then
      let r := s.readAt .mgmt off
      r.2.answer .mgmt r.1
    else s.emit (.mgmtReply 3 [])

/-- REG_WRITE. The response leaves before what the write starts. -/
def execRegWrite (t off : Nat) (value : W64) (s : State) : Result :=
  s.keazia t fun s =>
    if 2 ^ 26 ≤ off then s.emit (.mgmtReply 1 [])
    else if off % 8 != 0 then (s.badAccess .mgmt off).emit (.mgmtReply 1 [])
    else if s.reachOff .mgmt off then (s.emit (.mgmtReply 0 [])).writeAt ⟨.mgmt, .whole, value⟩ off
    else s.emit (.mgmtReply 3 [])

/-- SLOT_WRITE: 8 to 1,000 bytes, a multiple of 8, into a slot of the Intake Window. -/
def execSlotWrite (t slot off : Nat) (data : List Byte) (s : State) : Result :=
  s.keazia t fun s =>
    if data.length < 8 || 1000 < data.length || data.length % 8 != 0 then s.emit (.mgmtReply 4 [])
    else if 4096 ≤ slot || 4096 < off + data.length then s.emit (.mgmtReply 1 [])
    else if s.cUp then (s.emit (.mgmtReply 0 [])).writeSlot .mgmt slot off data
    else s.emit (.mgmtReply 3 [])

/-- RECEIPT_GET: the latest receipt of an order. -/
def execReceiptGet (t seq : Nat) (s : State) : Result :=
  s.keazia t fun s =>
    let past := (s.intake.past.find? (·.1 == seq)).bind (·.2.2)
    if !s.cUp then s.emit (.mgmtReply 3 [])
    else match ((s.order seq).bind (·.latest)).or past with
      | some r => s.emit (.mgmtReply 0 r.bytes)
      | none => s.emit (.mgmtReply 1 [])

/-! ## The device-memory window (R322) -/

/-- Where bytes of BAR2 fall: pieces by port, address and length, in ascending order, over the usable spaces of the
tier's ports in use; what lies beyond the tier is in no piece. -/
def State.windowPieces (s : State) (off len : Nat) : List (Nat × Nat × Nat) :=
  let x := s.fld Fld.HOST_WIN_BASE * 2 ^ 30 + off
  let ps := (tierPorts (if s.fld Fld.HOST_WIN_TIER == 0 then 1 else 2)).filter fun k => (s.mport k).state == 0
  (ps.foldl (fun (acc : List (Nat × Nat × Nat) × Nat) k =>
    let lo := max x acc.2
    let hi := min (x + len) (acc.2 + portBytes k)
    (if lo < hi then acc.1 ++ [(k, lo - acc.2, hi - lo)] else acc.1, acc.2 + portBytes k)) ([], 0)).1

/-- The host reaches BAR2. -/
def State.windowUp (s : State) : Bool := s.hostUp && !s.sec.romWait

/-- BAR2_READ: what lies beyond the tier reads 0; a tile that fails its check poisons the completion, whose data is
then free. -/
def execBar2Read (t addr size : Nat) (faults : List TileCheck) (s : State) : Result :=
  s.when t (fun s => s.windowUp && decide (addr + size ≤ s.ports.bar2Size)) fun s =>
    let ps := s.windowPieces addr size
    let r := ps.foldl (fun (r : State × Bool) q =>
      let v := r.1.verifyTiles q.1 faults (tilesOf q.2.1 q.2.2)
      (v.1, r.2 && v.2.isEmpty)) (s, true)
    if r.2 then r.1.emit (.readData (leNat ((ps.map fun q => s.readMem q.1 q.2.1 q.2.2).flatten)) false)
    else
      let v := r.1.freshVal
      v.2.emit (.readData v.1.toNat true)

/-- A write through BAR2 is dropped and counted; 0x7006 follows at the step's end, or at once outside a step. -/
def State.dropBar2 (s : State) : State :=
  let s := s.incFld Fld.HOST_ERR_BAR2_DROPPED
  if s.stept.stepOn then { s with ports := { s.ports with bar2Drops := s.ports.bar2Drops + 1 } }
  else s.record 0x7006 1

/-- The bytes of a write, piece by piece; a partly written tile is verified first, and a failure cancels the write. -/
def State.storePieces (s : State) (faults : List TileCheck) (data : List Byte) : List (Nat × Nat × Nat) → State
  | [] => s
  | (k, a, n) :: rest => (s.putTiles k a (data.take n) faults).storePieces faults (data.drop n) rest

/-- BAR2_WRITE: accepted only into tiles that hold no residence and no chain state. Where chain state lies in memory the
spec does not state: with a plan loaded, whether a write meets it is free. -/
def execBar2Write (t addr : Nat) (data : WindowWrite) (s : State) : Result :=
  s.when t (fun s => s.windowUp && decide (addr + data.bytes.length ≤ s.ports.bar2Size)) fun s =>
    let ps := s.windowPieces addr data.bytes.length
    let held := ps.any fun q => (tilesOf q.2.1 q.2.2).any fun k => s.inResidence q.1 k
    let v := s.freshVal
    if ps.isEmpty then s
    else if s.planOn && held then s.dropBar2
    else if s.planOn then if v.1.getLsbD 0 then v.2.dropBar2 else v.2.storePieces data.faults data.bytes ps
    else s.storePieces data.faults data.bytes ps

end Sys2Proof.Machine
end

