-- ==== Sys2Proof/Machine/Images.lean ====
section
/-! DEFINITION. Plan images in memory (R88, R230): ORDER_ACCEPTANCE and PLAN_LOAD, whose first check of a plan is
that of its image's tiles. -/

namespace Sys2Proof.Machine

/-- The code with which an image is refused for a tile that fails its check (R231, R232); an error in the port's SRAM is
no failure of the tile. -/
def State.tileCode (s : State) (x : TileCheck) : Option Nat :=
  if (s.mport x.port).poison.contains x.tile then some 0x5004
  else match x.fault with
    | .uncorrectable _ => some (if x.port < 16 then 0x5002 else 0x5001)
    | .mismatch _ => some 0x5001
    | _ => none

/-- The tiles of an image are verified before anything else is checked (R88): where a staged image stands the spec does
not say, so which tiles they are is the operand's (log 29). The port records a failure itself; the first decides. -/
def State.verifyImage (s : State) : List TileCheck → State × Option (Nat × Nat)
  | [] => (s, none)
  | x :: xs =>
    let v := s.verifyTile x.port x.tile false x.fault
    match s.tileCode x with
    | some c => (v.1, some (c, x.port + x.tile % 2 ^ 40 * 256))
    | none => v.1.verifyImage xs

/-- ORDER_ACCEPTANCE: a sealed slot goes as far as it can. -/
def execOrderAcceptance (t : Nat) (c : ImageTiles) (s : State) : Result :=
  if 4096 ≤ c.num then .fault .noSuchUnit
  else s.when t (fun s => s.accepting && match s.slotAt c.num with
      | some x => x.st == .sealed && (if x.checked then s.myTurn x else s.nextToCheck x)
      | none => false) fun s =>
    match s.slotAt c.num with
    | some x => (if x.checked then s else s.early x).afterChecks (·.verifyImage c.tiles) c.num
    | none => s

/-- PLAN_LOAD: every earlier order has completed, so that no run is in progress. -/
def execPlanLoad (t : Nat) (c : ImageTiles) (s : State) : Result :=
  s.orderRow t c.num 1 fun s o => if s.engaged then s else s.withBulk o fun s d =>
    match s.verifyImage c.tiles with
    | (s, some (code, p)) => s.rejectOrder o code p
    | (s, none) => (s.doPlan o d).settleIdle

end Sys2Proof.Machine
end

