-- ==== Sys2Proof/Machine/Dispatch.lean ====
section
/-! DEFINITION. The dispatch: one arm per command, each one call of its meaning. -/

namespace Sys2Proof.Machine

open Host

def exec (i : Instr) (s : State) : Host.Outcome State Fault Refusal :=
  match i with
  | .intakeSlotWrite t slot off data => Sys2Proof.Machine.execIntakeSlotWrite t slot off data s
  | .sealTimeout t slot => Sys2Proof.Machine.execSealTimeout t slot s
  | .orderAcceptance t slot => Sys2Proof.Machine.execOrderAcceptance t slot s
  | .accepted t seq => Sys2Proof.Machine.execAccepted t seq s
  | .receiptPost t seq => Sys2Proof.Machine.execReceiptPost t seq s
  | .receiptConsumed t acc => Sys2Proof.Machine.execReceiptConsumed t acc s
  | .intakeEnable t acc => Sys2Proof.Machine.execIntakeEnable t acc s
  | .intakeResume t acc => Sys2Proof.Machine.execIntakeResume t acc s
  | .forceOpen t acc => Sys2Proof.Machine.execForceOpen t acc s
  | .intakeConfigWrite t reg acc => Sys2Proof.Machine.execIntakeConfigWrite t reg acc s
  | .durabilityPolicyWrite t acc => Sys2Proof.Machine.execDurabilityPolicyWrite t acc s
  | .planLoad t seq => Sys2Proof.Machine.execPlanLoad t seq s
  | .dataBind t seq => Sys2Proof.Machine.execDataBind t seq s
  | .seedSet t seq => Sys2Proof.Machine.execSeedSet t seq s
  | .run t seq => Sys2Proof.Machine.execRun t seq s
  | .checkpoint t seq => Sys2Proof.Machine.execCheckpoint t seq s
  | .restore t seq => Sys2Proof.Machine.execRestore t seq s
  | .modeSet t seq => Sys2Proof.Machine.execModeSet t seq s
  | .rowSample t seq => Sys2Proof.Machine.execRowSample t seq s
  | .quiesce t seq => Sys2Proof.Machine.execQuiesce t seq s
  | .probeChallenge t seq => Sys2Proof.Machine.execProbeChallenge t seq s
  | .probeToken t seq => Sys2Proof.Machine.execProbeToken t seq s
  | .probeEnd t seq => Sys2Proof.Machine.execProbeEnd t seq s
  | .probeHalt t seq => Sys2Proof.Machine.execProbeHalt t seq s
  | .probeSweep t seq => Sys2Proof.Machine.execProbeSweep t seq s
  | .probeResume t seq => Sys2Proof.Machine.execProbeResume t seq s
  | .stateWrite t seq => Sys2Proof.Machine.execStateWrite t seq s
  | .probeQuote t seq => Sys2Proof.Machine.execProbeQuote t seq s
  | .markFrame t pairB bytes => Sys2Proof.Machine.execMarkFrame t pairB bytes s
  | .markApply t => Sys2Proof.Machine.execMarkApply t s
  | .phaseFrame t pairB bytes => Sys2Proof.Machine.execPhaseFrame t pairB bytes s
  | .readyFrame t bytes => Sys2Proof.Machine.execReadyFrame t bytes s
  | .waitFrame t pairB bytes => Sys2Proof.Machine.execWaitFrame t pairB bytes s
  | .markGenerate t => Sys2Proof.Machine.execMarkGenerate t s
  | .stepAdvance t acc => Sys2Proof.Machine.execStepAdvance t acc s
  | .waitSend t => Sys2Proof.Machine.execWaitSend t s
  | .barrierSlow t => Sys2Proof.Machine.execBarrierSlow t s
  | .referenceLost t => Sys2Proof.Machine.execReferenceLost t s
  | .campanileLossOfLight t => Sys2Proof.Machine.execCampanileLossOfLight t s
  | .holdoverMark t => Sys2Proof.Machine.execHoldoverMark t s
  | .downstreamDown t => Sys2Proof.Machine.execDownstreamDown t s
  | .campanileFailover t outPort => Sys2Proof.Machine.execCampanileFailover t outPort s
  | .stepRetrain t acc => Sys2Proof.Machine.execStepRetrain t acc s
  | .echoReceived t fromUp pairB id => Sys2Proof.Machine.execEchoReceived t fromUp pairB id s
  | .echoReturn t => Sys2Proof.Machine.execEchoReturn t s
  | .stepConfigWrite t ctl acc => Sys2Proof.Machine.execStepConfigWrite t ctl acc s
  | .stepStart t => Sys2Proof.Machine.execStepStart t s
  | .phaseBegin t => Sys2Proof.Machine.execPhaseBegin t s
  | .gather t node fault => Sys2Proof.Machine.execGather t node fault s
  | .mac t node fault => Sys2Proof.Machine.execMac t node fault s
  | .drain t node fault => Sys2Proof.Machine.execDrain t node fault s
  | .update t node => Sys2Proof.Machine.execUpdate t node s
  | .writeback t node => Sys2Proof.Machine.execWriteback t node s
  | .reduce t node order => Sys2Proof.Machine.execReduce t node order s
  | .langevin t node => Sys2Proof.Machine.execLangevin t node s
  | .group t => Sys2Proof.Machine.execGroup t s
  | .swap t => Sys2Proof.Machine.execSwap t s
  | .anneal t moves => Sys2Proof.Machine.execAnneal t moves s
  | .sync t node flag => Sys2Proof.Machine.execSync t node flag s
  | .endEntry t node => Sys2Proof.Machine.execEndEntry t node s
  | .slotEnd t => Sys2Proof.Machine.execSlotEnd t s
  | .barrierRelease t => Sys2Proof.Machine.execBarrierRelease t s
  | .coreWatchdog t barrier => Sys2Proof.Machine.execCoreWatchdog t barrier s
  | .islandMonitor t site router => Sys2Proof.Machine.execIslandMonitor t site router s
  | .boundaryActions t found => Sys2Proof.Machine.execBoundaryActions t found s
  | .contextComplete t => Sys2Proof.Machine.execContextComplete t s
  | .hopInject t hop site => Sys2Proof.Machine.execHopInject t hop site s
  | .hopDelivery t hop parity => Sys2Proof.Machine.execHopDelivery t hop parity s
  | .freeSlotPacket t id site targets flits => Sys2Proof.Machine.execFreeSlotPacket t id site targets flits s
  | .creditReturn t site dir => Sys2Proof.Machine.execCreditReturn t site dir s
  | .freeSlotAck t id target => Sys2Proof.Machine.execFreeSlotAck t id target s
  | .mportRequest t port id write addr len data => Sys2Proof.Machine.execMportRequest t port id write addr len data s
  | .mportAdmit t port faults => Sys2Proof.Machine.execMportAdmit t port faults s
  | .mportReadDelivery t port faults => Sys2Proof.Machine.execMportReadDelivery t port faults s
  | .mportWriteAck t port => Sys2Proof.Machine.execMportWriteAck t port s
  | .mergeEntryClose t port => Sys2Proof.Machine.execMergeEntryClose t port s
  | .scrubRead t port fault => Sys2Proof.Machine.execScrubRead t port fault s
  | .atomicAdd t port addr value faults => Sys2Proof.Machine.execAtomicAdd t port addr value faults s
  | .freeSlotRequest t port write addr len data faults => Sys2Proof.Machine.execFreeSlotRequest t port write addr len data faults s
  | .cvuArm t acc => Sys2Proof.Machine.execCvuArm t acc s
  | .journalFrameSend t port => Sys2Proof.Machine.execJournalFrameSend t port s
  | .journalAck t port bytes => Sys2Proof.Machine.execJournalAck t port bytes s
  | .journalCredit t port bytes => Sys2Proof.Machine.execJournalCredit t port bytes s
  | .journalLinkUp t port => Sys2Proof.Machine.execJournalLinkUp t port s
  | .trainReply t port bytes => Sys2Proof.Machine.execTrainReply t port bytes s
  | .replay t port bytes => Sys2Proof.Machine.execReplay t port bytes s
  | .journalAckTimeout t port => Sys2Proof.Machine.execJournalAckTimeout t port s
  | .journalLossOfLight t port => Sys2Proof.Machine.execJournalLossOfLight t port s
  | .jrnlRetrain t acc => Sys2Proof.Machine.execJrnlRetrain t acc s
  | .recovery t => Sys2Proof.Machine.execRecovery t s
  | .hostReadCompletion t seq slot data err => Sys2Proof.Machine.execHostReadCompletion t seq slot data err s
  | .bar2Read t addr size faults => Sys2Proof.Machine.execBar2Read t addr size faults s
  | .bar2Write t addr data => Sys2Proof.Machine.execBar2Write t addr data s
  | .bar0BadAccess t port write off => Sys2Proof.Machine.execBar0BadAccess t port write off s
  | .registerWrite t off acc => Sys2Proof.Machine.execRegisterWrite t off acc s
  | .laneFailed t port lane => Sys2Proof.Machine.execLaneFailed t port lane s
  | .hostLinkRecovered t => Sys2Proof.Machine.execHostLinkRecovered t s
  | .laneRetrain t acc => Sys2Proof.Machine.execLaneRetrain t acc s
  | .i3cDynamicAddress t legacy addr => Sys2Proof.Machine.execI3cDynamicAddress t legacy addr s
  | .setEndpointId t eid => Sys2Proof.Machine.execSetEndpointId t eid s
  | .getEndpointId t => Sys2Proof.Machine.execGetEndpointId t s
  | .getMctpVersionSupport t => Sys2Proof.Machine.execGetMctpVersionSupport t s
  | .getMessageTypeSupport t => Sys2Proof.Machine.execGetMessageTypeSupport t s
  | .getVendorMessageSupport t => Sys2Proof.Machine.execGetVendorMessageSupport t s
  | .regRead t off => Sys2Proof.Machine.execRegRead t off s
  | .regWrite t off value => Sys2Proof.Machine.execRegWrite t off value s
  | .slotWrite t slot off data => Sys2Proof.Machine.execSlotWrite t slot off data s
  | .receiptGet t seq => Sys2Proof.Machine.execReceiptGet t seq s
  | .heartbeat t => Sys2Proof.Machine.execHeartbeat t s
  | .mgmtWdogExpired t => Sys2Proof.Machine.execMgmtWdogExpired t s
  | .mgmtWdogWrite t acc => Sys2Proof.Machine.execMgmtWdogWrite t acc s
  | .mgmtStatRead t => Sys2Proof.Machine.execMgmtStatRead t s
  | .challenge t => Sys2Proof.Machine.execChallenge t s
  | .tokenPut t off data => Sys2Proof.Machine.execTokenPut t off data s
  | .tokenSubmit t => Sys2Proof.Machine.execTokenSubmit t s
  | .quote t nonce => Sys2Proof.Machine.execQuote t nonce s
  | .quoteFormed t => Sys2Proof.Machine.execQuoteFormed t s
  | .quoteRead t off => Sys2Proof.Machine.execQuoteRead t off s
  | .debugCtlEnd t => Sys2Proof.Machine.execDebugCtlEnd t s
  | .debugCtlHalt t => Sys2Proof.Machine.execDebugCtlHalt t s
  | .debugCtlSweep t => Sys2Proof.Machine.execDebugCtlSweep t s
  | .debugCtlResume t => Sys2Proof.Machine.execDebugCtlResume t s
  | .keyList t slot => Sys2Proof.Machine.execKeyList t slot s
  | .certRead t off => Sys2Proof.Machine.execCertRead t off s
  | .getTid t => Sys2Proof.Machine.execGetTid t s
  | .setTid t tid => Sys2Proof.Machine.execSetTid t tid s
  | .getPldmVersion t typ => Sys2Proof.Machine.execGetPldmVersion t typ s
  | .getPldmTypes t => Sys2Proof.Machine.execGetPldmTypes t s
  | .getPldmCommands t typ => Sys2Proof.Machine.execGetPldmCommands t typ s
  | .getPdrRepositoryInfo t => Sys2Proof.Machine.execGetPdrRepositoryInfo t s
  | .getPdr t handle => Sys2Proof.Machine.execGetPdr t handle s
  | .getSensorReading t sensor => Sys2Proof.Machine.execGetSensorReading t sensor s
  | .getStateSensorReadings t sensor => Sys2Proof.Machine.execGetStateSensorReadings t sensor s
  | .setNumericEffecterValue t effecter value => Sys2Proof.Machine.execSetNumericEffecterValue t effecter value s
  | .getNumericEffecterValue t effecter => Sys2Proof.Machine.execGetNumericEffecterValue t effecter s
  | .setEventReceiver t eid => Sys2Proof.Machine.execSetEventReceiver t eid s
  | .pollForPlatformEvent t => Sys2Proof.Machine.execPollForPlatformEvent t s
  | .queryDeviceIdentifiers t => Sys2Proof.Machine.execQueryDeviceIdentifiers t s
  | .getFirmwareParameters t => Sys2Proof.Machine.execGetFirmwareParameters t s
  | .requestUpdate t => Sys2Proof.Machine.execRequestUpdate t s
  | .passComponentTable t => Sys2Proof.Machine.execPassComponentTable t s
  | .updateComponent t size => Sys2Proof.Machine.execUpdateComponent t size s
  | .requestFirmwareData t off data => Sys2Proof.Machine.execRequestFirmwareData t off data s
  | .transferComplete t => Sys2Proof.Machine.execTransferComplete t s
  | .verifyComplete t => Sys2Proof.Machine.execVerifyComplete t s
  | .applyComplete t => Sys2Proof.Machine.execApplyComplete t s
  | .activateFirmware t => Sys2Proof.Machine.execActivateFirmware t s
  | .dmcRestartDone t => Sys2Proof.Machine.execDmcRestartDone t s
  | .getStatus t => Sys2Proof.Machine.execGetStatus t s
  | .cancelUpdateComponent t => Sys2Proof.Machine.execCancelUpdateComponent t s
  | .cancelUpdate t => Sys2Proof.Machine.execCancelUpdate t s
  | .secFwLoad t acc => Sys2Proof.Machine.execSecFwLoad t acc s
  | .dbgCtlHalt t acc => Sys2Proof.Machine.execDbgCtlHalt t acc s
  | .dbgCtlSweep t acc => Sys2Proof.Machine.execDbgCtlSweep t acc s
  | .dbgCtlResume t acc => Sys2Proof.Machine.execDbgCtlResume t acc s
  | .dbgCtlEnd t acc => Sys2Proof.Machine.execDbgCtlEnd t acc s
  | .oculusArm t acc => Sys2Proof.Machine.execOculusArm t acc s
  | .digestStepRead t port => Sys2Proof.Machine.execDigestStepRead t port s
  | .modeCtlWrite t lb acc => Sys2Proof.Machine.execModeCtlWrite t lb acc s
  | .reQualify t acc => Sys2Proof.Machine.execReQualify t acc s
  | .pwrReqP0 t acc => Sys2Proof.Machine.execPwrReqP0 t acc s
  | .pwrReqP2 t acc => Sys2Proof.Machine.execPwrReqP2 t acc s
  | .pwrReqP3 t acc => Sys2Proof.Machine.execPwrReqP3 t acc s
  | .pwrReqP4 t acc => Sys2Proof.Machine.execPwrReqP4 t acc s
  | .powerStateReturn t => Sys2Proof.Machine.execPowerStateReturn t s
  | .p4Exit t => Sys2Proof.Machine.execP4Exit t s
  | .pwrCapWrite t acc => Sys2Proof.Machine.execPwrCapWrite t acc s
  | .powerMeasurement t watts => Sys2Proof.Machine.execPowerMeasurement t watts s
  | .powerManagerAdjust t delta => Sys2Proof.Machine.execPowerManagerAdjust t delta s
  | .thermalThrottle t deg stretch => Sys2Proof.Machine.execThermalThrottle t deg stretch s
  | .thermalTrip t deg => Sys2Proof.Machine.execThermalTrip t deg s
  | .coolantHigh t deg => Sys2Proof.Machine.execCoolantHigh t deg s
  | .mainInputRange t millivolts => Sys2Proof.Machine.execMainInputRange t millivolts s
  | .mainEnChange t high => Sys2Proof.Machine.execMainEnChange t high s
  | .auxPowerRise t => Sys2Proof.Machine.execAuxPowerRise t s
  | .bootRomVerify t => Sys2Proof.Machine.execBootRomVerify t s
  | .mainRailsSequenced t bad => Sys2Proof.Machine.execMainRailsSequenced t bad s
  | .pllLock t one dead => Sys2Proof.Machine.execPllLock t one dead s
  | .spareMapApplied t readable => Sys2Proof.Machine.execSpareMapApplied t readable s
  | .startUpSelfTest t failed routers banks slices => Sys2Proof.Machine.execStartUpSelfTest t failed routers banks slices s
  | .memoryTraining t failed => Sys2Proof.Machine.execMemoryTraining t failed s
  | .opticalBringUp t failed => Sys2Proof.Machine.execOpticalBringUp t failed s
  | .flr t => Sys2Proof.Machine.execFlr t s
  | .hotReset t lost => Sys2Proof.Machine.execHotReset t lost s
  | .warmRstN t => Sys2Proof.Machine.execWarmRstN t s
  | .devResetWarm t acc => Sys2Proof.Machine.execDevResetWarm t acc s
  | .devResetCold t acc => Sys2Proof.Machine.execDevResetCold t acc s
  | .noiseSample t src bit => Sys2Proof.Machine.execNoiseSample t src bit s
  | .entropySettled t => Sys2Proof.Machine.execEntropySettled t s
  | .conditionedBlock t raw => Sys2Proof.Machine.execConditionedBlock t raw s
  | .expanderRequest t => Sys2Proof.Machine.execExpanderRequest t s
  | .expanderReseed t => Sys2Proof.Machine.execExpanderReseed t s
  | .trngWordRead t port => Sys2Proof.Machine.execTrngWordRead t port s
  | .trngCtlWrite t acc => Sys2Proof.Machine.execTrngCtlWrite t acc s
  | .belfryEvent t code payload src fail0 fail1 => Sys2Proof.Machine.execBelfryEvent t code payload src fail0 fail1 s
  | .operatingHoursTick t => Sys2Proof.Machine.execOperatingHoursTick t s
  | .belfryRefill t => Sys2Proof.Machine.execBelfryRefill t s
  | .belfryFreezeSet t acc => Sys2Proof.Machine.execBelfryFreezeSet t acc s
  | .belfryFreezeClear t acc => Sys2Proof.Machine.execBelfryFreezeClear t acc s
  | .freezeExpired t => Sys2Proof.Machine.execFreezeExpired t s
  | .belfryIndexWrite t acc => Sys2Proof.Machine.execBelfryIndexWrite t acc s
  | .belfryCleared t => Sys2Proof.Machine.execBelfryCleared t s
  | .intStatClear t acc => Sys2Proof.Machine.execIntStatClear t acc s
  | .intEnableWrite t acc => Sys2Proof.Machine.execIntEnableWrite t acc s
  | .intSet t acc => Sys2Proof.Machine.execIntSet t acc s
  | .intModWrite t acc => Sys2Proof.Machine.execIntModWrite t acc s
  | .receiptModerationTimer t => Sys2Proof.Machine.execReceiptModerationTimer t s
  | .msixUnmask t ctl => Sys2Proof.Machine.execMsixUnmask t ctl s
  | .auxPowerLoss t => Sys2Proof.Machine.execAuxPowerLoss t s
  | .campanileLinkUp t outPort pairB => Sys2Proof.Machine.execCampanileLinkUp t outPort pairB s
  | .hostLinkUp t rate flit => Sys2Proof.Machine.execHostLinkUp t rate flit s
  | .busMasterEnable t => Sys2Proof.Machine.execBusMasterEnable t s
  | .pllSwitch t field => Sys2Proof.Machine.execPllSwitch t field s
  | .regulatorSwitch t => Sys2Proof.Machine.execRegulatorSwitch t s
  | .reQualificationDone t pass => Sys2Proof.Machine.execReQualificationDone t pass s

end Sys2Proof.Machine
end

