-- ==== Sys2Proof/Safety.lean ====
section
/-! DEFINITION. The terms in which claims about the block are stated: what no command changes, the
invariant of every step, completion, and frames. -/

namespace Sys2Proof.Machine

/-- The parts that the block is made of are all there, and memory is in its canonical form: 720 sites (R7), 32
memory ports (R24), 16 noise sources (R376), 64 MSI-X vectors (R425). -/
def State.whole (s : State) : Bool :=
  Memory.wf s.mem && s.sites.length == 720 && s.mports.length == 32 && s.trng.srcs.length == 16 &&
    s.intr.table.length == 64

/-- What no command changes beyond the time at which it lands: the cycle, the commands still waiting, what is fused or
mask-programmed or held in the management die for life (R345, R347, R293), the operating hours, which their tick alone
counts (R389), and whether the block is whole. -/
structure Frozen where
  now : Nat
  pending : List Instr
  serial : Nat
  romDigest : List Byte
  rootKey : List Byte
  spareCols : List (List Nat)
  unused : List Nat
  attestKey : List Byte
  cert : List Byte
  hours : Nat
  whole : Bool
  deriving DecidableEq, Repr

/-- The frozen part of a state. -/
def State.frozen (s : State) : Frozen :=
  ⟨s.now, s.pending, s.fuse.serial, s.fuse.romDigest, s.fuse.rootKey, s.fuse.spareCols, s.fuse.unused,
    s.mram.attestKey, s.mram.cert, s.mram.hours, s.whole⟩

/-- Every register outside a list is unchanged. -/
def State.keeps (s u : State) (rs : List Reg) : Prop := ∀ r : Reg, r ∉ rs → u.reg r = s.reg r

/-- The registers that software sets and nothing else follows: a write acts on their fields alone. -/
def plainRegs : List Reg :=
  [.SEL_CORE, .ANNEAL_SEL, .STRM_SEL, .STRM_ROM_SEL, .SEL_MPORT, .SEL_LANE, .TRNG_SEL, .BELFRY_SEL_AREA, .SPARE_SEL]

/-- What a field of a register holds after a write that found `old` in it (R11, R13, R418): an RW field takes the bits of
the access at its place when the access covers it and its value is legal, and every other field keeps its value. -/
def fieldAfter (q : Reg) (a : RegAcc) (f : FieldSpec) (old : Nat) : Nat :=
  if f.acc = .rw ∧ accCovers a f.lo f.w ∧ legalValue q f.lo (bitsOf (accBits a) f.lo f.w) then bitsOf (accBits a) f.lo f.w
  else old

/-- A write has acted on the fields of one register and on nothing else; bits in no field are as they were. -/
def State.fieldsWritten (s u : State) (q : Reg) (a : RegAcc) : Prop :=
  u = s.setReg q (u.reg q) ∧
  (∀ f ∈ q.layout, bitsOf (u.reg q).toNat f.lo f.w = fieldAfter q a f (bitsOf (s.reg q).toNat f.lo f.w)) ∧
  ∀ i < 64, (∀ f ∈ q.layout, i < f.lo ∨ f.lo + f.w ≤ i) → (u.reg q).getLsbD i = (s.reg q).getLsbD i

/-! ## Events and configuration (R36, R93, R391, R393, R424) -/

/-- The registers that an event may change: interrupt causes and counts, and what Belfry and the journal show. -/
def eventRegs : List Reg :=
  [.INT_STAT, .INT_COUNT, .BELFRY_STAT, .BELFRY_TOTAL, .BELFRY_TALLY, .BELFRY_PENDING, .BELFRY_AT_LIMIT, .BELFRY_REC0,
    .BELFRY_REC1, .BELFRY_REC2, .BELFRY_REC3, .BELFRY_REC_STAT, .BELFRY_REC0_MGMT, .BELFRY_REC1_MGMT, .BELFRY_REC2_MGMT,
    .BELFRY_REC3_MGMT, .BELFRY_REC_STAT_MGMT, .JRNL_NEXT_FSEQ, .JRNL_STAT]

/-- Events have been recorded, and beside them only the registers of a list may differ: interrupts, Belfry, the journal, the
management alert, and what left the block. -/
def State.onlyEvents (s u : State) (rs : List Reg) : Prop :=
  State.keeps s u (eventRegs ++ rs) ∧
  u = { s with
    regs := u.regs
    hwSets := u.hwSets
    intr := { s.intr with pba := u.intr.pba }
    emitted := u.emitted
    mgmt := { s.mgmt with alertPending := u.mgmt.alertPending, events := u.mgmt.events }
    bel := { s.bel with
      buckets := u.bel.buckets, full := u.bel.full, refillTick := u.bel.refillTick, pending := u.bel.pending
      dropped := u.bel.dropped, lostCounted := u.bel.lostCounted, wrote := u.bel.wrote }
    mram := { s.mram with
      first0 := u.mram.first0, first1 := u.mram.first1, last0 := u.mram.last0, last1 := u.mram.last1
      fseq := u.mram.fseq }
    jrnl := { s.jrnl with
      frames := u.jrnl.frames, j0 := u.jrnl.j0, j1 := u.jrnl.j1, segFirst := u.jrnl.segFirst
      segBytes := u.jrnl.segBytes, configs := u.jrnl.configs } }

/-- A configuration register, as it stands after a write, is noted with the ⟨S, φ⟩ of the write (R93). -/
def State.noted (s u : State) (r : Reg) : Prop :=
  u.jrnl.configs = ⟨r.offset, (u.reg r).toNat, s.stepNow, s.phi⟩ :: s.jrnl.configs

/-- A write to a configuration register: its fields follow the access, the change is noted and recorded, and nothing else
changes. -/
def State.configWritten (s u : State) (r : Reg) (a : RegAcc) : Prop :=
  State.onlyEvents s u [r] ∧ State.noted s u r ∧
  ∀ f ∈ r.layout, bitsOf (u.reg r).toNat f.lo f.w = fieldAfter r a f (bitsOf (s.reg r).toNat f.lo f.w)

/-! ## Debug actions (R356 to R358) -/

/-- What a control action does to a device that is not halted and not in P2: 3 END closes the session, 4 HALT and 5 SWEEP
ask for a halt at the next sweep boundary, which HALT finds at once when a sweep ends in its own cycle, 6 RESUME takes
back what was asked. -/
def State.debugEffect (s : State) : Nat → State
  | 3 => (((s.setReg .DBG_LEVEL 0).setFlag Fld.DBG_STAT_HALT_PENDING false).setReg .DBG_CTL 0).record 0x8002 0
  | 4 =>
    let v := ((s.setFlag Fld.DBG_CTL_RESUME false).setFlag Fld.DBG_STAT_HALT_PENDING true).swSet Fld.DBG_CTL_HALT
    if v.atBoundary then ({ v with ex := { v.ex with sweepOn := false } } : State).haltNow else v
  | 5 => (s.swSet Fld.DBG_CTL_SWEEP).setFlag Fld.DBG_STAT_HALT_PENDING true
  | 6 => ((s.setFlag Fld.DBG_STAT_HALT_PENDING false).setFlag Fld.DBG_CTL_HALT false).setFlag Fld.DBG_CTL_SWEEP false
  | _ => s

/-- The DBG_CTL bit of an action, and the only bit of the register that an access sets. -/
def actionField : Nat → Field
  | 3 => Fld.DBG_CTL_END
  | 4 => Fld.DBG_CTL_HALT
  | 5 => Fld.DBG_CTL_SWEEP
  | _ => Fld.DBG_CTL_RESUME

/-- An access writes 1 to the bit of one action and to no other. -/
def asksAction (a : RegAcc) (k : Nat) : Bool := [3, 4, 5, 6].all fun j => accSets a (actionField j) == (j == k)

/-! ## Orders that have ended (R268, R269) -/

/-- An order has ended with a receipt of a KIND, code and payload, its receipt not yet posted by that. -/
def State.finished (u : State) (o : Order) (kind code payload : Nat) : Prop :=
  ∃ x r n, u.order o.seq = some x ∧ x.phase = .done ∧ x.raw = o.raw ∧ x.final = some (r, n) ∧
    x.finalPosted = o.finalPosted ∧ r.seq = o.seq ∧ r.kind = kind ∧ r.code = code ∧ r.payload = payload % 2 ^ 64 ∧
    r.opcode = o.op

end Sys2Proof.Machine
end

