-- ==== Sys2Proof/WellFormed.lean ====
section
/-! DEFINITION. Well-formed commands: every operand names a unit that the device has (R7, R24, R259, R318, R323,
R425) and lies in the width its field has. -/

namespace Sys2Proof

open Machine

/-- Lane pairs of an optical port (R323, R327, R329). -/
def pairsOf : Nat → Nat
  | 0 => 18
  | 1 | 2 => 5
  | 3 | 4 => 2
  | _ => 0

/-- A byte range lies in the part behind a memory port (R229). -/
def partHolds (port addr len : Nat) : Bool :=
  decide (port < 32 ∧ addr + len ≤ if port < 16 then 19327352832 else 34359738368)

/-- A fault of a Vault names one of a bank's nine slices, one of its 8 columns and one of 10 limbs (R147, R150). -/
def sliceOk : CoreFault → Bool
  | .parity _ slice col limb => decide (slice < 9 ∧ col < 8 ∧ limb < 10)
  | .ok | .residue | .corrected _ | .uncorrectable _ | .shadow _ => true

/-- A vector of the MSI-X table (R427). -/
def msixOk : MsixCtl → Bool
  | .vector v _ => decide (v < 64)
  | .function _ | .enable _ => true

/-- The tiles that checks name stand behind the 32 memory ports. -/
def tilesOk (l : List TileCheck) : Bool := l.all fun y => decide (y.port < 32 ∧ y.tile < 2 ^ 40)

/-- A command whose operands are in range. -/
def Instr.wf : Instr → Bool
  | .intakeSlotWrite _ slot off data => decide (slot < 4096 ∧ off + data.length ≤ 4096)
  | .sealTimeout _ slot => decide (slot < 4096)
  | .orderAcceptance _ x => decide (x.num < 4096) && tilesOk x.tiles
  | .gather _ _ f => sliceOk f
  | .mac _ _ f => sliceOk f
  | .drain _ _ f => sliceOk f
  | .islandMonitor _ site _ => decide (site < 720)
  | .hopInject _ _ site => decide (site < 720)
  | .hopDelivery _ _ parity => parity.all (· < 720)
  | .freeSlotPacket _ _ site to_ x => decide (site < 720) && to_.sites.all (· < 720) && x.parity.all (· < 720)
  | .creditReturn _ site dir => decide (site < 720 ∧ dir < 4)
  | .freeSlotAck _ _ x => decide (x.site < 720) && x.parity.all (· < 720)
  | .mportRequest _ port _ write addr len data => partHolds port addr (if write then data.length else len)
  | .mportAdmit _ port faults => decide (port < 32) && tilesOk faults
  | .mportReadDelivery _ port faults => decide (port < 32) && tilesOk faults
  | .mportWriteAck _ port => decide (port < 32)
  | .mergeEntryClose _ port => decide (port < 32)
  | .scrubRead _ port _ => decide (port < 32)
  | .atomicAdd _ port addr _ faults => partHolds port addr 8 && tilesOk faults
  | .freeSlotRequest _ port write addr len data faults =>
    partHolds port addr (if write then data.length else len) && tilesOk faults
  | .journalFrameSend _ port => decide (port < 2)
  | .journalAck _ port _ => decide (port < 2)
  | .journalCredit _ port _ => decide (port < 2)
  | .journalLinkUp _ port => decide (port < 2)
  | .trainReply _ port _ => decide (port < 2)
  | .replay _ port _ => decide (port < 2)
  | .journalAckTimeout _ port => decide (port < 2)
  | .journalLossOfLight _ port => decide (port < 2)
  | .hostReadCompletion _ _ _ _ err => decide (err < 5)
  | .bar0BadAccess _ _ _ off => decide (off < 67108864)
  | .registerWrite _ off _ => decide (off < 67108864) && off % 8 == 0
  | .laneFailed _ port lane => decide (lane < pairsOf port)
  | .i3cDynamicAddress _ _ addr => decide (addr < 128)
  | .setEndpointId _ eid => decide (eid < 256)
  | .slotWrite _ slot off data => decide (slot < 4096 ∧ off + data.length ≤ 4096)
  | .quote _ nonce => nonce.length == 32
  | .keyList _ slot => decide (slot < 16)
  | .setTid _ tid => decide (tid < 256)
  | .setEventReceiver _ eid => decide (eid < 256)
  | .powerManagerAdjust _ delta => decide (-16 ≤ delta ∧ delta ≤ 16)
  | .thermalThrottle _ _ stretch => decide (256 ≤ stretch ∧ stretch ≤ 1024)
  | .pllLock _ one dead => one.all (· < 6) && dead.all (· < 6)
  | .startUpSelfTest _ failed routers banks slices => failed.all (· < 720) && routers.all (· < 720) && banks.all (·.1 < 720) &&
    slices.all fun x => decide (x.1 < 720 ∧ x.2.2 < 9)
  | .memoryTraining _ failed => failed.all (· < 32)
  | .opticalBringUp _ failed => failed.all fun f => decide (f.2 < pairsOf f.1)
  | .noiseSample _ src _ => decide (src < 16)
  | .conditionedBlock _ raw => raw.length == 64
  | .belfryEvent _ code _ _ _ _ => decide (code < 65536)
  | .msixUnmask _ ctl => msixOk ctl
  | .hostLinkUp _ rate _ => decide (1 ≤ rate ∧ rate ≤ 3)
  | .pllSwitch _ field => decide (field < 6)
  | .accepted _ _ => true
  | .receiptPost _ _ => true
  | .receiptConsumed _ _ => true
  | .intakeEnable _ _ => true
  | .intakeResume _ _ => true
  | .forceOpen _ _ => true
  | .intakeConfigWrite _ _ _ => true
  | .durabilityPolicyWrite _ _ => true
  | .planLoad _ x => tilesOk x.tiles
  | .dataBind _ _ => true
  | .seedSet _ _ => true
  | .run _ _ => true
  | .checkpoint _ _ => true
  | .restore _ _ => true
  | .modeSet _ _ => true
  | .rowSample _ _ => true
  | .quiesce _ _ => true
  | .probeChallenge _ _ => true
  | .probeToken _ _ => true
  | .probeEnd _ _ => true
  | .probeHalt _ _ => true
  | .probeSweep _ _ => true
  | .probeResume _ _ => true
  | .stateWrite _ _ => true
  | .probeQuote _ _ => true
  | .markFrame _ _ _ => true
  | .markApply _ => true
  | .phaseFrame _ _ _ => true
  | .readyFrame _ _ => true
  | .waitFrame _ _ _ => true
  | .markGenerate _ => true
  | .stepAdvance _ _ => true
  | .waitSend _ => true
  | .barrierSlow _ => true
  | .referenceLost _ => true
  | .campanileLossOfLight _ => true
  | .holdoverMark _ => true
  | .downstreamDown _ => true
  | .campanileFailover _ _ => true
  | .stepRetrain _ _ => true
  | .echoReceived _ _ _ _ => true
  | .echoReturn _ => true
  | .stepConfigWrite _ _ _ => true
  | .stepStart _ => true
  | .phaseBegin _ => true
  | .update _ _ => true
  | .writeback _ _ => true
  | .reduce _ _ _ => true
  | .langevin _ _ => true
  | .group _ => true
  | .swap _ => true
  | .anneal _ _ => true
  | .sync _ node x => decide (node < 4816) && x.parity.all (· < 720)
  | .endEntry _ _ => true
  | .slotEnd _ => true
  | .barrierRelease _ => true
  | .coreWatchdog _ _ => true
  | .boundaryActions _ x => x.repairs.all (· < 8)
  | .contextComplete _ => true
  | .cvuArm _ _ => true
  | .jrnlRetrain _ _ => true
  | .recovery _ => true
  | .bar2Read _ _ _ faults => tilesOk faults
  | .bar2Write _ _ x => tilesOk x.faults
  | .hostLinkRecovered _ => true
  | .laneRetrain _ _ => true
  | .getEndpointId _ => true
  | .getMctpVersionSupport _ => true
  | .getMessageTypeSupport _ => true
  | .getVendorMessageSupport _ => true
  | .regRead _ _ => true
  | .regWrite _ _ _ => true
  | .receiptGet _ _ => true
  | .heartbeat _ => true
  | .mgmtWdogExpired _ => true
  | .mgmtWdogWrite _ _ => true
  | .mgmtStatRead _ => true
  | .challenge _ => true
  | .tokenPut _ _ _ => true
  | .tokenSubmit _ => true
  | .quoteFormed _ => true
  | .quoteRead _ _ => true
  | .debugCtlEnd _ => true
  | .debugCtlHalt _ => true
  | .debugCtlSweep _ => true
  | .debugCtlResume _ => true
  | .certRead _ _ => true
  | .getTid _ => true
  | .getPldmVersion _ _ => true
  | .getPldmTypes _ => true
  | .getPldmCommands _ _ => true
  | .getPdrRepositoryInfo _ => true
  | .getPdr _ _ => true
  | .getSensorReading _ _ => true
  | .getStateSensorReadings _ _ => true
  | .setNumericEffecterValue _ _ _ => true
  | .getNumericEffecterValue _ _ => true
  | .pollForPlatformEvent _ => true
  | .queryDeviceIdentifiers _ => true
  | .getFirmwareParameters _ => true
  | .requestUpdate _ => true
  | .passComponentTable _ => true
  | .updateComponent _ _ => true
  | .requestFirmwareData _ _ _ => true
  | .transferComplete _ => true
  | .verifyComplete _ => true
  | .applyComplete _ => true
  | .activateFirmware _ => true
  | .dmcRestartDone _ => true
  | .getStatus _ => true
  | .cancelUpdateComponent _ => true
  | .cancelUpdate _ => true
  | .secFwLoad _ _ => true
  | .dbgCtlHalt _ _ => true
  | .dbgCtlSweep _ _ => true
  | .dbgCtlResume _ _ => true
  | .dbgCtlEnd _ _ => true
  | .oculusArm _ _ => true
  | .digestStepRead _ _ => true
  | .modeCtlWrite _ _ _ => true
  | .reQualify _ _ => true
  | .pwrReqP0 _ _ => true
  | .pwrReqP2 _ _ => true
  | .pwrReqP3 _ _ => true
  | .pwrReqP4 _ _ => true
  | .powerStateReturn _ => true
  | .p4Exit _ => true
  | .pwrCapWrite _ _ => true
  | .powerMeasurement _ _ => true
  | .thermalTrip _ _ => true
  | .coolantHigh _ _ => true
  | .mainInputRange _ _ => true
  | .mainEnChange _ _ => true
  | .auxPowerRise _ => true
  | .bootRomVerify _ => true
  | .mainRailsSequenced _ _ => true
  | .spareMapApplied _ _ => true
  | .flr _ => true
  | .hotReset _ _ => true
  | .warmRstN _ => true
  | .devResetWarm _ _ => true
  | .devResetCold _ _ => true
  | .entropySettled _ => true
  | .expanderRequest _ => true
  | .expanderReseed _ => true
  | .trngWordRead _ _ => true
  | .trngCtlWrite _ _ => true
  | .operatingHoursTick _ => true
  | .belfryRefill _ => true
  | .belfryFreezeSet _ _ => true
  | .belfryFreezeClear _ _ => true
  | .freezeExpired _ => true
  | .belfryIndexWrite _ _ => true
  | .belfryCleared _ => true
  | .intStatClear _ _ => true
  | .intEnableWrite _ _ => true
  | .intSet _ _ => true
  | .intModWrite _ _ => true
  | .receiptModerationTimer _ => true
  | .auxPowerLoss _ => true
  | .campanileLinkUp _ _ _ => true
  | .busMasterEnable _ => true
  | .regulatorSwitch _ => true
  | .reQualificationDone _ _ => true

end Sys2Proof
end

