-- ==== Sys2Proof/Certificates/Slice0/Obligations.lean ====
section
/-! DEFINITION. The statements about the block, for the provers. A command that lands at cycle `t` acts on
`s.tick t`, in which time alone has passed (log 1). -/

open Sys2Proof Sys2Proof.Machine

/-- A step takes the command at the front of the queue and runs it on the state with the queue's rest; with nothing
pending the block idles, which is the model's choice (log 2). -/
def Obligations.StepRunsCommand : Prop :=
  (∀ (c : Instr) (rest : List Instr) (s : State),
    step { s with pending := c :: rest } = exec c { s with pending := rest }) ∧
  ∀ s : State, s.pending = [] → step s = .next s

/-- Right after reset every register holds its value of R428's tables, and the block stands in stage 0 of a cold reset
with nothing in hand (R402, R408, R427). Values the spec does not give are the model's choice (logs 3 to 6). -/
def Obligations.ResetValues : Prop :=
  (∀ r : Reg, State.reset.reg r = r.resetValue) ∧ State.reset.pending = [] ∧ State.reset.emitted = [] ∧
  State.reset.mem = [] ∧ State.reset.fld Fld.DEV_BOOT_STAGE = 0 ∧ State.reset.boot.resetting = some .cold ∧
  State.reset.pwr.rails = false ∧ State.reset.stept.run = none ∧ State.reset.intake.slots = [] ∧
  State.reset.intake.orders = [] ∧ State.reset.jrnl.frames = [] ∧ State.reset.trng.drbg = none ∧
  State.reset.intr.pba = 0 ∧ (∀ e ∈ State.reset.intr.table, e.masked = true) ∧
  State.reset.mram.first0 = [] ∧ State.reset.mram.last0 = [] ∧ State.reset.bel.pending = []

/-- The block right after reset is whole: memory in canonical form, 720 sites (R7), 32 memory ports (R24), 16 noise
sources (R376), 64 MSI-X vectors (R427). -/
def Obligations.ResetIsWhole : Prop := State.reset.whole = true

/-- Every step keeps the block whole: memory in its canonical form, 720 sites (R7), 32 memory ports (R24), 16 noise
sources (R376) and 64 MSI-X vectors (R427). -/
def Obligations.StepKeepsWhole : Prop :=
  ∀ s s' : State, s.whole = true → step s = .next s' → s'.whole = true

/-- What no command changes, whatever it is: the commands that wait behind it, and what fuses, the boot ROM and the
management die hold for life (R345, R293, R369); time never runs back. -/
def Obligations.StepKeepsIdentity : Prop :=
  ∀ (c : Instr) (rest : List Instr) (s s' : State), s.whole = true → s.pending = c :: rest → step s = .next s' →
    s'.pending = rest ∧ s.now ≤ s'.now ∧ s'.fuse.serial = s.fuse.serial ∧ s'.fuse.romDigest = s.fuse.romDigest ∧
    s'.fuse.rootKey = s.fuse.rootKey ∧ s'.fuse.spareCols = s.fuse.spareCols ∧ s'.fuse.unused = s.fuse.unused ∧
    s'.mram.attestKey = s.mram.attestKey ∧ s'.mram.cert = s.mram.cert

/-- Operating hours (R389): the tick of 1/16 s counts while auxiliary power is present; no other command changes them,
a reset included. -/
def Obligations.HoursCountTicksAlone : Prop :=
  (∀ (s : State) (t : Nat), s.pwr.auxGood = true → s.mram.hours + 1 < 2 ^ 40 →
    ∃ u, exec (.operatingHoursTick t) s = .next u ∧ u.mram.hours = s.mram.hours + 1) ∧
  ∀ (c : Instr) (s u : State), s.whole = true → (∀ t, c ≠ .operatingHoursTick t) → exec c s = .next u →
    u.mram.hours = s.mram.hours

/-- A write to a register that no further rule governs (R11, R13, R418): the writing port's copy (R422) takes the legal
fields that the access covers, and nothing else changes. -/
def Obligations.PlainRegisterWrite : Prop :=
  (∀ r ∈ plainRegs, ∀ (t : Nat) (a : RegAcc) (s : State), s.reachOff a.port r.offset = true →
    ∃ u, exec (.registerWrite t r.offset a) s = .next u ∧ State.fieldsWritten (s.tick t) u (Reg.at a.port r) a) ∧
  ∀ (t : Nat) (a : RegAcc) (s : State), s.reachOff a.port Reg.HOST_WIN.offset = true →
    ∃ u, exec (.registerWrite t Reg.HOST_WIN.offset a) s = .next u ∧ State.configWritten (s.tick t) u .HOST_WIN a

/-- Writes to RO fields and unassigned offsets are ignored (R11, R419); a bad access is counted with its offset and port, and
a read returns 0 (R418). -/
def Obligations.IgnoredAndBadAccesses : Prop :=
  ((∀ (r : Reg) (t : Nat) (a : RegAcc) (s : State), r ∈ Reg.all → (∀ f ∈ r.layout, f.acc = .ro) →
     (r.offset < 0xD0000 ∨ 0xE0000 ≤ r.offset) → s.reachOff a.port r.offset = true →
     (inStepTime r.offset = false → exec (.registerWrite t r.offset a) s = .next (s.tick t)) ∧
     (inStepTime r.offset = true → ∃ u, exec (.registerWrite t r.offset a) s = .next u ∧
       State.onlyEvents (s.tick t) u [] ∧ State.noted (s.tick t) u r)) ∧
   ∀ (off t : Nat) (a : RegAcc) (s : State), Reg.ofOffset off = none → off % 8 = 0 →
     (off < 0xC8000 ∨ 0xC8400 ≤ off) → (off < 0xD0000 ∨ 0xE0000 ≤ off) → s.reachOff a.port off = true →
     (inStepTime off = false → exec (.registerWrite t off a) s = .next (s.tick t)) ∧
     (inStepTime off = true → ∃ u, exec (.registerWrite t off a) s = .next u ∧ State.onlyEvents (s.tick t) u [])) ∧
  (∀ (t : Nat) (p : Port) (off : Nat) (s : State), off < 2 ^ 26 → s.reachOff p off = true →
     let counted := (((s.tick t).incFld Fld.DEV_ACCESS_BAD_ACCESSES).setFld Fld.DEV_ACCESS_LAST_OFFSET off).setFlag
       Fld.DEV_ACCESS_LAST_PORT (p == .mgmt)
     exec (.bar0BadAccess t p true off) s = .next counted ∧
     exec (.bar0BadAccess t p false off) s = .next (counted.emit
       (match p with | .host => .readData 0 false | .mgmt => .mgmtReply 0 (natLe 0 8))) ∧
     (s.fld Fld.DEV_ACCESS_BAD_ACCESSES < 2 ^ 32 - 1 →
       counted.fld Fld.DEV_ACCESS_BAD_ACCESSES = s.fld Fld.DEV_ACCESS_BAD_ACCESSES + 1) ∧
     counted.fld Fld.DEV_ACCESS_LAST_OFFSET = off)

/-- The management register commands (R332, R333, R404): what they answer and what they change. -/
def Obligations.ManagementRegisterCommands : Prop :=
  ∀ (t off : Nat) (v : W64) (s : State), s.mctpUp = true →
    (s.dmcUp = true → ∀ r ∈ plainRegs, s.reachOff .mgmt r.offset = true →
      exec (.regRead t r.offset) s =
        .next ((s.tick t).emit (.mgmtReply 0 (natLe (s.reg (Reg.at .mgmt r)).toNat 8))) ∧
      ∃ u, exec (.regWrite t r.offset v) s = .next u ∧
        State.fieldsWritten ((s.tick t).emit (.mgmtReply 0 [])) u (Reg.at .mgmt r) ⟨.mgmt, .whole, v⟩) ∧
    (s.dmcUp = true → 2 ^ 26 ≤ off → exec (.regRead t off) s = .next ((s.tick t).emit (.mgmtReply 1 [])) ∧
      exec (.regWrite t off v) s = .next ((s.tick t).emit (.mgmtReply 1 []))) ∧
    (s.dmcUp = true → off < 2 ^ 26 → off % 8 = 0 → s.reachOff .mgmt off = false →
      exec (.regRead t off) s = .next ((s.tick t).emit (.mgmtReply 3 [])) ∧
      exec (.regWrite t off v) s = .next ((s.tick t).emit (.mgmtReply 3 []))) ∧
    (s.dmcUp = false → exec (.regWrite t off v) s = .next ((s.tick t).emit (.mgmtReply 3 [])))

/-- INT_STAT is W1C (R11, R427); a write to INT_ENABLE takes the bits written, and messages follow only bits newly set over
a cause (R425). -/
def Obligations.IntStatAndEnable : Prop :=
  (∀ (t : Nat) (a : RegAcc) (s : State), s.reach a.port .INT_STAT = true →
     let kept := (s.tick t).hwMask .INT_STAT
     ∃ u, exec (.intStatClear t a) s = .next u ∧ State.keeps s u [.INT_STAT, .INT_COUNT] ∧
       u = { s.tick t with regs := u.regs, intr := { s.intr with pba := u.intr.pba }, emitted := u.emitted } ∧
       (∀ i < 64, (u.reg .INT_STAT).getLsbD i =
         ((s.reg .INT_STAT).getLsbD i && !(decide (i < 16) && (accBits a).testBit i && !kept.testBit i))) ∧
       (kept = 0 → u = (s.tick t).setReg .INT_STAT (u.reg .INT_STAT))) ∧
  (∀ (t n : Nat) (a : RegAcc) (s : State), s.reach a.port .INT_ENABLE = true →
     accField a Fld.INT_ENABLE_ENABLE = some n →
     ∃ u, exec (.intEnableWrite t a) s = .next u ∧ u.fld Fld.INT_ENABLE_ENABLE = n ∧
       State.onlyEvents (s.tick t) u [.INT_ENABLE] ∧ State.noted (s.tick t) u .INT_ENABLE ∧
       ∀ i e, i < 16 → n.testBit i = true → (s.fld Fld.INT_ENABLE_ENABLE).testBit i = false →
         (s.fld Fld.INT_STAT_CAUSE).testBit i = true → s.intr.enable = true → s.intr.table[i]? = some e →
         e.masked = false → s.intr.functionMask = false → .msix i e.addr e.data ∈ u.emitted)

/-- INT_SET sets causes as hardware events would (R427), and what a cause bit that goes from 0 to 1 while enabled does (R425). -/
def Obligations.IntSetAndMessages : Prop :=
  (∀ (t n : Nat) (a : RegAcc) (s : State), s.reach a.port .INT_SET = true → accField a Fld.INT_SET_SET = some n →
     ∃ u, exec (.intSet t a) s = .next u ∧ u.fld Fld.INT_STAT_CAUSE = s.fld Fld.INT_STAT_CAUSE ||| n ∧
       State.keeps s u [.INT_STAT, .INT_COUNT] ∧
       u = { s.tick t with regs := u.regs, intr := { s.intr with pba := u.intr.pba }, emitted := u.emitted,
                           hwSets := u.hwSets } ∧
       (∀ i < 16, n.testBit i = true → (u.hwMask .INT_STAT).testBit i = true) ∧
       (s.fld Fld.INT_STAT_CAUSE ||| n = s.fld Fld.INT_STAT_CAUSE → u = { s.tick t with hwSets := u.hwSets })) ∧
  (∀ (t i : Nat) (a : RegAcc) (s : State) (e : Msix), i < 16 → s.reach a.port .INT_SET = true →
     accField a Fld.INT_SET_SET = some (2 ^ i) → (s.fld Fld.INT_STAT_CAUSE).testBit i = false →
     (s.fld Fld.INT_ENABLE_ENABLE).testBit i = true → s.intr.table[i]? = some e →
     let set := ((s.tick t).noteHw .INT_STAT (2 ^ i)).setFld Fld.INT_STAT_CAUSE (s.fld Fld.INT_STAT_CAUSE ||| 2 ^ i)
     exec (.intSet t a) s = .next
       (if s.intr.enable then
         if e.masked || s.intr.functionMask then
           ({ set with intr := { s.intr with pba := s.intr.pba ||| 2 ^ i } }).incFld Fld.INT_COUNT_PENDED
         else (set.emit (.msix i e.addr e.data)).incFld Fld.INT_COUNT_SENT
       else set))

/-- A write to INT_MOD acts on its fields alone; the release of R426 by the timer sets cause bit 0, returns U to 0 and stops
the timer. -/
def Obligations.ReceiptModeration : Prop :=
  (∀ (t : Nat) (a : RegAcc) (s : State), s.reach a.port .INT_MOD = true →
     ∃ u, exec (.intModWrite t a) s = .next u ∧ State.configWritten (s.tick t) u .INT_MOD a ∧ u.intr.u = s.intr.u ∧
       u.intr.timer = s.intr.timer ∧ u.intr.modCount = s.intr.modCount ∧ u.intr.modTime = s.intr.modTime) ∧
  (∀ (t c : Nat) (s : State), s.cUp = true → s.intr.u ≠ 0 → s.intr.timer = some c → s.intr.modTime ≠ 0 →
     (c + s.intr.modTime ≤ max s.now t → exec (.receiptModerationTimer t) s =
       .next (({ s.tick t with intr := { s.intr with
         u := 0
         timer := none
         releasedAt := some (c + s.intr.modTime) } }).setCause 0)) ∧
     (max s.now t < c + s.intr.modTime → exec (.receiptModerationTimer t) s = .next (s.tick t)))

/-- Masks and pending messages (R425): a pending message is sent on unmasking. -/
def Obligations.MsixUnmask : Prop :=
  (∀ (t v : Nat) (e : Msix) (s : State), s.cUp = true → v < 16 → s.intr.table[v]? = some e →
    s.intr.enable = true → s.intr.functionMask = false → s.intr.pba.testBit v = true →
    (∀ i < 16, i ≠ v → s.intr.pba.testBit i = true → s.intr.table[i]?.all (·.masked) = true) →
    exec (.msixUnmask t (.vector v false)) s = .next
      ((({ s.tick t with intr := { s.intr with table := s.intr.table.set v { e with masked := false },
                                               pba := s.intr.pba - 2 ^ v } }).emit (.msix v e.addr e.data)).incFld
        Fld.INT_COUNT_SENT)) ∧
  (∀ (t v : Nat) (e : Msix) (s : State), s.cUp = true → s.intr.table[v]? = some e → v < 64 → s.intr.pba = 0 →
    exec (.msixUnmask t (.vector v true)) s = .next
      { s.tick t with intr := { s.intr with table := s.intr.table.set v { e with masked := true } } }) ∧
  (∀ (t : Nat) (s : State), s.cUp = true → exec (.msixUnmask t (.enable false)) s = .next
      { s.tick t with intr := { s.intr with enable := false, pba := 0 } }) ∧
  (∀ (t : Nat) (s : State), s.cUp = true → exec (.msixUnmask t (.function true)) s = .next
      { s.tick t with intr := { s.intr with functionMask := true } }) ∧
  ∀ (t v : Nat) (m : Bool) (s : State), 64 ≤ v → exec (.msixUnmask t (.vector v m)) s = .fault .noSuchUnit

/-- What an event may change (R391, R393, R398, R424). -/
def Obligations.EventFrame : Prop :=
  ∀ (t code payload : Nat) (src : Source) (f0 f1 : Bool) (s : State),
    (s.pwr.auxGood = true → ∃ u, exec (.belfryEvent t code payload src f0 f1) s = .next u ∧
      State.onlyEvents (s.tick t) u [] ∧ u.jrnl.configs = s.jrnl.configs) ∧
    (s.pwr.auxGood = false → exec (.belfryEvent t code payload src f0 f1) s = .next (s.tick t))

/-- The codes of R392 are never rate-limited and use no token. -/
def Obligations.UnlimitedCodesRecorded : Prop :=
  ∀ code ∈ [0x8001, 0x8002, 0x8008, 0x8009, 0x800A, 0x9001, 0x9003, 0x9004],
  ∀ (t payload : Nat) (src : Source) (s : State), s.pwr.auxGood = true →
    let v := (s.tick t).refillFirst
    v.logLost = false → v.bel.pending.length < 256 →
    ∃ u, exec (.belfryEvent t code payload src false false) s = .next u ∧ u.bel.buckets = v.bel.buckets ∧
      let r := v.recordBytes code payload 0 false src
      if v.flag Fld.BELFRY_CTL_FREEZE || v.sec.dmcDown then
        u.bel.pending = placeRecord v.wroteNow v.bel.pending r ∧ u.mram = v.mram
      else
        u.mram.last0 = (if v.flag Fld.BELFRY_STAT_COPY0_FAILED then v.mram.last0
          else ringPush 65536 v.wroteNow v.mram.last0 r) ∧
        u.mram.last1 = (if v.flag Fld.BELFRY_STAT_COPY1_FAILED then v.mram.last1
          else ringPush 65536 v.wroteNow v.mram.last1 r) ∧
        u.bel.pending = v.bel.pending

/-- Events with and without a token (R391). -/
def Obligations.EventsSpendTokens : Prop :=
  ∀ (t code payload : Nat) (src : Source) (s : State), code ∉ unlimitedCodes → s.pwr.auxGood = true →
    let v := (s.tick t).refillFirst
    v.logLost = false → v.flag Fld.BELFRY_CTL_FREEZE = false → v.sec.dmcDown = false →
    v.fld Fld.BELFRY_TOTAL_TOTAL + 1 < 2 ^ Fld.BELFRY_TOTAL_TOTAL.w →
    let b := v.bucket code
    let r := v.recordBytes code payload b.suppressed false src
    ∃ u, exec (.belfryEvent t code payload src false false) s = .next u ∧
      (∀ c, c ≠ code → u.bucket c = v.bucket c) ∧
      if b.tokens = 0 then
        u.bucket code = { b with suppressed := b.suppressed + 1, lastTick := v.mram.hours } ∧
        u.mram = v.mram ∧ u.jrnl = v.jrnl ∧ u.mgmt = v.mgmt ∧ u.bel.pending = v.bel.pending ∧
        State.keeps v u [.INT_STAT, .INT_COUNT]
      else
        u.bucket code = { b with tokens := b.tokens - 1, suppressed := 0 } ∧
        u.fld Fld.BELFRY_TOTAL_TOTAL = v.fld Fld.BELFRY_TOTAL_TOTAL + 1 ∧
        u.mram.last0 = (if v.flag Fld.BELFRY_STAT_COPY0_FAILED then v.mram.last0
          else ringPush 65536 v.wroteNow v.mram.last0 r) ∧
        u.mram.last1 = (if v.flag Fld.BELFRY_STAT_COPY1_FAILED then v.mram.last1
          else ringPush 65536 v.wroteNow v.mram.last1 r)

/-- A refill (R391): each bucket that is not full gains one token; at most BURST tokens in any. -/
def Obligations.RefillBuckets : Prop :=
  (∀ (t : Nat) (s : State), s.pwr.auxGood = true →
    s.bel.refillTick + s.fld Fld.BELFRY_CTL_RATE_TICKS ≤ s.mram.hours →
    (s.bel.buckets.map (·.code)).Nodup → (∀ b ∈ s.bel.buckets, b.suppressed = 0) →
    ∃ u, exec (.belfryRefill t) s = .next u ∧
      u = { s.tick t with bel := { s.bel with
        buckets := u.bel.buckets, full := u.bel.full, refillTick := s.mram.hours } } ∧
      ∀ c, (u.bucket c).tokens = min ((s.bucket c).tokens + 1) (s.fld Fld.BELFRY_CTL_BURST) ∧
        (u.bucket c).suppressed = 0) ∧
  ∀ (t : Nat) (s : State), s.mram.hours < s.bel.refillTick + s.fld Fld.BELFRY_CTL_RATE_TICKS →
    exec (.belfryRefill t) s = .next (s.tick t)

/-- FREEZE (R398): the pending buffer drains in order when it clears, and expiry records 0x9005. R399: LAST is emptied in every
good copy and 0x9001 is its first record. -/
def Obligations.FreezeAndClear : Prop :=
  (∀ (t : Nat) (a : RegAcc) (s : State), s.reach a.port .BELFRY_CTL = true →
     let w := (s.tick t).writeFields .BELFRY_CTL a
     let same := (w.reg .BELFRY_CTL).toNat / 2 = (s.reg .BELFRY_CTL).toNat / 2
     (accField a Fld.BELFRY_CTL_FREEZE = some 1 →
       let since := if s.flag Fld.BELFRY_CTL_FREEZE then s.bel.freezeTick else s.mram.hours
       ∃ u, exec (.belfryFreezeSet t a) s = .next u ∧ u.flag Fld.BELFRY_CTL_FREEZE = true ∧
         u.reg .BELFRY_CTL = w.reg .BELFRY_CTL ∧ u.bel.freezeTick = since ∧
         State.onlyEvents { s.tick t with bel := { s.bel with freezeTick := since } } u [.BELFRY_CTL] ∧
         (same → u.mram = s.mram ∧ u.bel.pending = s.bel.pending ∧ u.jrnl = s.jrnl ∧ u.emitted = s.emitted)) ∧
     (accField a Fld.BELFRY_CTL_FREEZE = some 0 → s.flag Fld.BELFRY_CTL_FREEZE = true → s.bel.clearKey = none →
       s.bel.dropped = 0 → s.sec.dmcDown = false →
       ∃ u, exec (.belfryFreezeClear t a) s = .next u ∧ u.flag Fld.BELFRY_CTL_FREEZE = false ∧ u.bel.pending = [] ∧
         u.fld Fld.BELFRY_STAT_PENDING = 0 ∧
         (same → u.mram.last0 = (if s.flag Fld.BELFRY_STAT_COPY0_FAILED then s.mram.last0
             else s.bel.pending.foldl (ringPush 65536 0) s.mram.last0) ∧
           u.mram.last1 = (if s.flag Fld.BELFRY_STAT_COPY1_FAILED then s.mram.last1
             else s.bel.pending.foldl (ringPush 65536 0) s.mram.last1)) ∧
         u.fld Fld.BELFRY_AT_LIMIT_FREEZE =
           (if s.fld Fld.BELFRY_CTL_FREEZE_LIMIT ≠ 0 ∧ s.mram.hours = s.freezeEnd then
             satAdd Fld.BELFRY_AT_LIMIT_FREEZE.w (s.fld Fld.BELFRY_AT_LIMIT_FREEZE) 1
           else s.fld Fld.BELFRY_AT_LIMIT_FREEZE))) ∧
  (∀ (t : Nat) (s : State), s.pwr.auxGood = true → s.flag Fld.BELFRY_CTL_FREEZE = true →
     s.fld Fld.BELFRY_CTL_FREEZE_LIMIT ≠ 0 → s.freezeEnd < s.mram.hours → s.bel.clearKey = none →
     s.bel.dropped = 0 → s.sec.dmcDown = false → s.logLost = false →
     ∃ u, exec (.freezeExpired t) s = .next u ∧ u.flag Fld.BELFRY_CTL_FREEZE = false ∧ u.bel.pending = [] ∧
       (s.refillDue = false → (s.bucket 0x9005).tokens ≠ 0 →
         u.mram.last0 = (if s.flag Fld.BELFRY_STAT_COPY0_FAILED then s.mram.last0
           else ringPush 65536 0 (s.bel.pending.foldl (ringPush 65536 0) s.mram.last0)
             (s.recordBytes 0x9005 (s.fld Fld.BELFRY_CTL_FREEZE_LIMIT) (s.bucket 0x9005).suppressed false .dmc)))) ∧
  ∀ (t k : Nat) (s : State), s.pwr.auxGood = true → s.bel.clearKey = some k → s.flag Fld.BELFRY_CTL_FREEZE = false →
     s.logLost = false → s.sec.dmcDown = false → s.fld Fld.BELFRY_CTL_RATE_TICKS ≠ 0 →
     let v := (s.tick t).refillFirst
     let r := v.recordBytes 0x9001 (v.fld Fld.BELFRY_STAT_LAST_COUNT + k * 2 ^ 32) 0 false .dmc
     ∃ u, exec (.belfryCleared t) s = .next u ∧ u.bel.clearKey = none ∧ u.bel.pending = s.bel.pending ∧
       u.bel.buckets = v.bel.buckets ∧ u.fld Fld.BELFRY_STAT_LAST_COUNT = 1 ∧
       u.flag Fld.BELFRY_STAT_CLEAR_PENDING = false ∧
       u.fld Fld.BELFRY_TALLY_LOG_CLEARS =
         satAdd Fld.BELFRY_TALLY_LOG_CLEARS.w (s.fld Fld.BELFRY_TALLY_LOG_CLEARS) 1 ∧
       u.mram.last0 = (if s.flag Fld.BELFRY_STAT_COPY0_FAILED then s.mram.last0 else [r]) ∧
       u.mram.last1 = (if s.flag Fld.BELFRY_STAT_COPY1_FAILED then s.mram.last1 else [r])

/-- A capture (R397), into the registers of the port that asks (R422). -/
def Obligations.BelfryCapture : Prop :=
  ∀ (t : Nat) (a : RegAcc) (s : State), s.reach a.port .BELFRY_INDEX = true →
    let at_ := Reg.at a.port
    let i := ((s.writeFields (at_ .BELFRY_INDEX) a).reg (at_ .BELFRY_INDEX)).toNat % 2 ^ 17
    let m := s.belfryArea a.port
    let only (u : State) : Prop :=
      State.keeps s u [at_ .BELFRY_INDEX, at_ .BELFRY_REC0, at_ .BELFRY_REC1, at_ .BELFRY_REC2, at_ .BELFRY_REC3,
        at_ .BELFRY_REC_STAT] ∧
      u = { s.tick t with regs := u.regs, bel := { s.bel with
        capHost := if a.port = .host then some (max s.now t) else s.bel.capHost
        capMgmt := if a.port = .mgmt then some (max s.now t) else s.bel.capMgmt } }
    (m.2.2 ≤ i → ∃ u, exec (.belfryIndexWrite t a) s = .next u ∧ only u ∧ u.reg (at_ .BELFRY_REC0) = 0 ∧
      u.reg (at_ .BELFRY_REC1) = 0 ∧ u.reg (at_ .BELFRY_REC2) = 0 ∧ u.reg (at_ .BELFRY_REC3) = 0 ∧
      u.reg (at_ .BELFRY_REC_STAT) = 16) ∧
    ∀ r0 r1, i < m.2.2 → bitsOf (s.reg (at_ .BELFRY_SEL_AREA)).toNat 1 2 = 0 → m.1[i]? = some r0 →
      m.2.1[i]? = some r1 → recordGood r0 = true → recordGood r1 = true →
      s.flag Fld.BELFRY_STAT_COPY0_FAILED = false → s.flag Fld.BELFRY_STAT_COPY1_FAILED = false →
      ∃ u, exec (.belfryIndexWrite t a) s = .next u ∧ only u ∧
        (u.reg (at_ .BELFRY_REC0)).toNat = fieldAt r0 0 8 ∧ (u.reg (at_ .BELFRY_REC1)).toNat = fieldAt r0 8 8 ∧
        (u.reg (at_ .BELFRY_REC2)).toNat = fieldAt r0 16 8 ∧ (u.reg (at_ .BELFRY_REC3)).toNat = fieldAt r0 24 8 ∧
        u.reg (at_ .BELFRY_REC_STAT) = 1

/-- The I3C and MCTP control rows (R331, R332). What DSP0236 fixes and the spec does not state is free (log 9). -/
def Obligations.MctpControl : Prop :=
  (∀ (t addr : Nat) (s : State), s.pwr.auxGood = true →
    exec (.i3cDynamicAddress t false addr) s =
      .next (((s.tick t).setFlag Fld.MGMT_STAT_I3C true).setFld Fld.MGMT_STAT_DYN_ADDR addr) ∧
    exec (.i3cDynamicAddress t true addr) s = .next
      (if addr != s.staticAddress then s.tick t
       else if s.flag Fld.MGMT_STAT_I3C then ((s.tick t).setFlag Fld.MGMT_STAT_I3C false).record 0x7021 0 .dmc
       else (s.tick t).setFlag Fld.MGMT_STAT_I3C false)) ∧
  ∀ (t eid : Nat) (s : State), s.mctpUp = true →
    exec (.setEndpointId t eid) s =
      .next (((s.tick t).setFld Fld.MGMT_STAT_EID eid).emit (.ctlReply 0 (natLe eid 1))) ∧
    exec (.getEndpointId t) s = .next ((s.tick t).emit (.ctlReply 0 (natLe (s.fld Fld.MGMT_STAT_EID) 1))) ∧
    exec (.getMessageTypeSupport t) s = .next ((s.tick t).emit (.ctlReply 0 [0x00, 0x01, 0x7E])) ∧
    exec (.getVendorMessageSupport t) s = .next ((s.tick t).emit (.ctlReply 0 (natLe 0x4B5A 2))) ∧
    ∃ d : List Byte, d.length = 4 ∧ exec (.getMctpVersionSupport t) s =
      .next (({ s.tick t with fresh := s.fresh + 1 }).emit (.ctlReply 0 d))

/-- The heartbeat timer of R335; MGMT_STAT as a read returns it (R337), and the alert that the read clears (R420). -/
def Obligations.HeartbeatAndAlert : Prop :=
  ((∀ (t : Nat) (s : State), s.mctpUp = true → s.dmcUp = true →
     ∃ u, exec (.heartbeat t) s = .next u ∧ u.flag Fld.MGMT_STAT_BMC_LOST = false ∧
       State.keeps s u [.MGMT_STAT, .MGMT_AT_LIMIT] ∧
       u.fld Fld.MGMT_AT_LIMIT_HEARTBEAT =
         (if s.fld Fld.MGMT_WDOG_PERIOD ≠ 0 ∧ (max s.now t - s.mgmt.hbStart) / 2000 = s.fld Fld.MGMT_WDOG_PERIOD ∧
             s.flag Fld.MGMT_STAT_BMC_LOST = false then
           satAdd Fld.MGMT_AT_LIMIT_HEARTBEAT.w (s.fld Fld.MGMT_AT_LIMIT_HEARTBEAT) 1
         else s.fld Fld.MGMT_AT_LIMIT_HEARTBEAT) ∧
       u = { s.tick t with regs := u.regs, mgmt := { s.mgmt with hbStart := max s.now t },
                           emitted := .mgmtReply 0 [] :: s.emitted }) ∧
   (∀ (t : Nat) (s : State), s.pwr.auxGood = true → s.fld Fld.MGMT_WDOG_PERIOD ≠ 0 →
     s.flag Fld.MGMT_STAT_BMC_LOST = false →
     exec (.mgmtWdogExpired t) s = .next
       (if s.fld Fld.MGMT_WDOG_PERIOD < (max s.now t - s.mgmt.hbStart) / 2000 then
         ({ (s.tick t).setFlag Fld.MGMT_STAT_BMC_LOST true with
             mgmt := { s.mgmt with alertPending := true } }).record 0x7020 0 .dmc
       else s.tick t)) ∧
   ∀ (t : Nat) (a : RegAcc) (s : State), s.reach a.port .MGMT_WDOG = true →
     ∃ u, exec (.mgmtWdogWrite t a) s = .next u ∧
       State.configWritten { s.tick t with mgmt := { s.mgmt with hbStart := max s.now t } } u .MGMT_WDOG a) ∧
  (∀ (t : Nat) (s : State), s.mctpUp = true → s.dmcUp = true →
     ∃ v : W64, exec (.mgmtStatRead t) s = .next
         (({ s.tick t with mgmt := { s.mgmt with alertPending := false } }).emit (.mgmtReply 0 (natLe v.toNat 8))) ∧
       v.getLsbD 3 = (s.pwr.rails && s.flag Fld.DEV_STAT_READY) ∧
       v.getLsbD 2 = (!(s.pwr.rails && s.flag Fld.DEV_STAT_READY) || s.mgmt.alertPending) ∧
       ∀ i < 64, i ≠ 2 → i ≠ 3 → v.getLsbD i = (s.reg .MGMT_STAT).getLsbD i)

/-- SLOT_WRITE and RECEIPT_GET (R332, R333). -/
def Obligations.SlotWriteAndReceiptGet : Prop :=
  ∀ (t slot off seq : Nat) (d : List Byte) (s : State), s.mctpUp = true → s.dmcUp = true →
    ((d.length < 8 ∨ 1000 < d.length ∨ d.length % 8 ≠ 0) →
      exec (.slotWrite t slot off d) s = .next ((s.tick t).emit (.mgmtReply 4 []))) ∧
    (8 ≤ d.length → d.length ≤ 1000 → d.length % 8 = 0 →
      ((4096 ≤ slot ∨ 4096 < off + d.length) →
        exec (.slotWrite t slot off d) s = .next ((s.tick t).emit (.mgmtReply 1 []))) ∧
      (slot < 4096 → off + d.length ≤ 4096 → s.cUp = false →
        exec (.slotWrite t slot off d) s = .next ((s.tick t).emit (.mgmtReply 3 []))) ∧
      (slot < 4096 → off + d.length ≤ 4096 → s.cUp = true → s.slotAt slot = none →
        (let p := 64 + fieldAt (overwrite (zeros 4096) off d) 2 2
         p < off ∨ off + d.length < p + 8 ∨ 4096 < p + 8) →
        ∃ u, exec (.slotWrite t slot off d) s = .next u ∧ State.keeps s u [.INTAKE_STAT] ∧
          u.slotAt slot = some ⟨slot, .filling, overwrite (zeros 4096) off d, 0, max s.now t, .mgmt, 0, false, 0, false,
            false, none⟩ ∧
          (∀ k, k ≠ slot → u.slotAt k = s.slotAt k) ∧
          u = { s.tick t with regs := u.regs, intake := { s.intake with slots := u.intake.slots },
                              emitted := .mgmtReply 0 [] :: s.emitted })) ∧
    (s.cUp = false → exec (.receiptGet t seq) s = .next ((s.tick t).emit (.mgmtReply 3 []))) ∧
    (∀ o r, s.cUp = true → s.order seq = some o → o.latest = some r →
      exec (.receiptGet t seq) s = .next ((s.tick t).emit (.mgmtReply 0 r.bytes))) ∧
    (s.cUp = true → s.order seq = none → (∀ p ∈ s.intake.past, p.1 ≠ seq) →
      exec (.receiptGet t seq) s = .next ((s.tick t).emit (.mgmtReply 1 [])))

/-- PLDM base, monitoring and control (R334). Content that DSP0240 and DSP0248 fix and the spec does not state is free, and the
numbering of sensors and effecters is the model's (log 9). -/
def Obligations.PldmBaseAndMonitor : Prop :=
  (∀ (t n : Nat) (s : State), s.mctpUp = true →
     let open_ (k : Nat) (r : Result) := ∃ d : List Byte, d.length = k ∧
       r = .next (({ s.tick t with fresh := s.fresh + 1 }).emit (.ctlReply 0 d))
     let refused (r : Result) := ∃ c : Nat, c ≠ 0 ∧
       r = .next (({ s.tick t with fresh := s.fresh + 1 }).emit (.ctlReply c []))
     (s.dmcUp = true →
       exec (.getTid t) s = .next ((s.tick t).emit (.ctlReply 0 (natLe s.mgmt.tid 1))) ∧
       exec (.setTid t n) s =
         .next (({ s.tick t with mgmt := { s.mgmt with tid := n % 256 } }).emit (.ctlReply 0 [])) ∧
       exec (.getPldmTypes t) s = .next ((s.tick t).emit (.ctlReply 0 (natLe (1 + 4 + 32) 8))) ∧
       (n ∈ [0, 2, 5] → open_ 4 (exec (.getPldmVersion t n) s) ∧ open_ 8 (exec (.getPldmCommands t n) s)) ∧
       (n ∉ [0, 2, 5] → refused (exec (.getPldmVersion t n) s) ∧ refused (exec (.getPldmCommands t n) s))) ∧
     (s.dmcUp = false → ∀ i ∈ [Instr.getTid t, .setTid t n, .getPldmVersion t n, .getPldmTypes t, .getPldmCommands t n],
       exec i s = .next ((s.tick t).emit (.ctlReply 3 [])))) ∧
  (∀ (t n v : Nat) (s : State), s.mctpUp = true → s.dmcUp = true →
     let open_ (k : Nat) (r : Result) := ∃ d : List Byte, d.length = k ∧
       r = .next (({ s.tick t with fresh := s.fresh + 1 }).emit (.ctlReply 0 d))
     let refused (r : Result) := ∃ c : Nat, c ≠ 0 ∧
       r = .next (({ s.tick t with fresh := s.fresh + 1 }).emit (.ctlReply c []))
     open_ 8 (exec (.getPdrRepositoryInfo t) s) ∧ (n ≤ 16 → open_ 8 (exec (.getPdr t n) s)) ∧
     (16 < n → refused (exec (.getPdr t n) s)) ∧
     (n ∈ [0, 10, 12, 13] → exec (.getSensorReading t n) s =
       .next ((s.tick t).emit (.ctlReply 0 (natLe (encSigned 32 (s.mgmt.sensors.getD n 0)) 4)))) ∧
     (n ∈ [1, 2, 3, 4, 5, 6, 7, 8, 9, 11, 14] → open_ 4 (exec (.getSensorReading t n) s)) ∧
     (15 ≤ n → refused (exec (.getSensorReading t n) s)) ∧ refused (exec (.getStateSensorReadings t n) s) ∧
     exec (.getNumericEffecterValue t 0) s =
       .next ((s.tick t).emit (.ctlReply 0 (natLe (s.fld Fld.PWR_CAP_CAP_W) 2))) ∧
     (n ≠ 0 → refused (exec (.getNumericEffecterValue t n) s) ∧ refused (exec (.setNumericEffecterValue t n v) s)) ∧
     (600 ≤ v → v ≤ 1200 → exec (.setNumericEffecterValue t 0 v) s =
       .next ((((s.tick t).setFld Fld.PWR_CAP_CAP_W v).noteConfig .PWR_CAP .mgmt).emit (.ctlReply 0 []))) ∧
     exec (.setEventReceiver t n) s =
       .next (({ s.tick t with mgmt := { s.mgmt with receiver := n % 256 } }).emit (.ctlReply 0 [])) ∧
     (∀ r rs, s.mgmt.events = r :: rs → exec (.pollForPlatformEvent t) s =
       .next (({ s.tick t with mgmt := { s.mgmt with events := rs } }).emit (.ctlReply 0 r))))

/-- PLDM Firmware Update (R334, R371, R372). -/
def Obligations.FirmwareUpdate : Prop :=
  ∀ (t n : Nat) (d : List Byte) (s : State), s.mctpUp = true →
    let goes (m : MgmtSt) : Result := .next (({ s.tick t with mgmt := m }).emit (.ctlReply 0 []))
    let m := s.mgmt
    let refused (r : Result) := ∃ c : Nat, c ≠ 0 ∧
      r = .next (({ s.tick t with fresh := s.fresh + 1 }).emit (.ctlReply c []))
    exec (.queryDeviceIdentifiers t) s = .next ((s.tick t).emit (.ctlReply 0 (natLe 0x4B5A 2 ++ natLe 0xD1A0 2))) ∧
    (∃ d : List Byte, exec (.getFirmwareParameters t) s =
      .next (({ s.tick t with fresh := s.fresh + 1 }).emit (.ctlReply 0 d))) ∧
    (∃ d : List Byte, exec (.getStatus t) s = .next (({ s.tick t with fresh := s.fresh + 1 }).emit (.ctlReply 0 d))) ∧
    (m.fw = .idle → exec (.requestUpdate t) s = goes { m with fw := .learn }) ∧
    (m.fw ≠ .idle → refused (exec (.requestUpdate t) s)) ∧
    (m.fw = .learn → exec (.passComponentTable t) s = goes { m with fw := .ready }) ∧
    (m.fw ≠ .learn → refused (exec (.passComponentTable t) s)) ∧
    (m.fw = .ready → n ≤ 8388608 → exec (.updateComponent t n) s =
      goes { m with fw := .download, fwSize := n, fwImage := [], fwGood := false }) ∧
    (m.fw ≠ .ready ∨ 8388608 < n → refused (exec (.updateComponent t n) s)) ∧
    (m.fw = .download → d.length ≤ 1024 → m.fwImage.length + d.length ≤ m.fwSize →
      exec (.requestFirmwareData t m.fwImage.length d) s =
        .next { s.tick t with mgmt := { m with fwImage := m.fwImage ++ d } }) ∧
    (m.fw = .download → m.fwImage.length = m.fwSize →
      exec (.transferComplete t) s = .next { s.tick t with mgmt := { m with fw := .verify } }) ∧
    (m.fw = .verify → exec (.verifyComplete t) s = .next
      (match s.imageFault m.fwImage with
       | none => { s.tick t with mgmt := { m with fw := .apply, fwGood := true } }
       | some (c, p) => (s.tick t).record c p (if s.sec.romWait then .rom else .dmc))) ∧
    (m.fw = .apply → exec (.applyComplete t) s = .next
      { s.tick t with mram := { s.mram with image := m.fwImage }, mgmt := { m with fw := .ready } }) ∧
    (m.fw ∈ [FwState.download, .verify, .apply] → exec (.cancelUpdateComponent t) s =
      goes { m with fw := .ready, fwImage := [], fwGood := false }) ∧
    (m.fw ∈ [FwState.learn, .ready, .download, .verify, .apply] → exec (.cancelUpdate t) s =
      goes { m with fw := .idle, fwImage := [], fwGood := false })

/-- Activation (R372) and the host's route of recovery (R371). -/
def Obligations.FirmwareActivation : Prop :=
  (∀ (t : Nat) (s : State), s.mctpUp = true → s.mgmt.fw = .ready → s.mgmt.fwGood = true → s.sec.romWait = false →
    exec (.activateFirmware t) s = .next
      (({ s.tick t with
          mgmt := { s.mgmt with fw := .idle, fwGood := false, fwImage := [], fwSize := 0 }
          sec := { s.sec with dmcDown := true }
          bel := { s.bel with wrote := (max s.now t, 0) } }).emit (.ctlReply 0 (natLe 1 2)))) ∧
  (∀ (t : Nat) (s : State), s.pwr.auxGood = true → s.sec.dmcDown = true →
    ∃ u, exec (.dmcRestartDone t) s = .next u ∧
      u.sec = { s.sec with romWait := false, dmcDown := false, runningHeader := s.mram.image.take 128 } ∧
      u.fuse = { s.fuse with svn := max s.fuse.svn (fieldAt (s.mram.image.take 128) 8 4) } ∧
      u.fld Fld.SEC_FW_SVN = fieldAt (s.mram.image.take 128) 8 4 % 65536 ∧
      (s.flag Fld.BELFRY_CTL_FREEZE = false → u.bel.pending = [])) ∧
  ∀ (t : Nat) (a : RegAcc) (s : State), s.reach a.port .SEC_FW = true →
    ((s.sec.romWait = false ∨ accSets a Fld.SEC_FW_LOAD = false) → exec (.secFwLoad t a) s = .next (s.tick t)) ∧
    (s.sec.romWait = true → accSets a Fld.SEC_FW_LOAD = true → ∃ u, exec (.secFwLoad t a) s = .next u ∧
      match s.imageFault (trimImage s.sec.bar4) with
      | some (c, p) => u = (s.tick t).record c p .rom
      | none => u.mram.image = trimImage s.sec.bar4 ∧ u.sec.romWait = false ∧ u.pwr.rails = false)

/-- Debug actions by each route (R356 to R358, R373). What each refusal answers where the rules state no more is the
model's reading (log 20). -/
def Obligations.DebugActions : Prop :=
  ∀ (t seq : Nat) (a : RegAcc) (o : Order) (s : State),
    let v := s.tick t
    ∀ x ∈ [(3, Instr.debugCtlEnd t, Instr.dbgCtlEnd t a, Instr.probeEnd t seq),
        (4, .debugCtlHalt t, .dbgCtlHalt t a, .probeHalt t seq),
        (5, .debugCtlSweep t, .dbgCtlSweep t a, .probeSweep t seq),
        (6, .debugCtlResume t, .dbgCtlResume t a, .probeResume t seq)],
      let k := x.1
      let goesOn (u : State) : Prop := u.halted = false ∧ u.ex.sweepOn = true ∧
        u.flag Fld.DBG_STAT_HALT_PENDING = (k == 5) ∧ u.ex.chain = s.ex.chain
      let between : Prop := s.dbgLevel = 2 ∧ s.halted = true ∧ s.power ≠ 2 ∧ s.stept.stepOn = true ∧
        s.ex.sweepOn = false ∧ s.ex.stepEnded = false ∧ s.slog.abandoned = false ∧ v.gatherOpen = true ∧ 5 ≤ k
      (s.mctpUp = true → s.dmcUp = true →
        (s.dbgLevel = 0 → exec x.2.1 s = .next (v.emit (.mgmtReply 2 []))) ∧
        (s.dbgLevel = 2 → s.halted = false → s.power ≠ 2 → s.holder = .mgmt →
          exec x.2.1 s = .next ((v.debugEffect k).emit (.mgmtReply 0 []))) ∧
        (between → s.holder = .mgmt → ∃ u, exec x.2.1 s = .next u ∧ goesOn u) ∧
        (s.dbgLevel = 2 → s.holder = .host →
          exec x.2.1 s = .next ((v.record 0x8006 k .mgmt).emit (.mgmtReply 2 [])))) ∧
      (s.reach a.port .DBG_CTL = true → asksAction a k = true →
        (s.dbgLevel = 0 → exec x.2.2.1 s = .next v) ∧
        (s.dbgLevel = 2 → s.halted = false → s.power ≠ 2 → s.holder = a.port →
          exec x.2.2.1 s = .next (v.debugEffect k)) ∧
        (between → s.holder = a.port → ∃ u, exec x.2.2.1 s = .next u ∧ goesOn u) ∧
        (s.dbgLevel = 2 → s.holder ≠ a.port →
          exec x.2.2.1 s = .next (v.record 0x8006 k (if a.port = .host then .host else .mgmt)))) ∧
      (s.executable seq 9 = some o → o.action = k →
        (s.dbgLevel = 0 → exec x.2.2.2 s = .next (v.rejectOrder o 0x8041 0)) ∧
        (s.dbgLevel = 2 → s.halted = false → s.power ≠ 2 → s.holder = o.src →
          exec x.2.2.2 s = .next ((v.effectDone o 0).debugEffect k)) ∧
        (between → s.holder = o.src → ∃ u, exec x.2.2.2 s = .next u ∧ goesOn u) ∧
        (s.dbgLevel = 2 → s.holder ≠ o.src →
          exec x.2.2.2 s = .next ((v.record 0x8006 k o.source).rejectOrder o 0x8006 k)))

/-- Challenges (R349), from either port. The STATUS of a refused management challenge is free (log 5). -/
def Obligations.Challenges : Prop :=
  ∀ (t : Nat) (s : State),
    let n := ((s.trng.pool.take 4).map fun w => natLe w 8).flatten
    let drawn : State := { s.tick t with trng := { s.trng with pool := s.trng.pool.drop 4 } }
    let issued (v : State) (p : Port) (n : List Byte) : State :=
      let v : State := { v with sec := (if p = .host then { s.sec with nonceHost := some n }
        else { s.sec with nonceMgmt := some n }) }
      (v.setFlag (if p = .host then Fld.DBG_CHALLENGE_HOST_NONCE else Fld.DBG_CHALLENGE_MGMT_NONCE) true).setFld
        Fld.DBG_CHALLENGE_ISSUED (s.fld Fld.DBG_CHALLENGE_ISSUED + 1)
    (s.mctpUp = true → s.dmcUp = true →
      (s.lifecycle ≠ 3 → s.trngValid = true → 4 ≤ s.trng.pool.length →
        exec (.challenge t) s = .next ((issued drawn .mgmt n).emit (.mgmtReply 0 n))) ∧
      (s.lifecycle = 3 →
        let m := shake256 ([0x4B, 0x5A, 0x4E, 0x43] ++ natLe s.fuse.serial 8 ++ natLe s.mram.scrapCount 8) 32
        exec (.challenge t) s = .next
          ((issued { s.tick t with mram := { s.mram with scrapCount := s.mram.scrapCount + 1 } } .mgmt m).emit
            (.mgmtReply 0 m))) ∧
      (s.lifecycle ≠ 3 → s.trngValid = false → ∃ c : Nat, exec (.challenge t) s = .next
        ((((s.tick t).record 0x8004 0 .mgmt).freshVal.2).emit (.mgmtReply c [])))) ∧
    ∀ (seq : Nat) (o : Order), s.executable seq 9 = some o → o.action = 1 →
      (fieldAt o.body 16 8 < 32 → exec (.probeChallenge t seq) s = .next ((s.tick t).rejectOrder o 0x8041 16)) ∧
      (32 ≤ fieldAt o.body 16 8 → s.lifecycle ≠ 3 → s.trngValid = true → 4 ≤ s.trng.pool.length →
        exec (.probeChallenge t seq) s = .next
          (((issued drawn o.src n).emit (.hostWrite (fieldAt o.body 8 8) n)).effectDone o 0)) ∧
      (32 ≤ fieldAt o.body 16 8 → s.lifecycle ≠ 3 → s.trngValid = false → exec (.probeChallenge t seq) s =
        .next (((s.tick t).record 0x8004 0 o.source).rejectOrder o 0x8004 0))

/-- The checks of R352, in order, and the session a debug token opens (R356), by either command. Signature verification is
uninterpreted (log 7), so the statement covers either verdict. -/
def Obligations.TokenChecks : Prop :=
  (∀ (t off : Nat) (d : List Byte) (s : State), s.mctpUp = true → s.dmcUp = true →
    exec (.tokenPut t off d) s = .next
      (if d.length < 8 ∨ 992 < d.length then (s.tick t).emit (.mgmtReply 4 [])
       else if 29920 < off + d.length then (s.tick t).emit (.mgmtReply 1 [])
       else ({ s.tick t with mgmt := { s.mgmt with token := overwrite s.mgmt.token off d } }).emit
        (.mgmtReply 0 []))) ∧
  ∀ (t : Nat) (s : State),
    let failed (s' : State) (b : List Byte) (k : Nat) (src : Source) : State :=
      (s'.incFld Fld.SEC_COUNTS_TOKENS_REJECTED).record 0x8003 (k + tokKind b * 256) src
    let spent (p : Port) := (s.tick t).setNonce p none
    let opens (u : State) (p : Port) (b : List Byte) : Prop :=
      u.dbgLevel = 1 ∧ u.holder = p ∧ u.nonce p = none ∧ u.fld Fld.DBG_LEVEL_KEY_ID = tokSigner b
    (s.mctpUp = true → s.dmcUp = true →
      let b := s.mgmt.token
      let answered (u : State) : Result := .next (u.emit (.mgmtReply 0 (natLe 0x8003 2)))
      (tokForm b = false → exec (.tokenSubmit t) s = answered (failed (s.tick t) b 1 .mgmt)) ∧
      (tokForm b = true → fieldAt b 8 8 ≠ s.fuse.serial →
        exec (.tokenSubmit t) s = answered (failed (s.tick t) b 2 .mgmt)) ∧
      (tokForm b = true → fieldAt b 8 8 = s.fuse.serial → s.sec.nonceMgmt ≠ some (slice b 16 32) →
        exec (.tokenSubmit t) s = answered (failed (spent .mgmt) b 3 .mgmt)) ∧
      (tokForm b = true → fieldAt b 8 8 = s.fuse.serial → s.sec.nonceMgmt = some (slice b 16 32) → tokKind b = 1 →
        tokTarget b = 1 → s.dbgLevel = 0 → s.power ≠ 4 →
        ∃ u, exec (.tokenSubmit t) s = .next u ∧
          if s.tokAuthority b = false then .next u = answered (failed (spent .mgmt) b 4 .mgmt)
          else if Config.slhDsaVerify (s.signerKey b) (b.take 128) (slice b 128 29792) = false then
            .next u = answered (failed (spent .mgmt) b 5 .mgmt)
          else opens u .mgmt b ∧ .mgmtReply 0 (natLe 0 2) ∈ u.emitted)) ∧
    ∀ (seq : Nat) (o : Order) (b : List Byte), s.executable seq 9 = some o → o.action = 2 → o.bulkKind = 1 →
      o.bulk = some b →
      let rejected (u : State) (k : Nat) : Result := .next (u.rejectOrder o 0x8003 (k + tokKind b * 256))
      (tokForm b = false → exec (.probeToken t seq) s = rejected (failed (s.tick t) b 1 o.source) 1) ∧
      (tokForm b = true → fieldAt b 8 8 ≠ s.fuse.serial →
        exec (.probeToken t seq) s = rejected (failed (s.tick t) b 2 o.source) 2) ∧
      (tokForm b = true → fieldAt b 8 8 = s.fuse.serial → s.nonce o.src ≠ some (slice b 16 32) →
        exec (.probeToken t seq) s = rejected (failed (spent o.src) b 3 o.source) 3) ∧
      (tokForm b = true → fieldAt b 8 8 = s.fuse.serial → s.nonce o.src = some (slice b 16 32) → tokKind b = 1 →
        tokTarget b = 1 → s.dbgLevel = 0 → s.power ≠ 4 →
        ∃ u, exec (.probeToken t seq) s = .next u ∧
          if s.tokAuthority b = false then .next u = rejected (failed (spent o.src) b 4 o.source) 4
          else if Config.slhDsaVerify (s.signerKey b) (b.take 128) (slice b 128 29792) = false then
            .next u = rejected (failed (spent o.src) b 5 o.source) 5
          else opens u o.src b ∧ ∀ x, u.order seq = some x → x.phase = .done)

/-- Quotes (R369), certificate and keys (R373). The signature is uninterpreted (log 7). -/
def Obligations.Quotes : Prop :=
  (∀ (t : Nat) (nonce : List Byte) (s : State), s.mctpUp = true → s.dmcUp = true →
    (nonce.length ≠ 32 → exec (.quote t nonce) s = .next ((s.tick t).emit (.mgmtReply 4 []))) ∧
    (nonce.length = 32 → s.sec.forming.isSome = true →
      exec (.quote t nonce) s = .next ((s.tick t).emit (.mgmtReply 3 []))) ∧
    (nonce.length = 32 → s.sec.forming = none →
      ∃ b, exec (.quote t nonce) s = .next { s.tick t with sec := { s.sec with forming := some ⟨0, b⟩ } } ∧
        slice b 32 32 = nonce ∧ slice b 8 8 = natLe s.fuse.serial 8 ∧ slice b 6 1 = natLe s.lifecycle 1 ∧
        b.take 4 = [0x4B, 0x5A, 0x51, 0x54])) ∧
  (∀ (t : Nat) (b : List Byte) (s : State), s.pwr.auxGood = true → s.sec.forming = some ⟨0, b⟩ →
    exec (.quoteFormed t) s = .next
      (({ s.tick t with sec := { s.sec with forming := none, lastQuote := quoteBytes b } }).emit
        (.mgmtReply 0 (natLe (quoteBytes b).length 4)))) ∧
  (∀ (t seq : Nat) (b : List Byte) (o : Order) (s : State), s.pwr.auxGood = true → seq ≠ 0 →
    s.sec.forming = some ⟨seq, b⟩ → s.order seq = some o → o.phase = .executing →
    exec (.quoteFormed t) s = .next
      ((({ s.tick t with sec := { s.sec with forming := none } }).emit
        (.hostWrite (fieldAt o.body 8 8) (quoteBytes b))).effectDone o 0)) ∧
  (∀ (t seq : Nat) (o : Order) (b : List Byte) (s : State), s.executable seq 9 = some o → o.action = 8 →
    o.bulkKind = 1 → o.bulk = some b →
    (fieldAt o.body 16 8 < 50448 → exec (.probeQuote t seq) s = .next ((s.tick t).rejectOrder o 0x8041 16)) ∧
    (50448 ≤ fieldAt o.body 16 8 → b.length = 32 → s.sec.forming = none →
      ∃ q, exec (.probeQuote t seq) s = .next
        { s.tick t with
          sec := { s.sec with forming := some ⟨seq, q⟩ }
          intake := { s.intake with orders := s.intake.orders.map fun x =>
            if x.seq == seq then { x with phase := .executing } else x } } ∧ slice q 32 32 = b)) ∧
  ∀ (t off slot : Nat) (s : State), s.mctpUp = true → s.dmcUp = true →
    exec (.quoteRead t off) s = .next ((s.tick t).emit
      (if s.sec.lastQuote.length ≤ off then .mgmtReply 1 [] else .mgmtReply 0 (slice s.sec.lastQuote off 992))) ∧
    exec (.certRead t off) s = .next ((s.tick t).emit
      (if s.mram.cert.length ≤ off then .mgmtReply 1 [] else .mgmtReply 0 (slice s.mram.cert off 992))) ∧
    (∀ k, 1 ≤ slot → slot < 16 → s.mram.keys.find? (·.slot == slot) = some k →
      exec (.keyList t slot) s = .next ((s.tick t).emit (.mgmtReply 0 (natLe k.id 4 ++ natLe k.roles 4 ++ k.key)))) ∧
    (1 ≤ slot → slot < 16 → s.mram.keys.find? (·.slot == slot) = none →
      exec (.keyList t slot) s = .next ((s.tick t).emit (.mgmtReply 0 (zeros 72))))

/-- STATE_WRITE (R254, R359). -/
def Obligations.StateWrite : Prop :=
  ∀ (t seq : Nat) (o : Order) (b : List Byte) (s : State), s.executable seq 9 = some o → o.action = 7 →
    o.bulkKind = 1 → o.bulk = some b →
    (s.dbgLevel = 0 → exec (.stateWrite t seq) s = .next ((s.tick t).rejectOrder o 0x8041 0)) ∧
    (s.dbgLevel = 2 → (s.holder ≠ o.src ∨ s.halted = false) → exec (.stateWrite t seq) s =
      .next (((s.tick t).record 0x8006 7 o.source).rejectOrder o 0x8006 7)) ∧
    (s.dbgLevel = 2 → s.holder = o.src → s.halted = true → s.power ≠ 2 → s.planOn = true →
      s.plan.data.stateEntriesOk b = true → s.plan.data.anneal.groups = [] →
      ∃ u, exec (.stateWrite t seq) s = .next u ∧
        u.ex.chain = { s.ex.chain with
          vals := (stateEntries b).foldl (fun v e => v.set e.1 e.2) s.ex.chain.vals } ∧
        (if s.stept.stepOn then u.slog.tainted = true else u.slog.taintNext = true) ∧
        (∀ x, u.order seq = some x → x.phase = .done))

/-- Host writes to the Intake Window (R259, R261) and to the ROM's image buffer (R371). -/
def Obligations.SlotWrites : Prop :=
  ∀ (t slot off : Nat) (d : List Byte) (s : State),
    (4096 ≤ slot → exec (.intakeSlotWrite t slot off d) s = .fault .noSuchUnit) ∧
    (slot < 4096 → off + d.length ≤ 4096 → off < 4096 → s.fld Fld.HOST_LINK_RATE ≠ 0 → s.ports.d3hot = false →
      s.boot.lightAt ≠ some (max s.now t) → s.sec.romWait = false → s.cUp = true →
      (s.slotAt slot = none →
        (let p := 64 + fieldAt (overwrite (zeros 4096) off d) 2 2
         p < off ∨ off + d.length < p + 8 ∨ 4096 < p + 8) →
        ∃ u, exec (.intakeSlotWrite t slot off d) s = .next u ∧ State.keeps s u [.INTAKE_STAT] ∧
          u.slotAt slot = some ⟨slot, .filling, overwrite (zeros 4096) off d, 0, max s.now t, .host, 0, false, 0, false,
            false, none⟩ ∧
          (∀ k, k ≠ slot → u.slotAt k = s.slotAt k) ∧
          u = { s.tick t with regs := u.regs, intake := { s.intake with slots := u.intake.slots } }) ∧
      ∀ x, s.slotAt slot = some x → x.st = .sealed → exec (.intakeSlotWrite t slot off d) s =
        .next (((s.tick t).incFld Fld.INTAKE_COUNTS_LATE_WRITES).record 0x100D slot .host)) ∧
    (slot < 4096 → off + d.length ≤ 4096 → off < 4096 → s.fld Fld.HOST_LINK_RATE ≠ 0 → s.ports.d3hot = false →
      s.boot.lightAt ≠ some (max s.now t) → s.sec.romWait = true →
      let at_ := slot * 4096 + off
      let image := overwrite (s.sec.bar4 ++ zeros (at_ + d.length - s.sec.bar4.length)) at_ d
      exec (.intakeSlotWrite t slot off d) s = .next { s.tick t with sec := { s.sec with bar4 := image } })

/-- R262: the seal timer of a slot. -/
def Obligations.SealTimeouts : Prop :=
  (∀ (t slot : Nat) (x : Slot) (s : State), slot < 4096 → s.cUp = true → s.logFull = false →
    s.slotAt slot = some x → x.st = .filling → x.ran = 0 →
    ((s.tick t).past (x.since + s.fld Fld.INTAKE_CTL_SEAL_TIMEOUT) = true →
      exec (.sealTimeout t slot) s = .next
        ((({ s.tick t with
              intake := { s.intake with slots := s.intake.slots.filter (·.idx != slot) } } : State).showIntake).post
          ⟨fieldAt x.bytes 8 8, s.stepNow, slot, 4, 0, 0x1002, fieldAt x.bytes 0 1, s.phi, false⟩)) ∧
    ((s.tick t).past (x.since + s.fld Fld.INTAKE_CTL_SEAL_TIMEOUT) = false →
      exec (.sealTimeout t slot) s = .next (s.tick t))) ∧
  ∀ (t slot off : Nat) (d : List Byte) (x : Slot) (s : State), slot < 4096 → off + d.length ≤ 4096 → off < 4096 →
    s.fld Fld.HOST_LINK_RATE ≠ 0 → s.ports.d3hot = false → s.boot.lightAt ≠ some (max s.now t) →
    s.sec.romWait = false → s.cUp = true → s.logFull = false → s.slotAt slot = some x → x.st = .filling → x.ran = 0 → x.idx = slot →
    (let p := 64 + fieldAt (overwrite x.bytes off d) 2 2
     off ≤ p ∧ p + 8 ≤ off + d.length) →
    ∃ u, exec (.intakeSlotWrite t slot off d) s = .next u ∧ (u.slotAt slot).map (·.st) = some .sealed ∧
      u.fld Fld.INTAKE_AT_LIMIT_SEAL =
        if (s.tick t).meets (x.since + s.fld Fld.INTAKE_CTL_SEAL_TIMEOUT) = true then
          satAdd Fld.INTAKE_AT_LIMIT_SEAL.w (s.fld Fld.INTAKE_AT_LIMIT_SEAL) 1
        else s.fld Fld.INTAKE_AT_LIMIT_SEAL

/-- Acceptance steps 1 to 8 (R263, R264), whatever reading the tiles of an image would show. -/
def Obligations.OrderAcceptance : Prop :=
  ∀ (t slot : Nat) (tiles : List TileCheck) (x : Slot) (s : State), slot < 4096 → s.accepting = true →
    s.slotAt slot = some x → x.idx = slot → x.st = .sealed →
    let b := x.bytes
    let seq := fieldAt b 8 8
    let v := s.tick t
    let refused (code payload : Nat) : Result := .next (v.refuse x code payload)
    let good : Bool := fieldAt b (sealAt b) 4 == seq % 2 ^ 32 && fieldAt b (sealAt b + 4) 4 == orderCrc b
    let fresh := good = true ∧ s.flag Fld.INTAKE_STAT_HELD = false ∧ seq ≠ 0 ∧ s.nextSeq ≤ seq ∧
      seq < s.nextSeq + 4096 ∧ ∀ y ∈ s.intake.slots, y.idx ≠ slot → y.checked = true → fieldAt y.bytes 8 8 ≠ seq
    let turn := v.myTurn { x with checked := true }
    (x.checked = false → s.nextToCheck x = true →
      (good = false → exec (.orderAcceptance t ⟨slot, tiles⟩) s = refused 0x1001 slot) ∧
      (good = true → s.flag Fld.INTAKE_STAT_HELD = true →
        exec (.orderAcceptance t ⟨slot, tiles⟩) s = refused 0x1020 0) ∧
      (good = true → s.flag Fld.INTAKE_STAT_HELD = false → (seq = 0 ∨ s.nextSeq + 4096 ≤ seq) →
        exec (.orderAcceptance t ⟨slot, tiles⟩) s = refused 0x1003 s.nextSeq) ∧
      (fresh → turn = false →
        ∃ u, exec (.orderAcceptance t ⟨slot, tiles⟩) s = .next u ∧
          u.slotAt slot = some { x with checked := true, through := false, closing := false } ∧
          (∀ k, k ≠ slot → u.slotAt k = s.slotAt k) ∧ State.keeps s u [.INTAKE_STAT] ∧
          u = { v with regs := u.regs, intake := { s.intake with slots := u.intake.slots } })) ∧
    (turn = true → (x.checked = true ∨ (x.checked = false ∧ s.nextToCheck x = true ∧ fresh)) →
      (s.intake.orders.filter (·.accepted)).length < 16384 → fieldAt b 1 1 = 0 → fieldAt b 0 1 ≠ 3 →
      s.ringRoom b = true →
      (∀ k, headerBad b = some k →
        ∃ w, exec (.orderAcceptance t ⟨slot, tiles⟩) s = .next (w.refuse x 0x1006 k) ∧ State.keeps s w [.INTAKE_STAT] ∧
          w = { v with regs := w.regs, intake := { s.intake with slots := w.intake.slots } }) ∧
      (∀ c p, headerBad b = none → s.bodyBad (fieldAt b 0 1) (slice b 64 (fieldAt b 2 2)) = some (c, p) →
        ∃ w, exec (.orderAcceptance t ⟨slot, tiles⟩) s = .next (w.refuse x c p) ∧ State.keeps s w [.INTAKE_STAT] ∧
          w = { v with regs := w.regs, intake := { s.intake with slots := w.intake.slots } }) ∧
      (headerBad b = none → s.bodyBad (fieldAt b 0 1) (slice b 64 (fieldAt b 2 2)) = none →
        ∃ u o, exec (.orderAcceptance t ⟨slot, tiles⟩) s = .next u ∧ u.intake.orders = s.intake.orders ++ [o] ∧
          o.seq = fieldAt (b.take (sealAt b + 8)) 8 8 ∧ o.phase = .journaled ∧ o.raw = b.take (sealAt b + 8) ∧
          o.policy = x.policy ∧
          u.slotAt slot = some { x with checked := true, through := true, closing := false } ∧
          u.nextSeq = s.nextSeq ∧ u.flag Fld.INTAKE_STAT_JOURNAL_FULL = false))

/-- Step 9 of acceptance (R263), the writing of a receipt (R270), and receipts of completion and release (R269, R272). -/
def Obligations.ReceiptsPosted : Prop :=
  (∀ (t seq : Nat) (o : Order) (s : State), s.accepting = true → s.order seq = some o → o.phase = .journaled →
     (s.durable o.recFseq o.policy = false → exec (.accepted t seq) s = .next (s.tick t)) ∧
     (s.durable o.recFseq o.policy = true → s.intake.held = [] → s.logRoom = true → seq + 1 < 2 ^ 64 →
       ∃ u x r, exec (.accepted t seq) s = .next u ∧ u.nextSeq = seq + 1 ∧ u.slotAt o.slot = none ∧
         u.order seq = some x ∧ x.phase = .accepted ∧ x.acceptedPosted = true ∧ x.latest = some r ∧ r.seq = seq ∧
         r.kind = 1 ∧ r.code = 0 ∧
         u.fld Fld.RECEIPT_HEAD_PRODUCED = (s.fld Fld.RECEIPT_HEAD_PRODUCED + 1) % 2 ^ 32 ∧
         (s.logBase ≠ 0 → .hostWrite (s.logBase + 32 * (s.fld Fld.RECEIPT_HEAD_PRODUCED % s.ringSize)) r.bytes ∈
           u.emitted))) ∧
  (∀ (t seq : Nat) (o : Order) (s : State), s.cUp = true → s.intakeOn = true → s.boot.recovering = none →
     s.order seq = some o → o.acceptedPosted = true →
     (∀ r n, o.phase = .done → o.final = some (r, n) → o.finalPosted = false → s.durable n o.policy = true →
       r.seq = seq → r.own = true → r.kind = 2 → s.intake.held = [] → s.logRoom = true →
       ∃ u x q, exec (.receiptPost t seq) s = .next u ∧ u.order seq = some x ∧ x.finalPosted = true ∧
         x.latest = some q ∧ q.kind = 2 ∧ q.code = r.code ∧ q.payload = r.payload ∧
         u.fld Fld.RECEIPT_HEAD_PRODUCED = (s.fld Fld.RECEIPT_HEAD_PRODUCED + 1) % 2 ^ 32) ∧
     (∀ r n, o.phase = .done → o.finalPosted = true → o.durFlags.testBit 1 = false → o.rel = some (r, n) → s.durable n o.policy = true →
       r.seq = seq → r.own = true → r.kind = 3 → s.intake.held = [] → s.logRoom = true →
       ∃ u q, exec (.receiptPost t seq) s = .next u ∧ u.order seq = none ∧ (seq, o.crc, some q) ∈ u.intake.past ∧
         q.kind = 3 ∧
         u.fld Fld.RECEIPT_HEAD_PRODUCED = (s.fld Fld.RECEIPT_HEAD_PRODUCED + 1) % 2 ^ 32) ∧
     (o.phase = .accepted → o.final = none → o.finalPosted = false → exec (.receiptPost t seq) s = .next (s.tick t)))

/-- RECEIPT_HEAD.CONSUMED (R270). -/
def Obligations.ReceiptConsumed : Prop :=
  ∀ (t n : Nat) (a : RegAcc) (s : State), s.reach a.port .RECEIPT_HEAD = true →
    accField a Fld.RECEIPT_HEAD_CONSUMED = some n →
    let room := s.logBase = 0 ∨ (s.fld Fld.RECEIPT_HEAD_PRODUCED + 2 ^ 32 - n) % 2 ^ 32 < s.ringSize
    (s.intake.held = [] → ∃ u, exec (.receiptConsumed t a) s = .next u ∧ u.fld Fld.RECEIPT_HEAD_CONSUMED = n ∧
      u.fld Fld.RECEIPT_HEAD_PRODUCED = s.fld Fld.RECEIPT_HEAD_PRODUCED ∧ (u.logFull = true ↔ ¬ room) ∧
      State.keeps s u [.RECEIPT_HEAD, .INTAKE_STAT] ∧
      u = { s.tick t with regs := u.regs, intake := { s.intake with slots := u.intake.slots } }) ∧
    ∀ r, s.intake.held = [r] → r.own = false → s.intakeOn = true → s.boot.recovering = none → room →
      ∃ u, exec (.receiptConsumed t a) s = .next u ∧ u.intake.held = [] ∧
        u.fld Fld.RECEIPT_HEAD_PRODUCED = (s.fld Fld.RECEIPT_HEAD_PRODUCED + 1) % 2 ^ 32

/-- INTAKE_CTL's actions (R267, R277, R278). -/
def Obligations.IntakeControl : Prop :=
  ∀ (t : Nat) (a : RegAcc) (s : State), s.reach a.port .INTAKE_CTL = true →
    (accSets a Fld.INTAKE_CTL_RESUME = true → accSets a Fld.INTAKE_CTL_FORCE_OPEN = false → s.intakeOn = true →
      accField a Fld.INTAKE_CTL_ENABLE = some 1 →
      ∃ u, exec (.intakeResume t a) s = .next u ∧ u.flag Fld.INTAKE_STAT_HELD = false ∧ u.intakeOn = true ∧
        State.onlyEvents (s.tick t) u [.INTAKE_CTL, .INTAKE_STAT] ∧ State.noted (s.tick t) u .INTAKE_CTL) ∧
    (∀ o r, s.intakeOn = false → accField a Fld.INTAKE_CTL_ENABLE = some 1 →
      accSets a Fld.INTAKE_CTL_RESUME = false → accSets a Fld.INTAKE_CTL_FORCE_OPEN = false →
      s.boot.recovering = none → s.intake.held = [] → s.intake.orders = [o] → o.phase = .accepted →
      o.acceptedPosted = true → o.finalPosted = false → o.final = none → o.latest = some r → r.seq = o.seq →
      r.own = true → s.logRoom = true →
      ∃ u x, exec (.intakeEnable t a) s = .next u ∧ u.intakeOn = true ∧ u.order o.seq = some x ∧
        (∃ q, x.latest = some q ∧ q.flags.testBit 1 = true ∧ q.kind = r.kind ∧ q.code = r.code) ∧
        u.fld Fld.RECEIPT_HEAD_PRODUCED = (s.fld Fld.RECEIPT_HEAD_PRODUCED + 1) % 2 ^ 32) ∧
    (accSets a Fld.INTAKE_CTL_FORCE_OPEN = true → accSets a Fld.INTAKE_CTL_RESUME = false →
      s.boot.recovering.isSome = true → s.readyUp = true → s.recoveryWaits = true →
      let v := ((s.tick t).writeFields .INTAKE_CTL a).noteConfig .INTAKE_CTL a.port.source
      exec (.forceOpen t a) s =
        .next ((({ v with boot := { s.boot with forced := true } }).record 0x1017 0).recover))

/-- Intake configuration (R291) and the durability policy (R273). -/
def Obligations.IntakeConfiguration : Prop :=
  (∀ (which : IntakeReg) (t : Nat) (a : RegAcc) (s : State),
    let r := match which with
      | .nextSeq => Reg.INTAKE_NEXT_SEQ
      | .base => Reg.RECEIPT_BASE
      | .size => Reg.RECEIPT_SIZE
    s.reach a.port r = true →
    ((s.intakeOn = true ∨ (which = .nextSeq ∧ ∃ o ∈ s.intake.orders, o.phase ≠ .journaled)) →
      exec (.intakeConfigWrite t which a) s = .next ((s.tick t).record 0x100E (r.offset % 65536) a.port.source)) ∧
    (s.intakeOn = false → (∀ o ∈ s.intake.orders, o.phase = .journaled) →
      ∃ u, exec (.intakeConfigWrite t which a) s = .next u ∧
        State.onlyEvents { s.tick t with intake := { s.intake with slots := u.intake.slots } } u [r, .INTAKE_STAT] ∧
        State.noted (s.tick t) u r ∧
        ∀ f ∈ r.layout, bitsOf (u.reg r).toNat f.lo f.w = fieldAfter r a f (bitsOf (s.reg r).toNat f.lo f.w))) ∧
  ∀ (t n : Nat) (a : RegAcc) (s : State), s.reach a.port .DURABILITY_POLICY = true →
    accField a Fld.DURABILITY_POLICY_POLICY = some n → n < 3 →
    ∃ u, exec (.durabilityPolicyWrite t a) s = .next u ∧ State.noted (s.tick t) u .DURABILITY_POLICY ∧
      State.onlyEvents { s.tick t with jrnl := { s.jrnl with short := u.jrnl.short } } u
        [.DURABILITY_POLICY, .INTAKE_STAT] ∧
      u.fld Fld.DURABILITY_POLICY_POLICY =
        (if s.optJ = false ∧ n ≠ 0 then s.fld Fld.DURABILITY_POLICY_POLICY else n) ∧
      (s.optJ = false → n ≠ 0 → ∃ v, u = State.record v 0x100B 0 a.port.source)

/-- Sending under credit (R281). -/
def Obligations.JournalSending : Prop :=
  ∀ (t port : Nat) (s : State), s.cUp = true →
    (2 ≤ port → exec (.journalFrameSend t port) s = .fault .noSuchUnit) ∧
    (∀ n retx rest f, port < 2 → s.fld (jState port) = 3 → (s.jport port).queue = (n, retx) :: rest →
      s.jrnl.frames.find? (·.fseq == n) = some f →
      ((s.jport port).used + (68 + f.payload.length + 4095) / 4096 ≤ (s.jport port).credit →
        ∃ u, exec (.journalFrameSend t port) s = .next u ∧
          u.emitted = .journal port (f.wire s.fuse.serial port retx) :: s.emitted ∧
          u.jport port = { s.jport port with
            queue := rest
            used := (s.jport port).used + (68 + f.payload.length + 4095) / 4096
            unacked := (s.jport port).unacked ++ [(f.fseq, max s.now t)] } ∧
          u.jport (1 - port) = s.jport (1 - port) ∧
          u.fld (jRetx port) = (if retx then satAdd (jRetx port).w (s.fld (jRetx port)) 1 else s.fld (jRetx port)) ∧
          State.keeps s u [.JRNL_RETX] ∧
          u = { s.tick t with regs := u.regs, emitted := u.emitted,
                              jrnl := { s.jrnl with j0 := u.jrnl.j0, j1 := u.jrnl.j1 } }) ∧
      ((s.jport port).credit < (s.jport port).used + (68 + f.payload.length + 4095) / 4096 →
        exec (.journalFrameSend t port) s = .next (s.tick t))) ∧
    ∀ bytes, port < 2 → s.fld (jState port) = 3 →
      (wireOk bytes = true → fieldAt bytes 3 1 = 0x11 →
        ∃ u, exec (.journalCredit t port bytes) s = .next u ∧
          (u.jport port).credit = max (s.jport port).credit (fieldAt bytes 64 8) ∧
          u = { s.tick t with emitted := u.emitted, jrnl := { s.jrnl with j0 := u.jrnl.j0, j1 := u.jrnl.j1 } } ∧
          ((s.jport port).fetchDue = none → u.emitted = s.emitted ∧
            u.jport port = { s.jport port with credit := max (s.jport port).credit (fieldAt bytes 64 8) })) ∧
      (wireOk bytes = false →
        exec (.journalCredit t port bytes) s =
          .next ((s.tick t).record 0x1018 (port + fieldAt bytes 3 1 * 256)))

/-- Acknowledgement and its timeout (R283). -/
def Obligations.JournalAcknowledgement : Prop :=
  ∀ (t port : Nat) (s : State), port < 2 → s.cUp = true → s.fld (jState port) = 3 →
    let p := s.jport port
    let down (u : State) := (u.jport port).queue = [] ∧ (u.jport port).unacked = [] ∧ u.fld (jState port) = 1 ∧
      ∃ v, u = State.record v 0x1012 port
    (∀ bytes, wireOk bytes = true → fieldAt bytes 3 1 = 0x10 →
      (s.fld (jAcked port) < fieldAt bytes 64 8 → s.policyShort = false →
        ∃ u, exec (.journalAck t port bytes) s = .next u ∧
        u.fld (jAcked port) = fieldAt bytes 64 8 ∧ (u.jport port).expiries = 0 ∧
        (u.jport port).queue = p.queue.filter (fun f => decide (fieldAt bytes 64 8 < f.1)) ∧
        (u.jport port).unacked = p.unacked.filter (fun f => decide (fieldAt bytes 64 8 < f.1)) ∧
        u.jport (1 - port) = s.jport (1 - port)) ∧
      (fieldAt bytes 64 8 ≤ s.fld (jAcked port) → exec (.journalAck t port bytes) s =
        .next ((s.tick t).onPort port fun q => { q with ackAt := some (max s.now t) }))) ∧
    (∀ bytes, wireOk bytes = false → exec (.journalAck t port bytes) s =
      .next ((s.tick t).record 0x1018 (port + fieldAt bytes 3 1 * 256))) ∧
    (∀ n c rest, p.unacked = (n, c) :: rest →
      ((s.tick t).past (max c p.advanced + s.fld Fld.JRNL_CTL_ACK_TIMEOUT) = true → p.expiries + 1 < s.fld Fld.JRNL_CTL_RETRIES →
        ∃ u, exec (.journalAckTimeout t port) s = .next u ∧
          u.jport port = { p with
            queue := p.unacked.map (fun f => (f.1, true)) ++ p.queue, unacked := [], expiries := p.expiries + 1 } ∧
          u = { s.tick t with jrnl := { s.jrnl with j0 := u.jrnl.j0, j1 := u.jrnl.j1 } }) ∧
      ((s.tick t).past (max c p.advanced + s.fld Fld.JRNL_CTL_ACK_TIMEOUT) = true → s.fld Fld.JRNL_CTL_RETRIES ≤ p.expiries + 1 →
        ∃ u, exec (.journalAckTimeout t port) s = .next u ∧ down u) ∧
      ((s.tick t).past (max c p.advanced + s.fld Fld.JRNL_CTL_ACK_TIMEOUT) = false →
        exec (.journalAckTimeout t port) s = .next (s.tick t))) ∧
    ∃ u, exec (.journalLossOfLight t port) s = .next u ∧ down u

/-- Training of a journal port (R282). -/
def Obligations.JournalTraining : Prop :=
  ∀ (t port : Nat) (s : State), port < 2 → s.cUp = true →
    let training (u : State) := u.fld (jState port) = 2 ∧ (u.jport port).queue = [] ∧
      ∃ b, Emission.journal port b ∈ u.emitted ∧ fieldAt b 3 1 = 0x0E
    (s.optJ = true → s.fld (jState port) ≠ 0 → ∃ u, exec (.journalLinkUp t port) s = .next u ∧ training u) ∧
    (∀ a, s.reach a.port .JRNL_CTL = true → s.optJ = true → s.fld (jState port) ≠ 0 →
      accSets a (jRetrain port) = true →
      ∃ u c, exec (.jrnlRetrain t a) s = .next u ∧ training u ∧ c ∈ u.jrnl.configs ∧ c.offset = Reg.JRNL_CTL.offset) ∧
    (∀ bytes, s.fld (jState port) = 2 → wireOk bytes = true → fieldAt bytes 3 1 = 0x12 →
      (s.tick t).swNow (jRetrain port) = false →
      s.boot.recovering ≠ some .warm → s.boot.recovering ≠ some .cold →
      (s.jrnl.frames = [] ∨ s.oldestFseq ≤ fieldAt bytes 64 8 + 1) → s.policyNow ≤ 1 →
      ∃ u, exec (.trainReply t port bytes) s = .next u ∧ u.fld (jState port) = 3 ∧
        (u.jport port).credit = fieldAt bytes 72 8 ∧ (u.jport port).used = 0 ∧ (u.jport port).resync = none ∧
        (u.jport port).queue = (s.jrnl.frames.filter fun f => decide (fieldAt bytes 64 8 < f.fseq)).map
          fun f => (f.fseq, true))

/-- Recovery (R277, R412) and answered host reads (R324). -/
def Obligations.RecoveryRows : Prop :=
  (∀ (t port : Nat) (bytes : List Byte) (s : State), port < 2 → s.cUp = true → s.fld (jState port) = 3 →
    s.fld (jState (1 - port)) = 2 →
    (wireOk bytes = true → fieldAt bytes 3 1 = 0x13 → wireOk (wirePayload bytes) = true →
      let got := s.jrnl.replayed ++ [JFrame.ofWire (wirePayload bytes) s.policyNow]
      exec (.replay t port bytes) s = .next { s.tick t with jrnl := { s.jrnl with replayed := got } }) ∧
    (wireOk bytes = false → exec (.replay t port bytes) s =
      .next ((s.tick t).record 0x1018 (port + fieldAt bytes 3 1 * 256)))) ∧
  (∀ (t : Nat) (s : State), s.boot.recovering = none → s.reloadDue = false →
    exec (.recovery t) s = .next (s.tick t)) ∧
  (∀ (t : Nat) (s : State), s.cUp = true → s.boot.recovering = some .flr → s.stept.stepOn = false →
    s.dig.rerunTo = none → s.dig.reload = 0 → s.intake.orders = [] → s.intake.held = [] → s.dig.script = [] →
    ∃ u, exec (.recovery t) s = .next u ∧ u.boot.recovering = none ∧ u.flag Fld.INTAKE_STAT_RECOVERING = false) ∧
  ∀ (t seq slot addr len err : Nat) (d : List Byte) (s : State), s.cUp = true → s.ports.busMaster = true →
    (∀ r ∈ s.rows, r.seq ≠ seq) → s.dig.reload = 0 → s.askedFor seq slot = some (seq, slot, addr, len) →
    ((err = 0 ∧ d.length = len) ∨ (1 ≤ err ∧ err ≤ 4 ∧ d.length < len)) →
    ∃ u, exec (.hostReadCompletion t seq slot d err) s = .next u ∧
      u.intake = { s.intake with
        asked := s.intake.asked.filter fun q => !(q.1 == seq && q.2.1 == slot)
        fetches := s.intake.fetches ++ [⟨seq, slot, d, err⟩] } ∧
      (err = 0 → u.regs = s.regs) ∧
      (err ≠ 0 → u.fld Fld.HOST_ERR_READ_FAILS = satAdd Fld.HOST_ERR_READ_FAILS.w (s.fld Fld.HOST_ERR_READ_FAILS) 1)

/-- Frames of the Campanile link (R40, R41, R50, R52) and the application of marks (R46, R53). -/
def Obligations.CampanileFrames : Prop :=
  ∀ (t : Nat) (p : Bool) (b : List Byte) (s : State), s.cUp = true →
    let now := max s.now t
    let v := s.tick t
    let noted : State := { v with stept := { s.stept with recent := [(b, now)] } }
    let good (typ : Nat) : Prop := frameCrcOk typ b = true ∧ frameFieldsOk typ b = true
    (v.inFrame p b = false → exec (.markFrame t p b) s = .next v ∧ exec (.phaseFrame t p b) s = .next v ∧
      exec (.waitFrame t p b) s = .next v) ∧
    (v.inFrame p b = true →
      (∀ x ∈ [(1, Instr.markFrame t p b), (2, .phaseFrame t p b), (3, .readyFrame t b), (4, .waitFrame t p b)],
        (frameCrcOk x.1 b = false → exec x.2 s = .next (v.record 0x2006 (fieldAt b 0 1 + 256))) ∧
        (frameCrcOk x.1 b = true → frameFieldsOk x.1 b = false →
          exec x.2 s = .next (v.record 0x2006 (fieldAt b 0 1)))) ∧
      (good 1 → s.stepSrc ≠ 0 → exec (.markFrame t p b) s = .next noted) ∧
      (good 1 → s.stepSrc = 0 → s.stept.run = none → s.inHoldover = false → s.holds = false →
        s.stept.predicted = none → s.accOf (fieldAt b 22 2) ≤ fieldAt b 20 2 →
        ∃ u, exec (.markFrame t p b) s = .next u ∧
          u.stept.marks = s.stept.marks ++ [⟨false, fieldAt b 4 8, 0, fieldAt b 2 1, fieldAt b 3 1, fieldAt b 12 5,
            s.accOf (fieldAt b 22 2), fieldAt b 20 2, false,
            now + (fieldAt b 20 2 - s.accOf (fieldAt b 22 2)), true⟩] ∧
          u.stept.instant = some (fieldAt b 4 8, now) ∧ u.stept.latest = some (fieldAt b 4 8) ∧
          u.emitted = (if s.driveOut then .campOut (markFrame (fieldAt b 1 1) (fieldAt b 2 1) (fieldAt b 3 1)
            (fieldAt b 4 8) (fieldAt b 12 8) (fieldAt b 20 2) (s.accOf (fieldAt b 22 2))) :: s.emitted
            else s.emitted) ∧
          u = { noted with
            emitted := u.emitted
            stept := { noted.stept with
              marks := u.stept.marks, instant := u.stept.instant, latest := u.stept.latest
              period := u.stept.period } }) ∧
      (good 2 → s.stepSrc ≠ 0 → exec (.phaseFrame t p b) s = .next noted) ∧
      (good 2 → s.stepSrc = 0 → (s.stept.anchor = none ∨ fieldAt b 4 4 ≠ s.stepNow % 2 ^ 32) →
        exec (.phaseFrame t p b) s = .next (noted.record 0x2005 (fieldAt b 4 4))) ∧
      (∀ a c, good 2 → s.stepSrc = 0 → s.stept.anchor = some a → s.stept.stepMark = some c →
        fieldAt b 4 4 = s.stepNow % 2 ^ 32 → s.phaseInStep c (fieldAt b 2 2) = true →
        s.accOf (fieldAt b 8 2) ≤ c.dTotal →
        ∃ u, exec (.phaseFrame t p b) s = .next u ∧
          u.stept.marks = s.stept.marks ++ [{ c with
            isPhase := true, phase := fieldAt b 2 2, step := s.stepNow, acc := s.accOf (fieldAt b 8 2), fromLink := true
            applyAt := now + (c.dTotal - s.accOf (fieldAt b 8 2)) + s.fld Fld.STEP_PHASE_LAG }] ∧
          u.emitted = (if s.driveOut then .campOut (phaseFrame (fieldAt b 2 2) (fieldAt b 4 4)
            (s.accOf (fieldAt b 8 2))) :: s.emitted else s.emitted) ∧
          u = { noted with emitted := u.emitted, stept := { noted.stept with marks := u.stept.marks } }) ∧
      (good 4 → s.stept.run.isSome = true → s.nextStep ≠ some (fieldAt b 4 8) →
        exec (.waitFrame t p b) s = .next (noted.record 0x2005 (fieldAt b 4 8))) ∧
      (good 4 → (s.stept.run = none ∨ s.nextStep = some (fieldAt b 4 8)) →
        let out := if s.driveOut = true ∧ s.inHoldover = false then .campOut b :: s.emitted else s.emitted
        exec (.waitFrame t p b) s = .next
          (if s.stept.predicted.isSome = true ∧ s.stepSrc = 0 then
            { noted with emitted := out, stept := { noted.stept with predicted := some (now + 65536) } }
           else { noted with emitted := out }))) ∧
    (good 3 →
      let counts := s.stept.waitSince.any fun w => v.meets (w + s.stept.effMargin) && decide (s.awaited ≤ fieldAt b 4 8)
      let w := if counts then v.incFld Fld.STEP_AT_LIMIT_BARRIER else v
      exec (.readyFrame t b) s = .next
        (({ w with stept := { s.stept with
            ready := some (fieldAt b 4 8)
            maxAcc := max s.stept.maxAcc (fieldAt b 2 2)
            downWait := true } } : State).trySendReady)) ∧
    (∀ m ms r, dueMark now s.stept.marks = some (m, ms) → m.isPhase = false → s.stept.run = some r →
      s.stept.anchor = none →
      (m.step < r.next → ∃ w, exec (.markApply t) s = .next (State.record w 0x2005 m.step) ∧ w.stept.marks = ms ∧
        w.stept.applied = s.stept.applied) ∧
      (r.next ≤ m.step → ∃ u, exec (.markApply t) s = .next u ∧ u.stept.marks = ms ∧
        u.stept.applied = s.stept.applied ++ [(m, if s.stept.applied.length < 256 then some now else none)] ∧
        u.stept.current = some m ∧ (m.fromLink = true → u.flag Fld.STEP_STAT_LOCKED = true) ∧
        u.fld Fld.STEP_SKEW_COMP_ACC_DELAY = min m.acc 0xFFFF ∧
        State.keeps s u [.STEP_SKEW_COMP, .STEP_STAT] ∧
        u = { v with regs := u.regs, stept := u.stept })) ∧
    (∀ m ms, dueMark now s.stept.marks = some (m, ms) → m.isPhase = true →
      ∃ u, exec (.markApply t) s = .next u ∧ u.stept.marks = ms ∧ u.stept.applied = s.stept.applied ∧
        u.fld Fld.STEP_SKEW_COMP_ACC_DELAY = min m.acc 0xFFFF ∧
        (s.stept.anchor.isSome = true → m.step = s.stepNow → m.phase < 65536 →
          u.phi = max s.phi m.phase ∧ u.stept.anchor.map (·.m) = some m.phase)) ∧
    (v.inFrame p b = true → good 1 → s.stepSrc = 0 →
      let step := fieldAt b 4 8
      let acc := s.accOf (fieldAt b 22 2)
      let late := s.nextStep.any fun n => decide (step < n)
      let ends := (s.inHoldover || s.holds) && !late && s.stept.lossAt != some now
      ∃ u, exec (.markFrame t p b) s = .next u ∧ u.stept.latest = some step ∧
        u.stept.instant = (if late then s.stept.instant else some (step, now)) ∧
        u.stept.marks = (if ends then s.stept.marks.filter (!·.holdover) else s.stept.marks) ++ [⟨false, step, 0,
          fieldAt b 2 1, fieldAt b 3 1, fieldAt b 12 5, acc, fieldAt b 20 2, false, now + (fieldAt b 20 2 - acc), true⟩] ∧
        u.stept.applied = (if ends then s.stept.applied.filter (!·.1.holdover) else s.stept.applied) ∧
        u.inHoldover = (s.inHoldover && !ends) ∧ u.holds = (s.holds && !ends) ∧ u.runOn = s.runOn) ∧
    (∀ a c, v.inFrame p b = true → good 2 → s.stepSrc = 0 → s.stept.anchor = some a → s.stept.stepMark = some c →
      fieldAt b 4 4 = s.stepNow % 2 ^ 32 →
      (s.phaseInStep c (fieldAt b 2 2) = false → exec (.phaseFrame t p b) s = .next (noted.record 0x2006 2)) ∧
      (s.phaseInStep c (fieldAt b 2 2) = true → ∃ u, exec (.phaseFrame t p b) s = .next u ∧
        u.stept.marks = s.stept.marks ++ [{ c with
          isPhase := true, phase := fieldAt b 2 2, step := s.stepNow, acc := s.accOf (fieldAt b 8 2), fromLink := true
          applyAt := now + (c.dTotal - s.accOf (fieldAt b 8 2)) + s.fld Fld.STEP_PHASE_LAG }])) ∧
    ∀ m ms, dueMark now s.stept.marks = some (m, ms) → m.isPhase = false → s.nextStep.all (fun n => decide (n ≤ m.step)) = true →
      ∃ u, exec (.markApply t) s = .next u ∧ u.stept.marks = ms ∧ u.stept.current = some m ∧
        u.stept.applied = s.stept.applied ++
          (if s.runOn then [(m, if s.stept.applied.length < 256 then some now else none)] else []) ∧
        u.fld Fld.STEP_SKEW_COMP_ACC_DELAY = min m.acc 0xFFFF ∧ u.stepNow = s.stepNow

/-- Generation of marks (R38, R39), the barrier (R51, R52), and configuration (R36, R37, R42). What a first transmitted
mark takes as D_TOTAL is the model's choice (log 23). -/
def Obligations.MarkSources : Prop :=
  (∀ (t n : Nat) (a : RegAcc) (s : State), s.reach a.port .STEP_ADVANCE = true →
    accField a Fld.STEP_ADVANCE_COUNT = some n →
    let c := s.fld Fld.STEP_STAT_ADV_CREDIT + n
    ∃ u, exec (.stepAdvance t a) s = .next u ∧ u.fld Fld.STEP_STAT_ADV_CREDIT = min c 0xFFFFFFFF ∧
      u.flag Fld.STEP_STAT_ADV_SAT = (s.flag Fld.STEP_STAT_ADV_SAT || decide (0xFFFFFFFF < c)) ∧
      State.onlyEvents (s.tick t) u [.STEP_STAT] ∧
      u.jrnl.configs = ⟨Reg.STEP_ADVANCE.offset, n, s.stepNow, s.phi⟩ :: s.jrnl.configs) ∧
  (∀ (t : Nat) (r : RunSt) (s : State), s.cUp = true → s.boot.recovering = none → s.stept.run = some r →
    s.stept.gen = none → r.b ≤ max s.now t → r.next ≤ r.first → s.stept.anchor = none →
    ((s.stepSrc = 1 ∨ (s.stepSrc = 2 ∧ s.fld Fld.STEP_STAT_ADV_CREDIT ≠ 0)) →
      ∃ u, exec (.markGenerate t) s = .next u ∧ u.stept.gen = some (r.first, max s.now t) ∧
        u.stept.latest = some r.first ∧
        (s.stepSrc = 2 → u.fld Fld.STEP_STAT_ADV_CREDIT = s.fld Fld.STEP_STAT_ADV_CREDIT - 1) ∧
        (s.stepSrc = 1 → u.fld Fld.STEP_STAT_ADV_CREDIT = s.fld Fld.STEP_STAT_ADV_CREDIT) ∧
        State.keeps s u [.STEP_STAT, .STEP_SKEW_COMP] ∧
        let pl2 := s.fld Fld.STEP_CTL_PHASES_LOG2
        let per := s.fld Fld.STEP_CTL_PERIOD
        let m (d : Nat) : Mark := ⟨false, r.first, 0, pl2, pl2, per, 0, d, false, max s.now t + d, false⟩
        if s.driveOut then
          u.stept.marks = s.stept.marks ++ [m s.stept.maxAcc] ∧ u.stept.applied = s.stept.applied ∧
          u.emitted = .campOut (markFrame (s.barrierPolicy.toNat * 2) pl2
            (strideFor per pl2 (s.fld Fld.STEP_CTL_STRIDE_LOG2)) r.first per s.stept.maxAcc 0) :: s.emitted ∧
          u = { s.tick t with regs := u.regs, stept := u.stept, emitted := u.emitted }
        else
          u.stept.applied =
            s.stept.applied ++ [(m 0, if s.stept.applied.length < 256 then some (max s.now t) else none)] ∧
          u = { s.tick t with regs := u.regs, stept := u.stept }) ∧
    (s.stepSrc = 2 → s.fld Fld.STEP_STAT_ADV_CREDIT = 0 → exec (.markGenerate t) s = .next (s.tick t))) ∧
  (∀ (t w : Nat) (s : State), s.cUp = true → s.stept.waitSince = some w →
    (s.inHoldover = false → w + 65536 * (s.stept.waitsSent + 1) ≤ max s.now t → exec (.waitSend t) s = .next
      (({ s.tick t with stept := { s.stept with waitsSent := s.stept.waitsSent + 1 } }).emit
        (.campOut (waitFrame (match s.stept.gen with | some g => g.1 + 1 | none => 0))))) ∧
    (s.stept.slowSaid = false → (s.tick t).past (w + s.stept.effMargin) = true → exec (.barrierSlow t) s = .next
      (({ s.tick t with stept := { s.stept with slowSaid := true } }).record 0x200A
        (match s.stept.gen with | some g => g.1 + 1 | none => 0))) ∧
    ((s.tick t).past (w + s.stept.effMargin) = false → exec (.barrierSlow t) s = .next (s.tick t))) ∧
  (∀ (t step point : Nat) (s : State), s.cUp = true → s.boot.recovering = none →
    (s.tick t).dueGeneration = some (step, point) →
    ((s.tick t).barrierHolds step = true → s.stept.waitSince = none → ∃ u, exec (.markGenerate t) s = .next u ∧
      u.stept = { s.stept with
        waitSince := some point
        waitsSent := 0
        slowSaid := false } ∧ u.flag Fld.STEP_STAT_BARRIER_WAIT = true) ∧
    ((s.tick t).barrierHolds step = false → ∃ u, exec (.markGenerate t) s = .next u ∧
      u.stept.gen = some (step, max s.now t) ∧ u.stept.latest = some step ∧ u.stept.waitSince = none ∧
      u.flag Fld.STEP_STAT_BARRIER_WAIT = false ∧ u.fld Fld.STEP_STAT_ADV_CREDIT =
        (if s.stepSrc = 2 then s.fld Fld.STEP_STAT_ADV_CREDIT - 1 else s.fld Fld.STEP_STAT_ADV_CREDIT) ∧
      (s.driveOut = true → ∃ m, u.stept.marks = s.stept.marks ++ [m] ∧ m.step = step ∧ m.acc = 0 ∧ m.fromLink = false))) ∧
  ∀ (t : Nat) (a : RegAcc) (s : State), a.half = .whole →
    let v := a.value.toNat
    (∀ ctl : Bool, let r := if ctl then Reg.STEP_CTL else .STEP_SRC
      s.reach a.port r = true → s.running = true → exec (.stepConfigWrite t ctl a) s =
        .next (((s.tick t).noteOwn r).record 0x2008 (r.offset % 65536 + 65536) a.port.source)) ∧
    (s.reach a.port .STEP_CTL = true → s.running = false →
      let legal := 8 ≤ bitsOf v 40 5 ∧ bitsOf v 40 5 ≤ 16 ∧ 4096 ≤ bitsOf v 0 40 ∧ 4 * 2 ^ bitsOf v 40 5 ≤ bitsOf v 0 40
      (legal →
        ∃ u, exec (.stepConfigWrite t true a) s = .next u ∧ u.fld Fld.STEP_CTL_PERIOD = bitsOf v 0 40 ∧
          u.fld Fld.STEP_CTL_PHASES_LOG2 = bitsOf v 40 5 ∧ u.fld Fld.STEP_CTL_STRIDE_LOG2 = bitsOf v 48 5 ∧
          State.onlyEvents (s.tick t) u [.STEP_CTL] ∧ State.noted (s.tick t) u .STEP_CTL) ∧
      (¬ legal → exec (.stepConfigWrite t true a) s =
        .next (((s.tick t).noteOwn .STEP_CTL).record 0x2008 (Reg.STEP_CTL.offset % 65536) a.port.source))) ∧
    (s.reach a.port .STEP_SRC = true → s.running = false →
      (bitsOf v 0 2 ≠ 3 →
        ∃ u, exec (.stepConfigWrite t false a) s = .next u ∧ u.stepSrc = bitsOf v 0 2 ∧
          u.driveOut = (s.optC && v.testBit 4) ∧ State.onlyEvents (s.tick t) u [.STEP_SRC] ∧
          State.noted (s.tick t) u .STEP_SRC ∧
          (s.optC = false → v.testBit 4 = true → ∃ w, u = State.record w 0x2009 0 a.port.source)) ∧
      (bitsOf v 0 2 = 3 → exec (.stepConfigWrite t false a) s =
        .next (((s.tick t).noteOwn .STEP_SRC).record 0x2008 (Reg.STEP_SRC.offset % 65536) a.port.source)))

/-- Loss of the reference (R54 to R56), pairs and echoes (R329, R330). -/
def Obligations.ReferenceLoss : Prop :=
  (∀ (t p : Nat) (s : State), s.cUp = true → s.stept.run.isSome = true → s.stepSrc = 0 → s.inHoldover = false →
    s.holds = false → s.stept.predicted = some p → s.stept.lossAt = none → s.stept.stepOn = true →
    ((s.tick t).past (p + s.stept.effMargin) = true → ∃ u, exec (.referenceLost t) s = .next u ∧ u.inHoldover = true ∧
      u.flag Fld.STEP_STAT_LOCKED = false ∧
      u.fld Fld.STEP_HOLDOVER_ENTRIES = satAdd Fld.STEP_HOLDOVER_ENTRIES.w (s.fld Fld.STEP_HOLDOVER_ENTRIES) 1 ∧
      u.stept.endHold = (s.stept.effLimit == 0) ∧ u.stept.genStopped = false ∧ u.stept.gen.isSome = true) ∧
    ((s.tick t).past (p + s.stept.effMargin) = false → exec (.referenceLost t) s = .next (s.tick t))) ∧
  (∀ (t : Nat) (s : State), s.cUp = true → s.stept.run = none →
    exec (.campanileLossOfLight t) s = .next
      ((({ s.tick t with stept := { s.stept with
          inA := { s.stept.inA with up := false }
          inB := { s.stept.inB with up := false } } }).setFlag Fld.STEP_STAT_LINK_UP false).setFlag
        Fld.STEP_STAT_LOCKED false)) ∧
  (∀ (t : Nat) (s : State), s.cUp = true → s.stept.run.isSome = true → s.stepSrc = 0 → s.inHoldover = false →
    s.holds = false → s.stept.predicted.isSome = true →
    let u0 := s.stept.instant.any (·.2 == max s.now t)
    ∃ u, exec (.campanileLossOfLight t) s = .next u ∧ u.inHoldover = !u0 ∧ u.flag Fld.STEP_STAT_LINK_UP = false ∧
      u.stept.inA.up = false ∧ u.stept.inB.up = false ∧ u.stept.lossAt = some (max s.now t) ∧
      u.fld Fld.STEP_HOLDOVER_ENTRIES = (if u0 then s.fld Fld.STEP_HOLDOVER_ENTRIES
        else satAdd Fld.STEP_HOLDOVER_ENTRIES.w (s.fld Fld.STEP_HOLDOVER_ENTRIES) 1)) ∧
  (∀ (t : Nat) (s : State), s.cUp = true → s.stept.run.isSome = true → s.stepSrc = 0 → s.inHoldover = false →
    s.holds = false → ((s.tick t).lossCounts = true ∨
      s.stept.predicted.any (fun p => (s.tick t).past (p + s.stept.effMargin)) = true) →
    ∃ u, exec (.referenceLost t) s = .next u ∧ u.inHoldover = true ∧ u.flag Fld.STEP_STAT_LOCKED = false ∧
      u.fld Fld.STEP_HOLDOVER_ENTRIES = satAdd Fld.STEP_HOLDOVER_ENTRIES.w (s.fld Fld.STEP_HOLDOVER_ENTRIES) 1 ∧
      u.stept.genStopped = false ∧ u.stept.gen.isSome = true ∧ u.stept.marks = s.stept.marks) ∧
  (∀ (t g c : Nat) (s : State), s.cUp = true → s.stept.run.isSome = true → s.inHoldover = true → s.holds = false →
    s.stept.genStopped = false → s.stept.gen = some (g, c) → c + s.heldPeriod ≤ max s.now t →
    ∃ u m, exec (.holdoverMark t) s = .next u ∧ u.stept.marks = s.stept.marks ++ [m] ∧ m.step = g + 1 ∧
      m.holdover = true ∧ m.applyAt = max s.now t + s.fld Fld.STEP_SKEW_COMP_APPLIED ∧
      u.stept.gen = some (g + 1, c + s.heldPeriod) ∧ u = { s.tick t with
        emitted := u.emitted
        stept := u.stept } ∧ u.emitted = (if s.driveOut then .campOut (markFrame 1 m.phasesLog2 m.phasesLog2 (g + 1)
          s.heldPeriod m.dTotal m.acc) :: s.emitted else s.emitted)) ∧
  (∀ (t : Nat) (s : State), s.cUp = true → s.downUp = true →
    let w : State :=
      ({ s.tick t with stept := { s.stept with outA := false, outB := false, downWait := false } }).record 0x200B 0
    exec (.downstreamDown t) s = .next w.trySendReady ∧ (s.stept.readyDue = none → w.trySendReady = w)) ∧
  (∀ (t : Nat) (s : State), s.cUp = true → exec (.campanileFailover t true) s = .next
      (({ s.tick t with stept := { s.stept with outA := !s.stept.outA, outB := s.stept.outA } }).record 0x7010
        (1 + 256 * s.stept.outA.toNat))) ∧
  (∀ (t : Nat) (s : State), s.cUp = true → ∃ v, exec (.campanileFailover t false) s =
      .next (State.record v 0x7010 (256 * (!s.stept.useB).toNat)) ∧ v.stept.useB = (!s.stept.useB) ∧
      v.fld Fld.STEP_SKEW_COMP_HOP_DELAY = min v.hopDelay 0xFFFF) ∧
  (∀ (t : Nat) (b : Bool) (s : State), s.cUp = true → exec (.campanileLinkUp t true b) s = .next { s.tick t with
      stept := { s.stept with
        outA := s.stept.outA || !b
        outB := s.stept.outB || b } }) ∧
  (∀ (t : Nat) (b : Bool) (s : State), s.cUp = true →
    let pair (x : StepT) (k : Bool) : Pair := if k then x.inB else x.inA
    ∃ u, exec (.campanileLinkUp t false b) s = .next u ∧ u.flag Fld.STEP_STAT_LINK_UP = true ∧
      pair u.stept b = { pair s.stept b with
        up := true
        echoCount := 0
        echoSum := 0
        echoSent := (List.range 64).map fun i => (i, max s.now t) } ∧
      pair u.stept (!b) = pair s.stept (!b) ∧
      u.stept.useB = (if (pair s.stept (!b)).up then s.stept.useB else b)) ∧
  (∀ (t id c : Nat) (b : Bool) (s : State), s.cUp = true → id < 64 →
    let pair (x : StepT) (k : Bool) : Pair := if k then x.inB else x.inA
    let q := pair s.stept b
    let sum := q.echoSum + (max s.now t - c)
    (if b then s.stept.inB.echoSent else s.stept.inA.echoSent).find? (·.1 == id) = some (id, c) →
    ∃ u, exec (.echoReceived t true b id) s = .next u ∧ pair u.stept b = { q with
        echoSent := q.echoSent.filter (·.1 != id)
        echoSum := sum
        echoCount := q.echoCount + 1
        hop := if q.echoCount = 63 then (sum + 64) / 128 else q.hop } ∧
      pair u.stept (!b) = pair s.stept (!b) ∧ u.fld Fld.STEP_SKEW_COMP_HOP_DELAY = min u.hopDelay 0xFFFF) ∧
  (∀ (t id : Nat) (b : Bool) (s : State), s.cUp = true → id < 64 → exec (.echoReceived t false b id) s = .next
      { s.tick t with stept := { s.stept with echoOut := s.stept.echoOut ++ [(b.toNat * 64 + id, max s.now t)] } }) ∧
  (∀ (t k c : Nat) (rest : List (Nat × Nat)) (s : State), s.cUp = true → s.stept.echoOut = (k, c) :: rest →
    (c + 192 ≤ max s.now t → exec (.echoReturn t) s = .next
      (({ s.tick t with stept := { s.stept with echoOut := rest } }).emit (.echoBack (decide (64 ≤ k)) (k % 64)))) ∧
    (max s.now t < c + 192 → exec (.echoReturn t) s = .next (s.tick t))) ∧
  ∀ (t : Nat) (a : RegAcc) (s : State), s.reach a.port .STEP_SKEW_COMP = true →
    accSets a Fld.STEP_SKEW_COMP_RETRAIN = true →
    ∃ u, exec (.stepRetrain t a) s = .next u ∧ u.flag Fld.STEP_SKEW_COMP_RETRAIN = true ∧
      State.keeps s u (eventRegs ++ [.STEP_SKEW_COMP]) ∧
      (s.stept.run.isSome = true → u.stept = { s.stept with retrain := true }) ∧
      (s.stept.run = none → u.stept.retrain = false ∧
        (s.stept.inA.up = true → u.stept.inA.echoSent = (List.range 64).map fun i => (i, max s.now t)) ∧
        (s.stept.inB.up = true → u.stept.inB.echoSent = (List.range 64).map fun i => (i, max s.now t)))

/-- Power requests (R361 to R363), the return (R364), P4 (R410) and main power (R341). -/
def Obligations.PowerStates : Prop :=
  let p0OrP1 (s : State) : Prop := s.power ≤ 1
  let stopped (s u : State) (cause : Nat) : Prop := u.pwr.rails = false ∧ u.power = 4 ∧
    u.fld Fld.DEV_BOOT_STAGE = (if s.sec.romWait then 0 else 1) ∧ u.fld Fld.DEV_RESET_CAUSE = cause ∧ u.mem = [] ∧ u.stept.run = none ∧ u.boot.resetting = some .cold
  (∀ (t : Nat) (a : RegAcc) (s : State), s.reach a.port .PWR_STATE = true →
    let row : Nat → Instr := fun
      | 0 => .pwrReqP0 t a
      | 2 => .pwrReqP2 t a
      | 3 => .pwrReqP3 t a
      | _ => .pwrReqP4 t a
    (∀ k ∈ [2, 3], accField a Fld.PWR_STATE_REQ = some k →
      (s.fld Fld.SEC_LIFECYCLE_STATE = 3 → exec (row k) s =
        .next ((s.tick t).record 0x8012 k a.port.source)) ∧
      (s.fld Fld.SEC_LIFECYCLE_STATE ≠ 3 → s.dbgLevel = 0 → p0OrP1 s →
        (s.stept.run = none → ∃ v, exec (row k) s = .next (State.record v 0x8011 (s.power + k * 256)) ∧ v.power = k ∧
          v.fld Fld.PWR_STATE_REQ = k ∧ v.flag Fld.PWR_STATE_PENDING = false ∧ v.ex = s.ex ∧ v.mem = s.mem) ∧
        (s.stept.run.isSome = true → s.halted = false → ∃ u, exec (row k) s = .next u ∧ u.power = s.power ∧
          u.fld Fld.PWR_STATE_REQ = k ∧ u.flag Fld.PWR_STATE_PENDING = true ∧ State.keeps s u [.PWR_STATE] ∧
          u = { s.tick t with regs := u.regs, pwr := { s.pwr with returnAt := none } }))) ∧
    (accField a Fld.PWR_STATE_REQ = some 0 → s.fld Fld.SEC_LIFECYCLE_STATE ≠ 3 → s.dbgLevel ≠ 3 →
      ∃ u, exec (row 0) s = .next u ∧ u.fld Fld.PWR_STATE_REQ = 0 ∧ u.flag Fld.PWR_STATE_PENDING = false ∧
        u.power = s.power ∧ State.keeps s u [.PWR_STATE] ∧
        u.pwr.returnAt = (if s.power = 2 then some (max s.now t + 20000)
          else if s.power = 3 then some (max s.now t + 40000000) else s.pwr.returnAt) ∧
        u = { s.tick t with regs := u.regs, pwr := { s.pwr with returnAt := u.pwr.returnAt } }) ∧
    (accField a Fld.PWR_STATE_REQ = some 4 → s.power ≠ 4 → s.dbgLevel = 0 → ∃ u, exec (row 4) s = .next u ∧ stopped s u 11 ∧
      u.fld Fld.PWR_STATE_REQ = 4)) ∧
  (∀ (t c : Nat) (s : State), s.pwr.returnAt = some c →
    (c ≤ max s.now t → 2 ≤ s.power → s.flag Fld.DBG_CTL_RESUME = false →
      let dst := if 256 < s.fld Fld.PWR_STAT_STRETCH then 1 else 0
      ∃ v, exec (.powerStateReturn t) s = .next (State.record v 0x8011 (s.power + dst * 256)).trySendReady ∧
        v.power = dst ∧ v.pwr = { s.pwr with returnAt := none } ∧ v.stept = s.stept ∧ v.ex = s.ex ∧ v.mem = s.mem) ∧
    (max s.now t < c → exec (.powerStateReturn t) s = .next (s.tick t))) ∧
  (∀ (t : Nat) (s : State), s.power = 4 → s.fld Fld.DEV_BOOT_STAGE = 1 →
    (s.mayRise = true → ∃ v, exec (.p4Exit t) s = .next (State.record v 0x8011 4) ∧ v.power = 0) ∧
    (s.mayRise = false → exec (.p4Exit t) s = .next (s.tick t))) ∧
  (∀ (t : Nat) (s : State), s.pwr.auxGood = true → s.fld Fld.SEC_LIFECYCLE_STATE ≠ 3 → s.pwr.rails = true →
    s.sec.romWait = false → s.dbgLevel = 0 →
    (∃ u, exec (.mainEnChange t false) s = .next u ∧ stopped s u 1 ∧ u.pwr.mainEn = false) ∧
    exec (.mainEnChange t true) s = .next { s.tick t with pwr := { s.pwr with mainEn := true } } ∧
    (∀ mv, 44000 ≤ mv → mv < 48000 → s.pwr.inputSaid = none →
      ∃ v, exec (.mainInputRange t mv) s = .next (State.record v 0x7040 (mv / 10) .dmc) ∧
        v.fld Fld.MODULE_ENV_MAIN_VOLTS = mv / 10 ∧ State.keeps s v [.MODULE_ENV] ∧
        v.pwr = { s.pwr with lowVoltSince := none, inputSaid := some (max s.now t) }) ∧
    ∀ mv c, mv < 44000 → s.pwr.lowVoltSince = some c → c + 2000000 ≤ max s.now t → s.pwr.mainGood = true →
      ∃ u, exec (.mainInputRange t mv) s = .next u ∧ stopped s u 1 ∧ u.pwr.mainGood = false)

/-- The power cap (R365), the stretch (R366, R367) and thermal protection (R342). -/
def Obligations.PowerAndHeat : Prop :=
  (∀ (t w : Nat) (a : RegAcc) (s : State), s.reach a.port .PWR_CAP = true → accField a Fld.PWR_CAP_CAP_W = some w →
    (600 ≤ w ∧ w ≤ 1200 → ∃ u, exec (.pwrCapWrite t a) s = .next u ∧ u.fld Fld.PWR_CAP_CAP_W = w ∧
      State.configWritten (s.tick t) u .PWR_CAP a) ∧
    (w < 600 ∨ 1200 < w → exec (.pwrCapWrite t a) s = .next ((s.tick t).record 0x8021 w a.port.source))) ∧
  ∀ (t : Nat) (s : State), s.pwr.rails = true → s.pwr.auxGood = true → 256 ≤ s.pwr.sP → s.pwr.sP ≤ 1024 →
    256 ≤ s.pwr.sT → s.pwr.sT ≤ 1024 →
    let shows (u : State) : Prop := u.fld Fld.PWR_STAT_STRETCH = max u.pwr.sP u.pwr.sT ∧
      (u.flag Fld.PWR_STAT_CAP = true ↔ 256 < u.pwr.sP) ∧ (u.flag Fld.PWR_STAT_THERMAL = true ↔ 256 < u.pwr.sT) ∧
      (s.power ≤ 1 → u.power = if 256 < max u.pwr.sP u.pwr.sT then 1 else 0)
    (∀ w, s.pwr.lastMeasure + 2000 ≤ max s.now t → ∃ u, exec (.powerMeasurement t w) s = .next u ∧ shows u ∧
      u.pwr.samples = (w :: s.pwr.samples).take 1000 ∧ u.pwr.lastMeasure = max s.now t ∧ u.pwr.sT = s.pwr.sT ∧
      u.pwr.sP = (if 1250 < w then 1024 else s.pwr.sP) ∧
      u.fld Fld.PWR_STAT_POWER_W = min (u.pwr.samples.sum / u.pwr.samples.length) 65535) ∧
    (∀ w, max s.now t < s.pwr.lastMeasure + 2000 → exec (.powerMeasurement t w) s = .next (s.tick t)) ∧
    (∀ d : Int, s.sec.dmcDown = true → exec (.powerManagerAdjust t d) s = .next (s.tick t)) ∧
    (∀ d : Int, s.sec.dmcDown = false → s.pwr.lastAdjust + 20000 ≤ max s.now t → -16 ≤ d → d ≤ 16 →
      let want := (min 1024 (max 256 ((s.pwr.sP : Int) + d))).toNat
      let w := s.pwr.samples.headD 0
      (want < 1024 ∨ w ≤ s.fld Fld.PWR_CAP_CAP_W → ∃ u, exec (.powerManagerAdjust t d) s = .next u ∧ shows u ∧
        u.pwr = { s.pwr with lastAdjust := max s.now t, sP := want }) ∧
      (want = 1024 → s.fld Fld.PWR_CAP_CAP_W < w →
        ∃ v, exec (.powerManagerAdjust t d) s = .next (State.record v 0x8020 (min w 65535) .dmc) ∧ shows v ∧
          v.pwr = { s.pwr with lastAdjust := max s.now t, sP := 1024 } ∧
          v.fld Fld.PWR_STAT_AT_MAX = satAdd Fld.PWR_STAT_AT_MAX.w (s.fld Fld.PWR_STAT_AT_MAX) 1)) ∧
    (∀ (deg : Int) (q : Nat), 1600 ≤ deg → s.pwr.hot = false →
      ∃ v, exec (.thermalThrottle t deg q) s = .next (State.record v 0x7030 (degBits deg) .dmc) ∧ shows v ∧
        v.pwr = { s.pwr with hot := true, sT := min 1024 (max 257 q) }) ∧
    (∀ (deg : Int) (q : Nat), deg < 1520 → ∃ u, exec (.thermalThrottle t deg q) s = .next u ∧ shows u ∧
      u.pwr = { s.pwr with hot := false, sT := 256, tripped := false }) ∧
    (∀ deg : Int, 1760 ≤ deg → s.dbgLevel = 0 → ∃ u, exec (.thermalTrip t deg) s = .next u ∧ u.pwr.tripped = true ∧
      u.pwr.rails = false ∧ u.power = 4 ∧ u.fld Fld.DEV_RESET_CAUSE = 5 ∧
      u.fld Fld.DEV_BOOT_STAGE = if s.sec.romWait then 0 else 1) ∧
    (∀ deg : Int, deg < 1760 → exec (.thermalTrip t deg) s = .next (s.tick t)) ∧
    ∀ deg : Int, 640 < deg →
      (s.pwr.coolantSaid = none → ∃ v, exec (.coolantHigh t deg) s = .next (State.record v 0x7032 (degBits deg) .dmc) ∧
        v.pwr = { s.pwr with coolantSaid := some (max s.now t) } ∧ State.keeps s v [.MODULE_ENV]) ∧
      ∀ c, s.pwr.coolantSaid = some c → max s.now t < c + 120000000000 →
        ∃ u, exec (.coolantHigh t deg) s = .next u ∧ State.keeps s u [.MODULE_ENV] ∧ u.pwr = s.pwr ∧ u.bel = s.bel

/-- Stages 0 to 6 (R402 to R405, R371) and READY (R403, R412). -/
def Obligations.BootSequence : Prop :=
  ∀ (t : Nat) (s : State), s.boot.stopped = false → s.readyUp = false → s.pwr.auxGood = true →
    let halts (u : State) (d : Nat) : Prop := u.boot.stopped = true ∧ u.flag Fld.DEV_BOOT_FAILED = true ∧
      u.fld Fld.DEV_BOOT_DETAIL = d ∧ u.fld Fld.DEV_BOOT_STAGE = s.fld Fld.DEV_BOOT_STAGE
    (s.fld Fld.DEV_BOOT_STAGE = 0 → ∃ u, exec (.bootRomVerify t) s = .next u ∧
      (s.imageFault s.mram.image = none → u.fld Fld.DEV_BOOT_STAGE = 1 ∧ u.sec.romWait = false ∧
        u.sec.dmcDown = false ∧ u.sec.runningHeader = s.mram.image.take 128 ∧ u.flag Fld.SEC_FW_RECOVERY = false ∧
        u.fld Fld.SEC_FW_SVN = fieldAt (s.mram.image.take 128) 8 4 % 65536) ∧
      ∀ c p, s.imageFault s.mram.image = some (c, p) → ∃ v, u = State.record v c p .rom ∧ v.sec.romWait = true ∧
        v.flag Fld.SEC_FW_RECOVERY = true ∧ halts v 0) ∧
    (s.fld Fld.DEV_BOOT_STAGE = 1 → s.mayRise = true → s.pwr.rails = false → s.power ≠ 4 → s.sec.romWait = false →
      (∃ u, exec (.mainRailsSequenced t none) s = .next u ∧ u.pwr.rails = true ∧ u.fld Fld.DEV_BOOT_STAGE = 2 ∧
        u.trng.startAt = max s.now t ∧ u.trngStarting = true ∧ u.trngValid = false ∧ u.trng.drbg = none) ∧
      ∀ r, r < 256 → ∃ u, exec (.mainRailsSequenced t (some r)) s = .next u ∧ halts u r ∧ u.pwr.rails = false) ∧
    (s.fld Fld.DEV_BOOT_STAGE = 2 → s.pwr.rails = true → ∀ one : List Nat, (∀ f ∈ one, f < 6) → one.length ≤ 6 →
      (∃ u, exec (.pllLock t one []) s = .next u ∧ u.fld Fld.DEV_BOOT_STAGE = 3 ∧ u.pwr.pllStandby = one ∧
        u.fld Fld.SPARE_UNITS_PLL = one.length) ∧
      ∀ f rest, f < 6 → ∃ u, exec (.pllLock t one (f :: rest)) s = .next u ∧ halts u f) ∧
    (s.fld Fld.DEV_BOOT_STAGE = 3 → s.pwr.rails = true →
      ∀ copyA copyB : Bool, let m := if copyA then s.mram.mapA else s.mram.mapB
      ∃ v, exec (.spareMapApplied t ⟨copyA, copyB⟩) s = .next (State.checkPolicy v) ∧ v.fld Fld.DEV_BOOT_STAGE = 4 ∧
        State.keeps s v [.DEV_BOOT] ∧ v = { s.tick t with regs := v.regs, sites := v.sites, mram := v.mram } ∧
        (copyA ∨ copyB → v.mram = { s.mram with mapA := m, mapB := m } ∧
          ∀ i < s.sites.length, v.site i = m.mark i (s.site i)) ∧
        (¬(copyA ∨ copyB) → v.mram = s.mram ∧
          ∀ i < s.sites.length, v.site i = { s.site i with reason := 0, fenced := false, requalified := false })) ∧
    (s.fld Fld.DEV_BOOT_STAGE = 4 → s.pwr.rails = true → s.sites.length = 720 → ∀ bad : List Nat,
      ∃ u, exec (.startUpSelfTest t bad [] [] []) s = .next u ∧ u.fld Fld.DEV_BOOT_STAGE = 5 ∧
        (∀ i ∈ bad, s.tested i = true → (u.site i).reason = 6 ∧ (u.site i).fenced = true) ∧
        ∀ i < 720, i ∉ bad → u.site i = s.site i) ∧
    (s.fld Fld.DEV_BOOT_STAGE = 5 → s.pwr.rails = true → s.mports.length = 32 →
      ∃ u, exec (.memoryTraining t []) s = .next u ∧ u.fld Fld.DEV_BOOT_STAGE = 6 ∧
        (∀ p < 32, u.mport p = if (s.mport p).state = 1 then s.mport p else { s.mport p with state := 0 }) ∧
        u.fld Fld.DEV_CAPS_HBM_STACKS = 8 ∧ u.fld Fld.DEV_CAPS_HBM_GB = 288 ∧
        u.fld Fld.DEV_CAPS_LPDDR_PORTS = (s.mports.drop 16).countP (·.state != 1) ∧
        u.flag Fld.DEV_STAT_MEM_DEGRADED = false) ∧
    (s.fld Fld.DEV_BOOT_STAGE = 6 → s.pwr.rails = true → s.boot.stage6 = false →
      (∀ l ∈ s.ports.lanes, l.failed = false) →
      let lit (u : State) : Prop := ∀ l ∈ u.ports.lanes, s.portFitted l.port = true → l.state = 2
      (s.boot.entropyDone = false → ∃ u, exec (.opticalBringUp t []) s = .next u ∧ u.boot.stage6 = true ∧ lit u ∧
        u.readyUp = false ∧ u.regs = s.regs) ∧
      (s.boot.entropyDone = true → ∃ u, exec (.opticalBringUp t []) s = .next u ∧ u.readyUp = true ∧ lit u ∧
        u.fld Fld.DEV_BOOT_STAGE = 7 ∧ u.flag Fld.INTAKE_STAT_RECOVERING = true ∧
        u.boot.recovering = some (s.boot.resetting.getD .cold) ∧
        u.fuse.svn = max s.fuse.svn (fieldAt s.sec.runningHeader 8 4)))

/-- The kinds of reset (R406 to R408, R411) and auxiliary power (R276, R402). -/
def Obligations.Resets : Prop :=
  ∀ (t : Nat) (s : State), s.dbgLevel = 0 →
    let light (u : State) (cause : Nat) : Prop := u.fld Fld.DEV_RESET_CAUSE = cause ∧
      u.fld Fld.DEV_RESET_HOT_COUNT = satAdd Fld.DEV_RESET_HOT_COUNT.w (s.fld Fld.DEV_RESET_HOT_COUNT) 1 ∧
      u.intake.slots = [] ∧ u.intakeOn = false ∧ u.logBase = 0 ∧
      u.reg .RECEIPT_SIZE = Reg.RECEIPT_SIZE.resetValue ∧ u.reg .RECEIPT_HEAD = 0 ∧ u.ports.busMaster = false ∧
      u.ports.d3hot = false ∧ u.intr.table = IntrSt.reset.table ∧
      u.flag Fld.INTAKE_STAT_RECOVERING = true ∧ u.boot.recovering.isSome = true ∧
      u.intake.orders = s.intake.orders ∧ u.ex = s.ex ∧ u.plan = s.plan ∧ u.mem = s.mem ∧ u.mram = s.mram
    let warm (u : State) (cause : Nat) : Prop := u.fld Fld.DEV_RESET_CAUSE = cause ∧
      u.fld Fld.DEV_RESET_WARM_COUNT = satAdd Fld.DEV_RESET_WARM_COUNT.w (s.fld Fld.DEV_RESET_WARM_COUNT) 1 ∧
      u.fld Fld.DEV_BOOT_STAGE = 2 ∧ u.power = 0 ∧ u.stept = StepT.reset ∧ u.plan = PlanSt.reset ∧
      u.intake = IntakeSt.reset ∧ u.boot.resetting = some .warm ∧ u.pwr.rails = s.pwr.rails ∧
      u.mem = s.mem.filter (fun c => decide (16 ≤ c.1 / 2 ^ 48)) ∧ u.jrnl.ctxLp = s.jrnl.ctxLp ∧ u.trngStarting = true
    (s.cUp = true → s.stept.stepOn = false → s.dig.rerunTo = none → s.boot.resetting = none →
      (s.fld Fld.HOST_LINK_RATE ≠ 0 → ∃ u, exec (.flr t) s = .next u ∧ light u 10 ∧
        u.fld Fld.HOST_LINK_RATE = s.fld Fld.HOST_LINK_RATE) ∧
      (s.ports.trained = true → ∀ lost : Bool, ∃ u, exec (.hotReset t lost) s = .next u ∧
        light u (if lost then 9 else 8) ∧ u.fld Fld.HOST_LINK_RATE = 0 ∧ u.ports.trained = false)) ∧
    (s.pwr.auxGood = true → s.pwr.rails = true → s.boot.resetting ≠ some .cold →
      (∃ u, exec (.warmRstN t) s = .next u ∧ warm u 6) ∧
      ∀ a : RegAcc, a.port = .mgmt → s.reach .mgmt .DEV_RESET = true → accSets a Fld.DEV_RESET_WARM = true →
        accSets a Fld.DEV_RESET_COLD = false → ∃ u, exec (.devResetWarm t a) s = .next u ∧ warm u 7) ∧
    (∀ a : RegAcc, a.port = .mgmt → s.reach .mgmt .DEV_RESET = true → accSets a Fld.DEV_RESET_COLD = true →
      ∃ u, exec (.devResetCold t a) s = .next u ∧ u.fld Fld.DEV_BOOT_STAGE = 0 ∧ u.fld Fld.DEV_RESET_CAUSE = 2 ∧
        u.fld Fld.DEV_RESET_WARM_COUNT = 0 ∧ u.fld Fld.DEV_RESET_HOT_COUNT = 0 ∧ u.pwr.rails = false ∧ u.mem = [] ∧
        u.stept = StepT.reset ∧ u.boot.resetting = some .cold ∧ u.mram.hours = s.mram.hours ∧
        u.mram.keys = s.mram.keys) ∧
    (∀ a : RegAcc, a.port = .host → exec (.devResetCold t a) s = .next (s.tick t) ∧
      exec (.devResetWarm t a) s = .next (s.tick t)) ∧
    (s.pwr.auxGood = true → ∃ u, exec (.auxPowerLoss t) s = .next u ∧ u.pwr.auxGood = false ∧ u.pwr.rails = false ∧
      u.mem = [] ∧ u.stept = StepT.reset ∧ u.mram = s.mram ∧ u.fuse = s.fuse) ∧
    (s.pwr.auxGood = false →
      ∃ u, exec (.auxPowerRise t) s = .next u ∧ u.pwr.auxGood = true ∧ u.fld Fld.DEV_BOOT_STAGE = 0 ∧
        u.fld Fld.DEV_RESET_CAUSE = 0 ∧
        u.fld Fld.BELFRY_TALLY_POWER_CYCLES =
          satAdd Fld.BELFRY_TALLY_POWER_CYCLES.w (s.fld Fld.BELFRY_TALLY_POWER_CYCLES) 1)

/-- The entropy source (R376 to R385). -/
def Obligations.EntropySource : Prop :=
  let fills (s : State) (x : TrngSt) : TrngSt :=
    let later := x.pool.drop s.wordsDue
    let n := 64 - x.cond.length
    { x with cond := x.cond ++ later.take n, pool := x.pool.take s.wordsDue ++ later.drop n }
  (∀ (t src : Nat) (b : Bool) (s : State), 16 ≤ src → exec (.noiseSample t src b) s = .fault .noSuchUnit) ∧
  (∀ (t src : Nat) (b : Bool) (n : NoiseSrc) (s : State), src < 16 → s.pwr.rails = true → s.trng.settled = true →
    s.trng.srcs[src]? = some n →
    (s.trngStarting = true → n.taken + 1 < 1024 → n.run ≤ 39 → n.aptCount < 794 →
      ∃ u m, exec (.noiseSample t src b) s = .next u ∧ u.trng.srcs = s.trng.srcs.set src m ∧ m.taken = n.taken + 1 ∧
        m.startFailed = n.startFailed ∧ m.last = b ∧ m.inUse = n.inUse ∧
        m.run = (if n.run ≠ 0 ∧ n.last = b then n.run + 1 else 1) ∧
        u = { s.tick t with trng := { s.trng with srcs := u.trng.srcs } }) ∧
    (s.trngStarting = false → n.inUse = true → n.run = 40 → n.last = b → n.aptPos = 0 →
      s.fld Fld.TRNG_CTL_RETIRE = 0 → s.fld Fld.TRNG_CTL_ALERT_THRESH = 0 →
      let fails := satAdd Fld.TRNG_RCT_FAILS_FAILS.w (s.fld Fld.TRNG_RCT_FAILS_FAILS) 1
      ∃ v m, exec (.noiseSample t src b) s = .next (State.record v 0x4010 (src + fails * 2 ^ 32)) ∧
        v.trng = { s.trng with srcs := s.trng.srcs.set src m } ∧ m.run = 1 ∧ m.rct = satAdd 32 n.rct 1 ∧
        m.apt = n.apt ∧ m.inUse = true ∧ v.fld Fld.TRNG_RCT_FAILS_FAILS = fails ∧ State.keeps s v [.TRNG_RCT_FAILS])) ∧
  (∀ (t : Nat) (s : State), s.trngStarting = true → s.trng.settled = false →
    (s.trng.startAt + 3800000 ≤ max s.now t →
      exec (.entropySettled t) s = .next { s.tick t with trng := { s.trng with settled := true } }) ∧
    (max s.now t < s.trng.startAt + 3800000 → exec (.entropySettled t) s = .next (s.tick t))) ∧
  (∀ (t : Nat) (raw : List W64) (s : State), s.pwr.rails = true → 12 ≤ s.inUse → raw.length = 64 →
    (∀ n ∈ s.trng.srcs, n.retireDue = false) →
    (s.trngStarting = true → s.trng.discard < 64 → exec (.conditionedBlock t raw) s =
      .next { s.tick t with trng := { s.trng with discard := s.trng.discard + 1 } }) ∧
    (s.trngStarting = false → s.reseedDue = false → s.trng.pool.length ≤ 252 →
      exec (.conditionedBlock t raw) s = .next { s.tick t with
        trng := fills s { s.trng with pool := s.trng.pool ++ conditioned raw } })) ∧
  (∀ (t : Nat) (d : Drbg) (s : State), s.pwr.rails = true → s.trngValid = true → s.trng.drbg = some d →
    (s.flag Fld.TRNG_STAT_EXP_STALL = false → s.trng.expander.length + 8 ≤ 512 →
      s.fld Fld.TRNG_DRBG_REQUESTS + 1 < 65536 → ∃ u, exec (.expanderRequest t) s = .next u ∧
        u.trng = { s.trng with expander := s.trng.expander ++ d.generate.1.map (·.toNat), drbg := some d.generate.2 } ∧
        u.fld Fld.TRNG_DRBG_REQUESTS = s.fld Fld.TRNG_DRBG_REQUESTS + 1 ∧ State.keeps s u [.TRNG_DRBG] ∧
        u = { s.tick t with regs := u.regs, trng := u.trng }) ∧
    (65536 ≤ s.fld Fld.TRNG_DRBG_REQUESTS →
      (6 ≤ s.trng.pool.length → ∃ u, exec (.expanderReseed t) s = .next u ∧
        u.trng = fills s { s.trng with
          pool := s.trng.pool.drop 6, drbg := some (d.reseed (seedBytes (s.trng.pool.take 6))) } ∧
        u.fld Fld.TRNG_DRBG_REQUESTS = 0 ∧ u.flag Fld.TRNG_STAT_STRETCHED = false ∧
        u.flag Fld.TRNG_STAT_EXP_STALL = false ∧
        u.fld Fld.TRNG_DRBG_RESEEDS = satAdd Fld.TRNG_DRBG_RESEEDS.w (s.fld Fld.TRNG_DRBG_RESEEDS) 1 ∧
        State.keeps s u [.TRNG_DRBG, .TRNG_STAT]) ∧
      (s.trng.pool.length < 6 → exec (.expanderReseed t) s = .next (s.tick t)))) ∧
  (∀ (t : Nat) (p : Port) (s : State), s.reach p .TRNG_WORD = true →
    let fifo := if s.fld Fld.TRNG_CTL_SRC = 0 then s.trng.expander else s.trng.cond
    let sends (u : State) (w : Nat) : Prop := u.emitted =
      (match p with | .host => .readData w false | .mgmt => .mgmtReply 0 (natLe w 8)) :: s.emitted
    (∀ w rest, s.trngValid = true → s.flag Fld.TRNG_STAT_EXP_STALL = false → fifo = w :: rest →
      ∃ u, exec (.trngWordRead t p) s = .next u ∧ sends u w ∧ u.regs = s.regs ∧
        let x := if s.fld Fld.TRNG_CTL_SRC = 0 then { s.trng with expander := rest } else { s.trng with cond := rest }
        u.trng = if s.reseedDue then x else fills s x) ∧
    ((s.trngValid = false ∨ s.flag Fld.TRNG_STAT_EXP_STALL = true ∨ fifo = []) →
      ∃ u, exec (.trngWordRead t p) s = .next u ∧ sends u 0 ∧ u.flag Fld.TRNG_STAT_EMPTY_READ = true ∧
        u.fld Fld.TRNG_EMPTY_READS_COUNT = satAdd Fld.TRNG_EMPTY_READS_COUNT.w (s.fld Fld.TRNG_EMPTY_READS_COUNT) 1 ∧
        u.trng = s.trng)) ∧
  ∀ (t : Nat) (a : RegAcc) (s : State), s.reach a.port .TRNG_CTL = true → ∃ v, State.configWritten (s.tick t) v .TRNG_CTL a ∧
    let x := { s.trng with cond := [] }
    exec (.trngCtlWrite t a) s = .next { v with
      trng := if accCovers a 0 1 then (if s.reseedDue then x else fills s x) else s.trng }

/-- Re-qualification (R313), monitors (R296, R312) and switches (R292). -/
def Obligations.SparesAndMonitors : Prop :=
  (∀ (t : Nat) (a : RegAcc) (s : State), s.reach a.port .SPARE_CTL = true →
    accSets a Fld.SPARE_CTL_RE_QUALIFY = true →
    let i := bitsOf (s.reg (Reg.at a.port .SPARE_SEL)).toNat 0 10
    let failed := (s.site i).reason ≠ 0 ∨ (s.site i).dead = true
    let busy := s.flag Fld.SPARE_STAT_REQUAL_BUSY
    ∃ v, State.configWritten (s.tick t) v .SPARE_CTL a ∧
      let asked := v.swSet Fld.SPARE_CTL_RE_QUALIFY
      (720 ≤ i ∨ busy = true ∧ (s.tick t).requalEnds = false ∨
        busy = false ∧ ¬failed ∧ s.spare.requalEnd ≠ some (max s.now t, i) →
        exec (.reQualify t a) s = .next (v.record 0x600E i a.port.source)) ∧
      (i < 720 → busy = true → (s.tick t).requalEnds = true →
        exec (.reQualify t a) s = .next { asked with spare := { s.spare with requalNext := some i } }) ∧
      (i < 720 → busy = false → failed ∨ s.spare.requalEnd = some (max s.now t, i) → s.stept.run.isSome = true →
        exec (.reQualify t a) s = .next { asked with spare := { s.spare with requalAsk := some i } })) ∧
  (∀ (t i : Nat) (s : State), s.cUp = true → s.spare.requalOn = some i → i < s.sites.length →
    s.spare.requalNext = none → (s.tick t).swNow Fld.SPARE_CTL_RE_QUALIFY = false →
    let ended := { s.spare with requalOn := none, requalEnd := some (max s.now t, i) }
    ((s.site i).reason ≠ 0 → ∃ v, exec (.reQualificationDone t false) s = .next (State.record v 0x600D
        (i + (Config.freeValue s.fresh).toNat % 16 * 4096)) ∧ v.spare = ended ∧
      v.site i = { s.site i with testing := false, reason := 7 } ∧ v.flag Fld.SPARE_STAT_REQUAL_BUSY = false ∧
      (i, 7) ∈ v.mram.mapA.failed ∧ (i, 7) ∈ v.mram.mapB.failed) ∧
    (s.stept.run.isSome = true → ∃ u, exec (.reQualificationDone t true) s = .next u ∧
      u.spare = { ended with requalPassed := i :: s.spare.requalPassed } ∧
      u.flag Fld.SPARE_STAT_REQUAL_BUSY = false ∧ u.flag Fld.SPARE_CTL_RE_QUALIFY = false ∧
      State.keeps s u [.SPARE_STAT, .SPARE_CTL] ∧ u = { s.tick t with regs := u.regs, spare := u.spare })) ∧
  (∀ (t i : Nat) (router : Bool) (s : State), 720 ≤ i → exec (.islandMonitor t i router) s = .fault .noSuchUnit) ∧
  (∀ (t i : Nat) (s : State), s.cUp = true → s.stept.run.isSome = true → i < s.sites.length → i < 720 →
    s.unused i = false →
    (∃ u, exec (.islandMonitor t i true) s = .next u ∧ u.site i = { s.site i with routerOff := true } ∧
      (∀ j ≠ i, u.site j = s.site j) ∧ u = { s.tick t with
        sites := u.sites
        spare := { s.spare with damage := s.spare.damage ++ [.router i] }
        slog := { s.slog with rerun := true } }) ∧
    ((s.site i).reason = 0 → ∃ u, exec (.islandMonitor t i false) s = .next u ∧ (u.site i).reason = 1 ∧
      (u.site i).fenced = true ∧ (i, 1) ∈ u.mram.mapA.failed ∧ (i, 1) ∈ u.mram.mapB.failed ∧ Damage.failed i 1 ∈ u.spare.damage ∧
      ((s.serves i).isSome = true → u.slog.rerun = true)) ∧
    ((s.site i).reason ≠ 0 → exec (.islandMonitor t i false) s = .next (s.tick t))) ∧
  (∀ (t f : Nat) (s : State), s.pwr.rails = true →
    (6 ≤ f → exec (.pllSwitch t f) s = .fault .noSuchUnit) ∧
    (f < 6 → f ∉ s.pwr.pllStandby → s.pwr.pllStandby.length < 6 →
      ∃ v, exec (.pllSwitch t f) s = .next (State.record v 0x6010 (Config.unitKind 3).toNat) ∧
        v.fld Fld.SPARE_UNITS_PLL = s.pwr.pllStandby.length + 1 ∧ State.keeps s v [.SPARE_UNITS] ∧
        v.pwr = { s.pwr with pllStandby := f :: s.pwr.pllStandby }) ∧
    (f < 6 → f ∈ s.pwr.pllStandby → f ∉ s.pwr.noPll → exec (.pllSwitch t f) s =
      .next { s.tick t with pwr := { s.pwr with noPll := f :: s.pwr.noPll } })) ∧
  ∀ (t : Nat) (s : State), s.pwr.rails = true → ∃ v, exec (.regulatorSwitch t) s =
    .next (State.record v 0x6010 (Config.unitKind 4).toNat) ∧
    v.fld Fld.SPARE_UNITS_VR_PHASES = satAdd Fld.SPARE_UNITS_VR_PHASES.w (s.fld Fld.SPARE_UNITS_VR_PHASES) 1 ∧
    State.keeps s v [.SPARE_UNITS]

/-- Modes (R242, R243), the digest snapshot (R258, R422) and OCU_CTL.ARM (R176, R355). -/
def Obligations.ModesDigestOculus : Prop :=
  (∀ (t v : Nat) (a : RegAcc) (s : State), s.reach a.port .MODE_CTL = true → accField a Fld.MODE_CTL_MODE = some v →
    (s.running = true → ∃ u, exec (.modeCtlWrite t false a) s = .next u ∧
      u.dig = { s.dig with heldMode := some (v == 1), heldPort := a.port } ∧
      u.flag Fld.MODE_STAT_PENDING = true ∧ State.keeps s u [.MODE_STAT] ∧
      u = { s.tick t with regs := u.regs, dig := u.dig }) ∧
    (s.running = false → v = 1 → ∃ u, exec (.modeCtlWrite t false a) s = .next u ∧ u.flag Fld.MODE_CTL_MODE = true ∧
      u.flag Fld.MODE_STAT_MODE = true ∧ u.flag Fld.MODE_STAT_LB_ACTIVE = s.flag Fld.LOAD_BALANCE_ENABLE ∧
      (s.flag Fld.MODE_STAT_MODE = true → u.reg .MODE_SINCE = s.reg .MODE_SINCE) ∧
      u.dig = { s.dig with sinceDue := s.dig.sinceDue || !s.flag Fld.MODE_STAT_MODE } ∧
      u.jrnl.configs = ⟨Reg.MODE_CTL.offset, (u.reg .MODE_CTL).toNat, s.modeFrom, 0⟩ :: s.jrnl.configs ∧
      State.onlyEvents (s.tick t) { u with dig := s.dig } [.MODE_CTL, .MODE_STAT, .LOAD_BALANCE, .MODE_SINCE]) ∧
    (s.running = false → v = 0 → s.planOn = true → s.plan.data.synchronous = true →
      exec (.modeCtlWrite t false a) s = .next ((s.tick t).record 0xA00D 0 a.port.source))) ∧
  (∀ (t v : Nat) (a : RegAcc) (s : State), s.reach a.port .LOAD_BALANCE = true →
    accField a Fld.LOAD_BALANCE_ENABLE = some v →
    (s.running = true → ∃ u, exec (.modeCtlWrite t true a) s = .next u ∧
      u.dig = { s.dig with heldLb := some (v == 1), heldPort := a.port } ∧ u.flag Fld.MODE_STAT_PENDING = true) ∧
    (s.running = false → s.flag Fld.MODE_STAT_MODE = true → ∃ u, exec (.modeCtlWrite t true a) s = .next u ∧
      u.flag Fld.LOAD_BALANCE_ENABLE = (v == 1) ∧ u.flag Fld.MODE_STAT_LB_ACTIVE = (v == 1) ∧
      u.flag Fld.MODE_STAT_MODE = true ∧
      State.onlyEvents (s.tick t) u [.MODE_CTL, .MODE_STAT, .LOAD_BALANCE])) ∧
  (∀ (t : Nat) (p : Port) (s : State), s.reach p .DIGEST_STEP = true →
    let d := (s.tick t).afterBoundary.dig
    (s.pending = [] → d = s.dig) ∧ exec (.digestStepRead t p) s =
    .next { s.tick t with
      dig := { s.dig with
        snapHost := if p = .host then (d.value, d.flags, d.valid) else s.dig.snapHost
        snapMgmt := if p = .mgmt then (d.value, d.flags, d.valid) else s.dig.snapMgmt }
      emitted := (match p with
        | .host => .readData (d.step % 2 ^ 64) false
        | .mgmt => .mgmtReply 0 (natLe (d.step % 2 ^ 64) 8)) :: s.emitted }) ∧
  ∀ (t : Nat) (a : RegAcc) (s : State), s.reach a.port .OCU_CTL = true →
    (s.dbgLevel = 0 → exec (.oculusArm t a) s = .next { (s.tick t).incFld Fld.SEC_COUNTS_OCULUS_REFUSED with
      sec := { s.sec with refusedStep := s.sec.refusedStep + 1 } }) ∧
    (s.dbgLevel ≠ 0 → accSets a Fld.OCU_CTL_ARM = true →
      (s.stepToCome ≤ s.fld Fld.OCU_TRIG_STEP_STEP → ∃ u, exec (.oculusArm t a) s = .next u ∧
        u.flag Fld.OCU_CTL_ARM = true ∧ State.keeps s u [.OCU_CTL] ∧ u.ocu = { s.ocu with
          armedAt := if s.flag Fld.OCU_CTL_ARM then s.ocu.armedAt else max s.now t }) ∧
      (s.fld Fld.OCU_TRIG_STEP_STEP < s.stepToCome → ∃ u, exec (.oculusArm t a) s = .next u ∧
        u.flag Fld.OCU_STAT_MISSED = true ∧ u.flag Fld.OCU_CTL_ARM = false ∧ u.ocu = s.ocu))

/-- The host link (R318, R323), lanes (R327, R344) and bus mastering (R411). -/
def Obligations.OpticalLinks : Prop :=
  (∀ (t port lane : Nat) (s : State), lanesOf port ≤ lane → exec (.laneFailed t port lane) s = .fault .noSuchUnit) ∧
  (∀ (t lane : Nat) (s : State), s.cUp = true →
    let gone (l : Lane) : Lane := { l with failed := true, role := 31, state := 1 }
    (lane < 2 → (s.ports.lanes.any fun l => l.port == 3 && l.lane == lane && !l.failed) = true →
      ∃ u, exec (.laneFailed t 3 lane) s = .next u ∧
        u.ports.lanes = s.ports.lanes.map (fun l => if l.port == 3 && l.lane == lane then gone l else l) ∧
        u.bel = ((s.tick t).record 0x7005 (3 + lane * 256)).bel ∧
        (lane = 0 → u.stept.inA.up = false ∧ u.stept.inB = s.stept.inB ∧
          u.flag Fld.STEP_STAT_LINK_UP = s.stept.inB.up) ∧
        (lane = 1 → u.stept.inB.up = false ∧ u.stept.inA = s.stept.inA ∧
          u.flag Fld.STEP_STAT_LINK_UP = s.stept.inA.up)) ∧
    (lane < 18 → (∀ l ∈ s.ports.lanes, l.port = 0 → l.lane = lane → l.role = 31) →
      (s.ports.lanes.any fun l => l.port == 0 && l.lane == lane && !l.failed) = true →
      s.fld Fld.HOST_LINK_RATE = 0 → 16 ≤ (s.hostPairs.filter (· != lane)).length →
      exec (.laneFailed t 0 lane) s = .next { (s.tick t).record 0x7005 (lane * 256) with ports := { s.ports with
        lanes := s.ports.lanes.map fun l => if l.port == 0 && l.lane == lane then gone l else l } })) ∧
  (∀ (t : Nat) (s : State), s.cUp = true → s.fld Fld.HOST_LINK_RATE ≠ 0 →
    (s.ports.inRecovery = true → (s.tick t).swNow Fld.LANE_CTL_RETRAIN = false → ∃ v, exec (.hostLinkRecovered t) s = .next (State.record v 0x7002
        (s.fld Fld.HOST_LINK_RATE + s.fld Fld.HOST_LINK_WIDTH * 4)) ∧
      v.ports = { s.ports with inRecovery := false } ∧ v.flag Fld.LANE_CTL_RETRAIN = false ∧
      State.keeps s v [.LANE_CTL]) ∧
    (s.ports.inRecovery = true → (s.tick t).swNow Fld.LANE_CTL_RETRAIN = true → s.flag Fld.LANE_CTL_RETRAIN = true →
      exec (.hostLinkRecovered t) s = .next (State.hostRecovery (State.record
        { s.tick t with ports := { s.ports with inRecovery := false } } 0x7002
        (s.fld Fld.HOST_LINK_RATE + s.fld Fld.HOST_LINK_WIDTH * 4)))) ∧
    (s.ports.inRecovery = false → exec (.hostLinkRecovered t) s = .next (s.tick t))) ∧
  (∀ (t rate : Nat) (s : State), s.cUp = true → s.boot.stage6 = true → 1 ≤ rate → rate ≤ 3 →
    s.hostPairs = List.range 18 →
    (∃ u, exec (.hostLinkUp t rate true) s = .next u ∧ u.fld Fld.HOST_LINK_RATE = rate ∧
      u.fld Fld.HOST_LINK_WIDTH = 16 ∧ u.flag Fld.HOST_LINK_FLIT = true ∧ u.ports.trained = true ∧
      u.ports.inRecovery = false ∧ State.keeps s u [.HOST_LINK, .LANE_CTL] ∧ u.flag Fld.LANE_CTL_RETRAIN = false ∧
      (∀ k < 16, ∀ l ∈ u.ports.lanes, l.port = 0 → l.lane = (if k < 8 then k else k + 1) → l.role = k ∧ l.state = 3) ∧
      ∀ l ∈ u.ports.lanes, l.port = 0 → l.lane = 8 ∨ l.lane = 17 → l.role = 31) ∧
    exec (.hostLinkUp t rate false) s = .next (s.tick t)) ∧
  (∀ (t : Nat) (a : RegAcc) (s : State), s.reach a.port .LANE_CTL = true → accSets a Fld.LANE_CTL_RETRAIN = true →
    let port := bitsOf (s.reg (Reg.at a.port .SEL_LANE)).toNat 0 3
    let lanes := s.ports.lanes.map fun l =>
      if l.port == port && !l.failed then { l with retrains := satAdd 16 l.retrains 1 } else l
    let v : State := { s.tick t with ports := { s.ports with lanes := lanes } }
    (port = 0 → s.fld Fld.HOST_LINK_RATE ≠ 0 →
      ∃ u, exec (.laneRetrain t a) s = .next u ∧ u.flag Fld.LANE_CTL_RETRAIN = true ∧
        u.ports = { s.ports with inRecovery := true, lanes := lanes } ∧
        u.fld Fld.HOST_LINK_RECOVERIES = satAdd Fld.HOST_LINK_RECOVERIES.w (s.fld Fld.HOST_LINK_RECOVERIES) 1 ∧
        State.keeps s u [.LANE_CTL, .HOST_LINK]) ∧
    (port = 0 → s.fld Fld.HOST_LINK_RATE = 0 → exec (.laneRetrain t a) s = .next v) ∧
    (port = 1 → exec (.laneRetrain t a) s =
      .next (if 2 ≤ s.fld Fld.JRNL_STAT_J0_STATE then v.startTraining 0 else v)) ∧
    (port = 2 → exec (.laneRetrain t a) s =
      .next (if 2 ≤ s.fld Fld.JRNL_STAT_J1_STATE then v.startTraining 1 else v)) ∧
    (port = 3 → let w : State := { v with stept := { s.stept with laneAsk := true } }
      exec (.laneRetrain t a) s = .next (if s.stept.run.isSome then
        { w with stept := { w.stept with retrain := true } } else w.measureHop)) ∧
    (4 ≤ port → exec (.laneRetrain t a) s = .next v)) ∧
  ∀ (t : Nat) (s : State), s.cUp = true → s.ports.busMaster = false →
    ∃ u, exec (.busMasterEnable t) s = .next u ∧ u.ports = { s.ports with busMaster := true } ∧ u.regs = s.regs ∧
      u.emitted = (s.intake.asked.map fun q => Emission.hostRead q.1 q.2.1 q.2.2.1 q.2.2.2).reverse ++ s.emitted

/-- Orders that change the plan, its data or the mode (R77, R86, R188, R243, R289). -/
def Obligations.PlanOrders : Prop :=
  ∀ (t seq : Nat) (o : Order) (s : State),
    let v := s.tick t
    (∀ d tiles, s.executable seq 1 = some o → o.bulk = some d →
      (s.engaged = false →
        let w := (v.verifyImage tiles).1
        (tiles = [] → v.verifyImage tiles = (v, none)) ∧
        (∀ c p, (v.verifyImage tiles).2 = some (c, p) → ∃ u, exec (.planLoad t ⟨seq, tiles⟩) s = .next u ∧
          u.finished o 4 c p ∧ u.plan = s.plan ∧ u.ex = s.ex) ∧
        ((v.verifyImage tiles).2 = none → ∃ u, exec (.planLoad t ⟨seq, tiles⟩) s = .next (State.settleIdle u) ∧
          (∀ e, w.checkPlan d = some e →
            u.finished o 4 e.code e.payload ∧ u.plan = s.plan ∧ u.ex = s.ex ∧ u.mem = w.mem) ∧
          ∀ sel, w.checkPlan d = none → (readPlan d).select w.fillable = some sel →
            u.finished o 2 0 (fieldAt (planDigest d) 0 8) ∧ u.planOn = true ∧ u.plan.data = readPlan d ∧
            u.plan.seq = seq ∧ u.plan.digest = planDigest d ∧ u.plan.sel = sel ∧ u.plan.binds = [] ∧
            u.uncovered = false ∧ u.reg .RUN_NEXT_STEP = BitVec.allOnes 64 ∧
            u.flag Fld.SPARE_STAT_PAUSED = false)) ∧
      (s.engaged = true → exec (.planLoad t ⟨seq, tiles⟩) s = .next v)) ∧
    (∀ d, s.executable seq 2 = some o → o.bulk = some d →
      let id := fieldAt o.body 0 4
      (s.engaged = false → ∃ u, exec (.dataBind t seq) s = .next u ∧ u.ex = s.ex ∧
        (s.planOn = true → s.plan.data.bindOk id d = true → u.finished o 2 0 0 ∧
          u.plan.binds = ⟨id, seq, d, shake256 d 32⟩ :: s.plan.binds.filter (·.block != id)) ∧
        ((s.planOn = false ∨ s.plan.data.bindOk id d = false) → u.finished o 4 0x100A id ∧ u.plan = s.plan)) ∧
      (s.engaged = true → exec (.dataBind t seq) s = .next v)) ∧
    (s.executable seq 3 = some o →
      let seed := BitVec.ofNat 64 (fieldAt o.body 0 8)
      (s.engaged = false → ∃ u, exec (.seedSet t seq) s = .next u ∧ u.finished o 2 0 seed.toNat ∧
        u.reg .STRM_SEED = seed ∧ u.flag Fld.STRM_SEED_INFO_VALID = true ∧
        u.flag Fld.STRM_SEED_INFO_FRESH = o.seedDrawn.isSome ∧
        u.jrnl.seeds = ⟨seq, seed, o.seedDrawn.isSome⟩ :: s.jrnl.seeds.filter (·.seq != seq) ∧
        (s.planOn = true → u.seeded = true ∧ u.ex.chain.vals = s.ex.chain.vals ∧
          (u.ex.chain.lanes, u.ex.chain.ctrl) = s.plan.data.seedStreams seed s.ex.chain.an.w) ∧
        (s.planOn = false → u.ex = s.ex)) ∧
      (s.engaged = true → exec (.seedSet t seq) s = .next v)) ∧
    (s.executable seq 7 = some o →
      let mode := fieldAt o.body 0 1
      (s.engaged = false →
        (mode = 0 → (s.planOn = false ∨ s.plan.data.synchronous = false) → ∃ u, exec (.modeSet t seq) s = .next u ∧
          u.finished o 2 0 0 ∧ u.flag Fld.MODE_STAT_MODE = false ∧ u.flag Fld.MODE_CTL_MODE = false ∧
          u.flag Fld.MODE_STAT_LB_ACTIVE = false ∧ u.plan.shape.place = s.plan.home.place) ∧
        (mode = 0 → s.planOn = true → s.plan.data.synchronous = true → ∃ u, exec (.modeSet t seq) s = .next u ∧
          u.finished o 4 0xA00D 0 ∧ u.reg .MODE_STAT = s.reg .MODE_STAT ∧ u.reg .MODE_CTL = s.reg .MODE_CTL) ∧
        (mode = 1 → ∃ u, exec (.modeSet t seq) s = .next u ∧ u.finished o 2 0 0 ∧
          u.flag Fld.MODE_STAT_MODE = true ∧ u.flag Fld.MODE_CTL_MODE = true ∧
          (fieldAt o.body 1 1 = 0 → u.flag Fld.LOAD_BALANCE_ENABLE = false ∧ u.flag Fld.MODE_STAT_LB_ACTIVE = false) ∧
          (fieldAt o.body 1 1 = 1 → u.flag Fld.LOAD_BALANCE_ENABLE = true ∧ u.flag Fld.MODE_STAT_LB_ACTIVE = true))) ∧
      (s.engaged = true → exec (.modeSet t seq) s = .next v)) ∧
    (s.executable seq 6 = some o → s.engaged = false →
      let restores (d : List Byte) (u : State) : Prop :=
        (∀ c p, v.checkContext d = some (c, p) → u.finished o 4 c p ∧ u.ex = s.ex) ∧
        (s.planOn = false → ctxForm d = true → u.finished o 4 0x1011 (fieldAt d 48 8)) ∧
        (v.checkContext d = none → u.finished o 2 0 0 ∧ u.seeded = true ∧
          u.reg .STRM_SEED = BitVec.ofNat 64 (fieldAt d 16 8) ∧ u.fld Fld.RUN_NEXT_STEP_STEP = ctxNext d % 2 ^ 64 ∧
          u.uncovered = (fieldAt d 7 1).testBit 0 ∧ u.ex.shadow = u.ex.chain)
      let src := fieldAt o.body 0 1
      let step := fieldAt o.body 8 8
      ∃ u, exec (.restore t seq) s = .next u ∧
        (∀ d, src = 0 → o.bulk = some d → restores d u) ∧
        (∀ d, src ≠ 0 → s.deviceCopy = some d → (step = 0 ∨ step = ctxNext d → restores d u) ∧
          (step ≠ 0 → step ≠ ctxNext d → u.finished o 4 0x1010 0 ∧ u.ex = s.ex)) ∧
        (src ≠ 0 → s.deviceCopy = none → u.finished o 4 0x1010 0 ∧ u.ex = s.ex)) ∧
    (s.executable seq 6 = some o → s.engaged = true → exec (.restore t seq) s = .next v)

/-- Orders that run steps, capture contexts, drain the journal or sample rows (R118, R266, R267, R286). -/
def Obligations.RunOrders : Prop :=
  ∀ (t seq : Nat) (o : Order) (s : State),
    let v := s.tick t
    let executing (u : State) : Prop := ∃ x, u.order seq = some x ∧ x.phase = .executing ∧ x.raw = o.raw
    (s.executable seq 4 = some o → s.engaged = true → exec (.run t seq) s = .next v) ∧
    (s.executable seq 4 = some o → s.engaged = false →
      let first := fieldAt o.body 0 8
      ∃ u, exec (.run t seq) s = .next u ∧
        (∀ c p, v.runRefused first = some (c, p) → u.finished o 4 c p ∧ u.stept = s.stept) ∧
        (v.runRefused first = none → executing u ∧
          u.stept.run = some ⟨seq, first, fieldAt o.body 8 8, first, max s.now t, false⟩)) ∧
    (s.executable seq 5 = some o →
      (s.engaged = false → ∃ u, exec (.checkpoint t seq) s = .next u ∧
        ((s.planOn = false ∨ s.seeded = false) → u.finished o 4 0x101B 0 ∧ u.jrnl.transfers = s.jrnl.transfers) ∧
        (s.planOn = true → s.seeded = true → executing u ∧ (u.order seq).any (·.effect.isSome) = true ∧ u.flag Fld.CKPT_STAT_IN_PROGRESS = true ∧
          ∃ x, u.jrnl.transfers = s.jrnl.transfers ++ [x] ∧ x.seq = seq ∧ x.kind = 2 ∧ x.policy = o.policy ∧
            x.bytes = v.context v.ex.chain v.idleNext false v.uncovered v.lastMode)) ∧
      (s.engaged = true → exec (.checkpoint t seq) s = .next v)) ∧
    (s.executable seq 10 = some o →
      (s.allDurable = false → exec (.quiesce t seq) s = .next v) ∧
      (s.allDurable = true → ∃ u, exec (.quiesce t seq) s = .next u ∧ u.finished o 2 0 0 ∧
        u.flag Fld.INTAKE_STAT_HELD = (fieldAt o.body 0 8 == 1 || s.flag Fld.INTAKE_STAT_HELD))) ∧
    (s.executable seq 8 = some o → s.rowMayStart o = true →
      (s.noRowCores = true → ∃ u, exec (.rowSample t seq) s = .next u ∧
        u.finished o 4 0xA023 (s.plan.data.vUsed % 256 + s.plan.data.sUsed % 256 * 256)) ∧
      (s.noRowCores = false → s.rowSeed o = none → ∃ u, exec (.rowSample t seq) s = .next u ∧
        u.finished o 4 0xA022 0) ∧
      ∀ seed, s.noRowCores = false → s.rowSeed o = some seed → s.rows = [] → s.intake.fetches = [] →
        s.intake.asked = [] → s.ports.busMaster = true → 0 < fieldAt o.body 24 4 → fieldAt o.body 33 1 = 0 →
        0 < fieldAt o.body 28 4 * rowSize (fieldAt o.body 32 1) →
        let len := fieldAt o.body 28 4 * rowSize (fieldAt o.body 32 1)
        let addr := fieldAt o.body 0 8 % 2 ^ 64
        ∃ u, exec (.rowSample t seq) s = .next u ∧ executing u ∧ u.rows = [⟨seq, seed, 0, crc64ecma.init⟩] ∧
          u.intake.asked = [(seq, 2, addr, len)] ∧ u.emitted = .hostRead seq 2 addr len :: s.emitted ∧
          u.regs = s.regs)

/-- Steps (R43, R45, R47), boundaries (R28, R252) and contexts (R286). -/
def Obligations.StepsAndBoundaries : Prop :=
  (∀ (t a : Nat) (m : Mark) (r : RunSt) (s : State), s.cUp = true → s.boot.recovering = none → s.dig.rerunTo = none →
    s.stept.run = some r → s.stept.stepOn = false → r.next ≤ r.last → r.next < 2 ^ 64 → s.halted = false →
    s.holds = false → s.power < 2 → s.stept.applied = [(m, some a)] → m.step = r.next →
    let at_ := max a r.b
    (at_ ≤ max s.now t → ∃ u, exec (.stepStart t) s = .next u ∧ u.stepNow = r.next ∧ u.phi = 0 ∧
      u.fld Fld.STEP_PHASE_LAG = min (at_ - a) 0xFFFFFFFF ∧ (u.flag Fld.STEP_STAT_OVERRUN = true ↔ a < at_) ∧
      u.running = true ∧ u.stept.stepOn = true ∧ u.stept.startedAt = at_ ∧ u.stept.applied = [] ∧
      u.stept.run = some { r with next := r.next + 1, started := true } ∧
      u.slog.throughput = s.flag Fld.MODE_STAT_MODE ∧ u.ex.chain = s.ex.chain ∧ u.ex.shadow = s.ex.chain) ∧
    (max s.now t < at_ → exec (.stepStart t) s = .next (s.tick t))) ∧
  (∀ (t : Nat) (an : Anchor) (s : State), s.cUp = true → s.stept.anchor = some an →
    let p := s.phi + 1
    let due := an.t + (p - an.m) * an.len / 2 ^ an.k
    p < 65536 → an.m ≤ p → p < an.m + 2 ^ an.k → p < s.phases →
    (due ≤ max s.now t → ∃ u, exec (.phaseBegin t) s = .next u ∧ u.phi = p ∧ u.stept.phaseAt = max s.now t ∧
      u.stepNow = s.stepNow ∧ u.ex.chain = s.ex.chain) ∧
    (max s.now t < due → exec (.phaseBegin t) s = .next (s.tick t))) ∧
  (∀ (t : Nat) (ok : Bool) (hbm : List Nat) (r : RunSt) (s : State), s.cUp = true → s.stept.run = some r →
    r.last + 1 < 2 ^ 64 →
    (s.stept.stepOn = true → s.dig.reload = 0 → (ok = true ∨ s.spare.selftest = none) → s.slog.abandoned = false → s.ex.stepEnded = true → s.flushDone = true →
      s.halted = false → s.slog.rerun = false → s.spare.damage = [] → s.dig.rerunTo = none →
      s.boot.recovering = none → s.flag Fld.PWR_STATE_PENDING = false →
      (∀ o ∈ s.intake.orders, o.op ∉ [2, 3, 5, 7]) →
      ∃ u, exec (.boundaryActions t ⟨ok, hbm⟩) s = .next u ∧ u.stept.stepOn = false ∧ u.dig.valid = true ∧
        u.dig.step = s.stepNow ∧ u.dig.value = s.plan.data.digest s.ex.chain ∧
        ((∀ n ∈ hbm, n < 8 ∧ s.portUsable (2 * n) = true) → u.fld Fld.SPARE_UNITS_HBM_REPAIRS =
          satAdd Fld.SPARE_UNITS_HBM_REPAIRS.w (s.fld Fld.SPARE_UNITS_HBM_REPAIRS) hbm.length) ∧
        (s.stepNow < r.last → u.stept.run = some { r with b := max s.now t }) ∧
        (r.last ≤ s.stepNow → u.stept.run = none ∧ u.running = false ∧
          u.fld Fld.RUN_NEXT_STEP_STEP = r.last + 1)) ∧
    (s.stept.stepOn = false → exec (.boundaryActions t ⟨ok, hbm⟩) s = .next (s.tick t))) ∧
  ∀ (t : Nat) (x : Transfer) (s : State), s.cUp = true → s.jrnl.transfers = [x] → x.next < 2 ^ 64 →
    let done := x.left = [] ∧ (∀ n ∈ x.parts, s.durable n x.policy = true) ∧
      (x.kind = 0 → s.windowOpen wCheckpoint = true)
    (done → ∃ u, exec (.contextComplete t) s = .next u ∧ u.jrnl.transfers = [] ∧ u.jrnl.ctxHbm = some x.bytes ∧
      u.jrnl.ctxLp = some x.bytes ∧ u.jrnl.ctxFseq = x.capFseq ∧ u.jrnl.ctxBinds = x.binds ∧
      u.flag Fld.CKPT_STAT_VALID = true ∧ u.flag Fld.CKPT_STAT_IN_PROGRESS = false ∧
      u.fld Fld.CKPT_LAST_NEXT_STEP = x.next ∧
      (x.kind ≠ 2 → u.jrnl.perFseq = x.capFseq) ∧
      ∀ o, x.kind = 2 → s.order x.seq = some o → o.phase = .executing →
        let short := fieldAt o.body 0 8 ≠ 0 ∧ fieldAt o.body 8 8 < x.bytes.length
        (short → u.finished o 2 0x1019 x.bytes.length) ∧ (¬short → u.finished o 2 0 (fieldAt x.bytes 208 8))) ∧
    (¬done → exec (.contextComplete t) s = .next (s.tick t))

/-- Sequencers (R80, R103, R110), barriers (R217), write-back (R250) and the core watchdog (R298). -/
def Obligations.SequencerRows : Prop :=
  ∀ (t node : Nat) (c : CoreSt) (e : SeqEntry) (s : State),
    let v := s.tick t
    let core (u : State) (x : CoreSt) : Prop := u.core node = some x
    let dropped (u : State) (site : Nat) : Prop :=
      (u.site site).ghostFlits = satAdd 32 (s.site site).ghostFlits 1 ∧ u.ex.flags = s.ex.flags ∧
      u.ex.barriers = s.ex.barriers
    (v.entryDue node 1 = some (c, e) → v.gatherReady c = true →
      (∃ u, exec (.gather t node .ok) s = .next u ∧ core u { c with pos := c.pos + 1, gathered := s.ex.snap } ∧
        u = { v with ex := { s.ex with cores := u.ex.cores } }) ∧
      ∀ site, v.siteOf (node / 1024) (node % 1024) = some site → ∃ u, exec (.gather t node .residue) s = .next u ∧
        core u { c with pos := c.pos + 1, gathered := s.ex.snap } ∧
        u.spare.damage = s.spare.damage ++ [.charge site 0] ∧ u.slog.rerun = true) ∧
    (v.entryDue node 1 = none → ∀ f, exec (.gather t node f) s = .next v) ∧
    (v.entryDue node 5 = some (c, e) →
      (v.lastSweep = false ∨ c.pass + 1 < s.replicas ∨ v.controllerDone = true) →
      ∃ u, exec (.writeback t node) s = .next u ∧
        core u { c with pos := c.pos + 1, written := v.controllerDone && v.lastSweep || c.written } ∧
        u = { v with ex := { s.ex with cores := u.ex.cores } }) ∧
    (4816 ≤ node → ∀ flag parity, exec (.sync t node ⟨flag, parity⟩) s = .fault .noSuchUnit) ∧
    (v.entryDue node 11 = some (c, e) → node < 4096 →
      (v.nodeFenced node = false →
        (∃ u, exec (.sync t node ⟨true, none⟩) s = .next u ∧ core u { c with pos := c.pos + 1 } ∧
          u.ex.flags = (e.arg, v.ccyc + 48) :: s.ex.flags.filter (·.1 != e.arg) ∧
          u = { v with ex := { s.ex with cores := u.ex.cores, flags := u.ex.flags } }) ∧
        ∃ u b, exec (.sync t node ⟨false, none⟩) s = .next u ∧ core u { c with waiting := some e.arg } ∧
          u.ex.barriers = b :: s.ex.barriers.filter (·.id != e.arg) ∧ b.id = e.arg ∧ (node, v.ccyc) ∈ b.arrived ∧
          u.ex = { s.ex with cores := u.ex.cores, barriers := u.ex.barriers }) ∧
      (∀ site, v.siteOf (node / 1024) (node % 1024) = some site → (s.site site).fenced = true →
        site < s.sites.length → ∃ u, exec (.sync t node ⟨true, none⟩) s = .next u ∧
          core u { c with pos := c.pos + 1 } ∧ dropped u site) ∧
      ∀ flag r, r < 720 → r < s.sites.length → ∃ u, exec (.sync t node ⟨flag, some r⟩) s = .next u ∧
        u.slog.rerun = true ∧ (u.site r).flitErrors = (s.site r).flitErrors + 1) ∧
    (∀ site flag, node = 4096 + site → site < 720 → site < s.sites.length → v.sweeping = true → s.core node = none →
      (s.site site).fenced = true → v.serves site = none →
      ∃ u, exec (.sync t node ⟨flag, none⟩) s = .next u ∧ dropped u site) ∧
    (v.entryDue node 11 = none → node < 4096 → ∀ flag, exec (.sync t node ⟨flag, none⟩) s = .next v) ∧
    (v.sweeping = true → ∀ b, v.dueBarrier = some b → exec (.barrierRelease t) s = .next { v with
      ex := { s.ex with
        cores := s.ex.cores.map fun x => if x.waiting = some b.id then { x with pos := x.pos + 1, waiting := none } else x
        barriers := s.ex.barriers.filter (·.id != b.id) } }) ∧
    (v.dueBarrier = none → exec (.barrierRelease t) s = .next v) ∧
    (v.entryDue node 15 = some (c, e) →
      (c.pass + 1 < s.replicas → ∃ u, exec (.endEntry t node) s = .next u ∧
        core u { c with pos := 0, pass := c.pass + 1, gathered := [] } ∧
        u = { v with ex := { s.ex with cores := u.ex.cores } }) ∧
      (s.replicas ≤ c.pass + 1 → v.passSpent = true → (∃ x ∈ s.ex.cores, x.node ≠ node ∧ x.ended = false) →
        ∃ u, exec (.endEntry t node) s = .next u ∧ core u { c with ended := true } ∧
          u = { v with ex := { s.ex with cores := u.ex.cores } })) ∧
    (v.slotEndDue = true → ∃ u, exec (.slotEnd t) s = .next u ∧
      u.ex.snap = s.ex.chain.vals ∧ u.ex.updated = [] ∧ u.ex.changed = [] ∧ u.ex.chain = s.ex.chain ∧
      (∀ x ∈ u.ex.cores, x.gathered = []) ∧
      u = { v with
        ex := u.ex
        slog := u.slog } ∧ (s.plan.data.synchronous = false → u.slog = s.slog) ∧
      (s.ex.slot + 1 < s.plan.shape.slotOrder.length → u.ex.slot = s.ex.slot + 1 ∧ u.ex.pass = s.ex.pass) ∧
      (s.plan.shape.slotOrder.length ≤ s.ex.slot + 1 → s.ex.pass + 1 < s.replicas →
        u.ex.slot = 0 ∧ u.ex.pass = s.ex.pass + 1)) ∧
    (v.slotEndDue = false → exec (.slotEnd t) s = .next v) ∧
    ∀ barrier n site, v.sweeping = true → v.watchdogDue barrier = some (n, site) → (s.site site).reason = 0 →
      site < s.sites.length → ∃ u, exec (.coreWatchdog t barrier) s = .next u ∧ u.slog.abandoned = true ∧
        (u.site site).reason = 2 ∧ (u.site site).fenced = true ∧ Damage.failed site 2 ∈ u.spare.damage ∧
        ∀ b ∈ u.ex.barriers, b.id ≠ barrier

/-- The arithmetic of a sweep: accumulation (R145, R151), the drain (R157, R165), decisions (R95 to R98, R108), Langevin
and MALA moves (R112, R113), reductions (R169, R171). -/
def Obligations.ArithmeticRows : Prop :=
  ∀ (t node : Nat) (c : CoreSt) (s : State),
    let v := s.tick t
    (∀ e d, v.entryDue node 2 = some (c, e) → v.macReady c e = true → s.plan.data.blocks[e.arg]? = some d →
      let b := e.bankB
      let vals := if c.gathered.isEmpty then s.ex.snap else c.gathered
      let old : Bank := if e.flags.testBit 0 then c.bank b else { Bank.reset with
        parcel := v.macParcel e, chain := c.pass, fill := v.fillIndex c (v.macParcel e), cols := List.replicate 64 Vault.zero }
      let g0 := ((old.done.find? (·.1 == e.arg)).map (·.2)).getD 0
      ∃ u x, exec (.mac t node .ok) s = .next u ∧ u.core node = some x ∧ x.pos = c.pos + 1 ∧
        (x.bank b).closed = e.flags.testBit 2 ∧ (x.bank b).closedAt = v.ccyc ∧ (x.bank b).parcel = old.parcel ∧
        (x.bank b).chain = old.chain ∧ (x.bank b).fill = old.fill ∧
        (x.bank b).done = (e.arg, g0 + e.count) :: old.done.filter (·.1 != e.arg) ∧
        (x.bank b).cols = old.cols.zipIdx.map (fun w => w.1.add (s.plan.columnSum vals c.pass
          s.ex.chain.an.penK (v.inLantern node) (d, e.arg) (v.macParcel e) old.fill g0 e.count w.2)) ∧
        x.bank (!b) = c.bank (!b) ∧ x.drains = c.drains ∧ u = { v with ex := { s.ex with cores := u.ex.cores } }) ∧
    (∀ e, v.entryDue node 2 = some (c, e) → v.macReady c e = false → ∀ f, exec (.mac t node f) s = .next v) ∧
    (∀ side cfg, v.drainDue node = some (c, side) →
      let b := c.bank side
      let id := (s.plan.data.drainOf s.plan.shape b.parcel).getD 0
      s.plan.data.drain id = some cfg →
      let xs := b.cols.zipIdx.map fun x => ((x.1.add (.fin (s.plan.biasOf cfg b.parcel b.fill s.ex.chain.an.penK x.2))).x,
        s.plan.data.filled b.parcel b.fill x.2,
        if cfg.round = 2 then v.roundWord id b.chain b.parcel b.fill x.2 else 0)
      let o := if cfg.cls = 0 then drainSampler s.plan.data cfg xs else drainDense s.plan.data cfg xs
      ∃ u x d, exec (.drain t node .ok) s = .next u ∧ u.core node = some x ∧
        x.bank side = { Bank.reset with freeAt := v.ccyc + 1 } ∧
        x.bank (!side) = c.bank (!side) ∧ x.drains = c.drains ++ [d] ∧ d.parcel = b.parcel ∧ d.chain = b.chain ∧
        d.fill = b.fill ∧ d.outs = o.outs ∧ d.shift = o.shift ∧ d.at_ = presentAt b.closedAt c.lastP o.shift ∧
        x.sticky = c.sticky ||| o.sticky ∧ x.pos = c.pos ∧ u.ex.chain = s.ex.chain) ∧
    (v.drainDue node = none → ∀ f, exec (.drain t node f) s = .next v) ∧
    (∀ f, (∃ u w, exec (.mac t node .ok) s = .next u ∧ exec (.mac t node f) s = .next w ∧
        w.ex = u.ex ∧ w.regs = u.regs ∧ w.emitted = u.emitted) ∧
      ∃ u w, exec (.drain t node .ok) s = .next u ∧ exec (.drain t node f) s = .next w ∧
        w.ex = u.ex ∧ w.regs = u.regs ∧ w.emitted = u.emitted) ∧
    (∀ e site, v.entryDue node 2 = some (c, e) → v.macReady c e = true →
      v.siteOf (node / 1024) (node % 1024) = some site →
      ∀ x ∈ [(CoreFault.residue, Damage.charge site 0), (.parity false 3 1 2, .slice site false 3),
        (.uncorrectable 5, .bank site 5)],
      ∃ w, exec (.mac t node x.1) s = .next w ∧ x.2 ∈ w.spare.damage ∧ w.slog.rerun = true) ∧
    (∀ x, v.updateDue node = some x →
      let chain := match x with | .inl d => d.chain | .inr _ => s.ex.pass
      let q := match x with | .inl d => d.parcel | .inr q => q
      ∃ u, exec (.update t node) s = .next u ∧ u.ex.snap = s.ex.snap ∧ u = { v with ex := u.ex } ∧
        ∀ k, (∀ w ∈ ((s.plan.data.parcels[q]?).map (·.vars)).getD [], k ≠ chain * s.nVars + w) →
          u.ex.chain.vals.getD k 0 = s.ex.chain.vals.getD k 0) ∧
    (∀ e, v.entryDue node 7 = some (c, e) → v.langevinReady c e = true →
      ∃ u y, exec (.langevin t node) s = .next u ∧ u.core node = some y ∧ y.pos = c.pos + 1 ∧
        u.ex.snap = s.ex.snap ∧ (∀ q ∈ s.plan.home.langevin e, s.parcelIn c.pass q ∈ u.ex.done) ∧
        u = { v with
          ex := u.ex
          slog := u.slog }) ∧
    (∀ d pc r x, v.updateDue node = some (.inl d) → s.plan.data.parcels[d.parcel]? = some pc →
      s.plan.data.rule d.parcel = some r → r ∈ [Rule.heatBath, .glauber, .metropolis] → pc.vars = [x] →
      x ∉ v.pairedVars d.chain →
      let out := ((s.plan.data.drain d.cfg).map (·.out)).getD 0
      let new := decideBit r (v.betaOf d.chain) (pc.typ == 1) (storedOf s.nVars s.ex.snap d.chain x)
        (unitField out (d.outs.getD 0 0)) d.shift ((v.drawParcel d.chain d.parcel).1.getD 0 0)
      ∃ u, exec (.update t node) s = .next u ∧ u.ex.chain.vals = s.ex.chain.vals.set (d.chain * s.nVars + x) new ∧
        u.ex.chain.lanes = (v.drawParcel d.chain d.parcel).2.ex.chain.lanes ∧
        s.parcelIn d.chain d.parcel ∈ u.ex.done ∧ u.ex.snap = s.ex.snap ∧
        (u.core node).map (·.drains) = (s.core node).map (fun k => k.drains.erase d)) ∧
    (v.updateDue node = none → exec (.update t node) s = .next v) ∧
    (∀ e q cfg i x r, v.entryDue node 7 = some (c, e) → v.langevinReady c e = true → s.plan.home.langevin e = [q] →
      s.ex.done.contains (s.parcelIn c.pass q) = false → s.plan.data.rule q = some r → r ∈ [Rule.ula, .mala] →
      s.plan.data.drainOf s.plan.shape q = some i → s.plan.data.drain i = some cfg →
      (s.plan.data.parcels[q]?).map (·.vars) = some [x] →
      let drawn := v.drawParcel c.pass q
      let old := BitVec.ofNat 32 (storedOf s.nVars s.ex.snap c.pass x)
      let k := s.coeffs q 0 (s.passesOf (s.coreOfParcel q) q)
      let new := k.propose cfg.scale (v.betaOf c.pass) old (tableDraw .gaussian (drawn.1.getD 0 0).toNat)
      let down := r == .mala && !expAccepts (tableDraw .exponential ((drawn.2.drawParcel c.pass q).1.getD 0 0).toNat)
        (k.logRatio cfg.scale (v.betaOf c.pass) old new)
      ∃ u y, exec (.langevin t node) s = .next u ∧ u.core node = some y ∧ y.pos = c.pos + 1 ∧
        s.parcelIn c.pass q ∈ u.ex.done ∧ u.ex.snap = s.ex.snap ∧
        u.ex.chain.vals = s.ex.chain.vals.set (c.pass * s.nVars + x)
          (if down || !isFinite32 new then old.toNat else new.toNat)) ∧
    ∀ e r heads tails, v.entryDue node 6 = some (c, e) → v.passEnded c.pass = true →
      s.plan.data.reds.find? (·.id == e.arg) = some r →
      (v.arrivalsOk r heads tails = true → ∃ u, exec (.reduce t node ⟨heads, tails⟩) s = .next u ∧
        u.core node = some { c with pos := c.pos + 1 } ∧
        u.ex.redOut = (r.id, c.pass, v.reduce r c.pass heads tails) ::
          s.ex.redOut.filter (fun y => !(y.1 == r.id && y.2.1 == c.pass)) ∧
        u.ex = { s.ex with cores := u.ex.cores, redOut := u.ex.redOut } ∧
        (v.ocuOpen = false → u = { v with ex := u.ex })) ∧
      (v.arrivalsOk r heads tails = false → exec (.reduce t node ⟨heads, tails⟩) s = .next v)

/-- The controller's actions (R126 to R135) and the end of a sweep (R123, R128). -/
def Obligations.AnnealRows : Prop :=
  ∀ (t : Nat) (s : State),
    let v := s.tick t
    (v.controllerOpen = true → s.ex.groupNext < s.replicas * s.nGroups →
      ∀ g, s.plan.data.anneal.groups[s.ex.groupNext % s.nGroups]? = some g →
      ∃ u, exec (.group t) s = .next u ∧ u.ex.groupNext = s.ex.groupNext + 1 ∧
        u.ex.chain.vals.length = s.ex.chain.vals.length ∧ u.ex.chain.an.w = s.ex.chain.an.w ∧
        (∀ i, (∀ m ∈ g.members, i ≠ s.ex.groupNext / s.nGroups * s.nVars + m) →
          u.ex.chain.vals.getD i 0 = s.ex.chain.vals.getD i 0) ∧
        ((s.groupSt (s.ex.groupNext / s.nGroups) (s.ex.groupNext % s.nGroups)).paired = false →
          u.ex.chain.vals = s.ex.chain.vals) ∧ u = { v with ex := u.ex }) ∧
    (v.controllerOpen = false → exec (.group t) s = .next v ∧ ∀ m, exec (.anneal t m) s = .next v) ∧
    (v.controllerOpen = true → s.replicas * s.nGroups ≤ s.ex.groupNext → ∀ moves,
      let k := s.plan.data.anneal.swapK
      ∃ u, exec (.anneal t moves) s = .next u ∧
        (0 < k → (s.ex.chain.an.w + 1) % k = 0 → u.ex.swapDue = true ∧ u.ex.annealDone = true ∧
          u.ex.chain.an.w = s.ex.chain.an.w) ∧
        ((k = 0 ∨ (s.ex.chain.an.w + 1) % k ≠ 0) → u.ex.chain.an.w = s.ex.chain.an.w + 1) ∧
        (s.slog.throughput = false → u.plan = s.plan) ∧
        (s.nGroups = 0 → u.ex.chain.vals = s.ex.chain.vals ∧ (s.plan.data.anneal.penaltyE = 0 →
          u.ex.energy = (List.range s.replicas).map fun r => (s.plan.e12 s.ex.chain.vals r s.ex.chain.an.penK,
            s.plan.feasible s.ex.chain.vals r)))) ∧
    (v.sweeping = true → s.ex.annealDone = true → s.ex.swapDue = true → ∃ u, exec (.swap t) s = .next u ∧
      u.ex.chain.an.w = s.ex.chain.an.w + 1 ∧ u.ex.chain.vals = s.ex.chain.vals ∧ u.ex.swapDue = false ∧
      u.ex.chain.an.slotMap.length = s.ex.chain.an.slotMap.length ∧
      (s.replicas ≤ 1 → u.ex.chain.an.slotMap = s.ex.chain.an.slotMap)) ∧
    (s.ex.swapDue = false → exec (.swap t) s = .next v)

/-- What moves on the mesh (R206 to R220). -/
def Obligations.MeshTraffic : Prop :=
  ∀ (t i site : Nat) (s : State),
    let v := s.tick t
    let counted (u : State) (n : Nat) : Prop :=
      (u.site site).ghostFlits = satAdd 32 (s.site site).ghostFlits n ∧ u.ex = s.ex ∧ u.mesh = s.mesh
    let erred (u : State) (r : Nat) : Prop := u.slog.rerun = true ∧
      (u.site r).flitErrors = (s.site r).flitErrors + 1 ∧
      ((s.site r).flitErrors = 1 → Damage.router r ∈ u.spare.damage)
    let other (x : Nat × Nat × Nat) (dir : Nat) : Bool := !(x.1 == site && x.2.1 == dir)
    (720 ≤ site → exec (.hopInject t i site) s = .fault .noSuchUnit ∧
      exec (.hopDelivery t i (some site)) s = .fault .noSuchUnit ∧
      ∀ n, exec (.freeSlotPacket t i site ⟨false, []⟩ ⟨n, none⟩) s = .fault .noSuchUnit) ∧
    (∀ h a, site < 720 → v.injectDue i site = true → v.hopAt i = some (h, a) →
      ((s.site site).fenced = false → exec (.hopInject t i site) s = .next { v with ex := { s.ex with
        inFlight := s.ex.inFlight ++ [(i, v.ccyc, s.ex.passAt + a.t)], sent := i :: s.ex.sent } }) ∧
      ((s.site site).fenced = true → v.portHop h site = false → site < s.sites.length →
        ∃ u, exec (.hopInject t i site) s = .next u ∧ counted u (h.flits * h.duration))) ∧
    (site < 720 → v.injectDue i site = false → exec (.hopInject t i site) s = .next v) ∧
    (∀ x, v.deliveryDue i = true → s.ex.inFlight.find? (·.1 == i) = some x →
      exec (.hopDelivery t i none) s = .next { v with ex := { s.ex with
        inFlight := s.ex.inFlight.erase x, lastCommit := max s.ex.lastCommit (v.deliveryAt x) } } ∧
      ∀ r, r < 720 → r < s.sites.length → ∃ u, exec (.hopDelivery t i (some r)) s = .next u ∧ erred u r) ∧
    (v.deliveryDue i = false → exec (.hopDelivery t i none) s = .next v) ∧
    (∀ flits, site < 720 → site < s.sites.length → s.cUp = true → (s.site site).dead = false →
      (∀ p ∈ s.mesh.packets, p.id ≠ i) → (∀ b ∈ s.mesh.flying, b.pkt ≠ i) → 2 ≤ flits → flits ≤ 34 →
      ((s.site site).fenced = false → (∃ u, exec (.freeSlotPacket t i site ⟨false, [site]⟩ ⟨flits, none⟩) s = .next u ∧
        u.mesh = { s.mesh with packets := s.mesh.packets ++ [⟨i, site, flits, [site], [site], false⟩] }) ∧
        ∀ r, r < 720 → r < s.sites.length → ∃ u, exec (.freeSlotPacket t i site ⟨false, [site]⟩ ⟨flits, some r⟩) s =
          .next u ∧ erred u r) ∧
      (∀ dst dir, dst < 720 → dst ≠ site → (s.site site).fenced = false → s.flag Fld.MODE_STAT_MODE = false →
        v.orderDir site site dst = some dir → dir < 4 → (∀ b ∈ s.mesh.waiting, b.site ≠ site ∨ b.dir ≠ dir) →
        let c := v.sentBy site dir flits
        let packets := s.mesh.packets ++ [⟨i, site, flits, [dst], [], false⟩]
        ∃ u, exec (.freeSlotPacket t i site ⟨false, [dst]⟩ ⟨flits, none⟩) s = .next u ∧ u.mesh =
          if v.hasCredit site dir then { s.mesh with
            packets := packets
            flying := s.mesh.flying ++ [⟨site, dir, i, [dst], false, c⟩]
            busy := (site, dir, c) :: s.mesh.busy.filter (other · dir)
            inUse := (site, dir, s.creditUsed site dir + 1) :: s.mesh.inUse.filter (other · dir) }
          else { s.mesh with
            packets := packets, waiting := s.mesh.waiting ++ [⟨site, dir, i, [dst], false, 0⟩] }) ∧
      ((s.site site).fenced = true → ∃ u, exec (.freeSlotPacket t i site ⟨false, [site]⟩ ⟨flits, none⟩) s =
        .next u ∧ counted u flits)) ∧
    (∀ b p flits node, site < 720 → s.cUp = true → (s.site site).dead = false → (s.site site).fenced = false →
      v.arriving i site = some b → s.mesh.packets.find? (·.id == i) = some p → b.targets = [site] →
      ∃ u, exec (.freeSlotPacket t i site ⟨node, []⟩ ⟨flits, none⟩) s = .next u ∧ u.mesh = { s.mesh with
        flying := s.mesh.flying.erase b
        packets := s.mesh.packets.map fun x => if x.id = i then { x with reached := site :: x.reached } else x }) ∧
    (∀ dir, site < 720 → dir < 4 → s.cUp = true →
      (v.underWay site dir < s.creditUsed site dir →
        ((∀ b ∈ s.mesh.waiting, b.site ≠ site ∨ b.dir ≠ dir) → ∃ u, exec (.creditReturn t site dir) s = .next u ∧
          u.creditUsed site dir = s.creditUsed site dir - 1 ∧ u.mesh = { s.mesh with inUse := u.mesh.inUse }) ∧
        ∀ b, s.mesh.waiting.find? (fun b => b.site == site && b.dir == dir) = some b →
          ∃ u, exec (.creditReturn t site dir) s = .next u ∧ u.mesh.packets = s.mesh.packets ∧
            if s.creditUsed site dir ≤ Config.routerCredit site dir then
              u.mesh.waiting = s.mesh.waiting.erase b ∧ u.creditUsed site dir = s.creditUsed site dir ∧
              u.mesh.flying = s.mesh.flying ++ [{ b with done := v.sentBy site dir (s.flitsOf b.pkt) }]
            else u.mesh.waiting = s.mesh.waiting ∧ u.mesh.flying = s.mesh.flying) ∧
      (s.creditUsed site dir ≤ v.underWay site dir → exec (.creditReturn t site dir) s = .next v)) ∧
    (∀ p target, s.cUp = true → s.mesh.packets.find? (·.id == i) = some p → target ∈ p.reached →
      (p.waiting = [target] → exec (.freeSlotAck t i ⟨target, none⟩) s = .next { v with mesh := { s.mesh with
        packets := s.mesh.packets.filter (·.id != i), lastDone := some (i, p.failed) } }) ∧
      (target ∈ p.waiting → 1 < p.waiting.length → ∃ u, exec (.freeSlotAck t i ⟨target, none⟩) s = .next u ∧
        u.mesh.packets.find? (·.id == i) = some { p with waiting := p.waiting.erase target })) ∧
    ∀ target, (∀ q ∈ s.mesh.packets, q.id = i → target ∉ q.waiting ∨ target ∉ q.reached) →
      exec (.freeSlotAck t i ⟨target, none⟩) s = .next v

/-- Memory ports (R222 to R236) and the device-memory window (R322). -/
def Obligations.MemoryPorts : Prop :=
  ∀ (t port : Nat) (s : State),
    let v := s.tick t
    let m := s.mport port
    let sound (addr n : Nat) : Prop := ∀ x ∈ tilesOf addr n, x ∉ m.poison ∧ s.tileAgrees port x = true
    let stores (u : State) (addr : Nat) (d : List Byte) : Prop :=
      u.readMem port addr d.length = d ∧
      ∀ k, (k < memKey port addr ∨ memKey port addr + d.length ≤ k) → memByte u.mem k = memByte s.mem k
    (∀ id addr d, inPart port addr (List.length d) = false →
      exec (.mportRequest t port id true addr 0 d) s = .fault .noSuchUnit ∧
      exec (.freeSlotRequest t port true addr 0 d []) s = .fault .noSuchUnit) ∧
    (s.portActive port = true → port < 32 → port < s.mports.length → Memory.wf s.mem = true →
      (∀ id addr d, inPart port addr (List.length d) = true → d ≠ [] → s.planOn = true →
        (inUsable port addr d.length = true → ∃ u, exec (.mportRequest t port id true addr 0 d) s = .next u ∧
          u.mport port = { m with
            queue := enqueue m.queue ⟨id, true, addr, d.length, some d, v.ccyc, writeCost addr d.length⟩ } ∧
          u = { v with mports := u.mports }) ∧
        (inUsable port addr d.length = false → exec (.mportRequest t port id true addr 0 d) s = .next v)) ∧
      (∀ id addr n x, inPart port addr n = true → inUsable port addr n = true → n ≠ 0 → s.planOn = true →
        tilesOf addr n = [x] →
        ((∃ e ∈ m.entries, e.1 = x ∧ v.ccyc ≤ e.2 + 16) →
          ∃ u, exec (.mportRequest t port id false addr n []) s = .next u ∧ u.mport port = { m with
            merged := satAdd 48 m.merged 1
            queue := enqueue m.queue ⟨id, false, addr, n, v.owed port addr n, v.ccyc, 0⟩ }) ∧
        ((∀ e ∈ m.entries, e.1 = x → e.2 + 16 < v.ccyc) → m.entries.length < 64 →
          ∃ u, exec (.mportRequest t port id false addr n []) s = .next u ∧ u.mport port = { m with
            entries := m.entries ++ [(x, v.ccyc)]
            maxOpen := max m.maxOpen (m.entries.length + 1)
            queue := enqueue m.queue ⟨id, false, addr, n, v.owed port addr n, v.ccyc, 4096⟩ })) ∧
      (∀ r, v.admittable port = some r →
        (r.write = false → m.writes = [] → ∃ u, exec (.mportAdmit t port []) s = .next u ∧
          (u.mport port).queue = m.queue.drop 1 ∧ (u.mport port).reads = m.reads ++ [(r, v.ccyc)] ∧
          (u.mport port).account = min (portDepth port) (m.account + portRate port * (v.ccyc - m.accountAt)) - r.cost ∧
          u.mem = s.mem) ∧
        (∀ d, r.write = true → r.data = some d → d.length = r.len → partTiles r.addr r.len = [] → m.reads = [] →
          (∀ q ∈ m.queue, q.write = true) →
          ∃ u, exec (.mportAdmit t port []) s = .next u ∧ stores u r.addr d ∧
            (u.mport port).queue = m.queue.drop 1 ∧
            (u.mport port).writes = m.writes ++ [({ r with data := some (s.readMem port r.addr r.len) }, v.ccyc)])) ∧
      (∀ r a rest, m.reads = (r, a) :: rest → a + portReadLat port ≤ v.ccyc →
        let bytes := r.data.getD (s.readMem port r.addr r.len)
        (sound r.addr r.len → ∃ u, exec (.mportReadDelivery t port []) s = .next u ∧
          u.mport port = { m with reads := rest, delivered := bytes.map some } ∧
          u = { v with mports := u.mports }) ∧
        ∀ x, tilesOf r.addr r.len = [x] → s.inResidence port x = false → bytes.length = r.len →
          (x ∈ m.poison → ∃ u w, exec (.mportReadDelivery t port []) s = .next u ∧
            u.mport port = { m with reads := rest, delivered := bytes.map fun _ => none } ∧
            w = { v with mports := w.mports } ∧ u.bel = (State.record w 0x5004 (port + x % 2 ^ 40 * 256)).bel) ∧
          (x ∉ m.poison → s.tileAgrees port x = false → m.poisonFull = false → m.poison.length < 255 →
            ∃ u, exec (.mportReadDelivery t port []) s = .next u ∧ (u.mport port).reads = rest ∧
              (u.mport port).delivered = (bytes.map fun _ => none) ∧ (u.mport port).poison = x :: m.poison ∧
              (u.mport port).checkFails = satAdd 32 m.checkFails 1)) ∧
      (∀ w a rest, m.writes = (w, a) :: rest →
        (a + portAckLat port ≤ v.ccyc → ∃ u, exec (.mportWriteAck t port) s = .next u ∧
          u.mport port = { m with writes := rest } ∧ u = { v with mports := u.mports }) ∧
        (v.ccyc < a + portAckLat port → exec (.mportWriteAck t port) s = .next v)) ∧
      (∃ u, exec (.mergeEntryClose t port) s = .next u ∧
        u.mport port = { m with entries := m.entries.filter fun e => v.ccyc ≤ e.2 + 16 } ∧
        u = { v with mports := u.mports }) ∧
      (s.stept.anchor.isSome = true → v.windowOpen wScrub = true → m.scrubPos ∉ m.poison →
        s.tileAgrees port m.scrubPos = true →
        ∃ u, exec (.scrubRead t port .ok) s = .next u ∧ (u.mport port).scrubPos =
          (if m.scrubPos + 1 < portTiles port then m.scrubPos + 1 else 0) ∧ u.mem = s.mem) ∧
      (∀ addr x, inPart port addr 8 = true →
        (s.slog.throughput = true → s.stept.stepOn = true → sound addr 8 →
          ∃ u, exec (.atomicAdd t port addr x []) s = .next u ∧
            stores u addr (natLe (fAdd fp64 (leNat (s.readMem port addr 8)) x.toNat) 8)) ∧
        (s.slog.throughput = false → exec (.atomicAdd t port addr x []) s = .next v)) ∧
      (∀ addr d, inPart port addr (List.length d) = true → d ≠ [] → sound addr d.length →
        (∃ u, exec (.freeSlotRequest t port true addr 0 d []) s = .next u ∧ stores u addr d) ∧
        ∃ u, exec (.freeSlotRequest t port false addr d.length [] []) s = .next u ∧ u.mem = s.mem ∧
          u.mport port = { m with delivered := (s.readMem port addr d.length).map some }) ∧
      ∀ a, s.reach a.port .MPORT_CVU_CTL = true → s.selMport a.port = port → m.cvuArm = false →
        accSets a ⟨.MPORT_CVU_CTL, 0, 1⟩ = true → ∃ u p, exec (.cvuArm t a) s = .next u ∧
          u.mport port = { m with cvuArm := true, cvuPoly := p, cvuReg := (crcOfPoly p).init,
                                  cvuValue := crcOut (crcOfPoly p) (crcOfPoly p).init, cvuBytes := 0 } ∧
          p = (accField a ⟨.MPORT_CVU_CTL, 1, 2⟩).getD m.cvuPoly ∧ u = { v with mports := u.mports }) ∧
    ∀ addr a d, s.windowUp = true → addr + List.length d ≤ s.ports.bar2Size →
      s.windowPieces addr d.length = [(port, a, d.length)] → sound a d.length → Memory.wf s.mem = true →
      exec (.bar2Read t addr d.length []) s = .next (v.emit (.readData (leNat (s.readMem port a d.length)) false)) ∧
      (s.planOn = false → ∃ u, exec (.bar2Write t addr ⟨d, []⟩) s = .next u ∧ stores u a d ∧ u.regs = v.regs) ∧
      (s.planOn = true → (∃ x ∈ tilesOf a d.length, s.inResidence port x = true) → s.stept.stepOn = false →
        exec (.bar2Write t addr ⟨d, []⟩) s = .next ((v.incFld Fld.HOST_ERR_BAR2_DROPPED).record 0x7006 1)) ∧
      (s.planOn = true → (∀ x ∈ tilesOf a d.length, s.inResidence port x = false) →
        ∃ u, exec (.bar2Write t addr ⟨d, []⟩) s = .next u ∧ (stores u a d ∨ u.mem = s.mem))
end

