-- ==== Sys2Proof/Laws/Memory.lean ====
section
/-! SUPPORT. External memory: every operation keeps the canonical form, and what a byte reads after a write. -/

namespace Sys2Proof.Machine

/-- Every address of a list lies above a bound. -/
theorem Memory.wf_cons {a : Nat} {v : Byte} {m : List Host.Cell} :
    Memory.wf ((a, v) :: m) = true ↔
      v ≠ 0 ∧ (∀ c ∈ m.head?, a < c.1) ∧ Memory.wf m = true := by
  cases m <;> simp [Memory.wf, and_assoc]

/-- Listed addresses of a canonical memory lie above that of its first entry. -/
theorem Memory.wf_lt {a : Nat} {v : Byte} {m : List Host.Cell} (h : Memory.wf ((a, v) :: m) = true) :
    ∀ c ∈ m, a < c.1 := by
  induction m generalizing a v with
  | nil => simp
  | cons c m ih =>
    obtain ⟨b, w⟩ := c
    rw [Memory.wf_cons] at h
    intro d hd
    have hb : a < b := h.2.1 (b, w) rfl
    rcases List.mem_cons.mp hd with rfl | hd
    · exact hb
    · exact hb.trans (ih h.2.2 d hd)

/-- What memPut may leave at the head. -/
theorem memPut_head {m : List Host.Cell} {a : Nat} {v : Byte} {k : Nat} (ha : k < a)
    (hm : ∀ c ∈ m, k < c.1) : ∀ c ∈ memPut m a v, k < c.1 := by
  induction m with
  | nil => unfold memPut; split <;> simp [ha]
  | cons c m ih =>
    obtain ⟨b, w⟩ := c
    have hb : k < b := hm (b, w) (by simp)
    have ht : ∀ c ∈ m, k < c.1 := fun c hc => hm c (by simp [hc])
    unfold memPut
    split
    · split
      · exact hm
      · intro c hc
        rcases List.mem_cons.mp hc with rfl | hc
        · exact ha
        · exact hm c hc
    · split
      · split
        · exact ht
        · intro c hc
          rcases List.mem_cons.mp hc with rfl | hc
          · exact ha
          · exact ht c hc
      · intro c hc
        rcases List.mem_cons.mp hc with rfl | hc
        · exact hb
        · exact ih ht c hc

/-- A list whose addresses lie above a bound has a head above it. -/
theorem head_of_all {m : List Host.Cell} {k : Nat} (h : ∀ c ∈ m, k < c.1) : ∀ c ∈ m.head?, k < c.1 :=
  fun c hc => h c (List.mem_of_mem_head? hc)

/-- Writing a byte keeps the canonical form. -/
theorem memPut_wf {m : List Host.Cell} (h : Memory.wf m = true) (a : Nat) (v : Byte) :
    Memory.wf (memPut m a v) = true := by
  induction m with
  | nil => unfold memPut; split <;> simp_all [Memory.wf]
  | cons c m ih =>
    obtain ⟨b, w⟩ := c
    have hlt := Memory.wf_lt h
    obtain ⟨hw, hh, hm⟩ := Memory.wf_cons.mp h
    unfold memPut
    split
    · split
      · exact h
      · exact Memory.wf_cons.mpr ⟨by simp_all, by simp_all, h⟩
    · split
      · split
        · exact hm
        · refine Memory.wf_cons.mpr ⟨by simp_all, ?_, hm⟩
          simp_all
      · rename_i h1 h2
        refine Memory.wf_cons.mpr ⟨hw, head_of_all (memPut_head ?_ hlt), ih hm⟩
        have : a ≠ b := by simpa using h2
        omega

/-- Writing bytes keeps the canonical form. -/
theorem memWrite_wf {m : List Host.Cell} (h : Memory.wf m = true) (a : Nat) (d : List Byte) :
    Memory.wf (memWrite m a d) = true := by
  induction d generalizing m a with
  | nil => exact h
  | cons v d ih => exact ih (memPut_wf h a v) (a + 1)

/-- Taking entries out keeps the canonical form. -/
theorem filter_wf {m : List Host.Cell} (h : Memory.wf m = true) (p : Host.Cell → Bool) :
    Memory.wf (m.filter p) = true := by
  induction m with
  | nil => rfl
  | cons c m ih =>
    obtain ⟨b, w⟩ := c
    have hlt := Memory.wf_lt h
    obtain ⟨hw, _, hm⟩ := Memory.wf_cons.mp h
    rw [List.filter_cons]
    split
    · exact Memory.wf_cons.mpr ⟨hw, head_of_all fun c hc => hlt c (List.mem_of_mem_filter hc), ih hm⟩
    · exact ih hm

/-- A byte below every listed address reads 0. -/
theorem memByte_below {m : List Host.Cell} {a : Nat} (h : ∀ c ∈ m, a < c.1) : memByte m a = 0 := by
  cases m with
  | nil => rfl
  | cons c m =>
    have := h c (by simp)
    obtain ⟨b, w⟩ := c
    unfold memByte
    simp at this
    rw [if_neg (by simp; omega), if_pos this]

/-- A byte reads as it was last written; every other byte reads as before. -/
theorem memByte_memPut {m : List Host.Cell} (h : Memory.wf m = true) (a : Nat) (v : Byte) (x : Nat) :
    memByte (memPut m a v) x = if x = a then v else memByte m x := by
  induction m with
  | nil =>
    unfold memPut
    split
    · split <;> simp_all [memByte]
    · simp only [memByte]
      split <;> simp_all
  | cons c m ih =>
    obtain ⟨b, w⟩ := c
    have hlt := Memory.wf_lt h
    obtain ⟨_, _, hm⟩ := Memory.wf_cons.mp h
    unfold memPut
    split
    · rename_i hab
      split
      · rename_i hv
        split
        · subst_vars
          unfold memByte
          rw [if_neg (by simp; omega), if_pos hab]
          exact (beq_iff_eq.mp hv).symm
        · rfl
      · by_cases hx : x = a
        · subst hx
          simp [memByte]
        · rw [if_neg hx]
          conv_lhs => unfold memByte
          rw [if_neg (by simpa using hx)]
          split
          · symm
            exact memByte_below fun c hc => by
              rcases List.mem_cons.mp hc with rfl | hc
              · simp; omega
              · have := hlt c hc
                omega
          · rfl
    · split
      · rename_i hab
        have hab : a = b := by simpa using hab
        subst hab
        split
        · rename_i hv
          have hv : v = 0 := by simpa using hv
          subst hv
          by_cases hx : x = a
          · subst hx
            simp [memByte_below hlt]
          · rw [if_neg hx]
            conv_rhs => unfold memByte
            rw [if_neg (by simpa using hx)]
            split
            · exact memByte_below fun c hc => (‹x < a›).trans (hlt c hc)
            · rfl
        · by_cases hx : x = a <;> simp [memByte, hx]
      · rename_i hab hne
        have hne : a ≠ b := by simpa using hne
        unfold memByte
        split
        · rename_i hx
          have hx : x = b := by simpa using hx
          rw [if_neg (by omega)]
        · split
          · rw [if_neg (by omega)]
          · exact ih hm

/-- Bytes written read back where they were written, and every other byte reads as before. -/
theorem memByte_memWrite {m : List Host.Cell} (h : Memory.wf m = true) (a : Nat) (d : List Byte) (x : Nat) :
    memByte (memWrite m a d) x = if a ≤ x ∧ x < a + d.length then d.getD (x - a) 0 else memByte m x := by
  induction d generalizing m a with
  | nil =>
    rw [if_neg (by simp)]
    rfl
  | cons v d ih =>
    unfold memWrite
    rw [ih (memPut_wf h a v) (a + 1), memByte_memPut h]
    simp only [List.length_cons]
    by_cases hx : x = a
    · subst hx
      simp
    · rw [if_neg hx]
      by_cases h1 : a + 1 ≤ x ∧ x < a + 1 + d.length
      · rw [if_pos h1, if_pos (by omega)]
        have : x - a = (x - (a + 1)) + 1 := by omega
        rw [this]
        simp
      · rw [if_neg h1, if_neg (by omega)]

/-- Reset memory is in canonical form. -/
theorem reset_mem_wf : Memory.wf State.reset.mem = true := rfl

end Sys2Proof.Machine
end

