-- ==== Sys2Proof/Laws/Registers.lean ====
section
/-! SUPPORT. The algebra of registers and their fields: what a read gives after a write. -/

namespace Sys2Proof.Machine

theorem testBit_bitsOf (n lo w i : Nat) : (bitsOf n lo w).testBit i = (decide (i < w) && n.testBit (lo + i)) := by
  rw [bitsOf, Nat.testBit_mod_two_pow, Nat.testBit_div_two_pow, Nat.add_comm i lo]

theorem bitsOf_lt (n lo w : Nat) : bitsOf n lo w < 2 ^ w := Nat.mod_lt _ (by positivity)

/-- Three parts put together, bit by bit. -/
theorem testBit_parts (v n lo w i : Nat) :
    (v % 2 ^ lo + n % 2 ^ w * 2 ^ lo + v / 2 ^ (lo + w) * 2 ^ (lo + w)).testBit i =
      if lo ≤ i ∧ i < lo + w then n.testBit (i - lo) else v.testBit i := by
  have h1 : v % 2 ^ lo < 2 ^ lo := Nat.mod_lt _ (by positivity)
  have h2 : n % 2 ^ w < 2 ^ w := Nat.mod_lt _ (by positivity)
  have h3 : v % 2 ^ lo + n % 2 ^ w * 2 ^ lo < 2 ^ (lo + w) := by
    have h4 : (n % 2 ^ w + 1) * 2 ^ lo ≤ 2 ^ w * 2 ^ lo := Nat.mul_le_mul_right _ h2
    rw [pow_add, Nat.mul_comm (2 ^ lo)]
    rw [Nat.add_mul] at h4
    omega
  rw [show v % 2 ^ lo + n % 2 ^ w * 2 ^ lo + v / 2 ^ (lo + w) * 2 ^ (lo + w) =
      2 ^ (lo + w) * (v / 2 ^ (lo + w)) + (v % 2 ^ lo + n % 2 ^ w * 2 ^ lo) by ring]
  rw [Nat.testBit_two_pow_mul_add _ h3]
  rw [show v % 2 ^ lo + n % 2 ^ w * 2 ^ lo = 2 ^ lo * (n % 2 ^ w) + v % 2 ^ lo by ring]
  rw [Nat.testBit_two_pow_mul_add _ h1, Nat.testBit_mod_two_pow, Nat.testBit_mod_two_pow, Nat.testBit_div_two_pow]
  by_cases a : i < lo
  · simp [a, show i < lo + w by omega, show ¬ lo ≤ i by omega]
  · by_cases b : i < lo + w
    · simp [a, b, show lo ≤ i by omega, show i - lo < w by omega]
    · simp [b, show i - (lo + w) + (lo + w) = i by omega]

theorem testBit_insertBits (v : W64) (lo w n i : Nat) (h : lo + w ≤ 64) :
    (insertBits v lo w n).toNat.testBit i = if lo ≤ i ∧ i < lo + w then n.testBit (i - lo) else v.toNat.testBit i := by
  rw [insertBits, BitVec.toNat_ofNat, Nat.testBit_mod_two_pow, testBit_parts]
  by_cases a : i < 64
  · simp [a]
  · have : v.toNat.testBit i = false :=
      Nat.testBit_lt_two_pow (lt_of_lt_of_le v.isLt (Nat.pow_le_pow_right (by norm_num) (by omega)))
    simp [a, this]
    omega

/-- A field written reads back as what was written, cut to its width. -/
theorem bitsOf_insertBits (v : W64) (lo w n : Nat) (h : lo + w ≤ 64) :
    bitsOf (insertBits v lo w n).toNat lo w = n % 2 ^ w := by
  apply Nat.eq_of_testBit_eq
  intro i
  rw [testBit_bitsOf, testBit_insertBits _ _ _ _ _ h, Nat.testBit_mod_two_pow]
  by_cases a : i < w <;> simp [a]

/-- A field apart from the one written keeps its value. -/
theorem bitsOf_insertBits_apart (v : W64) (lo w n lo' w' : Nat) (h : lo + w ≤ 64)
    (h' : lo' + w' ≤ lo ∨ lo + w ≤ lo') : bitsOf (insertBits v lo w n).toNat lo' w' = bitsOf v.toNat lo' w' := by
  apply Nat.eq_of_testBit_eq
  intro i
  rw [testBit_bitsOf, testBit_bitsOf, testBit_insertBits _ _ _ _ _ h]
  by_cases a : i < w'
  · rw [if_neg (by omega)]
  · simp [a]

/-! ## Registers -/

@[simp] theorem State.reg_setReg (s : State) (r : Reg) (v : W64) : (s.setReg r v).reg r = v := by
  simp [State.reg, State.setReg]

theorem Reg.idx_inj {r q : Reg} (h : r.idx = q.idx) : r = q := by
  have hr : Reg.every[r.idx.val]? = some r := by cases r <;> rfl
  have hq : Reg.every[q.idx.val]? = some q := by cases q <;> rfl
  rw [h, hq] at hr
  exact (Option.some.inj hr).symm

theorem State.reg_setReg_ne (s : State) {r q : Reg} (v : W64) (h : q ≠ r) : (s.setReg r v).reg q = s.reg q := by
  have : ¬ r.idx.val = q.idx.val := fun e => h (Reg.idx_inj (Fin.ext e)).symm
  simp [State.reg, State.setReg, this]

@[simp] theorem State.reg_tick (s : State) (t : Nat) (r : Reg) : (s.tick t).reg r = s.reg r := rfl

@[simp] theorem State.fld_tick (s : State) (t : Nat) (f : Field) : (s.tick t).fld f = s.fld f := rfl

@[simp] theorem State.flag_tick (s : State) (t : Nat) (f : Field) : (s.tick t).flag f = s.flag f := rfl

/-- A register written with its own value is unchanged. -/
@[simp] theorem State.setReg_self (s : State) (r : Reg) : s.setReg r (s.reg r) = s := by
  simp [State.reg, State.setReg]

theorem State.reg_setFld_ne (s : State) {f : Field} {q : Reg} (n : Nat) (h : q ≠ f.reg) :
    (s.setFld f n).reg q = s.reg q := State.reg_setReg_ne s _ h

theorem State.fld_setFld (s : State) (f : Field) (n : Nat) (h : f.lo + f.w ≤ 64) :
    (s.setFld f n).fld f = n % 2 ^ f.w := by
  rw [State.fld, State.setFld, State.reg_setReg, bitsOf_insertBits _ _ _ _ h]

theorem State.fld_setFld_ne (s : State) {f g : Field} (n : Nat) (h : g.reg ≠ f.reg) :
    (s.setFld f n).fld g = s.fld g := by
  rw [State.fld, State.reg_setFld_ne s n h, State.fld]

theorem State.fld_setFld_apart (s : State) {f g : Field} (n : Nat) (hr : g.reg = f.reg) (h : f.lo + f.w ≤ 64)
    (h' : g.lo + g.w ≤ f.lo ∨ f.lo + f.w ≤ g.lo) : (s.setFld f n).fld g = s.fld g := by
  rw [State.fld, State.setFld, hr, State.reg_setReg, bitsOf_insertBits_apart _ _ _ _ _ _ h h', State.fld, hr]

end Sys2Proof.Machine
end

