-- ==== Sys2Proof/Laws/State.lean ====
section
/-! SUPPORT. What each named update of the state leaves, field by field, so that no proof unfolds a record update. -/

namespace Sys2Proof.Machine

/-! ### State.setReg -/

@[simp] theorem State.setReg_now (s : State) (r : Reg) (v : W64) : (s.setReg r v).now = s.now := rfl
@[simp] theorem State.setReg_ccyc (s : State) (r : Reg) (v : W64) : (s.setReg r v).ccyc = s.ccyc := rfl
@[simp] theorem State.setReg_crem (s : State) (r : Reg) (v : W64) : (s.setReg r v).crem = s.crem := rfl
@[simp] theorem State.setReg_regs (s : State) (r : Reg) (v : W64) :
    (s.setReg r v).regs = s.regs.set r.idx v := rfl
@[simp] theorem State.setReg_fuse (s : State) (r : Reg) (v : W64) : (s.setReg r v).fuse = s.fuse := rfl
@[simp] theorem State.setReg_mram (s : State) (r : Reg) (v : W64) : (s.setReg r v).mram = s.mram := rfl
@[simp] theorem State.setReg_stept (s : State) (r : Reg) (v : W64) : (s.setReg r v).stept = s.stept := rfl
@[simp] theorem State.setReg_intake (s : State) (r : Reg) (v : W64) : (s.setReg r v).intake = s.intake := rfl
@[simp] theorem State.setReg_jrnl (s : State) (r : Reg) (v : W64) : (s.setReg r v).jrnl = s.jrnl := rfl
@[simp] theorem State.setReg_intr (s : State) (r : Reg) (v : W64) : (s.setReg r v).intr = s.intr := rfl
@[simp] theorem State.setReg_bel (s : State) (r : Reg) (v : W64) : (s.setReg r v).bel = s.bel := rfl
@[simp] theorem State.setReg_mgmt (s : State) (r : Reg) (v : W64) : (s.setReg r v).mgmt = s.mgmt := rfl
@[simp] theorem State.setReg_sec (s : State) (r : Reg) (v : W64) : (s.setReg r v).sec = s.sec := rfl
@[simp] theorem State.setReg_pwr (s : State) (r : Reg) (v : W64) : (s.setReg r v).pwr = s.pwr := rfl
@[simp] theorem State.setReg_trng (s : State) (r : Reg) (v : W64) : (s.setReg r v).trng = s.trng := rfl
@[simp] theorem State.setReg_ports (s : State) (r : Reg) (v : W64) : (s.setReg r v).ports = s.ports := rfl
@[simp] theorem State.setReg_boot (s : State) (r : Reg) (v : W64) : (s.setReg r v).boot = s.boot := rfl
@[simp] theorem State.setReg_plan (s : State) (r : Reg) (v : W64) : (s.setReg r v).plan = s.plan := rfl
@[simp] theorem State.setReg_ex (s : State) (r : Reg) (v : W64) : (s.setReg r v).ex = s.ex := rfl
@[simp] theorem State.setReg_slog (s : State) (r : Reg) (v : W64) : (s.setReg r v).slog = s.slog := rfl
@[simp] theorem State.setReg_dig (s : State) (r : Reg) (v : W64) : (s.setReg r v).dig = s.dig := rfl
@[simp] theorem State.setReg_sites (s : State) (r : Reg) (v : W64) : (s.setReg r v).sites = s.sites := rfl
@[simp] theorem State.setReg_spare (s : State) (r : Reg) (v : W64) : (s.setReg r v).spare = s.spare := rfl
@[simp] theorem State.setReg_mesh (s : State) (r : Reg) (v : W64) : (s.setReg r v).mesh = s.mesh := rfl
@[simp] theorem State.setReg_mports (s : State) (r : Reg) (v : W64) : (s.setReg r v).mports = s.mports := rfl
@[simp] theorem State.setReg_mem (s : State) (r : Reg) (v : W64) : (s.setReg r v).mem = s.mem := rfl
@[simp] theorem State.setReg_ocu (s : State) (r : Reg) (v : W64) : (s.setReg r v).ocu = s.ocu := rfl
@[simp] theorem State.setReg_rows (s : State) (r : Reg) (v : W64) : (s.setReg r v).rows = s.rows := rfl
@[simp] theorem State.setReg_emitted (s : State) (r : Reg) (v : W64) : (s.setReg r v).emitted = s.emitted := rfl
@[simp] theorem State.setReg_fresh (s : State) (r : Reg) (v : W64) : (s.setReg r v).fresh = s.fresh := rfl
@[simp] theorem State.setReg_hwSets (s : State) (r : Reg) (v : W64) : (s.setReg r v).hwSets = s.hwSets := rfl
@[simp] theorem State.setReg_swSets (s : State) (r : Reg) (v : W64) : (s.setReg r v).swSets = s.swSets := rfl
@[simp] theorem State.setReg_pending (s : State) (r : Reg) (v : W64) : (s.setReg r v).pending = s.pending := rfl

/-! ### State.setFld -/

@[simp] theorem State.setFld_now (s : State) (f : Field) (n : Nat) : (s.setFld f n).now = s.now := rfl
@[simp] theorem State.setFld_ccyc (s : State) (f : Field) (n : Nat) : (s.setFld f n).ccyc = s.ccyc := rfl
@[simp] theorem State.setFld_crem (s : State) (f : Field) (n : Nat) : (s.setFld f n).crem = s.crem := rfl
@[simp] theorem State.setFld_regs (s : State) (f : Field) (n : Nat) :
    (s.setFld f n).regs = s.regs.set f.reg.idx (insertBits (s.reg f.reg) f.lo f.w n) := rfl
@[simp] theorem State.setFld_fuse (s : State) (f : Field) (n : Nat) : (s.setFld f n).fuse = s.fuse := rfl
@[simp] theorem State.setFld_mram (s : State) (f : Field) (n : Nat) : (s.setFld f n).mram = s.mram := rfl
@[simp] theorem State.setFld_stept (s : State) (f : Field) (n : Nat) : (s.setFld f n).stept = s.stept := rfl
@[simp] theorem State.setFld_intake (s : State) (f : Field) (n : Nat) : (s.setFld f n).intake = s.intake := rfl
@[simp] theorem State.setFld_jrnl (s : State) (f : Field) (n : Nat) : (s.setFld f n).jrnl = s.jrnl := rfl
@[simp] theorem State.setFld_intr (s : State) (f : Field) (n : Nat) : (s.setFld f n).intr = s.intr := rfl
@[simp] theorem State.setFld_bel (s : State) (f : Field) (n : Nat) : (s.setFld f n).bel = s.bel := rfl
@[simp] theorem State.setFld_mgmt (s : State) (f : Field) (n : Nat) : (s.setFld f n).mgmt = s.mgmt := rfl
@[simp] theorem State.setFld_sec (s : State) (f : Field) (n : Nat) : (s.setFld f n).sec = s.sec := rfl
@[simp] theorem State.setFld_pwr (s : State) (f : Field) (n : Nat) : (s.setFld f n).pwr = s.pwr := rfl
@[simp] theorem State.setFld_trng (s : State) (f : Field) (n : Nat) : (s.setFld f n).trng = s.trng := rfl
@[simp] theorem State.setFld_ports (s : State) (f : Field) (n : Nat) : (s.setFld f n).ports = s.ports := rfl
@[simp] theorem State.setFld_boot (s : State) (f : Field) (n : Nat) : (s.setFld f n).boot = s.boot := rfl
@[simp] theorem State.setFld_plan (s : State) (f : Field) (n : Nat) : (s.setFld f n).plan = s.plan := rfl
@[simp] theorem State.setFld_ex (s : State) (f : Field) (n : Nat) : (s.setFld f n).ex = s.ex := rfl
@[simp] theorem State.setFld_slog (s : State) (f : Field) (n : Nat) : (s.setFld f n).slog = s.slog := rfl
@[simp] theorem State.setFld_dig (s : State) (f : Field) (n : Nat) : (s.setFld f n).dig = s.dig := rfl
@[simp] theorem State.setFld_sites (s : State) (f : Field) (n : Nat) : (s.setFld f n).sites = s.sites := rfl
@[simp] theorem State.setFld_spare (s : State) (f : Field) (n : Nat) : (s.setFld f n).spare = s.spare := rfl
@[simp] theorem State.setFld_mesh (s : State) (f : Field) (n : Nat) : (s.setFld f n).mesh = s.mesh := rfl
@[simp] theorem State.setFld_mports (s : State) (f : Field) (n : Nat) : (s.setFld f n).mports = s.mports := rfl
@[simp] theorem State.setFld_mem (s : State) (f : Field) (n : Nat) : (s.setFld f n).mem = s.mem := rfl
@[simp] theorem State.setFld_ocu (s : State) (f : Field) (n : Nat) : (s.setFld f n).ocu = s.ocu := rfl
@[simp] theorem State.setFld_rows (s : State) (f : Field) (n : Nat) : (s.setFld f n).rows = s.rows := rfl
@[simp] theorem State.setFld_emitted (s : State) (f : Field) (n : Nat) : (s.setFld f n).emitted = s.emitted := rfl
@[simp] theorem State.setFld_fresh (s : State) (f : Field) (n : Nat) : (s.setFld f n).fresh = s.fresh := rfl
@[simp] theorem State.setFld_hwSets (s : State) (f : Field) (n : Nat) : (s.setFld f n).hwSets = s.hwSets := rfl
@[simp] theorem State.setFld_swSets (s : State) (f : Field) (n : Nat) : (s.setFld f n).swSets = s.swSets := rfl
@[simp] theorem State.setFld_pending (s : State) (f : Field) (n : Nat) : (s.setFld f n).pending = s.pending := rfl

/-! ### State.setFlag -/

@[simp] theorem State.setFlag_now (s : State) (f : Field) (b : Bool) : (s.setFlag f b).now = s.now := rfl
@[simp] theorem State.setFlag_ccyc (s : State) (f : Field) (b : Bool) : (s.setFlag f b).ccyc = s.ccyc := rfl
@[simp] theorem State.setFlag_crem (s : State) (f : Field) (b : Bool) : (s.setFlag f b).crem = s.crem := rfl
@[simp] theorem State.setFlag_fuse (s : State) (f : Field) (b : Bool) : (s.setFlag f b).fuse = s.fuse := rfl
@[simp] theorem State.setFlag_mram (s : State) (f : Field) (b : Bool) : (s.setFlag f b).mram = s.mram := rfl
@[simp] theorem State.setFlag_stept (s : State) (f : Field) (b : Bool) : (s.setFlag f b).stept = s.stept := rfl
@[simp] theorem State.setFlag_intake (s : State) (f : Field) (b : Bool) : (s.setFlag f b).intake = s.intake := rfl
@[simp] theorem State.setFlag_jrnl (s : State) (f : Field) (b : Bool) : (s.setFlag f b).jrnl = s.jrnl := rfl
@[simp] theorem State.setFlag_intr (s : State) (f : Field) (b : Bool) : (s.setFlag f b).intr = s.intr := rfl
@[simp] theorem State.setFlag_bel (s : State) (f : Field) (b : Bool) : (s.setFlag f b).bel = s.bel := rfl
@[simp] theorem State.setFlag_mgmt (s : State) (f : Field) (b : Bool) : (s.setFlag f b).mgmt = s.mgmt := rfl
@[simp] theorem State.setFlag_sec (s : State) (f : Field) (b : Bool) : (s.setFlag f b).sec = s.sec := rfl
@[simp] theorem State.setFlag_pwr (s : State) (f : Field) (b : Bool) : (s.setFlag f b).pwr = s.pwr := rfl
@[simp] theorem State.setFlag_trng (s : State) (f : Field) (b : Bool) : (s.setFlag f b).trng = s.trng := rfl
@[simp] theorem State.setFlag_ports (s : State) (f : Field) (b : Bool) : (s.setFlag f b).ports = s.ports := rfl
@[simp] theorem State.setFlag_boot (s : State) (f : Field) (b : Bool) : (s.setFlag f b).boot = s.boot := rfl
@[simp] theorem State.setFlag_plan (s : State) (f : Field) (b : Bool) : (s.setFlag f b).plan = s.plan := rfl
@[simp] theorem State.setFlag_ex (s : State) (f : Field) (b : Bool) : (s.setFlag f b).ex = s.ex := rfl
@[simp] theorem State.setFlag_slog (s : State) (f : Field) (b : Bool) : (s.setFlag f b).slog = s.slog := rfl
@[simp] theorem State.setFlag_dig (s : State) (f : Field) (b : Bool) : (s.setFlag f b).dig = s.dig := rfl
@[simp] theorem State.setFlag_sites (s : State) (f : Field) (b : Bool) : (s.setFlag f b).sites = s.sites := rfl
@[simp] theorem State.setFlag_spare (s : State) (f : Field) (b : Bool) : (s.setFlag f b).spare = s.spare := rfl
@[simp] theorem State.setFlag_mesh (s : State) (f : Field) (b : Bool) : (s.setFlag f b).mesh = s.mesh := rfl
@[simp] theorem State.setFlag_mports (s : State) (f : Field) (b : Bool) : (s.setFlag f b).mports = s.mports := rfl
@[simp] theorem State.setFlag_mem (s : State) (f : Field) (b : Bool) : (s.setFlag f b).mem = s.mem := rfl
@[simp] theorem State.setFlag_ocu (s : State) (f : Field) (b : Bool) : (s.setFlag f b).ocu = s.ocu := rfl
@[simp] theorem State.setFlag_rows (s : State) (f : Field) (b : Bool) : (s.setFlag f b).rows = s.rows := rfl
@[simp] theorem State.setFlag_emitted (s : State) (f : Field) (b : Bool) :
    (s.setFlag f b).emitted = s.emitted := rfl
@[simp] theorem State.setFlag_fresh (s : State) (f : Field) (b : Bool) : (s.setFlag f b).fresh = s.fresh := rfl
@[simp] theorem State.setFlag_hwSets (s : State) (f : Field) (b : Bool) : (s.setFlag f b).hwSets = s.hwSets := rfl
@[simp] theorem State.setFlag_swSets (s : State) (f : Field) (b : Bool) : (s.setFlag f b).swSets = s.swSets := rfl
@[simp] theorem State.setFlag_pending (s : State) (f : Field) (b : Bool) :
    (s.setFlag f b).pending = s.pending := rfl

/-! ### State.incFld -/

@[simp] theorem State.incFld_now (s : State) (f : Field) : (s.incFld f).now = s.now := rfl
@[simp] theorem State.incFld_ccyc (s : State) (f : Field) : (s.incFld f).ccyc = s.ccyc := rfl
@[simp] theorem State.incFld_crem (s : State) (f : Field) : (s.incFld f).crem = s.crem := rfl
@[simp] theorem State.incFld_fuse (s : State) (f : Field) : (s.incFld f).fuse = s.fuse := rfl
@[simp] theorem State.incFld_mram (s : State) (f : Field) : (s.incFld f).mram = s.mram := rfl
@[simp] theorem State.incFld_stept (s : State) (f : Field) : (s.incFld f).stept = s.stept := rfl
@[simp] theorem State.incFld_intake (s : State) (f : Field) : (s.incFld f).intake = s.intake := rfl
@[simp] theorem State.incFld_jrnl (s : State) (f : Field) : (s.incFld f).jrnl = s.jrnl := rfl
@[simp] theorem State.incFld_intr (s : State) (f : Field) : (s.incFld f).intr = s.intr := rfl
@[simp] theorem State.incFld_bel (s : State) (f : Field) : (s.incFld f).bel = s.bel := rfl
@[simp] theorem State.incFld_mgmt (s : State) (f : Field) : (s.incFld f).mgmt = s.mgmt := rfl
@[simp] theorem State.incFld_sec (s : State) (f : Field) : (s.incFld f).sec = s.sec := rfl
@[simp] theorem State.incFld_pwr (s : State) (f : Field) : (s.incFld f).pwr = s.pwr := rfl
@[simp] theorem State.incFld_trng (s : State) (f : Field) : (s.incFld f).trng = s.trng := rfl
@[simp] theorem State.incFld_ports (s : State) (f : Field) : (s.incFld f).ports = s.ports := rfl
@[simp] theorem State.incFld_boot (s : State) (f : Field) : (s.incFld f).boot = s.boot := rfl
@[simp] theorem State.incFld_plan (s : State) (f : Field) : (s.incFld f).plan = s.plan := rfl
@[simp] theorem State.incFld_ex (s : State) (f : Field) : (s.incFld f).ex = s.ex := rfl
@[simp] theorem State.incFld_slog (s : State) (f : Field) : (s.incFld f).slog = s.slog := rfl
@[simp] theorem State.incFld_dig (s : State) (f : Field) : (s.incFld f).dig = s.dig := rfl
@[simp] theorem State.incFld_sites (s : State) (f : Field) : (s.incFld f).sites = s.sites := rfl
@[simp] theorem State.incFld_spare (s : State) (f : Field) : (s.incFld f).spare = s.spare := rfl
@[simp] theorem State.incFld_mesh (s : State) (f : Field) : (s.incFld f).mesh = s.mesh := rfl
@[simp] theorem State.incFld_mports (s : State) (f : Field) : (s.incFld f).mports = s.mports := rfl
@[simp] theorem State.incFld_mem (s : State) (f : Field) : (s.incFld f).mem = s.mem := rfl
@[simp] theorem State.incFld_ocu (s : State) (f : Field) : (s.incFld f).ocu = s.ocu := rfl
@[simp] theorem State.incFld_rows (s : State) (f : Field) : (s.incFld f).rows = s.rows := rfl
@[simp] theorem State.incFld_emitted (s : State) (f : Field) : (s.incFld f).emitted = s.emitted := rfl
@[simp] theorem State.incFld_fresh (s : State) (f : Field) : (s.incFld f).fresh = s.fresh := rfl
@[simp] theorem State.incFld_hwSets (s : State) (f : Field) : (s.incFld f).hwSets = s.hwSets := rfl
@[simp] theorem State.incFld_swSets (s : State) (f : Field) : (s.incFld f).swSets = s.swSets := rfl
@[simp] theorem State.incFld_pending (s : State) (f : Field) : (s.incFld f).pending = s.pending := rfl

/-! ### State.tick -/

@[simp] theorem State.tick_now (s : State) (t : Nat) :
    (s.tick t).now = max s.now t := rfl
@[simp] theorem State.tick_regs (s : State) (t : Nat) : (s.tick t).regs = s.regs := rfl
@[simp] theorem State.tick_fuse (s : State) (t : Nat) : (s.tick t).fuse = s.fuse := rfl
@[simp] theorem State.tick_mram (s : State) (t : Nat) : (s.tick t).mram = s.mram := rfl
@[simp] theorem State.tick_stept (s : State) (t : Nat) : (s.tick t).stept = s.stept := rfl
@[simp] theorem State.tick_intake (s : State) (t : Nat) : (s.tick t).intake = s.intake := rfl
@[simp] theorem State.tick_jrnl (s : State) (t : Nat) : (s.tick t).jrnl = s.jrnl := rfl
@[simp] theorem State.tick_intr (s : State) (t : Nat) : (s.tick t).intr = s.intr := rfl
@[simp] theorem State.tick_bel (s : State) (t : Nat) : (s.tick t).bel = s.bel := rfl
@[simp] theorem State.tick_mgmt (s : State) (t : Nat) : (s.tick t).mgmt = s.mgmt := rfl
@[simp] theorem State.tick_sec (s : State) (t : Nat) : (s.tick t).sec = s.sec := rfl
@[simp] theorem State.tick_pwr (s : State) (t : Nat) : (s.tick t).pwr = s.pwr := rfl
@[simp] theorem State.tick_trng (s : State) (t : Nat) : (s.tick t).trng = s.trng := rfl
@[simp] theorem State.tick_ports (s : State) (t : Nat) : (s.tick t).ports = s.ports := rfl
@[simp] theorem State.tick_boot (s : State) (t : Nat) : (s.tick t).boot = s.boot := rfl
@[simp] theorem State.tick_plan (s : State) (t : Nat) : (s.tick t).plan = s.plan := rfl
@[simp] theorem State.tick_ex (s : State) (t : Nat) : (s.tick t).ex = s.ex := rfl
@[simp] theorem State.tick_slog (s : State) (t : Nat) : (s.tick t).slog = s.slog := rfl
@[simp] theorem State.tick_dig (s : State) (t : Nat) : (s.tick t).dig = s.dig := rfl
@[simp] theorem State.tick_sites (s : State) (t : Nat) : (s.tick t).sites = s.sites := rfl
@[simp] theorem State.tick_spare (s : State) (t : Nat) : (s.tick t).spare = s.spare := rfl
@[simp] theorem State.tick_mesh (s : State) (t : Nat) : (s.tick t).mesh = s.mesh := rfl
@[simp] theorem State.tick_mports (s : State) (t : Nat) : (s.tick t).mports = s.mports := rfl
@[simp] theorem State.tick_mem (s : State) (t : Nat) : (s.tick t).mem = s.mem := rfl
@[simp] theorem State.tick_ocu (s : State) (t : Nat) : (s.tick t).ocu = s.ocu := rfl
@[simp] theorem State.tick_rows (s : State) (t : Nat) : (s.tick t).rows = s.rows := rfl
@[simp] theorem State.tick_emitted (s : State) (t : Nat) : (s.tick t).emitted = s.emitted := rfl
@[simp] theorem State.tick_fresh (s : State) (t : Nat) : (s.tick t).fresh = s.fresh := rfl
@[simp] theorem State.tick_hwSets (s : State) (t : Nat) : (s.tick t).hwSets = s.hwSets := rfl
@[simp] theorem State.tick_swSets (s : State) (t : Nat) : (s.tick t).swSets = s.swSets := rfl
@[simp] theorem State.tick_pending (s : State) (t : Nat) : (s.tick t).pending = s.pending := rfl

/-! ### State.emit -/

@[simp] theorem State.emit_now (s : State) (e : Emission) : (s.emit e).now = s.now := rfl
@[simp] theorem State.emit_ccyc (s : State) (e : Emission) : (s.emit e).ccyc = s.ccyc := rfl
@[simp] theorem State.emit_crem (s : State) (e : Emission) : (s.emit e).crem = s.crem := rfl
@[simp] theorem State.emit_regs (s : State) (e : Emission) : (s.emit e).regs = s.regs := rfl
@[simp] theorem State.emit_fuse (s : State) (e : Emission) : (s.emit e).fuse = s.fuse := rfl
@[simp] theorem State.emit_mram (s : State) (e : Emission) : (s.emit e).mram = s.mram := rfl
@[simp] theorem State.emit_stept (s : State) (e : Emission) : (s.emit e).stept = s.stept := rfl
@[simp] theorem State.emit_intake (s : State) (e : Emission) : (s.emit e).intake = s.intake := rfl
@[simp] theorem State.emit_jrnl (s : State) (e : Emission) : (s.emit e).jrnl = s.jrnl := rfl
@[simp] theorem State.emit_intr (s : State) (e : Emission) : (s.emit e).intr = s.intr := rfl
@[simp] theorem State.emit_bel (s : State) (e : Emission) : (s.emit e).bel = s.bel := rfl
@[simp] theorem State.emit_mgmt (s : State) (e : Emission) : (s.emit e).mgmt = s.mgmt := rfl
@[simp] theorem State.emit_sec (s : State) (e : Emission) : (s.emit e).sec = s.sec := rfl
@[simp] theorem State.emit_pwr (s : State) (e : Emission) : (s.emit e).pwr = s.pwr := rfl
@[simp] theorem State.emit_trng (s : State) (e : Emission) : (s.emit e).trng = s.trng := rfl
@[simp] theorem State.emit_ports (s : State) (e : Emission) : (s.emit e).ports = s.ports := rfl
@[simp] theorem State.emit_boot (s : State) (e : Emission) : (s.emit e).boot = s.boot := rfl
@[simp] theorem State.emit_plan (s : State) (e : Emission) : (s.emit e).plan = s.plan := rfl
@[simp] theorem State.emit_ex (s : State) (e : Emission) : (s.emit e).ex = s.ex := rfl
@[simp] theorem State.emit_slog (s : State) (e : Emission) : (s.emit e).slog = s.slog := rfl
@[simp] theorem State.emit_dig (s : State) (e : Emission) : (s.emit e).dig = s.dig := rfl
@[simp] theorem State.emit_sites (s : State) (e : Emission) : (s.emit e).sites = s.sites := rfl
@[simp] theorem State.emit_spare (s : State) (e : Emission) : (s.emit e).spare = s.spare := rfl
@[simp] theorem State.emit_mesh (s : State) (e : Emission) : (s.emit e).mesh = s.mesh := rfl
@[simp] theorem State.emit_mports (s : State) (e : Emission) : (s.emit e).mports = s.mports := rfl
@[simp] theorem State.emit_mem (s : State) (e : Emission) : (s.emit e).mem = s.mem := rfl
@[simp] theorem State.emit_ocu (s : State) (e : Emission) : (s.emit e).ocu = s.ocu := rfl
@[simp] theorem State.emit_rows (s : State) (e : Emission) : (s.emit e).rows = s.rows := rfl
@[simp] theorem State.emit_emitted (s : State) (e : Emission) :
    (s.emit e).emitted = e :: s.emitted := rfl
@[simp] theorem State.emit_fresh (s : State) (e : Emission) : (s.emit e).fresh = s.fresh := rfl
@[simp] theorem State.emit_hwSets (s : State) (e : Emission) : (s.emit e).hwSets = s.hwSets := rfl
@[simp] theorem State.emit_swSets (s : State) (e : Emission) : (s.emit e).swSets = s.swSets := rfl
@[simp] theorem State.emit_pending (s : State) (e : Emission) : (s.emit e).pending = s.pending := rfl
@[simp] theorem State.emit_reg (s : State) (e : Emission) (q : Reg) : (s.emit e).reg q = s.reg q := rfl
@[simp] theorem State.emit_fld (s : State) (e : Emission) (q : Field) : (s.emit e).fld q = s.fld q := rfl
@[simp] theorem State.emit_flag (s : State) (e : Emission) (q : Field) : (s.emit e).flag q = s.flag q := rfl

/-! ### State.writeMem -/

@[simp] theorem State.writeMem_now (s : State) (port addr : Nat) (d : List Byte) :
    (s.writeMem port addr d).now = s.now := rfl
@[simp] theorem State.writeMem_ccyc (s : State) (port addr : Nat) (d : List Byte) :
    (s.writeMem port addr d).ccyc = s.ccyc := rfl
@[simp] theorem State.writeMem_crem (s : State) (port addr : Nat) (d : List Byte) :
    (s.writeMem port addr d).crem = s.crem := rfl
@[simp] theorem State.writeMem_regs (s : State) (port addr : Nat) (d : List Byte) :
    (s.writeMem port addr d).regs = s.regs := rfl
@[simp] theorem State.writeMem_fuse (s : State) (port addr : Nat) (d : List Byte) :
    (s.writeMem port addr d).fuse = s.fuse := rfl
@[simp] theorem State.writeMem_mram (s : State) (port addr : Nat) (d : List Byte) :
    (s.writeMem port addr d).mram = s.mram := rfl
@[simp] theorem State.writeMem_stept (s : State) (port addr : Nat) (d : List Byte) :
    (s.writeMem port addr d).stept = s.stept := rfl
@[simp] theorem State.writeMem_intake (s : State) (port addr : Nat) (d : List Byte) :
    (s.writeMem port addr d).intake = s.intake := rfl
@[simp] theorem State.writeMem_jrnl (s : State) (port addr : Nat) (d : List Byte) :
    (s.writeMem port addr d).jrnl = s.jrnl := rfl
@[simp] theorem State.writeMem_intr (s : State) (port addr : Nat) (d : List Byte) :
    (s.writeMem port addr d).intr = s.intr := rfl
@[simp] theorem State.writeMem_bel (s : State) (port addr : Nat) (d : List Byte) :
    (s.writeMem port addr d).bel = s.bel := rfl
@[simp] theorem State.writeMem_mgmt (s : State) (port addr : Nat) (d : List Byte) :
    (s.writeMem port addr d).mgmt = s.mgmt := rfl
@[simp] theorem State.writeMem_sec (s : State) (port addr : Nat) (d : List Byte) :
    (s.writeMem port addr d).sec = s.sec := rfl
@[simp] theorem State.writeMem_pwr (s : State) (port addr : Nat) (d : List Byte) :
    (s.writeMem port addr d).pwr = s.pwr := rfl
@[simp] theorem State.writeMem_trng (s : State) (port addr : Nat) (d : List Byte) :
    (s.writeMem port addr d).trng = s.trng := rfl
@[simp] theorem State.writeMem_ports (s : State) (port addr : Nat) (d : List Byte) :
    (s.writeMem port addr d).ports = s.ports := rfl
@[simp] theorem State.writeMem_boot (s : State) (port addr : Nat) (d : List Byte) :
    (s.writeMem port addr d).boot = s.boot := rfl
@[simp] theorem State.writeMem_plan (s : State) (port addr : Nat) (d : List Byte) :
    (s.writeMem port addr d).plan = s.plan := rfl
@[simp] theorem State.writeMem_ex (s : State) (port addr : Nat) (d : List Byte) :
    (s.writeMem port addr d).ex = s.ex := rfl
@[simp] theorem State.writeMem_slog (s : State) (port addr : Nat) (d : List Byte) :
    (s.writeMem port addr d).slog = s.slog := rfl
@[simp] theorem State.writeMem_dig (s : State) (port addr : Nat) (d : List Byte) :
    (s.writeMem port addr d).dig = s.dig := rfl
@[simp] theorem State.writeMem_sites (s : State) (port addr : Nat) (d : List Byte) :
    (s.writeMem port addr d).sites = s.sites := rfl
@[simp] theorem State.writeMem_spare (s : State) (port addr : Nat) (d : List Byte) :
    (s.writeMem port addr d).spare = s.spare := rfl
@[simp] theorem State.writeMem_mesh (s : State) (port addr : Nat) (d : List Byte) :
    (s.writeMem port addr d).mesh = s.mesh := rfl
@[simp] theorem State.writeMem_mports (s : State) (port addr : Nat) (d : List Byte) :
    (s.writeMem port addr d).mports = s.mports := rfl
@[simp] theorem State.writeMem_mem (s : State) (port addr : Nat) (d : List Byte) :
    (s.writeMem port addr d).mem = memWrite s.mem (memKey port addr) d := rfl
@[simp] theorem State.writeMem_ocu (s : State) (port addr : Nat) (d : List Byte) :
    (s.writeMem port addr d).ocu = s.ocu := rfl
@[simp] theorem State.writeMem_rows (s : State) (port addr : Nat) (d : List Byte) :
    (s.writeMem port addr d).rows = s.rows := rfl
@[simp] theorem State.writeMem_emitted (s : State) (port addr : Nat) (d : List Byte) :
    (s.writeMem port addr d).emitted = s.emitted := rfl
@[simp] theorem State.writeMem_fresh (s : State) (port addr : Nat) (d : List Byte) :
    (s.writeMem port addr d).fresh = s.fresh := rfl
@[simp] theorem State.writeMem_hwSets (s : State) (port addr : Nat) (d : List Byte) :
    (s.writeMem port addr d).hwSets = s.hwSets := rfl
@[simp] theorem State.writeMem_swSets (s : State) (port addr : Nat) (d : List Byte) :
    (s.writeMem port addr d).swSets = s.swSets := rfl
@[simp] theorem State.writeMem_pending (s : State) (port addr : Nat) (d : List Byte) :
    (s.writeMem port addr d).pending = s.pending := rfl
@[simp] theorem State.writeMem_reg (s : State) (port addr : Nat) (d : List Byte) (q : Reg) :
    (s.writeMem port addr d).reg q = s.reg q := rfl
@[simp] theorem State.writeMem_fld (s : State) (port addr : Nat) (d : List Byte) (q : Field) :
    (s.writeMem port addr d).fld q = s.fld q := rfl
@[simp] theorem State.writeMem_flag (s : State) (port addr : Nat) (d : List Byte) (q : Field) :
    (s.writeMem port addr d).flag q = s.flag q := rfl

/-! ### State.onEx -/

@[simp] theorem State.onEx_now (s : State) (f : Exec → Exec) : (s.onEx f).now = s.now := rfl
@[simp] theorem State.onEx_ccyc (s : State) (f : Exec → Exec) : (s.onEx f).ccyc = s.ccyc := rfl
@[simp] theorem State.onEx_crem (s : State) (f : Exec → Exec) : (s.onEx f).crem = s.crem := rfl
@[simp] theorem State.onEx_regs (s : State) (f : Exec → Exec) : (s.onEx f).regs = s.regs := rfl
@[simp] theorem State.onEx_fuse (s : State) (f : Exec → Exec) : (s.onEx f).fuse = s.fuse := rfl
@[simp] theorem State.onEx_mram (s : State) (f : Exec → Exec) : (s.onEx f).mram = s.mram := rfl
@[simp] theorem State.onEx_stept (s : State) (f : Exec → Exec) : (s.onEx f).stept = s.stept := rfl
@[simp] theorem State.onEx_intake (s : State) (f : Exec → Exec) : (s.onEx f).intake = s.intake := rfl
@[simp] theorem State.onEx_jrnl (s : State) (f : Exec → Exec) : (s.onEx f).jrnl = s.jrnl := rfl
@[simp] theorem State.onEx_intr (s : State) (f : Exec → Exec) : (s.onEx f).intr = s.intr := rfl
@[simp] theorem State.onEx_bel (s : State) (f : Exec → Exec) : (s.onEx f).bel = s.bel := rfl
@[simp] theorem State.onEx_mgmt (s : State) (f : Exec → Exec) : (s.onEx f).mgmt = s.mgmt := rfl
@[simp] theorem State.onEx_sec (s : State) (f : Exec → Exec) : (s.onEx f).sec = s.sec := rfl
@[simp] theorem State.onEx_pwr (s : State) (f : Exec → Exec) : (s.onEx f).pwr = s.pwr := rfl
@[simp] theorem State.onEx_trng (s : State) (f : Exec → Exec) : (s.onEx f).trng = s.trng := rfl
@[simp] theorem State.onEx_ports (s : State) (f : Exec → Exec) : (s.onEx f).ports = s.ports := rfl
@[simp] theorem State.onEx_boot (s : State) (f : Exec → Exec) : (s.onEx f).boot = s.boot := rfl
@[simp] theorem State.onEx_plan (s : State) (f : Exec → Exec) : (s.onEx f).plan = s.plan := rfl
@[simp] theorem State.onEx_ex (s : State) (f : Exec → Exec) :
    (s.onEx f).ex = f s.ex := rfl
@[simp] theorem State.onEx_slog (s : State) (f : Exec → Exec) : (s.onEx f).slog = s.slog := rfl
@[simp] theorem State.onEx_dig (s : State) (f : Exec → Exec) : (s.onEx f).dig = s.dig := rfl
@[simp] theorem State.onEx_sites (s : State) (f : Exec → Exec) : (s.onEx f).sites = s.sites := rfl
@[simp] theorem State.onEx_spare (s : State) (f : Exec → Exec) : (s.onEx f).spare = s.spare := rfl
@[simp] theorem State.onEx_mesh (s : State) (f : Exec → Exec) : (s.onEx f).mesh = s.mesh := rfl
@[simp] theorem State.onEx_mports (s : State) (f : Exec → Exec) : (s.onEx f).mports = s.mports := rfl
@[simp] theorem State.onEx_mem (s : State) (f : Exec → Exec) : (s.onEx f).mem = s.mem := rfl
@[simp] theorem State.onEx_ocu (s : State) (f : Exec → Exec) : (s.onEx f).ocu = s.ocu := rfl
@[simp] theorem State.onEx_rows (s : State) (f : Exec → Exec) : (s.onEx f).rows = s.rows := rfl
@[simp] theorem State.onEx_emitted (s : State) (f : Exec → Exec) : (s.onEx f).emitted = s.emitted := rfl
@[simp] theorem State.onEx_fresh (s : State) (f : Exec → Exec) : (s.onEx f).fresh = s.fresh := rfl
@[simp] theorem State.onEx_hwSets (s : State) (f : Exec → Exec) : (s.onEx f).hwSets = s.hwSets := rfl
@[simp] theorem State.onEx_swSets (s : State) (f : Exec → Exec) : (s.onEx f).swSets = s.swSets := rfl
@[simp] theorem State.onEx_pending (s : State) (f : Exec → Exec) : (s.onEx f).pending = s.pending := rfl
@[simp] theorem State.onEx_reg (s : State) (f : Exec → Exec) (q : Reg) : (s.onEx f).reg q = s.reg q := rfl
@[simp] theorem State.onEx_fld (s : State) (f : Exec → Exec) (q : Field) : (s.onEx f).fld q = s.fld q := rfl
@[simp] theorem State.onEx_flag (s : State) (f : Exec → Exec) (q : Field) : (s.onEx f).flag q = s.flag q := rfl

/-! ### State.onChain -/

@[simp] theorem State.onChain_now (s : State) (f : ChainSt → ChainSt) : (s.onChain f).now = s.now := rfl
@[simp] theorem State.onChain_ccyc (s : State) (f : ChainSt → ChainSt) : (s.onChain f).ccyc = s.ccyc := rfl
@[simp] theorem State.onChain_crem (s : State) (f : ChainSt → ChainSt) : (s.onChain f).crem = s.crem := rfl
@[simp] theorem State.onChain_regs (s : State) (f : ChainSt → ChainSt) : (s.onChain f).regs = s.regs := rfl
@[simp] theorem State.onChain_fuse (s : State) (f : ChainSt → ChainSt) : (s.onChain f).fuse = s.fuse := rfl
@[simp] theorem State.onChain_mram (s : State) (f : ChainSt → ChainSt) : (s.onChain f).mram = s.mram := rfl
@[simp] theorem State.onChain_stept (s : State) (f : ChainSt → ChainSt) : (s.onChain f).stept = s.stept := rfl
@[simp] theorem State.onChain_intake (s : State) (f : ChainSt → ChainSt) : (s.onChain f).intake = s.intake := rfl
@[simp] theorem State.onChain_jrnl (s : State) (f : ChainSt → ChainSt) : (s.onChain f).jrnl = s.jrnl := rfl
@[simp] theorem State.onChain_intr (s : State) (f : ChainSt → ChainSt) : (s.onChain f).intr = s.intr := rfl
@[simp] theorem State.onChain_bel (s : State) (f : ChainSt → ChainSt) : (s.onChain f).bel = s.bel := rfl
@[simp] theorem State.onChain_mgmt (s : State) (f : ChainSt → ChainSt) : (s.onChain f).mgmt = s.mgmt := rfl
@[simp] theorem State.onChain_sec (s : State) (f : ChainSt → ChainSt) : (s.onChain f).sec = s.sec := rfl
@[simp] theorem State.onChain_pwr (s : State) (f : ChainSt → ChainSt) : (s.onChain f).pwr = s.pwr := rfl
@[simp] theorem State.onChain_trng (s : State) (f : ChainSt → ChainSt) : (s.onChain f).trng = s.trng := rfl
@[simp] theorem State.onChain_ports (s : State) (f : ChainSt → ChainSt) : (s.onChain f).ports = s.ports := rfl
@[simp] theorem State.onChain_boot (s : State) (f : ChainSt → ChainSt) : (s.onChain f).boot = s.boot := rfl
@[simp] theorem State.onChain_plan (s : State) (f : ChainSt → ChainSt) : (s.onChain f).plan = s.plan := rfl
@[simp] theorem State.onChain_slog (s : State) (f : ChainSt → ChainSt) : (s.onChain f).slog = s.slog := rfl
@[simp] theorem State.onChain_dig (s : State) (f : ChainSt → ChainSt) : (s.onChain f).dig = s.dig := rfl
@[simp] theorem State.onChain_sites (s : State) (f : ChainSt → ChainSt) : (s.onChain f).sites = s.sites := rfl
@[simp] theorem State.onChain_spare (s : State) (f : ChainSt → ChainSt) : (s.onChain f).spare = s.spare := rfl
@[simp] theorem State.onChain_mesh (s : State) (f : ChainSt → ChainSt) : (s.onChain f).mesh = s.mesh := rfl
@[simp] theorem State.onChain_mports (s : State) (f : ChainSt → ChainSt) : (s.onChain f).mports = s.mports := rfl
@[simp] theorem State.onChain_mem (s : State) (f : ChainSt → ChainSt) : (s.onChain f).mem = s.mem := rfl
@[simp] theorem State.onChain_ocu (s : State) (f : ChainSt → ChainSt) : (s.onChain f).ocu = s.ocu := rfl
@[simp] theorem State.onChain_rows (s : State) (f : ChainSt → ChainSt) : (s.onChain f).rows = s.rows := rfl
@[simp] theorem State.onChain_emitted (s : State) (f : ChainSt → ChainSt) : (s.onChain f).emitted = s.emitted := rfl
@[simp] theorem State.onChain_fresh (s : State) (f : ChainSt → ChainSt) : (s.onChain f).fresh = s.fresh := rfl
@[simp] theorem State.onChain_hwSets (s : State) (f : ChainSt → ChainSt) : (s.onChain f).hwSets = s.hwSets := rfl
@[simp] theorem State.onChain_swSets (s : State) (f : ChainSt → ChainSt) : (s.onChain f).swSets = s.swSets := rfl
@[simp] theorem State.onChain_pending (s : State) (f : ChainSt → ChainSt) : (s.onChain f).pending = s.pending := rfl
@[simp] theorem State.onChain_reg (s : State) (f : ChainSt → ChainSt) (q : Reg) :
    (s.onChain f).reg q = s.reg q := rfl
@[simp] theorem State.onChain_fld (s : State) (f : ChainSt → ChainSt) (q : Field) :
    (s.onChain f).fld q = s.fld q := rfl
@[simp] theorem State.onChain_flag (s : State) (f : ChainSt → ChainSt) (q : Field) :
    (s.onChain f).flag q = s.flag q := rfl

/-! ### State.onCore -/

@[simp] theorem State.onCore_now (s : State) (node : Nat) (f : CoreSt → CoreSt) :
    (s.onCore node f).now = s.now := rfl
@[simp] theorem State.onCore_ccyc (s : State) (node : Nat) (f : CoreSt → CoreSt) :
    (s.onCore node f).ccyc = s.ccyc := rfl
@[simp] theorem State.onCore_crem (s : State) (node : Nat) (f : CoreSt → CoreSt) :
    (s.onCore node f).crem = s.crem := rfl
@[simp] theorem State.onCore_regs (s : State) (node : Nat) (f : CoreSt → CoreSt) :
    (s.onCore node f).regs = s.regs := rfl
@[simp] theorem State.onCore_fuse (s : State) (node : Nat) (f : CoreSt → CoreSt) :
    (s.onCore node f).fuse = s.fuse := rfl
@[simp] theorem State.onCore_mram (s : State) (node : Nat) (f : CoreSt → CoreSt) :
    (s.onCore node f).mram = s.mram := rfl
@[simp] theorem State.onCore_stept (s : State) (node : Nat) (f : CoreSt → CoreSt) :
    (s.onCore node f).stept = s.stept := rfl
@[simp] theorem State.onCore_intake (s : State) (node : Nat) (f : CoreSt → CoreSt) :
    (s.onCore node f).intake = s.intake := rfl
@[simp] theorem State.onCore_jrnl (s : State) (node : Nat) (f : CoreSt → CoreSt) :
    (s.onCore node f).jrnl = s.jrnl := rfl
@[simp] theorem State.onCore_intr (s : State) (node : Nat) (f : CoreSt → CoreSt) :
    (s.onCore node f).intr = s.intr := rfl
@[simp] theorem State.onCore_bel (s : State) (node : Nat) (f : CoreSt → CoreSt) :
    (s.onCore node f).bel = s.bel := rfl
@[simp] theorem State.onCore_mgmt (s : State) (node : Nat) (f : CoreSt → CoreSt) :
    (s.onCore node f).mgmt = s.mgmt := rfl
@[simp] theorem State.onCore_sec (s : State) (node : Nat) (f : CoreSt → CoreSt) :
    (s.onCore node f).sec = s.sec := rfl
@[simp] theorem State.onCore_pwr (s : State) (node : Nat) (f : CoreSt → CoreSt) :
    (s.onCore node f).pwr = s.pwr := rfl
@[simp] theorem State.onCore_trng (s : State) (node : Nat) (f : CoreSt → CoreSt) :
    (s.onCore node f).trng = s.trng := rfl
@[simp] theorem State.onCore_ports (s : State) (node : Nat) (f : CoreSt → CoreSt) :
    (s.onCore node f).ports = s.ports := rfl
@[simp] theorem State.onCore_boot (s : State) (node : Nat) (f : CoreSt → CoreSt) :
    (s.onCore node f).boot = s.boot := rfl
@[simp] theorem State.onCore_plan (s : State) (node : Nat) (f : CoreSt → CoreSt) :
    (s.onCore node f).plan = s.plan := rfl
@[simp] theorem State.onCore_slog (s : State) (node : Nat) (f : CoreSt → CoreSt) :
    (s.onCore node f).slog = s.slog := rfl
@[simp] theorem State.onCore_dig (s : State) (node : Nat) (f : CoreSt → CoreSt) :
    (s.onCore node f).dig = s.dig := rfl
@[simp] theorem State.onCore_sites (s : State) (node : Nat) (f : CoreSt → CoreSt) :
    (s.onCore node f).sites = s.sites := rfl
@[simp] theorem State.onCore_spare (s : State) (node : Nat) (f : CoreSt → CoreSt) :
    (s.onCore node f).spare = s.spare := rfl
@[simp] theorem State.onCore_mesh (s : State) (node : Nat) (f : CoreSt → CoreSt) :
    (s.onCore node f).mesh = s.mesh := rfl
@[simp] theorem State.onCore_mports (s : State) (node : Nat) (f : CoreSt → CoreSt) :
    (s.onCore node f).mports = s.mports := rfl
@[simp] theorem State.onCore_mem (s : State) (node : Nat) (f : CoreSt → CoreSt) :
    (s.onCore node f).mem = s.mem := rfl
@[simp] theorem State.onCore_ocu (s : State) (node : Nat) (f : CoreSt → CoreSt) :
    (s.onCore node f).ocu = s.ocu := rfl
@[simp] theorem State.onCore_rows (s : State) (node : Nat) (f : CoreSt → CoreSt) :
    (s.onCore node f).rows = s.rows := rfl
@[simp] theorem State.onCore_emitted (s : State) (node : Nat) (f : CoreSt → CoreSt) :
    (s.onCore node f).emitted = s.emitted := rfl
@[simp] theorem State.onCore_fresh (s : State) (node : Nat) (f : CoreSt → CoreSt) :
    (s.onCore node f).fresh = s.fresh := rfl
@[simp] theorem State.onCore_hwSets (s : State) (node : Nat) (f : CoreSt → CoreSt) :
    (s.onCore node f).hwSets = s.hwSets := rfl
@[simp] theorem State.onCore_swSets (s : State) (node : Nat) (f : CoreSt → CoreSt) :
    (s.onCore node f).swSets = s.swSets := rfl
@[simp] theorem State.onCore_pending (s : State) (node : Nat) (f : CoreSt → CoreSt) :
    (s.onCore node f).pending = s.pending := rfl
@[simp] theorem State.onCore_reg (s : State) (node : Nat) (f : CoreSt → CoreSt) (q : Reg) :
    (s.onCore node f).reg q = s.reg q := rfl
@[simp] theorem State.onCore_fld (s : State) (node : Nat) (f : CoreSt → CoreSt) (q : Field) :
    (s.onCore node f).fld q = s.fld q := rfl
@[simp] theorem State.onCore_flag (s : State) (node : Nat) (f : CoreSt → CoreSt) (q : Field) :
    (s.onCore node f).flag q = s.flag q := rfl

/-! ### State.onLog -/

@[simp] theorem State.onLog_now (s : State) (f : StepLog → StepLog) : (s.onLog f).now = s.now := rfl
@[simp] theorem State.onLog_ccyc (s : State) (f : StepLog → StepLog) : (s.onLog f).ccyc = s.ccyc := rfl
@[simp] theorem State.onLog_crem (s : State) (f : StepLog → StepLog) : (s.onLog f).crem = s.crem := rfl
@[simp] theorem State.onLog_regs (s : State) (f : StepLog → StepLog) : (s.onLog f).regs = s.regs := rfl
@[simp] theorem State.onLog_fuse (s : State) (f : StepLog → StepLog) : (s.onLog f).fuse = s.fuse := rfl
@[simp] theorem State.onLog_mram (s : State) (f : StepLog → StepLog) : (s.onLog f).mram = s.mram := rfl
@[simp] theorem State.onLog_stept (s : State) (f : StepLog → StepLog) : (s.onLog f).stept = s.stept := rfl
@[simp] theorem State.onLog_intake (s : State) (f : StepLog → StepLog) : (s.onLog f).intake = s.intake := rfl
@[simp] theorem State.onLog_jrnl (s : State) (f : StepLog → StepLog) : (s.onLog f).jrnl = s.jrnl := rfl
@[simp] theorem State.onLog_intr (s : State) (f : StepLog → StepLog) : (s.onLog f).intr = s.intr := rfl
@[simp] theorem State.onLog_bel (s : State) (f : StepLog → StepLog) : (s.onLog f).bel = s.bel := rfl
@[simp] theorem State.onLog_mgmt (s : State) (f : StepLog → StepLog) : (s.onLog f).mgmt = s.mgmt := rfl
@[simp] theorem State.onLog_sec (s : State) (f : StepLog → StepLog) : (s.onLog f).sec = s.sec := rfl
@[simp] theorem State.onLog_pwr (s : State) (f : StepLog → StepLog) : (s.onLog f).pwr = s.pwr := rfl
@[simp] theorem State.onLog_trng (s : State) (f : StepLog → StepLog) : (s.onLog f).trng = s.trng := rfl
@[simp] theorem State.onLog_ports (s : State) (f : StepLog → StepLog) : (s.onLog f).ports = s.ports := rfl
@[simp] theorem State.onLog_boot (s : State) (f : StepLog → StepLog) : (s.onLog f).boot = s.boot := rfl
@[simp] theorem State.onLog_plan (s : State) (f : StepLog → StepLog) : (s.onLog f).plan = s.plan := rfl
@[simp] theorem State.onLog_ex (s : State) (f : StepLog → StepLog) : (s.onLog f).ex = s.ex := rfl
@[simp] theorem State.onLog_slog (s : State) (f : StepLog → StepLog) :
    (s.onLog f).slog = f s.slog := rfl
@[simp] theorem State.onLog_dig (s : State) (f : StepLog → StepLog) : (s.onLog f).dig = s.dig := rfl
@[simp] theorem State.onLog_sites (s : State) (f : StepLog → StepLog) : (s.onLog f).sites = s.sites := rfl
@[simp] theorem State.onLog_spare (s : State) (f : StepLog → StepLog) : (s.onLog f).spare = s.spare := rfl
@[simp] theorem State.onLog_mesh (s : State) (f : StepLog → StepLog) : (s.onLog f).mesh = s.mesh := rfl
@[simp] theorem State.onLog_mports (s : State) (f : StepLog → StepLog) : (s.onLog f).mports = s.mports := rfl
@[simp] theorem State.onLog_mem (s : State) (f : StepLog → StepLog) : (s.onLog f).mem = s.mem := rfl
@[simp] theorem State.onLog_ocu (s : State) (f : StepLog → StepLog) : (s.onLog f).ocu = s.ocu := rfl
@[simp] theorem State.onLog_rows (s : State) (f : StepLog → StepLog) : (s.onLog f).rows = s.rows := rfl
@[simp] theorem State.onLog_emitted (s : State) (f : StepLog → StepLog) : (s.onLog f).emitted = s.emitted := rfl
@[simp] theorem State.onLog_fresh (s : State) (f : StepLog → StepLog) : (s.onLog f).fresh = s.fresh := rfl
@[simp] theorem State.onLog_hwSets (s : State) (f : StepLog → StepLog) : (s.onLog f).hwSets = s.hwSets := rfl
@[simp] theorem State.onLog_swSets (s : State) (f : StepLog → StepLog) : (s.onLog f).swSets = s.swSets := rfl
@[simp] theorem State.onLog_pending (s : State) (f : StepLog → StepLog) : (s.onLog f).pending = s.pending := rfl
@[simp] theorem State.onLog_reg (s : State) (f : StepLog → StepLog) (q : Reg) : (s.onLog f).reg q = s.reg q := rfl
@[simp] theorem State.onLog_fld (s : State) (f : StepLog → StepLog) (q : Field) : (s.onLog f).fld q = s.fld q := rfl
@[simp] theorem State.onLog_flag (s : State) (f : StepLog → StepLog) (q : Field) :
    (s.onLog f).flag q = s.flag q := rfl

/-! ### State.onSite -/

@[simp] theorem State.onSite_now (s : State) (i : Nat) (f : SiteSt → SiteSt) : (s.onSite i f).now = s.now := rfl
@[simp] theorem State.onSite_ccyc (s : State) (i : Nat) (f : SiteSt → SiteSt) : (s.onSite i f).ccyc = s.ccyc := rfl
@[simp] theorem State.onSite_crem (s : State) (i : Nat) (f : SiteSt → SiteSt) : (s.onSite i f).crem = s.crem := rfl
@[simp] theorem State.onSite_regs (s : State) (i : Nat) (f : SiteSt → SiteSt) : (s.onSite i f).regs = s.regs := rfl
@[simp] theorem State.onSite_fuse (s : State) (i : Nat) (f : SiteSt → SiteSt) : (s.onSite i f).fuse = s.fuse := rfl
@[simp] theorem State.onSite_mram (s : State) (i : Nat) (f : SiteSt → SiteSt) : (s.onSite i f).mram = s.mram := rfl
@[simp] theorem State.onSite_stept (s : State) (i : Nat) (f : SiteSt → SiteSt) :
    (s.onSite i f).stept = s.stept := rfl
@[simp] theorem State.onSite_intake (s : State) (i : Nat) (f : SiteSt → SiteSt) :
    (s.onSite i f).intake = s.intake := rfl
@[simp] theorem State.onSite_jrnl (s : State) (i : Nat) (f : SiteSt → SiteSt) : (s.onSite i f).jrnl = s.jrnl := rfl
@[simp] theorem State.onSite_intr (s : State) (i : Nat) (f : SiteSt → SiteSt) : (s.onSite i f).intr = s.intr := rfl
@[simp] theorem State.onSite_bel (s : State) (i : Nat) (f : SiteSt → SiteSt) : (s.onSite i f).bel = s.bel := rfl
@[simp] theorem State.onSite_mgmt (s : State) (i : Nat) (f : SiteSt → SiteSt) : (s.onSite i f).mgmt = s.mgmt := rfl
@[simp] theorem State.onSite_sec (s : State) (i : Nat) (f : SiteSt → SiteSt) : (s.onSite i f).sec = s.sec := rfl
@[simp] theorem State.onSite_pwr (s : State) (i : Nat) (f : SiteSt → SiteSt) : (s.onSite i f).pwr = s.pwr := rfl
@[simp] theorem State.onSite_trng (s : State) (i : Nat) (f : SiteSt → SiteSt) : (s.onSite i f).trng = s.trng := rfl
@[simp] theorem State.onSite_ports (s : State) (i : Nat) (f : SiteSt → SiteSt) :
    (s.onSite i f).ports = s.ports := rfl
@[simp] theorem State.onSite_boot (s : State) (i : Nat) (f : SiteSt → SiteSt) : (s.onSite i f).boot = s.boot := rfl
@[simp] theorem State.onSite_plan (s : State) (i : Nat) (f : SiteSt → SiteSt) : (s.onSite i f).plan = s.plan := rfl
@[simp] theorem State.onSite_ex (s : State) (i : Nat) (f : SiteSt → SiteSt) : (s.onSite i f).ex = s.ex := rfl
@[simp] theorem State.onSite_slog (s : State) (i : Nat) (f : SiteSt → SiteSt) : (s.onSite i f).slog = s.slog := rfl
@[simp] theorem State.onSite_dig (s : State) (i : Nat) (f : SiteSt → SiteSt) : (s.onSite i f).dig = s.dig := rfl
@[simp] theorem State.onSite_sites (s : State) (i : Nat) (f : SiteSt → SiteSt) :
    (s.onSite i f).sites = s.sites.modify i f := rfl
@[simp] theorem State.onSite_spare (s : State) (i : Nat) (f : SiteSt → SiteSt) :
    (s.onSite i f).spare = s.spare := rfl
@[simp] theorem State.onSite_mesh (s : State) (i : Nat) (f : SiteSt → SiteSt) : (s.onSite i f).mesh = s.mesh := rfl
@[simp] theorem State.onSite_mports (s : State) (i : Nat) (f : SiteSt → SiteSt) :
    (s.onSite i f).mports = s.mports := rfl
@[simp] theorem State.onSite_mem (s : State) (i : Nat) (f : SiteSt → SiteSt) : (s.onSite i f).mem = s.mem := rfl
@[simp] theorem State.onSite_ocu (s : State) (i : Nat) (f : SiteSt → SiteSt) : (s.onSite i f).ocu = s.ocu := rfl
@[simp] theorem State.onSite_rows (s : State) (i : Nat) (f : SiteSt → SiteSt) : (s.onSite i f).rows = s.rows := rfl
@[simp] theorem State.onSite_emitted (s : State) (i : Nat) (f : SiteSt → SiteSt) :
    (s.onSite i f).emitted = s.emitted := rfl
@[simp] theorem State.onSite_fresh (s : State) (i : Nat) (f : SiteSt → SiteSt) :
    (s.onSite i f).fresh = s.fresh := rfl
@[simp] theorem State.onSite_hwSets (s : State) (i : Nat) (f : SiteSt → SiteSt) :
    (s.onSite i f).hwSets = s.hwSets := rfl
@[simp] theorem State.onSite_swSets (s : State) (i : Nat) (f : SiteSt → SiteSt) :
    (s.onSite i f).swSets = s.swSets := rfl
@[simp] theorem State.onSite_pending (s : State) (i : Nat) (f : SiteSt → SiteSt) :
    (s.onSite i f).pending = s.pending := rfl
@[simp] theorem State.onSite_reg (s : State) (i : Nat) (f : SiteSt → SiteSt) (q : Reg) :
    (s.onSite i f).reg q = s.reg q := rfl
@[simp] theorem State.onSite_fld (s : State) (i : Nat) (f : SiteSt → SiteSt) (q : Field) :
    (s.onSite i f).fld q = s.fld q := rfl
@[simp] theorem State.onSite_flag (s : State) (i : Nat) (f : SiteSt → SiteSt) (q : Field) :
    (s.onSite i f).flag q = s.flag q := rfl

/-! ### State.onSpare -/

@[simp] theorem State.onSpare_now (s : State) (f : SpareSt → SpareSt) : (s.onSpare f).now = s.now := rfl
@[simp] theorem State.onSpare_ccyc (s : State) (f : SpareSt → SpareSt) : (s.onSpare f).ccyc = s.ccyc := rfl
@[simp] theorem State.onSpare_crem (s : State) (f : SpareSt → SpareSt) : (s.onSpare f).crem = s.crem := rfl
@[simp] theorem State.onSpare_regs (s : State) (f : SpareSt → SpareSt) : (s.onSpare f).regs = s.regs := rfl
@[simp] theorem State.onSpare_fuse (s : State) (f : SpareSt → SpareSt) : (s.onSpare f).fuse = s.fuse := rfl
@[simp] theorem State.onSpare_mram (s : State) (f : SpareSt → SpareSt) : (s.onSpare f).mram = s.mram := rfl
@[simp] theorem State.onSpare_stept (s : State) (f : SpareSt → SpareSt) : (s.onSpare f).stept = s.stept := rfl
@[simp] theorem State.onSpare_intake (s : State) (f : SpareSt → SpareSt) : (s.onSpare f).intake = s.intake := rfl
@[simp] theorem State.onSpare_jrnl (s : State) (f : SpareSt → SpareSt) : (s.onSpare f).jrnl = s.jrnl := rfl
@[simp] theorem State.onSpare_intr (s : State) (f : SpareSt → SpareSt) : (s.onSpare f).intr = s.intr := rfl
@[simp] theorem State.onSpare_bel (s : State) (f : SpareSt → SpareSt) : (s.onSpare f).bel = s.bel := rfl
@[simp] theorem State.onSpare_mgmt (s : State) (f : SpareSt → SpareSt) : (s.onSpare f).mgmt = s.mgmt := rfl
@[simp] theorem State.onSpare_sec (s : State) (f : SpareSt → SpareSt) : (s.onSpare f).sec = s.sec := rfl
@[simp] theorem State.onSpare_pwr (s : State) (f : SpareSt → SpareSt) : (s.onSpare f).pwr = s.pwr := rfl
@[simp] theorem State.onSpare_trng (s : State) (f : SpareSt → SpareSt) : (s.onSpare f).trng = s.trng := rfl
@[simp] theorem State.onSpare_ports (s : State) (f : SpareSt → SpareSt) : (s.onSpare f).ports = s.ports := rfl
@[simp] theorem State.onSpare_boot (s : State) (f : SpareSt → SpareSt) : (s.onSpare f).boot = s.boot := rfl
@[simp] theorem State.onSpare_plan (s : State) (f : SpareSt → SpareSt) : (s.onSpare f).plan = s.plan := rfl
@[simp] theorem State.onSpare_ex (s : State) (f : SpareSt → SpareSt) : (s.onSpare f).ex = s.ex := rfl
@[simp] theorem State.onSpare_slog (s : State) (f : SpareSt → SpareSt) : (s.onSpare f).slog = s.slog := rfl
@[simp] theorem State.onSpare_dig (s : State) (f : SpareSt → SpareSt) : (s.onSpare f).dig = s.dig := rfl
@[simp] theorem State.onSpare_sites (s : State) (f : SpareSt → SpareSt) : (s.onSpare f).sites = s.sites := rfl
@[simp] theorem State.onSpare_spare (s : State) (f : SpareSt → SpareSt) :
    (s.onSpare f).spare = f s.spare := rfl
@[simp] theorem State.onSpare_mesh (s : State) (f : SpareSt → SpareSt) : (s.onSpare f).mesh = s.mesh := rfl
@[simp] theorem State.onSpare_mports (s : State) (f : SpareSt → SpareSt) : (s.onSpare f).mports = s.mports := rfl
@[simp] theorem State.onSpare_mem (s : State) (f : SpareSt → SpareSt) : (s.onSpare f).mem = s.mem := rfl
@[simp] theorem State.onSpare_ocu (s : State) (f : SpareSt → SpareSt) : (s.onSpare f).ocu = s.ocu := rfl
@[simp] theorem State.onSpare_rows (s : State) (f : SpareSt → SpareSt) : (s.onSpare f).rows = s.rows := rfl
@[simp] theorem State.onSpare_emitted (s : State) (f : SpareSt → SpareSt) : (s.onSpare f).emitted = s.emitted := rfl
@[simp] theorem State.onSpare_fresh (s : State) (f : SpareSt → SpareSt) : (s.onSpare f).fresh = s.fresh := rfl
@[simp] theorem State.onSpare_hwSets (s : State) (f : SpareSt → SpareSt) : (s.onSpare f).hwSets = s.hwSets := rfl
@[simp] theorem State.onSpare_swSets (s : State) (f : SpareSt → SpareSt) : (s.onSpare f).swSets = s.swSets := rfl
@[simp] theorem State.onSpare_pending (s : State) (f : SpareSt → SpareSt) : (s.onSpare f).pending = s.pending := rfl
@[simp] theorem State.onSpare_reg (s : State) (f : SpareSt → SpareSt) (q : Reg) :
    (s.onSpare f).reg q = s.reg q := rfl
@[simp] theorem State.onSpare_fld (s : State) (f : SpareSt → SpareSt) (q : Field) :
    (s.onSpare f).fld q = s.fld q := rfl
@[simp] theorem State.onSpare_flag (s : State) (f : SpareSt → SpareSt) (q : Field) :
    (s.onSpare f).flag q = s.flag q := rfl

/-! ### State.onMport -/

@[simp] theorem State.onMport_now (s : State) (p : Nat) (f : MPort → MPort) : (s.onMport p f).now = s.now := rfl
@[simp] theorem State.onMport_ccyc (s : State) (p : Nat) (f : MPort → MPort) : (s.onMport p f).ccyc = s.ccyc := rfl
@[simp] theorem State.onMport_crem (s : State) (p : Nat) (f : MPort → MPort) : (s.onMport p f).crem = s.crem := rfl
@[simp] theorem State.onMport_regs (s : State) (p : Nat) (f : MPort → MPort) : (s.onMport p f).regs = s.regs := rfl
@[simp] theorem State.onMport_fuse (s : State) (p : Nat) (f : MPort → MPort) : (s.onMport p f).fuse = s.fuse := rfl
@[simp] theorem State.onMport_mram (s : State) (p : Nat) (f : MPort → MPort) : (s.onMport p f).mram = s.mram := rfl
@[simp] theorem State.onMport_stept (s : State) (p : Nat) (f : MPort → MPort) :
    (s.onMport p f).stept = s.stept := rfl
@[simp] theorem State.onMport_intake (s : State) (p : Nat) (f : MPort → MPort) :
    (s.onMport p f).intake = s.intake := rfl
@[simp] theorem State.onMport_jrnl (s : State) (p : Nat) (f : MPort → MPort) : (s.onMport p f).jrnl = s.jrnl := rfl
@[simp] theorem State.onMport_intr (s : State) (p : Nat) (f : MPort → MPort) : (s.onMport p f).intr = s.intr := rfl
@[simp] theorem State.onMport_bel (s : State) (p : Nat) (f : MPort → MPort) : (s.onMport p f).bel = s.bel := rfl
@[simp] theorem State.onMport_mgmt (s : State) (p : Nat) (f : MPort → MPort) : (s.onMport p f).mgmt = s.mgmt := rfl
@[simp] theorem State.onMport_sec (s : State) (p : Nat) (f : MPort → MPort) : (s.onMport p f).sec = s.sec := rfl
@[simp] theorem State.onMport_pwr (s : State) (p : Nat) (f : MPort → MPort) : (s.onMport p f).pwr = s.pwr := rfl
@[simp] theorem State.onMport_trng (s : State) (p : Nat) (f : MPort → MPort) : (s.onMport p f).trng = s.trng := rfl
@[simp] theorem State.onMport_ports (s : State) (p : Nat) (f : MPort → MPort) :
    (s.onMport p f).ports = s.ports := rfl
@[simp] theorem State.onMport_boot (s : State) (p : Nat) (f : MPort → MPort) : (s.onMport p f).boot = s.boot := rfl
@[simp] theorem State.onMport_plan (s : State) (p : Nat) (f : MPort → MPort) : (s.onMport p f).plan = s.plan := rfl
@[simp] theorem State.onMport_ex (s : State) (p : Nat) (f : MPort → MPort) : (s.onMport p f).ex = s.ex := rfl
@[simp] theorem State.onMport_slog (s : State) (p : Nat) (f : MPort → MPort) : (s.onMport p f).slog = s.slog := rfl
@[simp] theorem State.onMport_dig (s : State) (p : Nat) (f : MPort → MPort) : (s.onMport p f).dig = s.dig := rfl
@[simp] theorem State.onMport_sites (s : State) (p : Nat) (f : MPort → MPort) :
    (s.onMport p f).sites = s.sites := rfl
@[simp] theorem State.onMport_spare (s : State) (p : Nat) (f : MPort → MPort) :
    (s.onMport p f).spare = s.spare := rfl
@[simp] theorem State.onMport_mesh (s : State) (p : Nat) (f : MPort → MPort) : (s.onMport p f).mesh = s.mesh := rfl
@[simp] theorem State.onMport_mports (s : State) (p : Nat) (f : MPort → MPort) :
    (s.onMport p f).mports = s.mports.modify p f := rfl
@[simp] theorem State.onMport_mem (s : State) (p : Nat) (f : MPort → MPort) : (s.onMport p f).mem = s.mem := rfl
@[simp] theorem State.onMport_ocu (s : State) (p : Nat) (f : MPort → MPort) : (s.onMport p f).ocu = s.ocu := rfl
@[simp] theorem State.onMport_rows (s : State) (p : Nat) (f : MPort → MPort) : (s.onMport p f).rows = s.rows := rfl
@[simp] theorem State.onMport_emitted (s : State) (p : Nat) (f : MPort → MPort) :
    (s.onMport p f).emitted = s.emitted := rfl
@[simp] theorem State.onMport_fresh (s : State) (p : Nat) (f : MPort → MPort) :
    (s.onMport p f).fresh = s.fresh := rfl
@[simp] theorem State.onMport_hwSets (s : State) (p : Nat) (f : MPort → MPort) :
    (s.onMport p f).hwSets = s.hwSets := rfl
@[simp] theorem State.onMport_swSets (s : State) (p : Nat) (f : MPort → MPort) :
    (s.onMport p f).swSets = s.swSets := rfl
@[simp] theorem State.onMport_pending (s : State) (p : Nat) (f : MPort → MPort) :
    (s.onMport p f).pending = s.pending := rfl
@[simp] theorem State.onMport_reg (s : State) (p : Nat) (f : MPort → MPort) (q : Reg) :
    (s.onMport p f).reg q = s.reg q := rfl
@[simp] theorem State.onMport_fld (s : State) (p : Nat) (f : MPort → MPort) (q : Field) :
    (s.onMport p f).fld q = s.fld q := rfl
@[simp] theorem State.onMport_flag (s : State) (p : Nat) (f : MPort → MPort) (q : Field) :
    (s.onMport p f).flag q = s.flag q := rfl

/-! ### State.onMesh -/

@[simp] theorem State.onMesh_now (s : State) (f : MeshSt → MeshSt) : (s.onMesh f).now = s.now := rfl
@[simp] theorem State.onMesh_ccyc (s : State) (f : MeshSt → MeshSt) : (s.onMesh f).ccyc = s.ccyc := rfl
@[simp] theorem State.onMesh_crem (s : State) (f : MeshSt → MeshSt) : (s.onMesh f).crem = s.crem := rfl
@[simp] theorem State.onMesh_regs (s : State) (f : MeshSt → MeshSt) : (s.onMesh f).regs = s.regs := rfl
@[simp] theorem State.onMesh_fuse (s : State) (f : MeshSt → MeshSt) : (s.onMesh f).fuse = s.fuse := rfl
@[simp] theorem State.onMesh_mram (s : State) (f : MeshSt → MeshSt) : (s.onMesh f).mram = s.mram := rfl
@[simp] theorem State.onMesh_stept (s : State) (f : MeshSt → MeshSt) : (s.onMesh f).stept = s.stept := rfl
@[simp] theorem State.onMesh_intake (s : State) (f : MeshSt → MeshSt) : (s.onMesh f).intake = s.intake := rfl
@[simp] theorem State.onMesh_jrnl (s : State) (f : MeshSt → MeshSt) : (s.onMesh f).jrnl = s.jrnl := rfl
@[simp] theorem State.onMesh_intr (s : State) (f : MeshSt → MeshSt) : (s.onMesh f).intr = s.intr := rfl
@[simp] theorem State.onMesh_bel (s : State) (f : MeshSt → MeshSt) : (s.onMesh f).bel = s.bel := rfl
@[simp] theorem State.onMesh_mgmt (s : State) (f : MeshSt → MeshSt) : (s.onMesh f).mgmt = s.mgmt := rfl
@[simp] theorem State.onMesh_sec (s : State) (f : MeshSt → MeshSt) : (s.onMesh f).sec = s.sec := rfl
@[simp] theorem State.onMesh_pwr (s : State) (f : MeshSt → MeshSt) : (s.onMesh f).pwr = s.pwr := rfl
@[simp] theorem State.onMesh_trng (s : State) (f : MeshSt → MeshSt) : (s.onMesh f).trng = s.trng := rfl
@[simp] theorem State.onMesh_ports (s : State) (f : MeshSt → MeshSt) : (s.onMesh f).ports = s.ports := rfl
@[simp] theorem State.onMesh_boot (s : State) (f : MeshSt → MeshSt) : (s.onMesh f).boot = s.boot := rfl
@[simp] theorem State.onMesh_plan (s : State) (f : MeshSt → MeshSt) : (s.onMesh f).plan = s.plan := rfl
@[simp] theorem State.onMesh_ex (s : State) (f : MeshSt → MeshSt) : (s.onMesh f).ex = s.ex := rfl
@[simp] theorem State.onMesh_slog (s : State) (f : MeshSt → MeshSt) : (s.onMesh f).slog = s.slog := rfl
@[simp] theorem State.onMesh_dig (s : State) (f : MeshSt → MeshSt) : (s.onMesh f).dig = s.dig := rfl
@[simp] theorem State.onMesh_sites (s : State) (f : MeshSt → MeshSt) : (s.onMesh f).sites = s.sites := rfl
@[simp] theorem State.onMesh_spare (s : State) (f : MeshSt → MeshSt) : (s.onMesh f).spare = s.spare := rfl
@[simp] theorem State.onMesh_mesh (s : State) (f : MeshSt → MeshSt) :
    (s.onMesh f).mesh = f s.mesh := rfl
@[simp] theorem State.onMesh_mports (s : State) (f : MeshSt → MeshSt) : (s.onMesh f).mports = s.mports := rfl
@[simp] theorem State.onMesh_mem (s : State) (f : MeshSt → MeshSt) : (s.onMesh f).mem = s.mem := rfl
@[simp] theorem State.onMesh_ocu (s : State) (f : MeshSt → MeshSt) : (s.onMesh f).ocu = s.ocu := rfl
@[simp] theorem State.onMesh_rows (s : State) (f : MeshSt → MeshSt) : (s.onMesh f).rows = s.rows := rfl
@[simp] theorem State.onMesh_emitted (s : State) (f : MeshSt → MeshSt) : (s.onMesh f).emitted = s.emitted := rfl
@[simp] theorem State.onMesh_fresh (s : State) (f : MeshSt → MeshSt) : (s.onMesh f).fresh = s.fresh := rfl
@[simp] theorem State.onMesh_hwSets (s : State) (f : MeshSt → MeshSt) : (s.onMesh f).hwSets = s.hwSets := rfl
@[simp] theorem State.onMesh_swSets (s : State) (f : MeshSt → MeshSt) : (s.onMesh f).swSets = s.swSets := rfl
@[simp] theorem State.onMesh_pending (s : State) (f : MeshSt → MeshSt) : (s.onMesh f).pending = s.pending := rfl
@[simp] theorem State.onMesh_reg (s : State) (f : MeshSt → MeshSt) (q : Reg) : (s.onMesh f).reg q = s.reg q := rfl
@[simp] theorem State.onMesh_fld (s : State) (f : MeshSt → MeshSt) (q : Field) : (s.onMesh f).fld q = s.fld q := rfl
@[simp] theorem State.onMesh_flag (s : State) (f : MeshSt → MeshSt) (q : Field) :
    (s.onMesh f).flag q = s.flag q := rfl

/-! ### State.onIntake -/

@[simp] theorem State.onIntake_now (s : State) (f : IntakeSt → IntakeSt) : (s.onIntake f).now = s.now := rfl
@[simp] theorem State.onIntake_ccyc (s : State) (f : IntakeSt → IntakeSt) : (s.onIntake f).ccyc = s.ccyc := rfl
@[simp] theorem State.onIntake_crem (s : State) (f : IntakeSt → IntakeSt) : (s.onIntake f).crem = s.crem := rfl
@[simp] theorem State.onIntake_regs (s : State) (f : IntakeSt → IntakeSt) : (s.onIntake f).regs = s.regs := rfl
@[simp] theorem State.onIntake_fuse (s : State) (f : IntakeSt → IntakeSt) : (s.onIntake f).fuse = s.fuse := rfl
@[simp] theorem State.onIntake_mram (s : State) (f : IntakeSt → IntakeSt) : (s.onIntake f).mram = s.mram := rfl
@[simp] theorem State.onIntake_stept (s : State) (f : IntakeSt → IntakeSt) : (s.onIntake f).stept = s.stept := rfl
@[simp] theorem State.onIntake_intake (s : State) (f : IntakeSt → IntakeSt) :
    (s.onIntake f).intake = f s.intake := rfl
@[simp] theorem State.onIntake_jrnl (s : State) (f : IntakeSt → IntakeSt) : (s.onIntake f).jrnl = s.jrnl := rfl
@[simp] theorem State.onIntake_intr (s : State) (f : IntakeSt → IntakeSt) : (s.onIntake f).intr = s.intr := rfl
@[simp] theorem State.onIntake_bel (s : State) (f : IntakeSt → IntakeSt) : (s.onIntake f).bel = s.bel := rfl
@[simp] theorem State.onIntake_mgmt (s : State) (f : IntakeSt → IntakeSt) : (s.onIntake f).mgmt = s.mgmt := rfl
@[simp] theorem State.onIntake_sec (s : State) (f : IntakeSt → IntakeSt) : (s.onIntake f).sec = s.sec := rfl
@[simp] theorem State.onIntake_pwr (s : State) (f : IntakeSt → IntakeSt) : (s.onIntake f).pwr = s.pwr := rfl
@[simp] theorem State.onIntake_trng (s : State) (f : IntakeSt → IntakeSt) : (s.onIntake f).trng = s.trng := rfl
@[simp] theorem State.onIntake_ports (s : State) (f : IntakeSt → IntakeSt) : (s.onIntake f).ports = s.ports := rfl
@[simp] theorem State.onIntake_boot (s : State) (f : IntakeSt → IntakeSt) : (s.onIntake f).boot = s.boot := rfl
@[simp] theorem State.onIntake_plan (s : State) (f : IntakeSt → IntakeSt) : (s.onIntake f).plan = s.plan := rfl
@[simp] theorem State.onIntake_ex (s : State) (f : IntakeSt → IntakeSt) : (s.onIntake f).ex = s.ex := rfl
@[simp] theorem State.onIntake_slog (s : State) (f : IntakeSt → IntakeSt) : (s.onIntake f).slog = s.slog := rfl
@[simp] theorem State.onIntake_dig (s : State) (f : IntakeSt → IntakeSt) : (s.onIntake f).dig = s.dig := rfl
@[simp] theorem State.onIntake_sites (s : State) (f : IntakeSt → IntakeSt) : (s.onIntake f).sites = s.sites := rfl
@[simp] theorem State.onIntake_spare (s : State) (f : IntakeSt → IntakeSt) : (s.onIntake f).spare = s.spare := rfl
@[simp] theorem State.onIntake_mesh (s : State) (f : IntakeSt → IntakeSt) : (s.onIntake f).mesh = s.mesh := rfl
@[simp] theorem State.onIntake_mports (s : State) (f : IntakeSt → IntakeSt) :
    (s.onIntake f).mports = s.mports := rfl
@[simp] theorem State.onIntake_mem (s : State) (f : IntakeSt → IntakeSt) : (s.onIntake f).mem = s.mem := rfl
@[simp] theorem State.onIntake_ocu (s : State) (f : IntakeSt → IntakeSt) : (s.onIntake f).ocu = s.ocu := rfl
@[simp] theorem State.onIntake_rows (s : State) (f : IntakeSt → IntakeSt) : (s.onIntake f).rows = s.rows := rfl
@[simp] theorem State.onIntake_emitted (s : State) (f : IntakeSt → IntakeSt) :
    (s.onIntake f).emitted = s.emitted := rfl
@[simp] theorem State.onIntake_fresh (s : State) (f : IntakeSt → IntakeSt) : (s.onIntake f).fresh = s.fresh := rfl
@[simp] theorem State.onIntake_hwSets (s : State) (f : IntakeSt → IntakeSt) :
    (s.onIntake f).hwSets = s.hwSets := rfl
@[simp] theorem State.onIntake_swSets (s : State) (f : IntakeSt → IntakeSt) :
    (s.onIntake f).swSets = s.swSets := rfl
@[simp] theorem State.onIntake_pending (s : State) (f : IntakeSt → IntakeSt) :
    (s.onIntake f).pending = s.pending := rfl
@[simp] theorem State.onIntake_reg (s : State) (f : IntakeSt → IntakeSt) (q : Reg) :
    (s.onIntake f).reg q = s.reg q := rfl
@[simp] theorem State.onIntake_fld (s : State) (f : IntakeSt → IntakeSt) (q : Field) :
    (s.onIntake f).fld q = s.fld q := rfl
@[simp] theorem State.onIntake_flag (s : State) (f : IntakeSt → IntakeSt) (q : Field) :
    (s.onIntake f).flag q = s.flag q := rfl

/-! ### State.onOrder -/

@[simp] theorem State.onOrder_now (s : State) (seq : Nat) (f : Order → Order) : (s.onOrder seq f).now = s.now := rfl
@[simp] theorem State.onOrder_ccyc (s : State) (seq : Nat) (f : Order → Order) :
    (s.onOrder seq f).ccyc = s.ccyc := rfl
@[simp] theorem State.onOrder_crem (s : State) (seq : Nat) (f : Order → Order) :
    (s.onOrder seq f).crem = s.crem := rfl
@[simp] theorem State.onOrder_regs (s : State) (seq : Nat) (f : Order → Order) :
    (s.onOrder seq f).regs = s.regs := rfl
@[simp] theorem State.onOrder_fuse (s : State) (seq : Nat) (f : Order → Order) :
    (s.onOrder seq f).fuse = s.fuse := rfl
@[simp] theorem State.onOrder_mram (s : State) (seq : Nat) (f : Order → Order) :
    (s.onOrder seq f).mram = s.mram := rfl
@[simp] theorem State.onOrder_stept (s : State) (seq : Nat) (f : Order → Order) :
    (s.onOrder seq f).stept = s.stept := rfl
@[simp] theorem State.onOrder_jrnl (s : State) (seq : Nat) (f : Order → Order) :
    (s.onOrder seq f).jrnl = s.jrnl := rfl
@[simp] theorem State.onOrder_intr (s : State) (seq : Nat) (f : Order → Order) :
    (s.onOrder seq f).intr = s.intr := rfl
@[simp] theorem State.onOrder_bel (s : State) (seq : Nat) (f : Order → Order) : (s.onOrder seq f).bel = s.bel := rfl
@[simp] theorem State.onOrder_mgmt (s : State) (seq : Nat) (f : Order → Order) :
    (s.onOrder seq f).mgmt = s.mgmt := rfl
@[simp] theorem State.onOrder_sec (s : State) (seq : Nat) (f : Order → Order) : (s.onOrder seq f).sec = s.sec := rfl
@[simp] theorem State.onOrder_pwr (s : State) (seq : Nat) (f : Order → Order) : (s.onOrder seq f).pwr = s.pwr := rfl
@[simp] theorem State.onOrder_trng (s : State) (seq : Nat) (f : Order → Order) :
    (s.onOrder seq f).trng = s.trng := rfl
@[simp] theorem State.onOrder_ports (s : State) (seq : Nat) (f : Order → Order) :
    (s.onOrder seq f).ports = s.ports := rfl
@[simp] theorem State.onOrder_boot (s : State) (seq : Nat) (f : Order → Order) :
    (s.onOrder seq f).boot = s.boot := rfl
@[simp] theorem State.onOrder_plan (s : State) (seq : Nat) (f : Order → Order) :
    (s.onOrder seq f).plan = s.plan := rfl
@[simp] theorem State.onOrder_ex (s : State) (seq : Nat) (f : Order → Order) : (s.onOrder seq f).ex = s.ex := rfl
@[simp] theorem State.onOrder_slog (s : State) (seq : Nat) (f : Order → Order) :
    (s.onOrder seq f).slog = s.slog := rfl
@[simp] theorem State.onOrder_dig (s : State) (seq : Nat) (f : Order → Order) : (s.onOrder seq f).dig = s.dig := rfl
@[simp] theorem State.onOrder_sites (s : State) (seq : Nat) (f : Order → Order) :
    (s.onOrder seq f).sites = s.sites := rfl
@[simp] theorem State.onOrder_spare (s : State) (seq : Nat) (f : Order → Order) :
    (s.onOrder seq f).spare = s.spare := rfl
@[simp] theorem State.onOrder_mesh (s : State) (seq : Nat) (f : Order → Order) :
    (s.onOrder seq f).mesh = s.mesh := rfl
@[simp] theorem State.onOrder_mports (s : State) (seq : Nat) (f : Order → Order) :
    (s.onOrder seq f).mports = s.mports := rfl
@[simp] theorem State.onOrder_mem (s : State) (seq : Nat) (f : Order → Order) : (s.onOrder seq f).mem = s.mem := rfl
@[simp] theorem State.onOrder_ocu (s : State) (seq : Nat) (f : Order → Order) : (s.onOrder seq f).ocu = s.ocu := rfl
@[simp] theorem State.onOrder_rows (s : State) (seq : Nat) (f : Order → Order) :
    (s.onOrder seq f).rows = s.rows := rfl
@[simp] theorem State.onOrder_emitted (s : State) (seq : Nat) (f : Order → Order) :
    (s.onOrder seq f).emitted = s.emitted := rfl
@[simp] theorem State.onOrder_fresh (s : State) (seq : Nat) (f : Order → Order) :
    (s.onOrder seq f).fresh = s.fresh := rfl
@[simp] theorem State.onOrder_hwSets (s : State) (seq : Nat) (f : Order → Order) :
    (s.onOrder seq f).hwSets = s.hwSets := rfl
@[simp] theorem State.onOrder_swSets (s : State) (seq : Nat) (f : Order → Order) :
    (s.onOrder seq f).swSets = s.swSets := rfl
@[simp] theorem State.onOrder_pending (s : State) (seq : Nat) (f : Order → Order) :
    (s.onOrder seq f).pending = s.pending := rfl
@[simp] theorem State.onOrder_reg (s : State) (seq : Nat) (f : Order → Order) (q : Reg) :
    (s.onOrder seq f).reg q = s.reg q := rfl
@[simp] theorem State.onOrder_fld (s : State) (seq : Nat) (f : Order → Order) (q : Field) :
    (s.onOrder seq f).fld q = s.fld q := rfl
@[simp] theorem State.onOrder_flag (s : State) (seq : Nat) (f : Order → Order) (q : Field) :
    (s.onOrder seq f).flag q = s.flag q := rfl

/-! ### State.onMgmt -/

@[simp] theorem State.onMgmt_now (s : State) (f : MgmtSt → MgmtSt) : (s.onMgmt f).now = s.now := rfl
@[simp] theorem State.onMgmt_ccyc (s : State) (f : MgmtSt → MgmtSt) : (s.onMgmt f).ccyc = s.ccyc := rfl
@[simp] theorem State.onMgmt_crem (s : State) (f : MgmtSt → MgmtSt) : (s.onMgmt f).crem = s.crem := rfl
@[simp] theorem State.onMgmt_regs (s : State) (f : MgmtSt → MgmtSt) : (s.onMgmt f).regs = s.regs := rfl
@[simp] theorem State.onMgmt_fuse (s : State) (f : MgmtSt → MgmtSt) : (s.onMgmt f).fuse = s.fuse := rfl
@[simp] theorem State.onMgmt_mram (s : State) (f : MgmtSt → MgmtSt) : (s.onMgmt f).mram = s.mram := rfl
@[simp] theorem State.onMgmt_stept (s : State) (f : MgmtSt → MgmtSt) : (s.onMgmt f).stept = s.stept := rfl
@[simp] theorem State.onMgmt_intake (s : State) (f : MgmtSt → MgmtSt) : (s.onMgmt f).intake = s.intake := rfl
@[simp] theorem State.onMgmt_jrnl (s : State) (f : MgmtSt → MgmtSt) : (s.onMgmt f).jrnl = s.jrnl := rfl
@[simp] theorem State.onMgmt_intr (s : State) (f : MgmtSt → MgmtSt) : (s.onMgmt f).intr = s.intr := rfl
@[simp] theorem State.onMgmt_bel (s : State) (f : MgmtSt → MgmtSt) : (s.onMgmt f).bel = s.bel := rfl
@[simp] theorem State.onMgmt_mgmt (s : State) (f : MgmtSt → MgmtSt) :
    (s.onMgmt f).mgmt = f s.mgmt := rfl
@[simp] theorem State.onMgmt_sec (s : State) (f : MgmtSt → MgmtSt) : (s.onMgmt f).sec = s.sec := rfl
@[simp] theorem State.onMgmt_pwr (s : State) (f : MgmtSt → MgmtSt) : (s.onMgmt f).pwr = s.pwr := rfl
@[simp] theorem State.onMgmt_trng (s : State) (f : MgmtSt → MgmtSt) : (s.onMgmt f).trng = s.trng := rfl
@[simp] theorem State.onMgmt_ports (s : State) (f : MgmtSt → MgmtSt) : (s.onMgmt f).ports = s.ports := rfl
@[simp] theorem State.onMgmt_boot (s : State) (f : MgmtSt → MgmtSt) : (s.onMgmt f).boot = s.boot := rfl
@[simp] theorem State.onMgmt_plan (s : State) (f : MgmtSt → MgmtSt) : (s.onMgmt f).plan = s.plan := rfl
@[simp] theorem State.onMgmt_ex (s : State) (f : MgmtSt → MgmtSt) : (s.onMgmt f).ex = s.ex := rfl
@[simp] theorem State.onMgmt_slog (s : State) (f : MgmtSt → MgmtSt) : (s.onMgmt f).slog = s.slog := rfl
@[simp] theorem State.onMgmt_dig (s : State) (f : MgmtSt → MgmtSt) : (s.onMgmt f).dig = s.dig := rfl
@[simp] theorem State.onMgmt_sites (s : State) (f : MgmtSt → MgmtSt) : (s.onMgmt f).sites = s.sites := rfl
@[simp] theorem State.onMgmt_spare (s : State) (f : MgmtSt → MgmtSt) : (s.onMgmt f).spare = s.spare := rfl
@[simp] theorem State.onMgmt_mesh (s : State) (f : MgmtSt → MgmtSt) : (s.onMgmt f).mesh = s.mesh := rfl
@[simp] theorem State.onMgmt_mports (s : State) (f : MgmtSt → MgmtSt) : (s.onMgmt f).mports = s.mports := rfl
@[simp] theorem State.onMgmt_mem (s : State) (f : MgmtSt → MgmtSt) : (s.onMgmt f).mem = s.mem := rfl
@[simp] theorem State.onMgmt_ocu (s : State) (f : MgmtSt → MgmtSt) : (s.onMgmt f).ocu = s.ocu := rfl
@[simp] theorem State.onMgmt_rows (s : State) (f : MgmtSt → MgmtSt) : (s.onMgmt f).rows = s.rows := rfl
@[simp] theorem State.onMgmt_emitted (s : State) (f : MgmtSt → MgmtSt) : (s.onMgmt f).emitted = s.emitted := rfl
@[simp] theorem State.onMgmt_fresh (s : State) (f : MgmtSt → MgmtSt) : (s.onMgmt f).fresh = s.fresh := rfl
@[simp] theorem State.onMgmt_hwSets (s : State) (f : MgmtSt → MgmtSt) : (s.onMgmt f).hwSets = s.hwSets := rfl
@[simp] theorem State.onMgmt_swSets (s : State) (f : MgmtSt → MgmtSt) : (s.onMgmt f).swSets = s.swSets := rfl
@[simp] theorem State.onMgmt_pending (s : State) (f : MgmtSt → MgmtSt) : (s.onMgmt f).pending = s.pending := rfl
@[simp] theorem State.onMgmt_reg (s : State) (f : MgmtSt → MgmtSt) (q : Reg) : (s.onMgmt f).reg q = s.reg q := rfl
@[simp] theorem State.onMgmt_fld (s : State) (f : MgmtSt → MgmtSt) (q : Field) : (s.onMgmt f).fld q = s.fld q := rfl
@[simp] theorem State.onMgmt_flag (s : State) (f : MgmtSt → MgmtSt) (q : Field) :
    (s.onMgmt f).flag q = s.flag q := rfl

/-! ### State.onSec -/

@[simp] theorem State.onSec_now (s : State) (f : SecSt → SecSt) : (s.onSec f).now = s.now := rfl
@[simp] theorem State.onSec_ccyc (s : State) (f : SecSt → SecSt) : (s.onSec f).ccyc = s.ccyc := rfl
@[simp] theorem State.onSec_crem (s : State) (f : SecSt → SecSt) : (s.onSec f).crem = s.crem := rfl
@[simp] theorem State.onSec_regs (s : State) (f : SecSt → SecSt) : (s.onSec f).regs = s.regs := rfl
@[simp] theorem State.onSec_fuse (s : State) (f : SecSt → SecSt) : (s.onSec f).fuse = s.fuse := rfl
@[simp] theorem State.onSec_mram (s : State) (f : SecSt → SecSt) : (s.onSec f).mram = s.mram := rfl
@[simp] theorem State.onSec_stept (s : State) (f : SecSt → SecSt) : (s.onSec f).stept = s.stept := rfl
@[simp] theorem State.onSec_intake (s : State) (f : SecSt → SecSt) : (s.onSec f).intake = s.intake := rfl
@[simp] theorem State.onSec_jrnl (s : State) (f : SecSt → SecSt) : (s.onSec f).jrnl = s.jrnl := rfl
@[simp] theorem State.onSec_intr (s : State) (f : SecSt → SecSt) : (s.onSec f).intr = s.intr := rfl
@[simp] theorem State.onSec_bel (s : State) (f : SecSt → SecSt) : (s.onSec f).bel = s.bel := rfl
@[simp] theorem State.onSec_mgmt (s : State) (f : SecSt → SecSt) : (s.onSec f).mgmt = s.mgmt := rfl
@[simp] theorem State.onSec_sec (s : State) (f : SecSt → SecSt) :
    (s.onSec f).sec = f s.sec := rfl
@[simp] theorem State.onSec_pwr (s : State) (f : SecSt → SecSt) : (s.onSec f).pwr = s.pwr := rfl
@[simp] theorem State.onSec_trng (s : State) (f : SecSt → SecSt) : (s.onSec f).trng = s.trng := rfl
@[simp] theorem State.onSec_ports (s : State) (f : SecSt → SecSt) : (s.onSec f).ports = s.ports := rfl
@[simp] theorem State.onSec_boot (s : State) (f : SecSt → SecSt) : (s.onSec f).boot = s.boot := rfl
@[simp] theorem State.onSec_plan (s : State) (f : SecSt → SecSt) : (s.onSec f).plan = s.plan := rfl
@[simp] theorem State.onSec_ex (s : State) (f : SecSt → SecSt) : (s.onSec f).ex = s.ex := rfl
@[simp] theorem State.onSec_slog (s : State) (f : SecSt → SecSt) : (s.onSec f).slog = s.slog := rfl
@[simp] theorem State.onSec_dig (s : State) (f : SecSt → SecSt) : (s.onSec f).dig = s.dig := rfl
@[simp] theorem State.onSec_sites (s : State) (f : SecSt → SecSt) : (s.onSec f).sites = s.sites := rfl
@[simp] theorem State.onSec_spare (s : State) (f : SecSt → SecSt) : (s.onSec f).spare = s.spare := rfl
@[simp] theorem State.onSec_mesh (s : State) (f : SecSt → SecSt) : (s.onSec f).mesh = s.mesh := rfl
@[simp] theorem State.onSec_mports (s : State) (f : SecSt → SecSt) : (s.onSec f).mports = s.mports := rfl
@[simp] theorem State.onSec_mem (s : State) (f : SecSt → SecSt) : (s.onSec f).mem = s.mem := rfl
@[simp] theorem State.onSec_ocu (s : State) (f : SecSt → SecSt) : (s.onSec f).ocu = s.ocu := rfl
@[simp] theorem State.onSec_rows (s : State) (f : SecSt → SecSt) : (s.onSec f).rows = s.rows := rfl
@[simp] theorem State.onSec_emitted (s : State) (f : SecSt → SecSt) : (s.onSec f).emitted = s.emitted := rfl
@[simp] theorem State.onSec_fresh (s : State) (f : SecSt → SecSt) : (s.onSec f).fresh = s.fresh := rfl
@[simp] theorem State.onSec_hwSets (s : State) (f : SecSt → SecSt) : (s.onSec f).hwSets = s.hwSets := rfl
@[simp] theorem State.onSec_swSets (s : State) (f : SecSt → SecSt) : (s.onSec f).swSets = s.swSets := rfl
@[simp] theorem State.onSec_pending (s : State) (f : SecSt → SecSt) : (s.onSec f).pending = s.pending := rfl
@[simp] theorem State.onSec_reg (s : State) (f : SecSt → SecSt) (q : Reg) : (s.onSec f).reg q = s.reg q := rfl
@[simp] theorem State.onSec_fld (s : State) (f : SecSt → SecSt) (q : Field) : (s.onSec f).fld q = s.fld q := rfl
@[simp] theorem State.onSec_flag (s : State) (f : SecSt → SecSt) (q : Field) : (s.onSec f).flag q = s.flag q := rfl

/-! ### State.onPwr -/

@[simp] theorem State.onPwr_now (s : State) (f : PwrSt → PwrSt) : (s.onPwr f).now = s.now := rfl
@[simp] theorem State.onPwr_ccyc (s : State) (f : PwrSt → PwrSt) : (s.onPwr f).ccyc = s.ccyc := rfl
@[simp] theorem State.onPwr_crem (s : State) (f : PwrSt → PwrSt) : (s.onPwr f).crem = s.crem := rfl
@[simp] theorem State.onPwr_regs (s : State) (f : PwrSt → PwrSt) : (s.onPwr f).regs = s.regs := rfl
@[simp] theorem State.onPwr_fuse (s : State) (f : PwrSt → PwrSt) : (s.onPwr f).fuse = s.fuse := rfl
@[simp] theorem State.onPwr_mram (s : State) (f : PwrSt → PwrSt) : (s.onPwr f).mram = s.mram := rfl
@[simp] theorem State.onPwr_stept (s : State) (f : PwrSt → PwrSt) : (s.onPwr f).stept = s.stept := rfl
@[simp] theorem State.onPwr_intake (s : State) (f : PwrSt → PwrSt) : (s.onPwr f).intake = s.intake := rfl
@[simp] theorem State.onPwr_jrnl (s : State) (f : PwrSt → PwrSt) : (s.onPwr f).jrnl = s.jrnl := rfl
@[simp] theorem State.onPwr_intr (s : State) (f : PwrSt → PwrSt) : (s.onPwr f).intr = s.intr := rfl
@[simp] theorem State.onPwr_bel (s : State) (f : PwrSt → PwrSt) : (s.onPwr f).bel = s.bel := rfl
@[simp] theorem State.onPwr_mgmt (s : State) (f : PwrSt → PwrSt) : (s.onPwr f).mgmt = s.mgmt := rfl
@[simp] theorem State.onPwr_sec (s : State) (f : PwrSt → PwrSt) : (s.onPwr f).sec = s.sec := rfl
@[simp] theorem State.onPwr_pwr (s : State) (f : PwrSt → PwrSt) :
    (s.onPwr f).pwr = f s.pwr := rfl
@[simp] theorem State.onPwr_trng (s : State) (f : PwrSt → PwrSt) : (s.onPwr f).trng = s.trng := rfl
@[simp] theorem State.onPwr_ports (s : State) (f : PwrSt → PwrSt) : (s.onPwr f).ports = s.ports := rfl
@[simp] theorem State.onPwr_boot (s : State) (f : PwrSt → PwrSt) : (s.onPwr f).boot = s.boot := rfl
@[simp] theorem State.onPwr_plan (s : State) (f : PwrSt → PwrSt) : (s.onPwr f).plan = s.plan := rfl
@[simp] theorem State.onPwr_ex (s : State) (f : PwrSt → PwrSt) : (s.onPwr f).ex = s.ex := rfl
@[simp] theorem State.onPwr_slog (s : State) (f : PwrSt → PwrSt) : (s.onPwr f).slog = s.slog := rfl
@[simp] theorem State.onPwr_dig (s : State) (f : PwrSt → PwrSt) : (s.onPwr f).dig = s.dig := rfl
@[simp] theorem State.onPwr_sites (s : State) (f : PwrSt → PwrSt) : (s.onPwr f).sites = s.sites := rfl
@[simp] theorem State.onPwr_spare (s : State) (f : PwrSt → PwrSt) : (s.onPwr f).spare = s.spare := rfl
@[simp] theorem State.onPwr_mesh (s : State) (f : PwrSt → PwrSt) : (s.onPwr f).mesh = s.mesh := rfl
@[simp] theorem State.onPwr_mports (s : State) (f : PwrSt → PwrSt) : (s.onPwr f).mports = s.mports := rfl
@[simp] theorem State.onPwr_mem (s : State) (f : PwrSt → PwrSt) : (s.onPwr f).mem = s.mem := rfl
@[simp] theorem State.onPwr_ocu (s : State) (f : PwrSt → PwrSt) : (s.onPwr f).ocu = s.ocu := rfl
@[simp] theorem State.onPwr_rows (s : State) (f : PwrSt → PwrSt) : (s.onPwr f).rows = s.rows := rfl
@[simp] theorem State.onPwr_emitted (s : State) (f : PwrSt → PwrSt) : (s.onPwr f).emitted = s.emitted := rfl
@[simp] theorem State.onPwr_fresh (s : State) (f : PwrSt → PwrSt) : (s.onPwr f).fresh = s.fresh := rfl
@[simp] theorem State.onPwr_hwSets (s : State) (f : PwrSt → PwrSt) : (s.onPwr f).hwSets = s.hwSets := rfl
@[simp] theorem State.onPwr_swSets (s : State) (f : PwrSt → PwrSt) : (s.onPwr f).swSets = s.swSets := rfl
@[simp] theorem State.onPwr_pending (s : State) (f : PwrSt → PwrSt) : (s.onPwr f).pending = s.pending := rfl
@[simp] theorem State.onPwr_reg (s : State) (f : PwrSt → PwrSt) (q : Reg) : (s.onPwr f).reg q = s.reg q := rfl
@[simp] theorem State.onPwr_fld (s : State) (f : PwrSt → PwrSt) (q : Field) : (s.onPwr f).fld q = s.fld q := rfl
@[simp] theorem State.onPwr_flag (s : State) (f : PwrSt → PwrSt) (q : Field) : (s.onPwr f).flag q = s.flag q := rfl

/-! ### State.onTrng -/

@[simp] theorem State.onTrng_now (s : State) (f : TrngSt → TrngSt) : (s.onTrng f).now = s.now := rfl
@[simp] theorem State.onTrng_ccyc (s : State) (f : TrngSt → TrngSt) : (s.onTrng f).ccyc = s.ccyc := rfl
@[simp] theorem State.onTrng_crem (s : State) (f : TrngSt → TrngSt) : (s.onTrng f).crem = s.crem := rfl
@[simp] theorem State.onTrng_regs (s : State) (f : TrngSt → TrngSt) : (s.onTrng f).regs = s.regs := rfl
@[simp] theorem State.onTrng_fuse (s : State) (f : TrngSt → TrngSt) : (s.onTrng f).fuse = s.fuse := rfl
@[simp] theorem State.onTrng_mram (s : State) (f : TrngSt → TrngSt) : (s.onTrng f).mram = s.mram := rfl
@[simp] theorem State.onTrng_stept (s : State) (f : TrngSt → TrngSt) : (s.onTrng f).stept = s.stept := rfl
@[simp] theorem State.onTrng_intake (s : State) (f : TrngSt → TrngSt) : (s.onTrng f).intake = s.intake := rfl
@[simp] theorem State.onTrng_jrnl (s : State) (f : TrngSt → TrngSt) : (s.onTrng f).jrnl = s.jrnl := rfl
@[simp] theorem State.onTrng_intr (s : State) (f : TrngSt → TrngSt) : (s.onTrng f).intr = s.intr := rfl
@[simp] theorem State.onTrng_bel (s : State) (f : TrngSt → TrngSt) : (s.onTrng f).bel = s.bel := rfl
@[simp] theorem State.onTrng_mgmt (s : State) (f : TrngSt → TrngSt) : (s.onTrng f).mgmt = s.mgmt := rfl
@[simp] theorem State.onTrng_sec (s : State) (f : TrngSt → TrngSt) : (s.onTrng f).sec = s.sec := rfl
@[simp] theorem State.onTrng_pwr (s : State) (f : TrngSt → TrngSt) : (s.onTrng f).pwr = s.pwr := rfl
@[simp] theorem State.onTrng_trng (s : State) (f : TrngSt → TrngSt) :
    (s.onTrng f).trng = f s.trng := rfl
@[simp] theorem State.onTrng_ports (s : State) (f : TrngSt → TrngSt) : (s.onTrng f).ports = s.ports := rfl
@[simp] theorem State.onTrng_boot (s : State) (f : TrngSt → TrngSt) : (s.onTrng f).boot = s.boot := rfl
@[simp] theorem State.onTrng_plan (s : State) (f : TrngSt → TrngSt) : (s.onTrng f).plan = s.plan := rfl
@[simp] theorem State.onTrng_ex (s : State) (f : TrngSt → TrngSt) : (s.onTrng f).ex = s.ex := rfl
@[simp] theorem State.onTrng_slog (s : State) (f : TrngSt → TrngSt) : (s.onTrng f).slog = s.slog := rfl
@[simp] theorem State.onTrng_dig (s : State) (f : TrngSt → TrngSt) : (s.onTrng f).dig = s.dig := rfl
@[simp] theorem State.onTrng_sites (s : State) (f : TrngSt → TrngSt) : (s.onTrng f).sites = s.sites := rfl
@[simp] theorem State.onTrng_spare (s : State) (f : TrngSt → TrngSt) : (s.onTrng f).spare = s.spare := rfl
@[simp] theorem State.onTrng_mesh (s : State) (f : TrngSt → TrngSt) : (s.onTrng f).mesh = s.mesh := rfl
@[simp] theorem State.onTrng_mports (s : State) (f : TrngSt → TrngSt) : (s.onTrng f).mports = s.mports := rfl
@[simp] theorem State.onTrng_mem (s : State) (f : TrngSt → TrngSt) : (s.onTrng f).mem = s.mem := rfl
@[simp] theorem State.onTrng_ocu (s : State) (f : TrngSt → TrngSt) : (s.onTrng f).ocu = s.ocu := rfl
@[simp] theorem State.onTrng_rows (s : State) (f : TrngSt → TrngSt) : (s.onTrng f).rows = s.rows := rfl
@[simp] theorem State.onTrng_emitted (s : State) (f : TrngSt → TrngSt) : (s.onTrng f).emitted = s.emitted := rfl
@[simp] theorem State.onTrng_fresh (s : State) (f : TrngSt → TrngSt) : (s.onTrng f).fresh = s.fresh := rfl
@[simp] theorem State.onTrng_hwSets (s : State) (f : TrngSt → TrngSt) : (s.onTrng f).hwSets = s.hwSets := rfl
@[simp] theorem State.onTrng_swSets (s : State) (f : TrngSt → TrngSt) : (s.onTrng f).swSets = s.swSets := rfl
@[simp] theorem State.onTrng_pending (s : State) (f : TrngSt → TrngSt) : (s.onTrng f).pending = s.pending := rfl
@[simp] theorem State.onTrng_reg (s : State) (f : TrngSt → TrngSt) (q : Reg) : (s.onTrng f).reg q = s.reg q := rfl
@[simp] theorem State.onTrng_fld (s : State) (f : TrngSt → TrngSt) (q : Field) : (s.onTrng f).fld q = s.fld q := rfl
@[simp] theorem State.onTrng_flag (s : State) (f : TrngSt → TrngSt) (q : Field) :
    (s.onTrng f).flag q = s.flag q := rfl

/-! ### State.onStep -/

@[simp] theorem State.onStep_now (s : State) (f : StepT → StepT) : (s.onStep f).now = s.now := rfl
@[simp] theorem State.onStep_ccyc (s : State) (f : StepT → StepT) : (s.onStep f).ccyc = s.ccyc := rfl
@[simp] theorem State.onStep_crem (s : State) (f : StepT → StepT) : (s.onStep f).crem = s.crem := rfl
@[simp] theorem State.onStep_regs (s : State) (f : StepT → StepT) : (s.onStep f).regs = s.regs := rfl
@[simp] theorem State.onStep_fuse (s : State) (f : StepT → StepT) : (s.onStep f).fuse = s.fuse := rfl
@[simp] theorem State.onStep_mram (s : State) (f : StepT → StepT) : (s.onStep f).mram = s.mram := rfl
@[simp] theorem State.onStep_stept (s : State) (f : StepT → StepT) :
    (s.onStep f).stept = f s.stept := rfl
@[simp] theorem State.onStep_intake (s : State) (f : StepT → StepT) : (s.onStep f).intake = s.intake := rfl
@[simp] theorem State.onStep_jrnl (s : State) (f : StepT → StepT) : (s.onStep f).jrnl = s.jrnl := rfl
@[simp] theorem State.onStep_intr (s : State) (f : StepT → StepT) : (s.onStep f).intr = s.intr := rfl
@[simp] theorem State.onStep_bel (s : State) (f : StepT → StepT) : (s.onStep f).bel = s.bel := rfl
@[simp] theorem State.onStep_mgmt (s : State) (f : StepT → StepT) : (s.onStep f).mgmt = s.mgmt := rfl
@[simp] theorem State.onStep_sec (s : State) (f : StepT → StepT) : (s.onStep f).sec = s.sec := rfl
@[simp] theorem State.onStep_pwr (s : State) (f : StepT → StepT) : (s.onStep f).pwr = s.pwr := rfl
@[simp] theorem State.onStep_trng (s : State) (f : StepT → StepT) : (s.onStep f).trng = s.trng := rfl
@[simp] theorem State.onStep_ports (s : State) (f : StepT → StepT) : (s.onStep f).ports = s.ports := rfl
@[simp] theorem State.onStep_boot (s : State) (f : StepT → StepT) : (s.onStep f).boot = s.boot := rfl
@[simp] theorem State.onStep_plan (s : State) (f : StepT → StepT) : (s.onStep f).plan = s.plan := rfl
@[simp] theorem State.onStep_ex (s : State) (f : StepT → StepT) : (s.onStep f).ex = s.ex := rfl
@[simp] theorem State.onStep_slog (s : State) (f : StepT → StepT) : (s.onStep f).slog = s.slog := rfl
@[simp] theorem State.onStep_dig (s : State) (f : StepT → StepT) : (s.onStep f).dig = s.dig := rfl
@[simp] theorem State.onStep_sites (s : State) (f : StepT → StepT) : (s.onStep f).sites = s.sites := rfl
@[simp] theorem State.onStep_spare (s : State) (f : StepT → StepT) : (s.onStep f).spare = s.spare := rfl
@[simp] theorem State.onStep_mesh (s : State) (f : StepT → StepT) : (s.onStep f).mesh = s.mesh := rfl
@[simp] theorem State.onStep_mports (s : State) (f : StepT → StepT) : (s.onStep f).mports = s.mports := rfl
@[simp] theorem State.onStep_mem (s : State) (f : StepT → StepT) : (s.onStep f).mem = s.mem := rfl
@[simp] theorem State.onStep_ocu (s : State) (f : StepT → StepT) : (s.onStep f).ocu = s.ocu := rfl
@[simp] theorem State.onStep_rows (s : State) (f : StepT → StepT) : (s.onStep f).rows = s.rows := rfl
@[simp] theorem State.onStep_emitted (s : State) (f : StepT → StepT) : (s.onStep f).emitted = s.emitted := rfl
@[simp] theorem State.onStep_fresh (s : State) (f : StepT → StepT) : (s.onStep f).fresh = s.fresh := rfl
@[simp] theorem State.onStep_hwSets (s : State) (f : StepT → StepT) : (s.onStep f).hwSets = s.hwSets := rfl
@[simp] theorem State.onStep_swSets (s : State) (f : StepT → StepT) : (s.onStep f).swSets = s.swSets := rfl
@[simp] theorem State.onStep_pending (s : State) (f : StepT → StepT) : (s.onStep f).pending = s.pending := rfl
@[simp] theorem State.onStep_reg (s : State) (f : StepT → StepT) (q : Reg) : (s.onStep f).reg q = s.reg q := rfl
@[simp] theorem State.onStep_fld (s : State) (f : StepT → StepT) (q : Field) : (s.onStep f).fld q = s.fld q := rfl
@[simp] theorem State.onStep_flag (s : State) (f : StepT → StepT) (q : Field) :
    (s.onStep f).flag q = s.flag q := rfl

/-! ### State.onPort -/

@[simp] theorem State.onPort_now (s : State) (port : Nat) (f : JPort → JPort) : (s.onPort port f).now = s.now := rfl
@[simp] theorem State.onPort_ccyc (s : State) (port : Nat) (f : JPort → JPort) :
    (s.onPort port f).ccyc = s.ccyc := rfl
@[simp] theorem State.onPort_crem (s : State) (port : Nat) (f : JPort → JPort) :
    (s.onPort port f).crem = s.crem := rfl
@[simp] theorem State.onPort_regs (s : State) (port : Nat) (f : JPort → JPort) :
    (s.onPort port f).regs = s.regs := rfl
@[simp] theorem State.onPort_fuse (s : State) (port : Nat) (f : JPort → JPort) :
    (s.onPort port f).fuse = s.fuse := rfl
@[simp] theorem State.onPort_mram (s : State) (port : Nat) (f : JPort → JPort) :
    (s.onPort port f).mram = s.mram := rfl
@[simp] theorem State.onPort_stept (s : State) (port : Nat) (f : JPort → JPort) :
    (s.onPort port f).stept = s.stept := rfl
@[simp] theorem State.onPort_intake (s : State) (port : Nat) (f : JPort → JPort) :
    (s.onPort port f).intake = s.intake := rfl
@[simp] theorem State.onPort_intr (s : State) (port : Nat) (f : JPort → JPort) :
    (s.onPort port f).intr = s.intr := rfl
@[simp] theorem State.onPort_bel (s : State) (port : Nat) (f : JPort → JPort) : (s.onPort port f).bel = s.bel := rfl
@[simp] theorem State.onPort_mgmt (s : State) (port : Nat) (f : JPort → JPort) :
    (s.onPort port f).mgmt = s.mgmt := rfl
@[simp] theorem State.onPort_sec (s : State) (port : Nat) (f : JPort → JPort) : (s.onPort port f).sec = s.sec := rfl
@[simp] theorem State.onPort_pwr (s : State) (port : Nat) (f : JPort → JPort) : (s.onPort port f).pwr = s.pwr := rfl
@[simp] theorem State.onPort_trng (s : State) (port : Nat) (f : JPort → JPort) :
    (s.onPort port f).trng = s.trng := rfl
@[simp] theorem State.onPort_ports (s : State) (port : Nat) (f : JPort → JPort) :
    (s.onPort port f).ports = s.ports := rfl
@[simp] theorem State.onPort_boot (s : State) (port : Nat) (f : JPort → JPort) :
    (s.onPort port f).boot = s.boot := rfl
@[simp] theorem State.onPort_plan (s : State) (port : Nat) (f : JPort → JPort) :
    (s.onPort port f).plan = s.plan := rfl
@[simp] theorem State.onPort_ex (s : State) (port : Nat) (f : JPort → JPort) : (s.onPort port f).ex = s.ex := rfl
@[simp] theorem State.onPort_slog (s : State) (port : Nat) (f : JPort → JPort) :
    (s.onPort port f).slog = s.slog := rfl
@[simp] theorem State.onPort_dig (s : State) (port : Nat) (f : JPort → JPort) : (s.onPort port f).dig = s.dig := rfl
@[simp] theorem State.onPort_sites (s : State) (port : Nat) (f : JPort → JPort) :
    (s.onPort port f).sites = s.sites := rfl
@[simp] theorem State.onPort_spare (s : State) (port : Nat) (f : JPort → JPort) :
    (s.onPort port f).spare = s.spare := rfl
@[simp] theorem State.onPort_mesh (s : State) (port : Nat) (f : JPort → JPort) :
    (s.onPort port f).mesh = s.mesh := rfl
@[simp] theorem State.onPort_mports (s : State) (port : Nat) (f : JPort → JPort) :
    (s.onPort port f).mports = s.mports := rfl
@[simp] theorem State.onPort_mem (s : State) (port : Nat) (f : JPort → JPort) : (s.onPort port f).mem = s.mem := rfl
@[simp] theorem State.onPort_ocu (s : State) (port : Nat) (f : JPort → JPort) : (s.onPort port f).ocu = s.ocu := rfl
@[simp] theorem State.onPort_rows (s : State) (port : Nat) (f : JPort → JPort) :
    (s.onPort port f).rows = s.rows := rfl
@[simp] theorem State.onPort_emitted (s : State) (port : Nat) (f : JPort → JPort) :
    (s.onPort port f).emitted = s.emitted := rfl
@[simp] theorem State.onPort_fresh (s : State) (port : Nat) (f : JPort → JPort) :
    (s.onPort port f).fresh = s.fresh := rfl
@[simp] theorem State.onPort_hwSets (s : State) (port : Nat) (f : JPort → JPort) :
    (s.onPort port f).hwSets = s.hwSets := rfl
@[simp] theorem State.onPort_swSets (s : State) (port : Nat) (f : JPort → JPort) :
    (s.onPort port f).swSets = s.swSets := rfl
@[simp] theorem State.onPort_pending (s : State) (port : Nat) (f : JPort → JPort) :
    (s.onPort port f).pending = s.pending := rfl
@[simp] theorem State.onPort_reg (s : State) (port : Nat) (f : JPort → JPort) (q : Reg) :
    (s.onPort port f).reg q = s.reg q := rfl
@[simp] theorem State.onPort_fld (s : State) (port : Nat) (f : JPort → JPort) (q : Field) :
    (s.onPort port f).fld q = s.fld q := rfl
@[simp] theorem State.onPort_flag (s : State) (port : Nat) (f : JPort → JPort) (q : Field) :
    (s.onPort port f).flag q = s.flag q := rfl

/-! ### State.onLanes -/

@[simp] theorem State.onLanes_now (s : State) (f : Lane → Lane) : (s.onLanes f).now = s.now := rfl
@[simp] theorem State.onLanes_ccyc (s : State) (f : Lane → Lane) : (s.onLanes f).ccyc = s.ccyc := rfl
@[simp] theorem State.onLanes_crem (s : State) (f : Lane → Lane) : (s.onLanes f).crem = s.crem := rfl
@[simp] theorem State.onLanes_regs (s : State) (f : Lane → Lane) : (s.onLanes f).regs = s.regs := rfl
@[simp] theorem State.onLanes_fuse (s : State) (f : Lane → Lane) : (s.onLanes f).fuse = s.fuse := rfl
@[simp] theorem State.onLanes_mram (s : State) (f : Lane → Lane) : (s.onLanes f).mram = s.mram := rfl
@[simp] theorem State.onLanes_stept (s : State) (f : Lane → Lane) : (s.onLanes f).stept = s.stept := rfl
@[simp] theorem State.onLanes_intake (s : State) (f : Lane → Lane) : (s.onLanes f).intake = s.intake := rfl
@[simp] theorem State.onLanes_jrnl (s : State) (f : Lane → Lane) : (s.onLanes f).jrnl = s.jrnl := rfl
@[simp] theorem State.onLanes_intr (s : State) (f : Lane → Lane) : (s.onLanes f).intr = s.intr := rfl
@[simp] theorem State.onLanes_bel (s : State) (f : Lane → Lane) : (s.onLanes f).bel = s.bel := rfl
@[simp] theorem State.onLanes_mgmt (s : State) (f : Lane → Lane) : (s.onLanes f).mgmt = s.mgmt := rfl
@[simp] theorem State.onLanes_sec (s : State) (f : Lane → Lane) : (s.onLanes f).sec = s.sec := rfl
@[simp] theorem State.onLanes_pwr (s : State) (f : Lane → Lane) : (s.onLanes f).pwr = s.pwr := rfl
@[simp] theorem State.onLanes_trng (s : State) (f : Lane → Lane) : (s.onLanes f).trng = s.trng := rfl
@[simp] theorem State.onLanes_boot (s : State) (f : Lane → Lane) : (s.onLanes f).boot = s.boot := rfl
@[simp] theorem State.onLanes_plan (s : State) (f : Lane → Lane) : (s.onLanes f).plan = s.plan := rfl
@[simp] theorem State.onLanes_ex (s : State) (f : Lane → Lane) : (s.onLanes f).ex = s.ex := rfl
@[simp] theorem State.onLanes_slog (s : State) (f : Lane → Lane) : (s.onLanes f).slog = s.slog := rfl
@[simp] theorem State.onLanes_dig (s : State) (f : Lane → Lane) : (s.onLanes f).dig = s.dig := rfl
@[simp] theorem State.onLanes_sites (s : State) (f : Lane → Lane) : (s.onLanes f).sites = s.sites := rfl
@[simp] theorem State.onLanes_spare (s : State) (f : Lane → Lane) : (s.onLanes f).spare = s.spare := rfl
@[simp] theorem State.onLanes_mesh (s : State) (f : Lane → Lane) : (s.onLanes f).mesh = s.mesh := rfl
@[simp] theorem State.onLanes_mports (s : State) (f : Lane → Lane) : (s.onLanes f).mports = s.mports := rfl
@[simp] theorem State.onLanes_mem (s : State) (f : Lane → Lane) : (s.onLanes f).mem = s.mem := rfl
@[simp] theorem State.onLanes_ocu (s : State) (f : Lane → Lane) : (s.onLanes f).ocu = s.ocu := rfl
@[simp] theorem State.onLanes_rows (s : State) (f : Lane → Lane) : (s.onLanes f).rows = s.rows := rfl
@[simp] theorem State.onLanes_emitted (s : State) (f : Lane → Lane) : (s.onLanes f).emitted = s.emitted := rfl
@[simp] theorem State.onLanes_fresh (s : State) (f : Lane → Lane) : (s.onLanes f).fresh = s.fresh := rfl
@[simp] theorem State.onLanes_hwSets (s : State) (f : Lane → Lane) : (s.onLanes f).hwSets = s.hwSets := rfl
@[simp] theorem State.onLanes_swSets (s : State) (f : Lane → Lane) : (s.onLanes f).swSets = s.swSets := rfl
@[simp] theorem State.onLanes_pending (s : State) (f : Lane → Lane) : (s.onLanes f).pending = s.pending := rfl
@[simp] theorem State.onLanes_reg (s : State) (f : Lane → Lane) (q : Reg) : (s.onLanes f).reg q = s.reg q := rfl
@[simp] theorem State.onLanes_fld (s : State) (f : Lane → Lane) (q : Field) : (s.onLanes f).fld q = s.fld q := rfl
@[simp] theorem State.onLanes_flag (s : State) (f : Lane → Lane) (q : Field) :
    (s.onLanes f).flag q = s.flag q := rfl

/-! ### State.onMaps -/

@[simp] theorem State.onMaps_now (s : State) (f : FieldMap → FieldMap) : (s.onMaps f).now = s.now := rfl
@[simp] theorem State.onMaps_ccyc (s : State) (f : FieldMap → FieldMap) : (s.onMaps f).ccyc = s.ccyc := rfl
@[simp] theorem State.onMaps_crem (s : State) (f : FieldMap → FieldMap) : (s.onMaps f).crem = s.crem := rfl
@[simp] theorem State.onMaps_regs (s : State) (f : FieldMap → FieldMap) : (s.onMaps f).regs = s.regs := rfl
@[simp] theorem State.onMaps_fuse (s : State) (f : FieldMap → FieldMap) : (s.onMaps f).fuse = s.fuse := rfl
@[simp] theorem State.onMaps_stept (s : State) (f : FieldMap → FieldMap) : (s.onMaps f).stept = s.stept := rfl
@[simp] theorem State.onMaps_intake (s : State) (f : FieldMap → FieldMap) : (s.onMaps f).intake = s.intake := rfl
@[simp] theorem State.onMaps_jrnl (s : State) (f : FieldMap → FieldMap) : (s.onMaps f).jrnl = s.jrnl := rfl
@[simp] theorem State.onMaps_intr (s : State) (f : FieldMap → FieldMap) : (s.onMaps f).intr = s.intr := rfl
@[simp] theorem State.onMaps_bel (s : State) (f : FieldMap → FieldMap) : (s.onMaps f).bel = s.bel := rfl
@[simp] theorem State.onMaps_mgmt (s : State) (f : FieldMap → FieldMap) : (s.onMaps f).mgmt = s.mgmt := rfl
@[simp] theorem State.onMaps_sec (s : State) (f : FieldMap → FieldMap) : (s.onMaps f).sec = s.sec := rfl
@[simp] theorem State.onMaps_pwr (s : State) (f : FieldMap → FieldMap) : (s.onMaps f).pwr = s.pwr := rfl
@[simp] theorem State.onMaps_trng (s : State) (f : FieldMap → FieldMap) : (s.onMaps f).trng = s.trng := rfl
@[simp] theorem State.onMaps_ports (s : State) (f : FieldMap → FieldMap) : (s.onMaps f).ports = s.ports := rfl
@[simp] theorem State.onMaps_boot (s : State) (f : FieldMap → FieldMap) : (s.onMaps f).boot = s.boot := rfl
@[simp] theorem State.onMaps_plan (s : State) (f : FieldMap → FieldMap) : (s.onMaps f).plan = s.plan := rfl
@[simp] theorem State.onMaps_ex (s : State) (f : FieldMap → FieldMap) : (s.onMaps f).ex = s.ex := rfl
@[simp] theorem State.onMaps_slog (s : State) (f : FieldMap → FieldMap) : (s.onMaps f).slog = s.slog := rfl
@[simp] theorem State.onMaps_dig (s : State) (f : FieldMap → FieldMap) : (s.onMaps f).dig = s.dig := rfl
@[simp] theorem State.onMaps_sites (s : State) (f : FieldMap → FieldMap) : (s.onMaps f).sites = s.sites := rfl
@[simp] theorem State.onMaps_spare (s : State) (f : FieldMap → FieldMap) : (s.onMaps f).spare = s.spare := rfl
@[simp] theorem State.onMaps_mesh (s : State) (f : FieldMap → FieldMap) : (s.onMaps f).mesh = s.mesh := rfl
@[simp] theorem State.onMaps_mports (s : State) (f : FieldMap → FieldMap) : (s.onMaps f).mports = s.mports := rfl
@[simp] theorem State.onMaps_mem (s : State) (f : FieldMap → FieldMap) : (s.onMaps f).mem = s.mem := rfl
@[simp] theorem State.onMaps_ocu (s : State) (f : FieldMap → FieldMap) : (s.onMaps f).ocu = s.ocu := rfl
@[simp] theorem State.onMaps_rows (s : State) (f : FieldMap → FieldMap) : (s.onMaps f).rows = s.rows := rfl
@[simp] theorem State.onMaps_emitted (s : State) (f : FieldMap → FieldMap) : (s.onMaps f).emitted = s.emitted := rfl
@[simp] theorem State.onMaps_fresh (s : State) (f : FieldMap → FieldMap) : (s.onMaps f).fresh = s.fresh := rfl
@[simp] theorem State.onMaps_hwSets (s : State) (f : FieldMap → FieldMap) : (s.onMaps f).hwSets = s.hwSets := rfl
@[simp] theorem State.onMaps_swSets (s : State) (f : FieldMap → FieldMap) : (s.onMaps f).swSets = s.swSets := rfl
@[simp] theorem State.onMaps_pending (s : State) (f : FieldMap → FieldMap) : (s.onMaps f).pending = s.pending := rfl
@[simp] theorem State.onMaps_reg (s : State) (f : FieldMap → FieldMap) (q : Reg) :
    (s.onMaps f).reg q = s.reg q := rfl
@[simp] theorem State.onMaps_fld (s : State) (f : FieldMap → FieldMap) (q : Field) :
    (s.onMaps f).fld q = s.fld q := rfl
@[simp] theorem State.onMaps_flag (s : State) (f : FieldMap → FieldMap) (q : Field) :
    (s.onMaps f).flag q = s.flag q := rfl

/-! ### State.onJob -/

@[simp] theorem State.onJob_now (s : State) (seq : Nat) (f : RowJob → RowJob) : (s.onJob seq f).now = s.now := rfl
@[simp] theorem State.onJob_ccyc (s : State) (seq : Nat) (f : RowJob → RowJob) :
    (s.onJob seq f).ccyc = s.ccyc := rfl
@[simp] theorem State.onJob_crem (s : State) (seq : Nat) (f : RowJob → RowJob) :
    (s.onJob seq f).crem = s.crem := rfl
@[simp] theorem State.onJob_regs (s : State) (seq : Nat) (f : RowJob → RowJob) :
    (s.onJob seq f).regs = s.regs := rfl
@[simp] theorem State.onJob_fuse (s : State) (seq : Nat) (f : RowJob → RowJob) :
    (s.onJob seq f).fuse = s.fuse := rfl
@[simp] theorem State.onJob_mram (s : State) (seq : Nat) (f : RowJob → RowJob) :
    (s.onJob seq f).mram = s.mram := rfl
@[simp] theorem State.onJob_stept (s : State) (seq : Nat) (f : RowJob → RowJob) :
    (s.onJob seq f).stept = s.stept := rfl
@[simp] theorem State.onJob_intake (s : State) (seq : Nat) (f : RowJob → RowJob) :
    (s.onJob seq f).intake = s.intake := rfl
@[simp] theorem State.onJob_jrnl (s : State) (seq : Nat) (f : RowJob → RowJob) :
    (s.onJob seq f).jrnl = s.jrnl := rfl
@[simp] theorem State.onJob_intr (s : State) (seq : Nat) (f : RowJob → RowJob) :
    (s.onJob seq f).intr = s.intr := rfl
@[simp] theorem State.onJob_bel (s : State) (seq : Nat) (f : RowJob → RowJob) : (s.onJob seq f).bel = s.bel := rfl
@[simp] theorem State.onJob_mgmt (s : State) (seq : Nat) (f : RowJob → RowJob) :
    (s.onJob seq f).mgmt = s.mgmt := rfl
@[simp] theorem State.onJob_sec (s : State) (seq : Nat) (f : RowJob → RowJob) : (s.onJob seq f).sec = s.sec := rfl
@[simp] theorem State.onJob_pwr (s : State) (seq : Nat) (f : RowJob → RowJob) : (s.onJob seq f).pwr = s.pwr := rfl
@[simp] theorem State.onJob_trng (s : State) (seq : Nat) (f : RowJob → RowJob) :
    (s.onJob seq f).trng = s.trng := rfl
@[simp] theorem State.onJob_ports (s : State) (seq : Nat) (f : RowJob → RowJob) :
    (s.onJob seq f).ports = s.ports := rfl
@[simp] theorem State.onJob_boot (s : State) (seq : Nat) (f : RowJob → RowJob) :
    (s.onJob seq f).boot = s.boot := rfl
@[simp] theorem State.onJob_plan (s : State) (seq : Nat) (f : RowJob → RowJob) :
    (s.onJob seq f).plan = s.plan := rfl
@[simp] theorem State.onJob_ex (s : State) (seq : Nat) (f : RowJob → RowJob) : (s.onJob seq f).ex = s.ex := rfl
@[simp] theorem State.onJob_slog (s : State) (seq : Nat) (f : RowJob → RowJob) :
    (s.onJob seq f).slog = s.slog := rfl
@[simp] theorem State.onJob_dig (s : State) (seq : Nat) (f : RowJob → RowJob) : (s.onJob seq f).dig = s.dig := rfl
@[simp] theorem State.onJob_sites (s : State) (seq : Nat) (f : RowJob → RowJob) :
    (s.onJob seq f).sites = s.sites := rfl
@[simp] theorem State.onJob_spare (s : State) (seq : Nat) (f : RowJob → RowJob) :
    (s.onJob seq f).spare = s.spare := rfl
@[simp] theorem State.onJob_mesh (s : State) (seq : Nat) (f : RowJob → RowJob) :
    (s.onJob seq f).mesh = s.mesh := rfl
@[simp] theorem State.onJob_mports (s : State) (seq : Nat) (f : RowJob → RowJob) :
    (s.onJob seq f).mports = s.mports := rfl
@[simp] theorem State.onJob_mem (s : State) (seq : Nat) (f : RowJob → RowJob) : (s.onJob seq f).mem = s.mem := rfl
@[simp] theorem State.onJob_ocu (s : State) (seq : Nat) (f : RowJob → RowJob) : (s.onJob seq f).ocu = s.ocu := rfl
@[simp] theorem State.onJob_emitted (s : State) (seq : Nat) (f : RowJob → RowJob) :
    (s.onJob seq f).emitted = s.emitted := rfl
@[simp] theorem State.onJob_fresh (s : State) (seq : Nat) (f : RowJob → RowJob) :
    (s.onJob seq f).fresh = s.fresh := rfl
@[simp] theorem State.onJob_hwSets (s : State) (seq : Nat) (f : RowJob → RowJob) :
    (s.onJob seq f).hwSets = s.hwSets := rfl
@[simp] theorem State.onJob_swSets (s : State) (seq : Nat) (f : RowJob → RowJob) :
    (s.onJob seq f).swSets = s.swSets := rfl
@[simp] theorem State.onJob_pending (s : State) (seq : Nat) (f : RowJob → RowJob) :
    (s.onJob seq f).pending = s.pending := rfl
@[simp] theorem State.onJob_reg (s : State) (seq : Nat) (f : RowJob → RowJob) (q : Reg) :
    (s.onJob seq f).reg q = s.reg q := rfl
@[simp] theorem State.onJob_fld (s : State) (seq : Nat) (f : RowJob → RowJob) (q : Field) :
    (s.onJob seq f).fld q = s.fld q := rfl
@[simp] theorem State.onJob_flag (s : State) (seq : Nat) (f : RowJob → RowJob) (q : Field) :
    (s.onJob seq f).flag q = s.flag q := rfl

/-! ### Parts of a record that an update reaches into -/

@[simp] theorem State.onChain_chain (s : State) (f : ChainSt → ChainSt) : (s.onChain f).ex.chain = f s.ex.chain := rfl
@[simp] theorem State.onChain_cores (s : State) (f : ChainSt → ChainSt) : (s.onChain f).ex.cores = s.ex.cores := rfl
@[simp] theorem State.onCore_cores (s : State) (node : Nat) (f : CoreSt → CoreSt) :
    (s.onCore node f).ex.cores = s.ex.cores.map fun c => if c.node == node then f c else c := rfl
@[simp] theorem State.onCore_chain (s : State) (node : Nat) (f : CoreSt → CoreSt) :
    (s.onCore node f).ex.chain = s.ex.chain := rfl
@[simp] theorem State.onOrder_orders (s : State) (seq : Nat) (f : Order → Order) :
    (s.onOrder seq f).intake.orders = s.intake.orders.map fun o => if o.seq == seq then f o else o := rfl
@[simp] theorem State.onOrder_slots (s : State) (seq : Nat) (f : Order → Order) :
    (s.onOrder seq f).intake.slots = s.intake.slots := rfl

end Sys2Proof.Machine
end

