-- ==== Sys2Proof/Laws/Ops.lean ====
section
/-! SUPPORT. What the shared operations under every meaning can do: a command that is due and one that is not, register
accesses, management commands, free values, saturating counters, and taking a command from the queue. -/

namespace Sys2Proof.Machine

/-! ## What time leaves alone -/

@[simp] theorem State.cUp_tick (s : State) (t : Nat) : (s.tick t).cUp = s.cUp := rfl
@[simp] theorem State.mUp_tick (s : State) (t : Nat) : (s.tick t).mUp = s.mUp := rfl
@[simp] theorem State.dmcUp_tick (s : State) (t : Nat) : (s.tick t).dmcUp = s.dmcUp := rfl
@[simp] theorem State.mctpUp_tick (s : State) (t : Nat) : (s.tick t).mctpUp = s.mctpUp := rfl
@[simp] theorem State.hostUp_tick (s : State) (t : Nat) : (s.tick t).hostUp = s.hostUp := rfl
@[simp] theorem State.reach_tick (s : State) (t : Nat) (p : Port) (r : Reg) : (s.tick t).reach p r = s.reach p r := rfl
@[simp] theorem State.planOn_tick (s : State) (t : Nat) : (s.tick t).planOn = s.planOn := rfl
@[simp] theorem State.sweeping_tick (s : State) (t : Nat) : (s.tick t).sweeping = s.sweeping := rfl
@[simp] theorem State.core_tick (s : State) (t node : Nat) : (s.tick t).core node = s.core node := rfl
@[simp] theorem State.mport_tick (s : State) (t p : Nat) : (s.tick t).mport p = s.mport p := rfl
@[simp] theorem State.site_tick (s : State) (t i : Nat) : (s.tick t).site i = s.site i := rfl

/-- Time does not run back. -/
theorem State.now_le_tick (s : State) (t : Nat) : s.now ≤ (s.tick t).now := Nat.le_max_left _ _

/-! ## Commands that are due and that are not (log 2) -/

/-- Whatever the condition, a row gives a next state: the effect, or the passing of time alone. -/
theorem State.when_next (s : State) (t : Nat) (c : State → Bool) (f : State → State) :
    s.when t c f = .next (if c (s.tick t) then f (s.tick t) else s.tick t) := rfl

theorem State.when_due {s : State} {t : Nat} {c : State → Bool} {f : State → State} (h : c (s.tick t) = true) :
    s.when t c f = .next (f (s.tick t)) := by simp [State.when_next, h]

theorem State.when_not_due {s : State} {t : Nat} {c : State → Bool} {f : State → State} (h : c (s.tick t) = false) :
    s.when t c f = .next (s.tick t) := by simp [State.when_next, h]

/-- A property that time keeps and the effect keeps holds of whatever a row answers. -/
theorem State.when_keeps {P : State → Prop} {s u : State} {t : Nat} {c : State → Bool} {f : State → State}
    (ht : P (s.tick t)) (hf : c (s.tick t) = true → P (f (s.tick t))) (h : s.when t c f = .next u) : P u := by
  rw [State.when_next] at h
  cases h
  split
  · exact hf ‹_›
  · exact ht

theorem State.access_reached {s : State} {t : Nat} {a : RegAcc} {r : Reg} {f : State → State}
    (h : s.reach a.port r = true) : s.access t a r f = .next (f (s.tick t)) := State.when_due h

theorem State.access_not_reached {s : State} {t : Nat} {a : RegAcc} {r : Reg} {f : State → State}
    (h : s.reach a.port r = false) : s.access t a r f = .next (s.tick t) := State.when_not_due h

theorem State.keazia_up {s : State} {t : Nat} {f : State → State} (h : s.mctpUp = true) (hd : s.dmcUp = true) :
    s.keazia t f = .next (f (s.tick t)) := by
  rw [State.keazia, State.when_due (by simpa using h)]
  simp [hd]

theorem State.keazia_rom {s : State} {t : Nat} {f : State → State} (h : s.mctpUp = true) (hd : s.dmcUp = false) :
    s.keazia t f = .next ((s.tick t).emit (.mgmtReply 3 [])) := by
  rw [State.keazia, State.when_due (by simpa using h)]
  simp [hd]

/-! ## Free values and counters -/

theorem State.freshVal_eq (s : State) : s.freshVal = (Config.freeValue s.fresh, { s with fresh := s.fresh + 1 }) := rfl

/-- A saturating counter stays in its field. -/
theorem satAdd_lt (w a b : Nat) : satAdd w a b < 2 ^ w := by
  unfold satAdd
  have : 0 < 2 ^ w := Nat.two_pow_pos w
  omega

/-! ## One site, port, core or order changed -/

theorem State.site_onSite {s : State} {i : Nat} (f : SiteSt → SiteSt) (h : i < s.sites.length) :
    (s.onSite i f).site i = f (s.site i) := by
  simp [State.site, List.getD_eq_getElem?_getD, h]

theorem State.site_onSite_ne (s : State) {i k : Nat} (f : SiteSt → SiteSt) (h : k ≠ i) :
    (s.onSite i f).site k = s.site k := by
  simp [State.site, List.getD_eq_getElem?_getD, Ne.symm h]

theorem State.mport_onMport {s : State} {p : Nat} (f : MPort → MPort) (h : p < s.mports.length) :
    (s.onMport p f).mport p = f (s.mport p) := by
  simp [State.mport, List.getD_eq_getElem?_getD, h]

theorem State.mport_onMport_ne (s : State) {p k : Nat} (f : MPort → MPort) (h : k ≠ p) :
    (s.onMport p f).mport k = s.mport k := by
  simp [State.mport, List.getD_eq_getElem?_getD, Ne.symm h]

/-- A change to a core that leaves its node shows where that core is looked up, and nowhere else. -/
theorem State.core_onCore (s : State) (node n : Nat) {f : CoreSt → CoreSt} (hf : ∀ c, (f c).node = c.node) :
    (s.onCore node f).core n = (s.core n).map fun c => if n = node then f c else c := by
  simp only [State.core, State.onCore_cores]
  have key : ∀ c : CoreSt, (if (c.node == node) = true then f c else c).node = c.node := by
    intro c; split
    · exact hf c
    · rfl
  induction s.ex.cores with
  | nil => rfl
  | cons c cs ih =>
    rw [List.map_cons, List.find?_cons, List.find?_cons, key]
    by_cases hn : c.node = n
    · subst hn; simp
    · rw [show (c.node == n) = false by simpa using hn]; exact ih

/-! ## The queue -/

theorem step_idle {s : State} (h : s.pending = []) : step s = .next s := by simp [step, h]

theorem step_front (c : Instr) (rest : List Instr) (s : State) :
    step { s with pending := c :: rest } = exec c { s with pending := rest } := rfl

end Sys2Proof.Machine
end

