-- ==== Sys2Proof/Tests/Slice0.lean ====
section
/-! SUPPORT. Tests: worked examples of the spec, the well-formedness smoke test, and for every statement with hypotheses
the states and operands that meet them, clause by clause (`wit_<Statement>`). -/

namespace Sys2Proof.Tests

set_option Elab.async false
open Sys2Proof.Machine

/-! ## Worked examples of the spec -/

/-- The bytes of "123456789" (R234). -/
def nine : List Byte := [0x31, 0x32, 0x33, 0x34, 0x35, 0x36, 0x37, 0x38, 0x39]

/-- CHECK of the four polynomials (R234). -/
theorem test_check_values :
    (List.range 4).map (fun k => crc (crcOfPoly k) nine) =
      [0xE3069283, 0xCBF43926, 0x6C40DF5F0B497347, 0x29B1] := by decide +kernel

/-- Shift-combining gives the check value of the whole (R235). -/
theorem test_combine : crcOut crc32c (crcCombine crc32c (crcRun crc32c crc32c.init (nine.take 4))
    (crcRun crc32c crc32c.init (nine.drop 4)) 5) = 0xE3069283 := by decide +kernel

/-- A paired move: U = 0xB0000000 among 8 members from position 3 proposes position 5, and e = 0.75 accepts t = −0.5
(chapter 05). -/
theorem test_paired_move : pairPick 8 3 0xB0000000 = 5 ∧ expAccepts 0x3F400000 0xBF000000 = true := by decide +kernel

/-- The stuck offset grows by 0.5 up to 1.5 and halves (chapter 05). -/
theorem test_stuck_offset : grown 0 0x3F000000 0x3FC00000 = 0x3F000000 ∧
    grown 0x3F000000 0x3F000000 0x3FC00000 = 0x3F800000 ∧ decayed 0x3F800000 1 = 0x3F000000 := by decide +kernel

/-- Blocks closed at 4, 7, 10 and 13, the first with two re-drains, are presented at 15 to 18 (chapter 06). -/
theorem test_presentation : presentAt 4 [] 2 = 15 ∧ presentAt 7 [15] 0 = 16 ∧ presentAt 10 [16, 15] 0 = 17 ∧
    presentAt 13 [17, 16, 15] 0 = 18 := by decide +kernel

/-- The fill of that example: lanes of 70,000.5, 1.375 and 3 × 2^−25 under FP16 and SCALE 2.0 drain at SHIFT 2. -/
theorem test_redrain :
    let o := drainSampler PlanData.empty ⟨0, 0, 2, 0, 0, 0, 0x40000000, 0, 0, 0xFFFFFFFF⟩
      [(.fin (140001 / 2), true, 0), (.fin (11 / 8), true, 0), (.fin (3 / 2 ^ 25), true, 0)]
    o.shift = 2 ∧ o.outs = [0x7846, 0x3980, 1] ∧ o.sticky = 0 := by decide +kernel

/-- Partials 2^110, 2^40, 2^−20 and −2^110 reduce to the pair (2^40, 2^−20) over sixteen leaves (chapter 06). -/
theorem test_reduction :
    treeReduce combine (0, 0) 16 ([(0x46D0000000000000, 0), (0x4270000000000000, 0), (0x3EB0000000000000, 0),
      (0xC6D0000000000000, 0)] ++ List.replicate 12 (0, 0)) = (0x4270000000000000, 0x3EB0000000000000) := by
  decide +kernel

/-- U = 0xC0000000 draws the FP32 value nearest ln 3 (chapter 07). -/
theorem test_logistic_draw : tableDraw .logistic 0xC0000000 = 0x3F8C9F54 := by decide +kernel

/-- From corner to corner a routed transfer takes 54 hops and 60 cycles (chapter 01). -/
theorem test_corner_to_corner : (State.reset.route 0 719).length = 55 ∧
    (State.reset.pathLinks 0 (State.reset.route 0 719)).2 = 60 := by decide +kernel

/-- No row of the table has bits, so no word spells a command. -/
theorem test_no_bits : decodeTableWord 64 0 = none ∧ (State.reset.withFetchWord 64 0).pending = [] := by decide +kernel

/-! ## Ill-formed commands, one for each check -/

/-- Commands with an operand just past its range. -/
def illFormed : List Instr :=
  [.intakeSlotWrite 0 4096 0 [], .intakeSlotWrite 0 0 4096 [0], .sealTimeout 0 4096, .orderAcceptance 0 ⟨4096, []⟩,
   .orderAcceptance 0 ⟨0, [⟨32, 0, .ok⟩]⟩, .gather 0 0 (.parity false 9 0 0), .mac 0 0 (.parity false 0 8 0),
   .drain 0 0 (.parity false 0 0 10), .islandMonitor 0 720 true, .hopInject 0 0 720, .hopDelivery 0 0 (some 720),
   .freeSlotPacket 0 0 720 ⟨false, []⟩ ⟨2, none⟩, .freeSlotPacket 0 0 0 ⟨false, [720]⟩ ⟨2, none⟩,
   .freeSlotPacket 0 0 0 ⟨false, [0]⟩ ⟨2, some 720⟩, .creditReturn 0 720 0, .creditReturn 0 0 4, .freeSlotAck 0 0 ⟨720, none⟩,
   .freeSlotAck 0 0 ⟨0, some 720⟩, .mportRequest 0 32 0 false 0 1 [], .mportRequest 0 0 0 true 19327352832 0 [0],
   .mportRequest 0 16 0 false 34359738368 1 [], .mportAdmit 0 32 [], .mportAdmit 0 0 [⟨0, 2 ^ 40, .ok⟩],
   .mportReadDelivery 0 32 [], .mportReadDelivery 0 0 [⟨32, 0, .ok⟩], .mportWriteAck 0 32, .mergeEntryClose 0 32,
   .scrubRead 0 32 .ok, .atomicAdd 0 32 0 0 [], .atomicAdd 0 0 0 0 [⟨32, 0, .ok⟩], .freeSlotRequest 0 32 false 0 1 [] [],
   .freeSlotRequest 0 0 false 0 1 [] [⟨32, 0, .ok⟩]]

/-- More of them. -/
def illFormedMore : List Instr :=
  [.journalFrameSend 0 2, .journalAck 0 2 [], .journalCredit 0 2 [], .journalLinkUp 0 2, .trainReply 0 2 [],
   .replay 0 2 [], .journalAckTimeout 0 2, .journalLossOfLight 0 2, .hostReadCompletion 0 0 0 [] 5,
   .bar0BadAccess 0 .host false 67108864, .registerWrite 0 67108864 ⟨.host, .whole, 0⟩, .registerWrite 0 4 ⟨.host, .whole, 0⟩,
   .laneFailed 0 0 18, .laneFailed 0 5 0, .i3cDynamicAddress 0 false 128, .setEndpointId 0 256, .slotWrite 0 4096 0 [],
   .slotWrite 0 0 4096 [0], .quote 0 [], .keyList 0 16, .setTid 0 256, .setEventReceiver 0 256, .powerManagerAdjust 0 17,
   .powerManagerAdjust 0 (-17), .thermalThrottle 0 0 255, .thermalThrottle 0 0 1025, .pllLock 0 [6] [], .pllLock 0 [] [6],
   .startUpSelfTest 0 [720] [] [] [], .startUpSelfTest 0 [] [720] [] [], .startUpSelfTest 0 [] [] [(720, 0)] [],
   .startUpSelfTest 0 [] [] [] [(720, true, 0)], .startUpSelfTest 0 [] [] [] [(0, true, 9)], .memoryTraining 0 [32],
   .opticalBringUp 0 [(4, 2)], .noiseSample 0 16 true, .conditionedBlock 0 [], .belfryEvent 0 65536 0 .host false false,
   .msixUnmask 0 (.vector 64 false), .hostLinkUp 0 0 true, .hostLinkUp 0 4 true, .pllSwitch 0 6,
   .planLoad 0 ⟨0, [⟨32, 0, .ok⟩]⟩, .sync 0 4816 ⟨true, none⟩, .sync 0 0 ⟨true, some 720⟩, .boundaryActions 0 ⟨true, [8]⟩,
   .bar2Read 0 0 0 [⟨32, 0, .ok⟩], .bar2Write 0 0 ⟨[], [⟨32, 0, .ok⟩]⟩]

theorem test_ill_formed : (illFormed ++ illFormedMore).all (fun i => !i.wf) = true := by decide +kernel

/-- Commands at the edge of their ranges are well formed. -/
theorem test_well_formed : ([.intakeSlotWrite 0 4095 4095 [0], .islandMonitor 0 719 true, .freeSlotAck 0 0 ⟨719, some 719⟩,
    .mportRequest 0 31 0 false 34359738364 4 [], .laneFailed 0 0 17, .thermalThrottle 0 0 1024, .sync 0 4815 ⟨true, none⟩,
    .hostLinkUp 0 3 true] : List Instr).all Instr.wf = true := by decide +kernel

/-! ## The queue -/

/-- A command that waits on the device after reset. -/
def oneWaits : State := { State.reset with pending := [.getTid 5] }

theorem test_step_takes_the_front : ∃ s, step oneWaits = .next s ∧ s.pending = [] := ⟨_, rfl, by decide +kernel⟩
theorem test_idle : step State.reset = .next State.reset := rfl

theorem wit_StepKeepsWhole : oneWaits.whole = true ∧ ∃ s, step oneWaits = .next s := ⟨by decide +kernel, _, rfl⟩
theorem wit_StepKeepsIdentity : oneWaits.whole = true ∧ oneWaits.pending = .getTid 5 :: [] ∧
    ∃ s, step oneWaits = .next s := ⟨by decide +kernel, rfl, _, rfl⟩

/-! ## Small states -/

/-- Register fields given values, in turn. -/
def State.withFlds (s : State) (l : List (Field × Nat)) : State := l.foldl (fun s x => s.setFld x.1 x.2) s

/-- A device that has started, its host link up, with nothing in hand. -/
def up : State :=
  { State.withFlds State.reset [(Fld.DEV_BOOT_STAGE, 7), (Fld.DEV_STAT_READY, 1), (Fld.HOST_LINK_RATE, 3),
      (Fld.HOST_LINK_WIDTH, 16)] with
    pwr := { PwrSt.reset with rails := true }
    boot := { BootSt.reset with entropyDone := true, stage6 := true, resetting := none }
    ports := { PortSt.reset with busMaster := true, trained := true } }

/-- A whole-register access of the host, and of the management port. -/
def hostWrites (v : Nat) : RegAcc := ⟨.host, .whole, BitVec.ofNat 64 v⟩
def mgmtWrites (v : Nat) : RegAcc := ⟨.mgmt, .whole, BitVec.ofNat 64 v⟩

/-- An accepted order with bytes `raw`. -/
def anOrder (seq : Nat) (raw : List Byte) : Order :=
  ⟨seq, .accepted, raw, none, 0, 0, .host, 0, 0, 0, none, none, none, false, none, true, none⟩

/-- The bytes of an order: opcode, BULK, body. -/
def orderBytes (op bulk : Nat) (body : List Byte) : List Byte :=
  natLe op 1 ++ natLe bulk 1 ++ natLe body.length 2 ++ zeros 60 ++ body

/-- A state whose only accepted order is one with SEQ 9. -/
def State.withOrder (s : State) (o : Order) : State := { s with intake := { s.intake with orders := [o] } }

/-- The bytes of a sealed slot: an order with its SEQ, CRC-32C over it, zeros. -/
def slotBytes (seq op : Nat) (body : List Byte) : List Byte :=
  let b := natLe op 1 ++ natLe 0 1 ++ natLe body.length 2 ++ zeros 4 ++ natLe seq 8 ++ zeros 48 ++ body
  let b := b ++ natLe (seq % 2 ^ 32) 4 ++ natLe (crc crc32c b) 4
  b ++ zeros (4096 - b.length)

/-- Intake is on, with one slot in use. -/
def State.withSlot (s : State) (x : Slot) : State :=
  let s := s.setFlag Fld.INTAKE_CTL_ENABLE true
  { s with intake := { s.intake with slots := [x] } }

/-- A plan of one binary variable, one replica and one sweep a step. -/
def tinyPlan : PlanData :=
  { PlanData.empty with targetM := 1, sweeps := 1, nVars := 1, runs := [⟨0, 1, 0, 1, 0, 0⟩],
                        anneal := { AnnealP.empty with mults := [0x3F800000] } }

/-- It is loaded and its chain seeded. -/
def planned : State :=
  { State.withFlds up [(Fld.DEV_STAT_PLAN_LOADED, 1), (Fld.STRM_SEED_INFO_SEEDED, 1)] with
    plan := { PlanSt.reset with data := tinyPlan, digest := zeros 64 }
    ex := { up.ex with chain := { up.ex.chain with vals := [0] } } }

theorem wit_HoursCountTicksAlone :
    (up.pwr.auxGood = true) ∧
    (up.mram.hours + 1 < 2 ^ 40) := by decide +kernel

theorem wit_PlainRegisterWrite :
    ((Reg.SEL_CORE ∈ plainRegs) ∧
     (up.reachOff (hostWrites 8483).port Reg.SEL_CORE.offset = true)) ∧
    ((Reg.SPARE_SEL ∈ plainRegs) ∧
     (up.reachOff (mgmtWrites 4886718345).port Reg.SPARE_SEL.offset = true)) ∧
    ((up.reachOff (hostWrites 4886718345).port Reg.HOST_WIN.offset = true)) :=
  ⟨by decide +kernel,
   by decide +kernel,
   by decide +kernel⟩

theorem wit_IgnoredAndBadAccesses :
    ((Reg.DEV_CAPS ∈ Reg.all) ∧
     (∀ f ∈ Reg.DEV_CAPS.layout, f.acc = Access.ro) ∧
     (Reg.DEV_CAPS.offset < 851968 ∨ 917504 ≤ Reg.DEV_CAPS.offset) ∧
     (up.reachOff (hostWrites 281474976710655).port Reg.DEV_CAPS.offset = true)) ∧
    ((Reg.STEP_NOW ∈ Reg.all) ∧
     (∀ f ∈ Reg.STEP_NOW.layout, f.acc = Access.ro) ∧
     (Reg.STEP_NOW.offset < 851968 ∨ 917504 ≤ Reg.STEP_NOW.offset) ∧
     (up.reachOff (hostWrites 281474976710655).port Reg.STEP_NOW.offset = true)) ∧
    ((Reg.ofOffset 821240 = none) ∧
     (821240 % 8 = 0) ∧
     (821240 < 819200 ∨ 820224 ≤ 821240) ∧
     (821240 < 851968 ∨ 917504 ≤ 821240) ∧
     (up.reachOff (hostWrites 281474976710655).port 821240 = true)) ∧
    ((Reg.ofOffset 67576 = none) ∧
     (67576 % 8 = 0) ∧
     (67576 < 819200 ∨ 820224 ≤ 67576) ∧
     (67576 < 851968 ∨ 917504 ≤ 67576) ∧
     (up.reachOff (hostWrites 281474976710655).port 67576 = true)) ∧
    ((12 < 2 ^ 26) ∧
     (up.reachOff Port.host 12 = true)) ∧
    ((67108863 < 2 ^ 26) ∧
     (up.reachOff Port.mgmt 67108863 = true)) :=
  ⟨by decide +kernel,
   by decide +kernel,
   by decide +kernel,
   by decide +kernel,
   by decide +kernel,
   by decide +kernel⟩

/-- The compute die is still down. -/
def computeDown : State := up.setFld Fld.DEV_BOOT_STAGE 2

/-- The boot ROM runs. -/
def romRuns : State := up.setFld Fld.DEV_BOOT_STAGE 0

theorem wit_ManagementRegisterCommands :
    ((up.mctpUp = true) ∧
     (up.dmcUp = true) ∧
     (Reg.SEL_MPORT ∈ plainRegs) ∧
     (up.reachOff Port.mgmt Reg.SEL_MPORT.offset = true)) ∧
    ((up.mctpUp = true) ∧
     (up.dmcUp = true) ∧
     (2 ^ 26 ≤ 67108864)) ∧
    ((computeDown.mctpUp = true) ∧
     (computeDown.dmcUp = true) ∧
     (65536 < 2 ^ 26) ∧
     (65536 % 8 = 0) ∧
     (computeDown.reachOff Port.mgmt 65536 = false)) ∧
    ((romRuns.mctpUp = true) ∧
     (romRuns.dmcUp = false)) :=
  ⟨by decide +kernel,
   by decide +kernel,
   by decide +kernel,
   by decide +kernel⟩

/-- Causes are set, and every MSI-X vector is unmasked. -/
def causes : State :=
  { State.withFlds up [(Fld.INT_STAT_CAUSE, 0x13), (Fld.INT_ENABLE_ENABLE, 0x24)] with
    intr := { IntrSt.reset with enable := true, table := List.replicate 64 ⟨16, 7, false⟩ } }

theorem wit_IntStatAndEnable :
    ((causes.reach (hostWrites 17).port Reg.INT_STAT = true)) ∧
    ((causes.reach (hostWrites 3).port Reg.INT_ENABLE = true) ∧
     (accField (hostWrites 3) Fld.INT_ENABLE_ENABLE = some 3)) :=
  ⟨by decide +kernel,
   by decide +kernel⟩

/-- The function mask is set too. -/
def masked : State := { causes with intr := { causes.intr with functionMask := true } }

theorem wit_IntSetAndMessages :
    ((causes.reach (hostWrites 48).port Reg.INT_SET = true) ∧
     (accField (hostWrites 48) Fld.INT_SET_SET = some 48)) ∧
    ((5 < 16) ∧
     (causes.reach (hostWrites 32).port Reg.INT_SET = true) ∧
     (accField (hostWrites 32) Fld.INT_SET_SET = some (2 ^ 5)) ∧
     ((causes.fld Fld.INT_STAT_CAUSE).testBit 5 = false) ∧
     ((causes.fld Fld.INT_ENABLE_ENABLE).testBit 5 = true) ∧
     (causes.intr.table[5]? = some { addr := 16, data := 7, masked := false : Msix })) ∧
    ((causes.reach (hostWrites 19).port Reg.INT_SET = true) ∧
     (accField (hostWrites 19) Fld.INT_SET_SET = some 19)) ∧
    ((5 < 16) ∧
     (masked.reach (hostWrites 32).port Reg.INT_SET = true) ∧
     (accField (hostWrites 32) Fld.INT_SET_SET = some (2 ^ 5)) ∧
     ((masked.fld Fld.INT_STAT_CAUSE).testBit 5 = false) ∧
     ((masked.fld Fld.INT_ENABLE_ENABLE).testBit 5 = true) ∧
     (masked.intr.table[5]? = some { addr := 16, data := 7, masked := false : Msix })) :=
  ⟨by decide +kernel,
   by decide +kernel,
   by decide +kernel,
   by decide +kernel⟩

/-- A moderation timer of 500 cycles runs since cycle 100. -/
def moderating : State := { causes with intr := { causes.intr with u := 3, timer := some 100, modTime := 500 } }

theorem wit_ReceiptModeration :
    ((up.reach (hostWrites 48).port Reg.INT_MOD = true)) ∧
    ((moderating.cUp = true) ∧
     (moderating.intr.u ≠ 0) ∧
     (moderating.intr.timer = some 100) ∧
     (moderating.intr.modTime ≠ 0)) :=
  ⟨by decide +kernel,
   by decide +kernel⟩

/-- Vector 5 is masked and pends. -/
def pends : State := { causes with intr := { causes.intr with table := causes.intr.table.set 5 ⟨1, 2, true⟩, pba := 32 } }

theorem wit_MsixUnmask :
    ((pends.cUp = true) ∧
     (5 < 16) ∧
     (pends.intr.table[5]? = some { addr := 1, data := 2, masked := true : Msix }) ∧
     (pends.intr.enable = true) ∧
     (pends.intr.functionMask = false) ∧
     (pends.intr.pba.testBit 5 = true) ∧
     (∀ i < 16,
        i ≠ 5 →
          pends.intr.pba.testBit i = true → Option.all (fun x => x.masked) pends.intr.table[i]? = true)) ∧
    ((causes.cUp = true) ∧
     (causes.intr.table[63]? = some { addr := 16, data := 7, masked := false : Msix }) ∧
     (63 < 64) ∧
     (causes.intr.pba = 0)) ∧
    ((pends.cUp = true)) ∧
    ((64 ≤ 64)) :=
  ⟨by decide +kernel,
   by decide +kernel,
   by decide +kernel,
   by decide +kernel⟩

/-- Auxiliary power is missing. -/
def noAux : State := { up with pwr := { up.pwr with auxGood := false } }

theorem wit_EventFrame :
    ((causes.pwr.auxGood = true)) ∧
    ((noAux.pwr.auxGood = false)) :=
  ⟨by decide +kernel,
   by decide +kernel⟩

/-- A run of steps 4 to 9 whose next step is 4, and the MARK that came for it. -/
def theRun : RunSt := ⟨9, 4, 9, 4, 20, false⟩

/-- A mark that has been received. -/
def theMark : Mark := ⟨false, 4, 0, 8, 4, 100000, 30, 100, false, 120, true⟩

/-- Two marks wait to be applied in a run, the first of a step gone by or to come. -/
def pending (k : Nat) : State := { up with stept := { up.stept with run := some theRun, marks := [{ theMark with applyAt := 700 }, { theMark with step := k }], instant := some (4, 50) } }

theorem wit_UnlimitedCodesRecorded :
    ((32769 ∈ [32769, 32770, 32776, 32777, 32778, 36865, 36867, 36868]) ∧
     (up.pwr.auxGood = true) ∧
     ((up.tick 5).refillFirst.logLost = false) ∧
     ((up.tick 5).refillFirst.bel.pending.length < 256)) ∧
    ((36868 ∈ [32769, 32770, 32776, 32777, 32778, 36865, 36867, 36868]) ∧
     ((up.setFlag Fld.BELFRY_CTL_FREEZE true).pwr.auxGood = true) ∧
     (((up.setFlag Fld.BELFRY_CTL_FREEZE true).tick 5).refillFirst.logLost = false) ∧
     (((up.setFlag Fld.BELFRY_CTL_FREEZE true).tick 5).refillFirst.bel.pending.length < 256)) :=
  ⟨by decide +kernel,
   by decide +kernel⟩

/-- The DMC is down. -/
def dmcDown : State := { up with sec := { up.sec with dmcDown := true } }

/-- The bucket of 0x1002 is empty. -/
def emptied : State := { up with bel := { up.bel with buckets := [⟨0x1002, 0, 3, 0⟩] } }

theorem wit_EventsSpendTokens :
    ((4098 ∉ unlimitedCodes) ∧
     (up.pwr.auxGood = true) ∧
     ((up.tick 5).refillFirst.logLost = false) ∧
     ((up.tick 5).refillFirst.flag Fld.BELFRY_CTL_FREEZE = false) ∧
     ((up.tick 5).refillFirst.sec.dmcDown = false) ∧
     ((up.tick 5).refillFirst.fld Fld.BELFRY_TOTAL_TOTAL + 1 < 2 ^ Fld.BELFRY_TOTAL_TOTAL.w)) ∧
    ((4098 ∉ unlimitedCodes) ∧
     (emptied.pwr.auxGood = true) ∧
     ((emptied.tick 5).refillFirst.logLost = false) ∧
     ((emptied.tick 5).refillFirst.flag Fld.BELFRY_CTL_FREEZE = false) ∧
     ((emptied.tick 5).refillFirst.sec.dmcDown = false) ∧
     ((emptied.tick 5).refillFirst.fld Fld.BELFRY_TOTAL_TOTAL + 1 < 2 ^ Fld.BELFRY_TOTAL_TOTAL.w)) :=
  ⟨by decide +kernel,
   by decide +kernel⟩

/-- A refill is due over a bucket with two tokens. -/
def refills : State := { up with
  mram := { up.mram with hours := 100 }, bel := { up.bel with buckets := [⟨0x1002, 2, 0, 0⟩], refillTick := 20 } }

theorem wit_RefillBuckets :
    ((refills.pwr.auxGood = true) ∧
     (refills.bel.refillTick + refills.fld Fld.BELFRY_CTL_RATE_TICKS ≤ refills.mram.hours) ∧
     ((List.map (fun x => x.code) refills.bel.buckets).Nodup) ∧
     (∀ b ∈ refills.bel.buckets, b.suppressed = 0)) ∧
    ((up.mram.hours < up.bel.refillTick + up.fld Fld.BELFRY_CTL_RATE_TICKS)) :=
  ⟨by decide +kernel,
   by decide +kernel⟩

/-- FREEZE is set, one record pends, and nothing has been cleared. -/
def frozen : State := { State.withFlds up [(Fld.BELFRY_CTL_FREEZE, 1), (Fld.BELFRY_CTL_FREEZE_LIMIT, 9), (Fld.BELFRY_STAT_PENDING, 1)] with
  bel := { up.bel with pending := [(up.recordBytes 0x1002 5 0 false .dmc)], freezeTick := 5 }
  mram := { up.mram with hours := 40 } }

/-- A clear waits. -/
def clearing : State := { up with bel := { up.bel with clearKey := some 7 } }

theorem wit_FreezeAndClear :
    ((up.reach (hostWrites 1).port Reg.BELFRY_CTL = true) ∧
     (accField (hostWrites 1) Fld.BELFRY_CTL_FREEZE = some 1)) ∧
    ((frozen.reach (hostWrites 0).port Reg.BELFRY_CTL = true) ∧
     (accField (hostWrites 0) Fld.BELFRY_CTL_FREEZE = some 0) ∧
     (frozen.flag Fld.BELFRY_CTL_FREEZE = true) ∧
     (frozen.bel.clearKey = none) ∧
     (frozen.bel.dropped = 0) ∧
     (frozen.sec.dmcDown = false)) ∧
    ((frozen.pwr.auxGood = true) ∧
     (frozen.flag Fld.BELFRY_CTL_FREEZE = true) ∧
     (frozen.fld Fld.BELFRY_CTL_FREEZE_LIMIT ≠ 0) ∧
     (frozen.freezeEnd < frozen.mram.hours) ∧
     (frozen.bel.clearKey = none) ∧
     (frozen.bel.dropped = 0) ∧
     (frozen.sec.dmcDown = false) ∧
     (frozen.logLost = false)) ∧
    ((clearing.pwr.auxGood = true) ∧
     (clearing.bel.clearKey = some 7) ∧
     (clearing.flag Fld.BELFRY_CTL_FREEZE = false) ∧
     (clearing.logLost = false) ∧
     (clearing.sec.dmcDown = false) ∧
     (clearing.fld Fld.BELFRY_CTL_RATE_TICKS ≠ 0)) :=
  ⟨by decide +kernel,
   by decide +kernel,
   by decide +kernel,
   by decide +kernel⟩

/-- Both copies of LAST hold the same two records. -/
def logged : State :=
  let r := [up.recordBytes 0x1002 5 0 false .dmc, up.recordBytes 0x1003 6 0 false .dmc]
  { State.withFlds up [(Fld.BELFRY_SEL_AREA_AREA, 1), (Fld.BELFRY_STAT_LAST_COUNT, 2)] with
    mram := { up.mram with last0 := r, last1 := r } }

theorem wit_BelfryCapture :
    ((up.reach (hostWrites 0).port Reg.BELFRY_INDEX = true) ∧
     ((up.belfryArea (hostWrites 0).port).2.2 ≤
        BitVec.toNat
            ((up.writeFields (Reg.at (hostWrites 0).port Reg.BELFRY_INDEX) (hostWrites 0)).reg
              (Reg.at (hostWrites 0).port Reg.BELFRY_INDEX)) %
          2 ^ 17)) ∧
    ((logged.reach (hostWrites 1).port Reg.BELFRY_INDEX = true) ∧
     (BitVec.toNat
            ((logged.writeFields (Reg.at (hostWrites 1).port Reg.BELFRY_INDEX) (hostWrites 1)).reg
              (Reg.at (hostWrites 1).port Reg.BELFRY_INDEX)) %
          2 ^ 17 <
        (logged.belfryArea (hostWrites 1).port).2.2) ∧
     (bitsOf (BitVec.toNat (logged.reg (Reg.at (hostWrites 1).port Reg.BELFRY_SEL_AREA))) 1 2 = 0) ∧
     ((logged.belfryArea
              (hostWrites
                  1).port).1[BitVec.toNat
              ((logged.writeFields (Reg.at (hostWrites 1).port Reg.BELFRY_INDEX) (hostWrites 1)).reg
                (Reg.at (hostWrites 1).port Reg.BELFRY_INDEX)) %
            2 ^ 17]? =
        some (up.recordBytes 4099 6 0 false Source.dmc)) ∧
     ((logged.belfryArea
                (hostWrites
                    1).port).2.1[BitVec.toNat
              ((logged.writeFields (Reg.at (hostWrites 1).port Reg.BELFRY_INDEX) (hostWrites 1)).reg
                (Reg.at (hostWrites 1).port Reg.BELFRY_INDEX)) %
            2 ^ 17]? =
        some (up.recordBytes 4099 6 0 false Source.dmc)) ∧
     (recordGood (up.recordBytes 4099 6 0 false Source.dmc) = true) ∧
     (recordGood (up.recordBytes 4099 6 0 false Source.dmc) = true) ∧
     (logged.flag Fld.BELFRY_STAT_COPY0_FAILED = false) ∧
     (logged.flag Fld.BELFRY_STAT_COPY1_FAILED = false)) :=
  ⟨by decide +kernel,
   by decide +kernel⟩

/-- The management port is on I3C. -/
def onI3c : State := up.setFlag Fld.MGMT_STAT_I3C true

theorem wit_MctpControl :
    ((up.pwr.auxGood = true)) ∧
    ((onI3c.pwr.auxGood = true)) ∧
    ((up.mctpUp = true)) :=
  ⟨by decide +kernel,
   by decide +kernel,
   by decide +kernel⟩

/-- A heartbeat period of 3 ticks, begun at cycle 0. -/
def beating : State := up.setFld Fld.MGMT_WDOG_PERIOD 3

theorem wit_HeartbeatAndAlert :
    ((beating.mctpUp = true) ∧
     (beating.dmcUp = true)) ∧
    ((beating.pwr.auxGood = true) ∧
     (beating.fld Fld.MGMT_WDOG_PERIOD ≠ 0) ∧
     (beating.flag Fld.MGMT_STAT_BMC_LOST = false)) ∧
    ((up.reach (mgmtWrites 119).port Reg.MGMT_WDOG = true)) ∧
    ((up.mctpUp = true) ∧
     (up.dmcUp = true)) :=
  ⟨by decide +kernel,
   by decide +kernel,
   by decide +kernel,
   by decide +kernel⟩

theorem wit_SlotWriteAndReceiptGet :
    ((up.mctpUp = true) ∧
     (up.dmcUp = true) ∧
     ((List.replicate 1008 0#8).length < 8 ∨
        1000 < (List.replicate 1008 0#8).length ∨ (List.replicate 1008 0#8).length % 8 ≠ 0)) ∧
    ((up.mctpUp = true) ∧
     (up.dmcUp = true) ∧
     (8 ≤ (List.replicate 8 0#8).length) ∧
     ((List.replicate 8 0#8).length ≤ 1000) ∧
     ((List.replicate 8 0#8).length % 8 = 0) ∧
     (4096 ≤ 4096 ∨ 4096 < 0 + (List.replicate 8 0#8).length)) ∧
    ((up.mctpUp = true) ∧
     (up.dmcUp = true) ∧
     (8 ≤ (List.replicate 8 0#8).length) ∧
     ((List.replicate 8 0#8).length ≤ 1000) ∧
     ((List.replicate 8 0#8).length % 8 = 0) ∧
     (4096 ≤ 4095 ∨ 4096 < 4089 + (List.replicate 8 0#8).length)) ∧
    ((computeDown.mctpUp = true) ∧
     (computeDown.dmcUp = true) ∧
     (8 ≤ (List.replicate 8 0#8).length) ∧
     ((List.replicate 8 0#8).length ≤ 1000) ∧
     ((List.replicate 8 0#8).length % 8 = 0) ∧
     (4095 < 4096) ∧
     (0 + (List.replicate 8 0#8).length ≤ 4096) ∧
     (computeDown.cUp = false)) ∧
    ((up.mctpUp = true) ∧
     (up.dmcUp = true) ∧
     (8 ≤ (List.replicate 8 0#8).length) ∧
     ((List.replicate 8 0#8).length ≤ 1000) ∧
     ((List.replicate 8 0#8).length % 8 = 0) ∧
     (4095 < 4096) ∧
     (4088 + (List.replicate 8 0#8).length ≤ 4096) ∧
     (up.cUp = true) ∧
     (up.slotAt 4095 = none) ∧
     (have p := 64 + fieldAt (overwrite (zeros 4096) 4088 (List.replicate 8 0#8)) 2 2;
      p < 4088 ∨ 4088 + (List.replicate 8 0#8).length < p + 8 ∨ 4096 < p + 8)) ∧
    ((computeDown.mctpUp = true) ∧
     (computeDown.dmcUp = true) ∧
     (computeDown.cUp = false)) :=
  ⟨by decide +kernel,
   by decide +kernel,
   by decide +kernel,
   by decide +kernel,
   by decide +kernel,
   by decide +kernel⟩

theorem wit_PldmBaseAndMonitor :
    ((up.mctpUp = true) ∧
     (up.dmcUp = true)) ∧
    ((romRuns.mctpUp = true) ∧
     (romRuns.dmcUp = false)) :=
  ⟨by decide +kernel,
   by decide +kernel⟩

/-- The firmware update stands in a state, with 100 bytes of 200 received. -/
def updating (f : FwState) : State := { up with mgmt := { up.mgmt with fw := f, fwSize := 200, fwImage := List.replicate 100 1 } }

/-- An image of 100 bytes is to come. -/
def downloading : State := { updating .download with mgmt := { (updating .download).mgmt with fwSize := 100 } }

theorem wit_FirmwareUpdate :
    (((updating FwState.idle).mctpUp = true)) ∧
    (((updating FwState.learn).mctpUp = true)) ∧
    (((updating FwState.ready).mctpUp = true)) ∧
    (((updating FwState.download).mctpUp = true)) ∧
    ((downloading.mctpUp = true)) ∧
    (((updating FwState.verify).mctpUp = true)) ∧
    (((updating FwState.apply).mctpUp = true)) :=
  ⟨by decide +kernel,
   by decide +kernel,
   by decide +kernel,
   by decide +kernel,
   by decide +kernel,
   by decide +kernel,
   by decide +kernel⟩

/-- A verified image waits for activation. -/
def verified : State := { updating .ready with mgmt := { (updating .ready).mgmt with fwGood := true } }

/-- The boot ROM waits for an image from the host. -/
def romWaits : State := { up with sec := { up.sec with romWait := true } }

theorem wit_FirmwareActivation :
    ((verified.mctpUp = true) ∧
     (verified.mgmt.fw = FwState.ready) ∧
     (verified.mgmt.fwGood = true) ∧
     (verified.sec.romWait = false)) ∧
    ((dmcDown.pwr.auxGood = true) ∧
     (dmcDown.sec.dmcDown = true)) ∧
    ((up.reach (hostWrites 1).port Reg.SEC_FW = true) ∧
     (up.sec.romWait = false ∨ accSets (hostWrites 1) Fld.SEC_FW_LOAD = false)) ∧
    ((romWaits.reach (hostWrites 1).port Reg.SEC_FW = true) ∧
     (romWaits.sec.romWait = true) ∧
     (accSets (hostWrites 1) Fld.SEC_FW_LOAD = true)) :=
  ⟨by decide +kernel,
   by decide +kernel,
   by decide +kernel,
   by decide +kernel⟩

/-- A session of D2 held by a port. -/
def session (p : Port) : State :=
  State.withFlds up [(Fld.DBG_LEVEL_LEVEL, 2), (Fld.DBG_LEVEL_PORT, if p = .mgmt then 1 else 0)]

/-- A PROBE order of an action with 24 bytes of body. -/
def probe (action bulk : Nat) : Order := anOrder 9 (orderBytes 9 bulk (natLe action 8 ++ natLe 0x1000 8 ++ natLe 65536 8))

/-- A session with a PROBE order waiting. -/
def probing (s : State) (action bulk : Nat) : State := State.withOrder s (probe action bulk)

/-- The device is halted between two sweeps of a step. -/
def haltedMid (s : State) : State :=
  { s.setFlag Fld.DBG_STAT_HALTED true with
    stept := { s.stept with stepOn := true }
    ex := { s.ex with sweepOn := false } }

theorem wit_DebugActions_1 :
    (((3, Instr.debugCtlEnd 5, Instr.dbgCtlEnd 5 (hostWrites 1), Instr.probeEnd 5 9) ∈
        [(3, Instr.debugCtlEnd 5, Instr.dbgCtlEnd 5 (hostWrites 1), Instr.probeEnd 5 9),
          (4, Instr.debugCtlHalt 5, Instr.dbgCtlHalt 5 (hostWrites 1), Instr.probeHalt 5 9),
          (5, Instr.debugCtlSweep 5, Instr.dbgCtlSweep 5 (hostWrites 1), Instr.probeSweep 5 9),
          (6, Instr.debugCtlResume 5, Instr.dbgCtlResume 5 (hostWrites 1), Instr.probeResume 5 9)]) ∧
     (up.mctpUp = true) ∧
     (up.dmcUp = true) ∧
     (up.dbgLevel = 0)) ∧
    (((4, Instr.debugCtlHalt 5, Instr.dbgCtlHalt 5 (hostWrites 1), Instr.probeHalt 5 9) ∈
        [(3, Instr.debugCtlEnd 5, Instr.dbgCtlEnd 5 (hostWrites 1), Instr.probeEnd 5 9),
          (4, Instr.debugCtlHalt 5, Instr.dbgCtlHalt 5 (hostWrites 1), Instr.probeHalt 5 9),
          (5, Instr.debugCtlSweep 5, Instr.dbgCtlSweep 5 (hostWrites 1), Instr.probeSweep 5 9),
          (6, Instr.debugCtlResume 5, Instr.dbgCtlResume 5 (hostWrites 1), Instr.probeResume 5 9)]) ∧
     ((session Port.mgmt).mctpUp = true) ∧
     ((session Port.mgmt).dmcUp = true) ∧
     ((session Port.mgmt).dbgLevel = 2) ∧
     ((session Port.mgmt).halted = false) ∧
     ((session Port.mgmt).power ≠ 2) ∧
     ((session Port.mgmt).holder = Port.mgmt)) ∧
    (((5, Instr.debugCtlSweep 5, Instr.dbgCtlSweep 5 (hostWrites 1), Instr.probeSweep 5 9) ∈
        [(3, Instr.debugCtlEnd 5, Instr.dbgCtlEnd 5 (hostWrites 1), Instr.probeEnd 5 9),
          (4, Instr.debugCtlHalt 5, Instr.dbgCtlHalt 5 (hostWrites 1), Instr.probeHalt 5 9),
          (5, Instr.debugCtlSweep 5, Instr.dbgCtlSweep 5 (hostWrites 1), Instr.probeSweep 5 9),
          (6, Instr.debugCtlResume 5, Instr.dbgCtlResume 5 (hostWrites 1), Instr.probeResume 5 9)]) ∧
     ((session Port.host).mctpUp = true) ∧
     ((session Port.host).dmcUp = true) ∧
     ((session Port.host).dbgLevel = 2) ∧
     ((session Port.host).holder = Port.host)) ∧
    (((4, Instr.debugCtlHalt 5, Instr.dbgCtlHalt 5 (hostWrites 1), Instr.probeHalt 5 9) ∈
        [(3, Instr.debugCtlEnd 5, Instr.dbgCtlEnd 5 (hostWrites 1), Instr.probeEnd 5 9),
          (4, Instr.debugCtlHalt 5, Instr.dbgCtlHalt 5 (hostWrites 1), Instr.probeHalt 5 9),
          (5, Instr.debugCtlSweep 5, Instr.dbgCtlSweep 5 (hostWrites 1), Instr.probeSweep 5 9),
          (6, Instr.debugCtlResume 5, Instr.dbgCtlResume 5 (hostWrites 1), Instr.probeResume 5 9)]) ∧
     (up.reach (hostWrites 1).port Reg.DBG_CTL = true) ∧
     (asksAction (hostWrites 1)
          (4, Instr.debugCtlHalt 5, Instr.dbgCtlHalt 5 (hostWrites 1), Instr.probeHalt 5 9).1 =
        true) ∧
     (up.dbgLevel = 0)) ∧
    (((4, Instr.debugCtlHalt 5, Instr.dbgCtlHalt 5 (hostWrites 1), Instr.probeHalt 5 9) ∈
        [(3, Instr.debugCtlEnd 5, Instr.dbgCtlEnd 5 (hostWrites 1), Instr.probeEnd 5 9),
          (4, Instr.debugCtlHalt 5, Instr.dbgCtlHalt 5 (hostWrites 1), Instr.probeHalt 5 9),
          (5, Instr.debugCtlSweep 5, Instr.dbgCtlSweep 5 (hostWrites 1), Instr.probeSweep 5 9),
          (6, Instr.debugCtlResume 5, Instr.dbgCtlResume 5 (hostWrites 1), Instr.probeResume 5 9)]) ∧
     ((session Port.host).reach (hostWrites 1).port Reg.DBG_CTL = true) ∧
     (asksAction (hostWrites 1)
          (4, Instr.debugCtlHalt 5, Instr.dbgCtlHalt 5 (hostWrites 1), Instr.probeHalt 5 9).1 =
        true) ∧
     ((session Port.host).dbgLevel = 2) ∧
     ((session Port.host).halted = false) ∧
     ((session Port.host).power ≠ 2) ∧
     ((session Port.host).holder = (hostWrites 1).port)) ∧
    (((5, Instr.debugCtlSweep 5, Instr.dbgCtlSweep 5 (hostWrites 2), Instr.probeSweep 5 9) ∈
        [(3, Instr.debugCtlEnd 5, Instr.dbgCtlEnd 5 (hostWrites 2), Instr.probeEnd 5 9),
          (4, Instr.debugCtlHalt 5, Instr.dbgCtlHalt 5 (hostWrites 2), Instr.probeHalt 5 9),
          (5, Instr.debugCtlSweep 5, Instr.dbgCtlSweep 5 (hostWrites 2), Instr.probeSweep 5 9),
          (6, Instr.debugCtlResume 5, Instr.dbgCtlResume 5 (hostWrites 2), Instr.probeResume 5 9)]) ∧
     ((session Port.host).reach (hostWrites 2).port Reg.DBG_CTL = true) ∧
     (asksAction (hostWrites 2)
          (5, Instr.debugCtlSweep 5, Instr.dbgCtlSweep 5 (hostWrites 2), Instr.probeSweep 5 9).1 =
        true) ∧
     ((session Port.host).dbgLevel = 2) ∧
     ((session Port.host).halted = false) ∧
     ((session Port.host).power ≠ 2) ∧
     ((session Port.host).holder = (hostWrites 2).port)) ∧
    (((6, Instr.debugCtlResume 5, Instr.dbgCtlResume 5 (hostWrites 4), Instr.probeResume 5 9) ∈
        [(3, Instr.debugCtlEnd 5, Instr.dbgCtlEnd 5 (hostWrites 4), Instr.probeEnd 5 9),
          (4, Instr.debugCtlHalt 5, Instr.dbgCtlHalt 5 (hostWrites 4), Instr.probeHalt 5 9),
          (5, Instr.debugCtlSweep 5, Instr.dbgCtlSweep 5 (hostWrites 4), Instr.probeSweep 5 9),
          (6, Instr.debugCtlResume 5, Instr.dbgCtlResume 5 (hostWrites 4), Instr.probeResume 5 9)]) ∧
     ((session Port.mgmt).reach (hostWrites 4).port Reg.DBG_CTL = true) ∧
     (asksAction (hostWrites 4)
          (6, Instr.debugCtlResume 5, Instr.dbgCtlResume 5 (hostWrites 4), Instr.probeResume 5 9).1 =
        true) ∧
     ((session Port.mgmt).dbgLevel = 2) ∧
     ((session Port.mgmt).holder ≠ (hostWrites 4).port)) ∧
    (((3, Instr.debugCtlEnd 5, Instr.dbgCtlEnd 5 (hostWrites 8), Instr.probeEnd 5 9) ∈
        [(3, Instr.debugCtlEnd 5, Instr.dbgCtlEnd 5 (hostWrites 8), Instr.probeEnd 5 9),
          (4, Instr.debugCtlHalt 5, Instr.dbgCtlHalt 5 (hostWrites 8), Instr.probeHalt 5 9),
          (5, Instr.debugCtlSweep 5, Instr.dbgCtlSweep 5 (hostWrites 8), Instr.probeSweep 5 9),
          (6, Instr.debugCtlResume 5, Instr.dbgCtlResume 5 (hostWrites 8), Instr.probeResume 5 9)]) ∧
     ((session Port.host).reach (hostWrites 8).port Reg.DBG_CTL = true) ∧
     (asksAction (hostWrites 8)
          (3, Instr.debugCtlEnd 5, Instr.dbgCtlEnd 5 (hostWrites 8), Instr.probeEnd 5 9).1 =
        true) ∧
     ((session Port.host).dbgLevel = 2) ∧
     ((session Port.host).halted = false) ∧
     ((session Port.host).power ≠ 2) ∧
     ((session Port.host).holder = (hostWrites 8).port)) ∧
    (((6, Instr.debugCtlResume 5, Instr.dbgCtlResume 5 (hostWrites 4), Instr.probeResume 5 9) ∈
        [(3, Instr.debugCtlEnd 5, Instr.dbgCtlEnd 5 (hostWrites 4), Instr.probeEnd 5 9),
          (4, Instr.debugCtlHalt 5, Instr.dbgCtlHalt 5 (hostWrites 4), Instr.probeHalt 5 9),
          (5, Instr.debugCtlSweep 5, Instr.dbgCtlSweep 5 (hostWrites 4), Instr.probeSweep 5 9),
          (6, Instr.debugCtlResume 5, Instr.dbgCtlResume 5 (hostWrites 4), Instr.probeResume 5 9)]) ∧
     ((probing up 6 0).executable 9 9 = some (probe 6 0)) ∧
     ((probe 6 0).action =
        (6, Instr.debugCtlResume 5, Instr.dbgCtlResume 5 (hostWrites 4), Instr.probeResume 5 9).1) ∧
     ((probing up 6 0).dbgLevel = 0)) ∧
    (((6, Instr.debugCtlResume 5, Instr.dbgCtlResume 5 (hostWrites 4), Instr.probeResume 5 9) ∈
        [(3, Instr.debugCtlEnd 5, Instr.dbgCtlEnd 5 (hostWrites 4), Instr.probeEnd 5 9),
          (4, Instr.debugCtlHalt 5, Instr.dbgCtlHalt 5 (hostWrites 4), Instr.probeHalt 5 9),
          (5, Instr.debugCtlSweep 5, Instr.dbgCtlSweep 5 (hostWrites 4), Instr.probeSweep 5 9),
          (6, Instr.debugCtlResume 5, Instr.dbgCtlResume 5 (hostWrites 4), Instr.probeResume 5 9)]) ∧
     ((probing (session Port.host) 6 0).executable 9 9 = some (probe 6 0)) ∧
     ((probe 6 0).action =
        (6, Instr.debugCtlResume 5, Instr.dbgCtlResume 5 (hostWrites 4), Instr.probeResume 5 9).1) ∧
     ((probing (session Port.host) 6 0).dbgLevel = 2) ∧
     ((probing (session Port.host) 6 0).halted = false) ∧
     ((probing (session Port.host) 6 0).power ≠ 2) ∧
     ((probing (session Port.host) 6 0).holder = (probe 6 0).src)) ∧
    (((3, Instr.debugCtlEnd 5, Instr.dbgCtlEnd 5 (hostWrites 4), Instr.probeEnd 5 9) ∈
        [(3, Instr.debugCtlEnd 5, Instr.dbgCtlEnd 5 (hostWrites 4), Instr.probeEnd 5 9),
          (4, Instr.debugCtlHalt 5, Instr.dbgCtlHalt 5 (hostWrites 4), Instr.probeHalt 5 9),
          (5, Instr.debugCtlSweep 5, Instr.dbgCtlSweep 5 (hostWrites 4), Instr.probeSweep 5 9),
          (6, Instr.debugCtlResume 5, Instr.dbgCtlResume 5 (hostWrites 4), Instr.probeResume 5 9)]) ∧
     ((probing (session Port.mgmt) 3 0).executable 9 9 = some (probe 3 0)) ∧
     ((probe 3 0).action =
        (3, Instr.debugCtlEnd 5, Instr.dbgCtlEnd 5 (hostWrites 4), Instr.probeEnd 5 9).1) ∧
     ((probing (session Port.mgmt) 3 0).dbgLevel = 2) ∧
     ((probing (session Port.mgmt) 3 0).holder ≠ (probe 3 0).src)) ∧
    (((5, Instr.debugCtlSweep 5, Instr.dbgCtlSweep 5 (hostWrites 4), Instr.probeSweep 5 9) ∈
        [(3, Instr.debugCtlEnd 5, Instr.dbgCtlEnd 5 (hostWrites 4), Instr.probeEnd 5 9),
          (4, Instr.debugCtlHalt 5, Instr.dbgCtlHalt 5 (hostWrites 4), Instr.probeHalt 5 9),
          (5, Instr.debugCtlSweep 5, Instr.dbgCtlSweep 5 (hostWrites 4), Instr.probeSweep 5 9),
          (6, Instr.debugCtlResume 5, Instr.dbgCtlResume 5 (hostWrites 4), Instr.probeResume 5 9)]) ∧
     ((haltedMid (session Port.mgmt)).mctpUp = true) ∧
     ((haltedMid (session Port.mgmt)).dmcUp = true) ∧
     ((haltedMid (session Port.mgmt)).dbgLevel = 2 ∧
        (haltedMid (session Port.mgmt)).halted = true ∧
          (haltedMid (session Port.mgmt)).power ≠ 2 ∧
            (haltedMid (session Port.mgmt)).stept.stepOn = true ∧
              (haltedMid (session Port.mgmt)).ex.sweepOn = false ∧
                (haltedMid (session Port.mgmt)).ex.stepEnded = false ∧
                  (haltedMid (session Port.mgmt)).slog.abandoned = false ∧
                    ((haltedMid (session Port.mgmt)).tick 5).gatherOpen = true ∧
                      5 ≤
                        (5, Instr.debugCtlSweep 5, Instr.dbgCtlSweep 5 (hostWrites 4),
                            Instr.probeSweep 5 9).1) ∧
     ((haltedMid (session Port.mgmt)).holder = Port.mgmt)) :=
  ⟨by decide +kernel,
   by decide +kernel,
   by decide +kernel,
   by decide +kernel,
   by decide +kernel,
   by decide +kernel,
   by decide +kernel,
   by decide +kernel,
   by decide +kernel,
   by decide +kernel,
   by decide +kernel,
   by decide +kernel⟩

theorem wit_DebugActions_2 :
    (((6, Instr.debugCtlResume 5, Instr.dbgCtlResume 5 (hostWrites 4), Instr.probeResume 5 9) ∈
        [(3, Instr.debugCtlEnd 5, Instr.dbgCtlEnd 5 (hostWrites 4), Instr.probeEnd 5 9),
          (4, Instr.debugCtlHalt 5, Instr.dbgCtlHalt 5 (hostWrites 4), Instr.probeHalt 5 9),
          (5, Instr.debugCtlSweep 5, Instr.dbgCtlSweep 5 (hostWrites 4), Instr.probeSweep 5 9),
          (6, Instr.debugCtlResume 5, Instr.dbgCtlResume 5 (hostWrites 4), Instr.probeResume 5 9)]) ∧
     ((haltedMid (session Port.host)).reach (hostWrites 4).port Reg.DBG_CTL = true) ∧
     (asksAction (hostWrites 4)
          (6, Instr.debugCtlResume 5, Instr.dbgCtlResume 5 (hostWrites 4), Instr.probeResume 5 9).1 =
        true) ∧
     ((haltedMid (session Port.host)).dbgLevel = 2 ∧
        (haltedMid (session Port.host)).halted = true ∧
          (haltedMid (session Port.host)).power ≠ 2 ∧
            (haltedMid (session Port.host)).stept.stepOn = true ∧
              (haltedMid (session Port.host)).ex.sweepOn = false ∧
                (haltedMid (session Port.host)).ex.stepEnded = false ∧
                  (haltedMid (session Port.host)).slog.abandoned = false ∧
                    ((haltedMid (session Port.host)).tick 5).gatherOpen = true ∧
                      5 ≤
                        (6, Instr.debugCtlResume 5, Instr.dbgCtlResume 5 (hostWrites 4),
                            Instr.probeResume 5 9).1) ∧
     ((haltedMid (session Port.host)).holder = (hostWrites 4).port)) ∧
    (((5, Instr.debugCtlSweep 5, Instr.dbgCtlSweep 5 (hostWrites 4), Instr.probeSweep 5 9) ∈
        [(3, Instr.debugCtlEnd 5, Instr.dbgCtlEnd 5 (hostWrites 4), Instr.probeEnd 5 9),
          (4, Instr.debugCtlHalt 5, Instr.dbgCtlHalt 5 (hostWrites 4), Instr.probeHalt 5 9),
          (5, Instr.debugCtlSweep 5, Instr.dbgCtlSweep 5 (hostWrites 4), Instr.probeSweep 5 9),
          (6, Instr.debugCtlResume 5, Instr.dbgCtlResume 5 (hostWrites 4), Instr.probeResume 5 9)]) ∧
     ((probing (haltedMid (session Port.host)) 5 0).executable 9 9 = some (probe 5 0)) ∧
     ((probe 5 0).action =
        (5, Instr.debugCtlSweep 5, Instr.dbgCtlSweep 5 (hostWrites 4), Instr.probeSweep 5 9).1) ∧
     ((probing (haltedMid (session Port.host)) 5 0).dbgLevel = 2 ∧
        (probing (haltedMid (session Port.host)) 5 0).halted = true ∧
          (probing (haltedMid (session Port.host)) 5 0).power ≠ 2 ∧
            (probing (haltedMid (session Port.host)) 5 0).stept.stepOn = true ∧
              (probing (haltedMid (session Port.host)) 5 0).ex.sweepOn = false ∧
                (probing (haltedMid (session Port.host)) 5 0).ex.stepEnded = false ∧
                  (probing (haltedMid (session Port.host)) 5 0).slog.abandoned = false ∧
                    ((probing (haltedMid (session Port.host)) 5 0).tick 5).gatherOpen = true ∧
                      5 ≤
                        (5, Instr.debugCtlSweep 5, Instr.dbgCtlSweep 5 (hostWrites 4),
                            Instr.probeSweep 5 9).1) ∧
     ((probing (haltedMid (session Port.host)) 5 0).holder = (probe 5 0).src)) :=
  ⟨by decide +kernel,
   by decide +kernel⟩

/-- The entropy source is in service, with four words in the pool. -/
def entropic (s : State) : State :=
  { s.setFlag Fld.TRNG_STAT_VALID true with trng := { s.trng with pool := [11, 22, 33, 44] } }

/-- The lifecycle is SCRAP. -/
def scrap : State := up.setFld Fld.SEC_LIFECYCLE_STATE 3

/-- A PROBE CHALLENGE with a buffer of some length. -/
def askNonce (len : Nat) : Order := anOrder 9 (orderBytes 9 0 (natLe 1 8 ++ natLe 0x1000 8 ++ natLe len 8))

/-- It comes over the management port. -/
def askNonceMgmt : Order := { askNonce 32 with src := .mgmt }

theorem wit_Challenges :
    (((entropic up).mctpUp = true) ∧
     ((entropic up).dmcUp = true) ∧
     ((entropic up).lifecycle ≠ 3) ∧
     ((entropic up).trngValid = true) ∧
     (4 ≤ (entropic up).trng.pool.length)) ∧
    ((scrap.mctpUp = true) ∧
     (scrap.dmcUp = true) ∧
     (scrap.lifecycle = 3)) ∧
    ((up.mctpUp = true) ∧
     (up.dmcUp = true) ∧
     (up.lifecycle ≠ 3) ∧
     (up.trngValid = false)) ∧
    (((State.withOrder up (askNonce 31)).executable 9 9 = some (askNonce 31)) ∧
     ((askNonce 31).action = 1) ∧
     (fieldAt (askNonce 31).body 16 8 < 32)) ∧
    (((State.withOrder (entropic up) (askNonce 32)).executable 9 9 = some (askNonce 32)) ∧
     ((askNonce 32).action = 1) ∧
     (32 ≤ fieldAt (askNonce 32).body 16 8) ∧
     ((State.withOrder (entropic up) (askNonce 32)).lifecycle ≠ 3) ∧
     ((State.withOrder (entropic up) (askNonce 32)).trngValid = true) ∧
     (4 ≤ (State.withOrder (entropic up) (askNonce 32)).trng.pool.length)) ∧
    (((State.withOrder (entropic up) askNonceMgmt).executable 9 9 = some askNonceMgmt) ∧
     (askNonceMgmt.action = 1) ∧
     (32 ≤ fieldAt askNonceMgmt.body 16 8) ∧
     ((State.withOrder (entropic up) askNonceMgmt).lifecycle ≠ 3) ∧
     ((State.withOrder (entropic up) askNonceMgmt).trngValid = true) ∧
     (4 ≤ (State.withOrder (entropic up) askNonceMgmt).trng.pool.length)) ∧
    (((State.withOrder up (askNonce 32)).executable 9 9 = some (askNonce 32)) ∧
     ((askNonce 32).action = 1) ∧
     (32 ≤ fieldAt (askNonce 32).body 16 8) ∧
     ((State.withOrder up (askNonce 32)).lifecycle ≠ 3) ∧
     ((State.withOrder up (askNonce 32)).trngValid = false)) :=
  ⟨by decide +kernel,
   by decide +kernel,
   by decide +kernel,
   by decide +kernel,
   by decide +kernel,
   by decide +kernel,
   by decide +kernel⟩

/-- A token for D1 signed by KEY_ID 5 over a nonce of zeros, with a serial number. -/
def debugToken (serial : Nat) : List Byte :=
  [0x4B, 0x5A, 0x54, 0x4B] ++ natLe 1 2 ++ [1, 1] ++ natLe serial 8 ++ zeros 32 ++ natLe 5 4 ++ zeros 29868

/-- It stands in the token buffer. -/
def tokened (serial : Nat) (n : Option (List Byte)) : State :=
  { up with mgmt := { up.mgmt with token := debugToken serial }, sec := { up.sec with nonceMgmt := n, nonceHost := n } }

/-- A PROBE TOKEN order with its token. -/
def tokenOrder (b : List Byte) : Order := { probe 2 1 with bulk := some b }

theorem wit_TokenChecks :
    ((up.mctpUp = true) ∧
     (up.dmcUp = true)) ∧
    ((up.mctpUp = true) ∧
     (up.dmcUp = true) ∧
     (tokForm up.mgmt.token = false)) ∧
    (((tokened 7 none).mctpUp = true) ∧
     ((tokened 7 none).dmcUp = true) ∧
     (tokForm (tokened 7 none).mgmt.token = true) ∧
     (fieldAt (tokened 7 none).mgmt.token 8 8 ≠ (tokened 7 none).fuse.serial)) ∧
    (((tokened 1 none).mctpUp = true) ∧
     ((tokened 1 none).dmcUp = true) ∧
     (tokForm (tokened 1 none).mgmt.token = true) ∧
     (fieldAt (tokened 1 none).mgmt.token 8 8 = (tokened 1 none).fuse.serial) ∧
     ((tokened 1 none).sec.nonceMgmt ≠ some (slice (tokened 1 none).mgmt.token 16 32))) ∧
    (((tokened 1 (some (zeros 32))).mctpUp = true) ∧
     ((tokened 1 (some (zeros 32))).dmcUp = true) ∧
     (tokForm (tokened 1 (some (zeros 32))).mgmt.token = true) ∧
     (fieldAt (tokened 1 (some (zeros 32))).mgmt.token 8 8 = (tokened 1 (some (zeros 32))).fuse.serial) ∧
     ((tokened 1 (some (zeros 32))).sec.nonceMgmt =
        some (slice (tokened 1 (some (zeros 32))).mgmt.token 16 32)) ∧
     (tokKind (tokened 1 (some (zeros 32))).mgmt.token = 1) ∧
     (tokTarget (tokened 1 (some (zeros 32))).mgmt.token = 1) ∧
     ((tokened 1 (some (zeros 32))).dbgLevel = 0) ∧
     ((tokened 1 (some (zeros 32))).power ≠ 4)) ∧
    (((State.withOrder up (tokenOrder [])).executable 9 9 = some (tokenOrder [])) ∧
     ((tokenOrder []).action = 2) ∧
     ((tokenOrder []).bulkKind = 1) ∧
     ((tokenOrder []).bulk = some []) ∧
     (tokForm [] = false)) ∧
    (((State.withOrder up (tokenOrder (debugToken 7))).executable 9 9 = some (tokenOrder (debugToken 7))) ∧
     ((tokenOrder (debugToken 7)).action = 2) ∧
     ((tokenOrder (debugToken 7)).bulkKind = 1) ∧
     ((tokenOrder (debugToken 7)).bulk = some (debugToken 7)) ∧
     (tokForm (debugToken 7) = true) ∧
     (fieldAt (debugToken 7) 8 8 ≠ (State.withOrder up (tokenOrder (debugToken 7))).fuse.serial)) ∧
    (((State.withOrder up (tokenOrder (debugToken 1))).executable 9 9 = some (tokenOrder (debugToken 1))) ∧
     ((tokenOrder (debugToken 1)).action = 2) ∧
     ((tokenOrder (debugToken 1)).bulkKind = 1) ∧
     ((tokenOrder (debugToken 1)).bulk = some (debugToken 1)) ∧
     (tokForm (debugToken 1) = true) ∧
     (fieldAt (debugToken 1) 8 8 = (State.withOrder up (tokenOrder (debugToken 1))).fuse.serial) ∧
     ((State.withOrder up (tokenOrder (debugToken 1))).nonce (tokenOrder (debugToken 1)).src ≠
        some (slice (debugToken 1) 16 32))) ∧
    (((State.withOrder (tokened 1 (some (zeros 32))) (tokenOrder (debugToken 1))).executable 9 9 =
        some (tokenOrder (debugToken 1))) ∧
     ((tokenOrder (debugToken 1)).action = 2) ∧
     ((tokenOrder (debugToken 1)).bulkKind = 1) ∧
     ((tokenOrder (debugToken 1)).bulk = some (debugToken 1)) ∧
     (tokForm (debugToken 1) = true) ∧
     (fieldAt (debugToken 1) 8 8 =
        (State.withOrder (tokened 1 (some (zeros 32))) (tokenOrder (debugToken 1))).fuse.serial) ∧
     ((State.withOrder (tokened 1 (some (zeros 32))) (tokenOrder (debugToken 1))).nonce
          (tokenOrder (debugToken 1)).src =
        some (slice (debugToken 1) 16 32)) ∧
     (tokKind (debugToken 1) = 1) ∧
     (tokTarget (debugToken 1) = 1) ∧
     ((State.withOrder (tokened 1 (some (zeros 32))) (tokenOrder (debugToken 1))).dbgLevel = 0) ∧
     ((State.withOrder (tokened 1 (some (zeros 32))) (tokenOrder (debugToken 1))).power ≠ 4)) :=
  ⟨by decide +kernel,
   by decide +kernel,
   by decide +kernel,
   by decide +kernel,
   by decide +kernel,
   by decide +kernel,
   ⟨rfl, by decide +kernel, by decide +kernel, rfl, by decide +kernel, by decide +kernel⟩,
   ⟨rfl, by decide +kernel, by decide +kernel, rfl, by decide +kernel, by decide +kernel, by decide +kernel⟩,
   ⟨rfl, by decide +kernel, by decide +kernel, rfl, by decide +kernel, by decide +kernel, by decide +kernel, by decide +kernel, by decide +kernel, by decide +kernel, by decide +kernel⟩⟩

/-- A quote forms, for an order or for the management port (0). -/
def forming (seq : Nat) (s : State) : State := { s with sec := { s.sec with forming := some ⟨seq, zeros 592⟩ } }

/-- A PROBE QUOTE order that executes. -/
def quoting : Order := { probe 8 1 with phase := .executing }

/-- A PROBE QUOTE order with its nonce and a buffer of some length. -/
def askQuote (len : Nat) : Order :=
  { anOrder 9 (orderBytes 9 1 (natLe 8 8 ++ natLe 0x1000 8 ++ natLe len 8)) with bulk := some (zeros 32) }

/-- A key stands in slot 3. -/
def enrolled : State := { up with mram := { up.mram with keys := [⟨3, 5, 1, zeros 64⟩] } }

theorem wit_Quotes :
    ((up.mctpUp = true) ∧
     (up.dmcUp = true) ∧
     (([] : List Byte).length ≠ 32)) ∧
    (((forming 0 up).mctpUp = true) ∧
     ((forming 0 up).dmcUp = true) ∧
     ((zeros 32).length = 32) ∧
     ((forming 0 up).sec.forming.isSome = true)) ∧
    ((up.mctpUp = true) ∧
     (up.dmcUp = true) ∧
     ((zeros 32).length = 32) ∧
     (up.sec.forming = none)) ∧
    (((forming 0 up).pwr.auxGood = true) ∧
     ((forming 0 up).sec.forming = some { seq := 0, body := zeros 592 : Quote })) ∧
    (((forming 9 (State.withOrder up quoting)).pwr.auxGood = true) ∧
     (9 ≠ 0) ∧
     ((forming 9 (State.withOrder up quoting)).sec.forming = some { seq := 9, body := zeros 592 : Quote }) ∧
     ((forming 9 (State.withOrder up quoting)).order 9 = some quoting) ∧
     (quoting.phase = OrderPhase.executing)) ∧
    (((State.withOrder up (askQuote 50447)).executable 9 9 = some (askQuote 50447)) ∧
     ((askQuote 50447).action = 8) ∧
     ((askQuote 50447).bulkKind = 1) ∧
     ((askQuote 50447).bulk = some (zeros 32)) ∧
     (fieldAt (askQuote 50447).body 16 8 < 50448)) ∧
    (((State.withOrder up (askQuote 50448)).executable 9 9 = some (askQuote 50448)) ∧
     ((askQuote 50448).action = 8) ∧
     ((askQuote 50448).bulkKind = 1) ∧
     ((askQuote 50448).bulk = some (zeros 32)) ∧
     (50448 ≤ fieldAt (askQuote 50448).body 16 8) ∧
     ((zeros 32).length = 32) ∧
     ((State.withOrder up (askQuote 50448)).sec.forming = none)) ∧
    ((enrolled.mctpUp = true) ∧
     (enrolled.dmcUp = true) ∧
     (1 ≤ 3) ∧
     (3 < 16) ∧
     (List.find? (fun x => x.slot == 3) enrolled.mram.keys =
        some { slot := 3, id := 5, roles := 1, key := zeros 64 : KeySlot })) ∧
    ((enrolled.mctpUp = true) ∧
     (enrolled.dmcUp = true) ∧
     (1 ≤ 15) ∧
     (15 < 16) ∧
     (List.find? (fun x => x.slot == 15) enrolled.mram.keys = none)) ∧
    ((enrolled.mctpUp = true) ∧
     (enrolled.dmcUp = true)) :=
  ⟨by decide +kernel,
   by decide +kernel,
   by decide +kernel,
   by decide +kernel,
   by decide +kernel,
   by decide +kernel,
   by decide +kernel,
   by decide +kernel,
   by decide +kernel,
   by decide +kernel⟩

/-- A STATE_WRITE order that sets variable 0 to 1. -/
def setVar : Order := { probe 7 1 with bulk := some (natLe 0 8 ++ natLe 1 8) }

/-- A STATE_WRITE entry that gives variable 0 the value 1. -/
def stateBytes : List Byte := natLe 0 8 ++ natLe 1 8

/-- A session of D2 that the host holds over a loaded plan. -/
def planSession : State := State.withOrder (State.withFlds planned [(Fld.DBG_LEVEL_LEVEL, 2)]) setVar

/-- The device is halted. -/
def haltedSession : State := planSession.setFlag Fld.DBG_STAT_HALTED true

theorem wit_StateWrite :
    (((State.withOrder planned setVar).executable 9 9 = some setVar) ∧
     (setVar.action = 7) ∧
     (setVar.bulkKind = 1) ∧
     (setVar.bulk = some stateBytes) ∧
     ((State.withOrder planned setVar).dbgLevel = 0)) ∧
    ((planSession.executable 9 9 = some setVar) ∧
     (setVar.action = 7) ∧
     (setVar.bulkKind = 1) ∧
     (setVar.bulk = some stateBytes) ∧
     (planSession.dbgLevel = 2) ∧
     (planSession.holder ≠ setVar.src ∨ planSession.halted = false)) ∧
    ((haltedSession.executable 9 9 = some setVar) ∧
     (setVar.action = 7) ∧
     (setVar.bulkKind = 1) ∧
     (setVar.bulk = some stateBytes) ∧
     (haltedSession.dbgLevel = 2) ∧
     (haltedSession.holder = setVar.src) ∧
     (haltedSession.halted = true) ∧
     (haltedSession.power ≠ 2) ∧
     (haltedSession.planOn = true) ∧
     (haltedSession.plan.data.stateEntriesOk stateBytes = true) ∧
     (haltedSession.plan.data.anneal.groups = [])) :=
  ⟨by decide +kernel,
   by decide +kernel,
   by decide +kernel⟩

/-- A slot that is SEALED since cycle 100. -/
def closed (k : Nat) (b : List Byte) : Slot := ⟨k, .sealed, b, 0, 100, .host, 100, false, 0, false, false, none⟩

theorem wit_SlotWrites :
    ((4096 ≤ 4096)) ∧
    ((4095 < 4096) ∧
     (4092 + [1, 2, 3, 4].length ≤ 4096) ∧
     (4092 < 4096) ∧
     (up.fld Fld.HOST_LINK_RATE ≠ 0) ∧
     (up.ports.d3hot = false) ∧
     (up.boot.lightAt ≠ some (max up.now 5)) ∧
     (up.sec.romWait = false) ∧
     (up.cUp = true) ∧
     (up.slotAt 4095 = none) ∧
     (have p := 64 + fieldAt (overwrite (zeros 4096) 4092 [1, 2, 3, 4]) 2 2;
      p < 4092 ∨ 4092 + [1, 2, 3, 4].length < p + 8 ∨ 4096 < p + 8)) ∧
    ((7 < 4096) ∧
     (0 + [1, 2, 3, 4].length ≤ 4096) ∧
     (0 < 4096) ∧
     ((State.withSlot up (closed 7 (zeros 4096))).fld Fld.HOST_LINK_RATE ≠ 0) ∧
     ((State.withSlot up (closed 7 (zeros 4096))).ports.d3hot = false) ∧
     ((State.withSlot up (closed 7 (zeros 4096))).boot.lightAt ≠
        some (max (State.withSlot up (closed 7 (zeros 4096))).now 5)) ∧
     ((State.withSlot up (closed 7 (zeros 4096))).sec.romWait = false) ∧
     ((State.withSlot up (closed 7 (zeros 4096))).cUp = true) ∧
     ((State.withSlot up (closed 7 (zeros 4096))).slotAt 7 = some (closed 7 (zeros 4096))) ∧
     ((closed 7 (zeros 4096)).st = SlotState.sealed)) ∧
    ((7 < 4096) ∧
     (0 + [1, 2, 3, 4].length ≤ 4096) ∧
     (0 < 4096) ∧
     (romWaits.fld Fld.HOST_LINK_RATE ≠ 0) ∧
     (romWaits.ports.d3hot = false) ∧
     (romWaits.boot.lightAt ≠ some (max romWaits.now 5)) ∧
     (romWaits.sec.romWait = true)) :=
  ⟨by decide +kernel,
   by decide +kernel,
   ⟨by decide +kernel, by decide +kernel, by decide +kernel, by decide +kernel, by decide +kernel, by decide +kernel, by decide +kernel, by decide +kernel, rfl, by decide +kernel⟩,
   by decide +kernel⟩

/-- A slot that is FILLING since cycle 100, and one that is SEALED. -/
def filling (k : Nat) (b : List Byte) : Slot := ⟨k, .filling, b, 0, 100, .host, 0, false, 0, false, false, none⟩

/-- A slot fills under a SEAL_TIMEOUT of 500 cycles. -/
def fills : State := (State.withSlot up (filling 7 (slotBytes 1 10 (natLe 0 8)))).setFld Fld.INTAKE_CTL_SEAL_TIMEOUT 500

theorem wit_SealTimeouts :
    ((7 < 4096) ∧
     (fills.cUp = true) ∧
     (fills.logFull = false) ∧
     (fills.slotAt 7 = some (filling 7 (slotBytes 1 10 (natLe 0 8)))) ∧
     ((filling 7 (slotBytes 1 10 (natLe 0 8))).st = SlotState.filling) ∧
     ((filling 7 (slotBytes 1 10 (natLe 0 8))).ran = 0) ∧
     ((fills.tick 601).past
          ((filling 7 (slotBytes 1 10 (natLe 0 8))).since + fills.fld Fld.INTAKE_CTL_SEAL_TIMEOUT) =
        true)) ∧
    ((7 < 4096) ∧
     (fills.cUp = true) ∧
     (fills.logFull = false) ∧
     (fills.slotAt 7 = some (filling 7 (slotBytes 1 10 (natLe 0 8)))) ∧
     ((filling 7 (slotBytes 1 10 (natLe 0 8))).st = SlotState.filling) ∧
     ((filling 7 (slotBytes 1 10 (natLe 0 8))).ran = 0) ∧
     ((fills.tick 600).past
          ((filling 7 (slotBytes 1 10 (natLe 0 8))).since + fills.fld Fld.INTAKE_CTL_SEAL_TIMEOUT) =
        false)) ∧
    ((7 < 4096) ∧
     (72 + (List.replicate 8 1).length ≤ 4096) ∧
     (72 < 4096) ∧
     (fills.fld Fld.HOST_LINK_RATE ≠ 0) ∧
     (fills.ports.d3hot = false) ∧
     (fills.boot.lightAt ≠ some (max fills.now 600)) ∧
     (fills.sec.romWait = false) ∧
     (fills.cUp = true) ∧
     (fills.logFull = false) ∧
     (fills.slotAt 7 = some (filling 7 (slotBytes 1 10 (natLe 0 8)))) ∧
     ((filling 7 (slotBytes 1 10 (natLe 0 8))).st = SlotState.filling) ∧
     ((filling 7 (slotBytes 1 10 (natLe 0 8))).ran = 0) ∧
     ((filling 7 (slotBytes 1 10 (natLe 0 8))).idx = 7) ∧
     (have p :=
        64 +
          fieldAt (overwrite (filling 7 (slotBytes 1 10 (natLe 0 8))).bytes 72 (List.replicate 8 1)) 2 2;
      72 ≤ p ∧ p + 8 ≤ 72 + (List.replicate 8 1).length)) ∧
    ((7 < 4096) ∧
     (72 + (List.replicate 8 1).length ≤ 4096) ∧
     (72 < 4096) ∧
     (fills.fld Fld.HOST_LINK_RATE ≠ 0) ∧
     (fills.ports.d3hot = false) ∧
     (fills.boot.lightAt ≠ some (max fills.now 599)) ∧
     (fills.sec.romWait = false) ∧
     (fills.cUp = true) ∧
     (fills.logFull = false) ∧
     (fills.slotAt 7 = some (filling 7 (slotBytes 1 10 (natLe 0 8)))) ∧
     ((filling 7 (slotBytes 1 10 (natLe 0 8))).st = SlotState.filling) ∧
     ((filling 7 (slotBytes 1 10 (natLe 0 8))).ran = 0) ∧
     ((filling 7 (slotBytes 1 10 (natLe 0 8))).idx = 7) ∧
     (have p :=
        64 +
          fieldAt (overwrite (filling 7 (slotBytes 1 10 (natLe 0 8))).bytes 72 (List.replicate 8 1)) 2 2;
      72 ≤ p ∧ p + 8 ≤ 72 + (List.replicate 8 1).length)) :=
  ⟨⟨by decide +kernel, by decide +kernel, by decide +kernel, rfl, by decide +kernel, by decide +kernel, by decide +kernel⟩,
   ⟨by decide +kernel, by decide +kernel, by decide +kernel, rfl, by decide +kernel, by decide +kernel, by decide +kernel⟩,
   ⟨by decide +kernel, by decide +kernel, by decide +kernel, by decide +kernel, by decide +kernel, by decide +kernel, by decide +kernel, by decide +kernel, by decide +kernel, rfl, by decide +kernel, by decide +kernel, by decide +kernel, by decide +kernel⟩,
   ⟨by decide +kernel, by decide +kernel, by decide +kernel, by decide +kernel, by decide +kernel, by decide +kernel, by decide +kernel, by decide +kernel, by decide +kernel, rfl, by decide +kernel, by decide +kernel, by decide +kernel, by decide +kernel⟩⟩

/-- That slot is the one in use. -/
def awaiting (x : Slot) : State := State.withSlot up x

/-- A sealed slot with an order of a SEQ and opcode, to be checked or checked. -/
def sealedOrder (seq op : Nat) (body : List Byte) : Slot := closed 7 (slotBytes seq op body)

/-- A seal whose CRC is wrong. -/
def badSeal : Slot := closed 7 ((slotBytes 1 10 (natLe 0 8)).set 64 1)

/-- A QUIESCE hold. -/
def held (x : Slot) : State := (awaiting x).setFlag Fld.INTAKE_STAT_HELD true

/-- Two replicas are sampled. -/
def twoChains (s : State) : State :=
  { s with plan := { s.plan with data := { s.plan.data with anneal := { s.plan.data.anneal with mults := [0x3F800000, 0x3F800000] } } } }

/-- A shape of one M-core with a parcel in one slot of ten cycles, under a table. -/
def tableShape (es : List SeqEntry) : ShapeP := ⟨1, [(0, 0)], [], [(0, 0)], 10, [0], [⟨0, 10, 0⟩], [], [⟨0, es⟩]⟩

/-- A sweep runs on that core, whose parcel holds the one variable. -/
def sampling (es : List SeqEntry) : State :=
  { planned with
    spare := { planned.spare with mapM := [0] }
    stept := { planned.stept with stepOn := true }
    plan := { planned.plan with
      data := { tinyPlan with nParcels := 1, parcels := [⟨0, 0, [0]⟩], ranges := [⟨0, 1, 1, 2⟩] }
      shape := tableShape es }
    ex := { planned.ex with sweepOn := true, snap := [0], cores := [CoreSt.start 0] } }

/-- The pass is over and no group stands in the way; swap events come every K sweeps. -/
def closing (k : Nat) : State :=
  let s := twoChains (sampling [])
  { s with
    plan := { s.plan with data := { s.plan.data with
      ctrls := [⟨0, 64, 1, 1⟩], anneal := { s.plan.data.anneal with swapK := k } } }
    ex := { s.ex with
      pass := 1, slot := 1, betas := [0x3F800000, 0x40000000], swapTried := [0], swapAcc := [0]
      chain := { s.ex.chain with vals := [0, 1], an := { s.ex.chain.an with slotMap := [0, 1] } } } }

/-- An order of SEQ 9 has been accepted. -/
def accepted : State := { up with intake := { up.intake with orders := [{ anOrder 9 [] with latest := some ⟨9, 1, 2, 0, 0, 0, 0, 0, false⟩ }] } }

theorem wit_OrderAcceptance :
    ((7 < 4096) ∧
     ((awaiting (sealedOrder 0 10 (natLe 0 8))).accepting = true) ∧
     ((awaiting (sealedOrder 0 10 (natLe 0 8))).slotAt 7 = some (sealedOrder 0 10 (natLe 0 8))) ∧
     ((sealedOrder 0 10 (natLe 0 8)).idx = 7) ∧
     ((sealedOrder 0 10 (natLe 0 8)).st = SlotState.sealed) ∧
     ((sealedOrder 0 10 (natLe 0 8)).checked = false) ∧
     ((awaiting (sealedOrder 0 10 (natLe 0 8))).nextToCheck (sealedOrder 0 10 (natLe 0 8)) = true) ∧
     ((fieldAt (sealedOrder 0 10 (natLe 0 8)).bytes (sealAt (sealedOrder 0 10 (natLe 0 8)).bytes) 4 ==
            fieldAt (sealedOrder 0 10 (natLe 0 8)).bytes 8 8 % 2 ^ 32 &&
          fieldAt (sealedOrder 0 10 (natLe 0 8)).bytes (sealAt (sealedOrder 0 10 (natLe 0 8)).bytes + 4)
              4 ==
            orderCrc (sealedOrder 0 10 (natLe 0 8)).bytes) =
        true) ∧
     ((awaiting (sealedOrder 0 10 (natLe 0 8))).flag Fld.INTAKE_STAT_HELD = false) ∧
     (fieldAt (sealedOrder 0 10 (natLe 0 8)).bytes 8 8 = 0 ∨
        (awaiting (sealedOrder 0 10 (natLe 0 8))).nextSeq + 4096 ≤
          fieldAt (sealedOrder 0 10 (natLe 0 8)).bytes 8 8)) ∧
    ((7 < 4096) ∧
     ((awaiting badSeal).accepting = true) ∧
     ((awaiting badSeal).slotAt 7 = some badSeal) ∧
     (badSeal.idx = 7) ∧
     (badSeal.st = SlotState.sealed) ∧
     (badSeal.checked = false) ∧
     ((awaiting badSeal).nextToCheck badSeal = true) ∧
     ((fieldAt badSeal.bytes (sealAt badSeal.bytes) 4 == fieldAt badSeal.bytes 8 8 % 2 ^ 32 &&
          fieldAt badSeal.bytes (sealAt badSeal.bytes + 4) 4 == orderCrc badSeal.bytes) =
        false)) ∧
    ((7 < 4096) ∧
     ((held (sealedOrder 1 10 (natLe 0 8))).accepting = true) ∧
     ((held (sealedOrder 1 10 (natLe 0 8))).slotAt 7 = some (sealedOrder 1 10 (natLe 0 8))) ∧
     ((sealedOrder 1 10 (natLe 0 8)).idx = 7) ∧
     ((sealedOrder 1 10 (natLe 0 8)).st = SlotState.sealed) ∧
     ((sealedOrder 1 10 (natLe 0 8)).checked = false) ∧
     ((held (sealedOrder 1 10 (natLe 0 8))).nextToCheck (sealedOrder 1 10 (natLe 0 8)) = true) ∧
     ((fieldAt (sealedOrder 1 10 (natLe 0 8)).bytes (sealAt (sealedOrder 1 10 (natLe 0 8)).bytes) 4 ==
            fieldAt (sealedOrder 1 10 (natLe 0 8)).bytes 8 8 % 2 ^ 32 &&
          fieldAt (sealedOrder 1 10 (natLe 0 8)).bytes (sealAt (sealedOrder 1 10 (natLe 0 8)).bytes + 4)
              4 ==
            orderCrc (sealedOrder 1 10 (natLe 0 8)).bytes) =
        true) ∧
     ((held (sealedOrder 1 10 (natLe 0 8))).flag Fld.INTAKE_STAT_HELD = true)) ∧
    ((7 < 4096) ∧
     ((awaiting (sealedOrder 4097 10 (natLe 0 8))).accepting = true) ∧
     ((awaiting (sealedOrder 4097 10 (natLe 0 8))).slotAt 7 = some (sealedOrder 4097 10 (natLe 0 8))) ∧
     ((sealedOrder 4097 10 (natLe 0 8)).idx = 7) ∧
     ((sealedOrder 4097 10 (natLe 0 8)).st = SlotState.sealed) ∧
     ((sealedOrder 4097 10 (natLe 0 8)).checked = false) ∧
     ((awaiting (sealedOrder 4097 10 (natLe 0 8))).nextToCheck (sealedOrder 4097 10 (natLe 0 8)) = true) ∧
     ((fieldAt (sealedOrder 4097 10 (natLe 0 8)).bytes (sealAt (sealedOrder 4097 10 (natLe 0 8)).bytes)
              4 ==
            fieldAt (sealedOrder 4097 10 (natLe 0 8)).bytes 8 8 % 2 ^ 32 &&
          fieldAt (sealedOrder 4097 10 (natLe 0 8)).bytes
              (sealAt (sealedOrder 4097 10 (natLe 0 8)).bytes + 4) 4 ==
            orderCrc (sealedOrder 4097 10 (natLe 0 8)).bytes) =
        true) ∧
     ((awaiting (sealedOrder 4097 10 (natLe 0 8))).flag Fld.INTAKE_STAT_HELD = false) ∧
     (fieldAt (sealedOrder 4097 10 (natLe 0 8)).bytes 8 8 = 0 ∨
        (awaiting (sealedOrder 4097 10 (natLe 0 8))).nextSeq + 4096 ≤
          fieldAt (sealedOrder 4097 10 (natLe 0 8)).bytes 8 8)) ∧
    ((7 < 4096) ∧
     ((awaiting (sealedOrder 4096 10 (natLe 0 8))).accepting = true) ∧
     ((awaiting (sealedOrder 4096 10 (natLe 0 8))).slotAt 7 = some (sealedOrder 4096 10 (natLe 0 8))) ∧
     ((sealedOrder 4096 10 (natLe 0 8)).idx = 7) ∧
     ((sealedOrder 4096 10 (natLe 0 8)).st = SlotState.sealed) ∧
     ((sealedOrder 4096 10 (natLe 0 8)).checked = false) ∧
     ((awaiting (sealedOrder 4096 10 (natLe 0 8))).nextToCheck (sealedOrder 4096 10 (natLe 0 8)) = true) ∧
     ((fieldAt (sealedOrder 4096 10 (natLe 0 8)).bytes (sealAt (sealedOrder 4096 10 (natLe 0 8)).bytes)
                4 ==
              fieldAt (sealedOrder 4096 10 (natLe 0 8)).bytes 8 8 % 2 ^ 32 &&
            fieldAt (sealedOrder 4096 10 (natLe 0 8)).bytes
                (sealAt (sealedOrder 4096 10 (natLe 0 8)).bytes + 4) 4 ==
              orderCrc (sealedOrder 4096 10 (natLe 0 8)).bytes) =
          true ∧
        (awaiting (sealedOrder 4096 10 (natLe 0 8))).flag Fld.INTAKE_STAT_HELD = false ∧
          fieldAt (sealedOrder 4096 10 (natLe 0 8)).bytes 8 8 ≠ 0 ∧
            (awaiting (sealedOrder 4096 10 (natLe 0 8))).nextSeq ≤
                fieldAt (sealedOrder 4096 10 (natLe 0 8)).bytes 8 8 ∧
              fieldAt (sealedOrder 4096 10 (natLe 0 8)).bytes 8 8 <
                  (awaiting (sealedOrder 4096 10 (natLe 0 8))).nextSeq + 4096 ∧
                ∀ y ∈ (awaiting (sealedOrder 4096 10 (natLe 0 8))).intake.slots,
                  y.idx ≠ 7 →
                    y.checked = true →
                      fieldAt y.bytes 8 8 ≠ fieldAt (sealedOrder 4096 10 (natLe 0 8)).bytes 8 8) ∧
     (((awaiting (sealedOrder 4096 10 (natLe 0 8))).tick 600).myTurn
          { idx := (sealedOrder 4096 10 (natLe 0 8)).idx, st := (sealedOrder 4096 10 (natLe 0 8)).st,
            bytes := (sealedOrder 4096 10 (natLe 0 8)).bytes,
            ran := (sealedOrder 4096 10 (natLe 0 8)).ran,
            since := (sealedOrder 4096 10 (natLe 0 8)).since,
            src := (sealedOrder 4096 10 (natLe 0 8)).src,
            sealedAt := (sealedOrder 4096 10 (natLe 0 8)).sealedAt,
            closing := (sealedOrder 4096 10 (natLe 0 8)).closing,
            policy := (sealedOrder 4096 10 (natLe 0 8)).policy, checked := true,
            through := (sealedOrder 4096 10 (natLe 0 8)).through,
            drawn := (sealedOrder 4096 10 (natLe 0 8)).drawn : Slot } =
        false)) ∧
    ((7 < 4096) ∧
     ((awaiting (sealedOrder 1 11 (natLe 0 8))).accepting = true) ∧
     ((awaiting (sealedOrder 1 11 (natLe 0 8))).slotAt 7 = some (sealedOrder 1 11 (natLe 0 8))) ∧
     ((sealedOrder 1 11 (natLe 0 8)).idx = 7) ∧
     ((sealedOrder 1 11 (natLe 0 8)).st = SlotState.sealed) ∧
     (((awaiting (sealedOrder 1 11 (natLe 0 8))).tick 600).myTurn
          { idx := (sealedOrder 1 11 (natLe 0 8)).idx, st := (sealedOrder 1 11 (natLe 0 8)).st,
            bytes := (sealedOrder 1 11 (natLe 0 8)).bytes, ran := (sealedOrder 1 11 (natLe 0 8)).ran,
            since := (sealedOrder 1 11 (natLe 0 8)).since, src := (sealedOrder 1 11 (natLe 0 8)).src,
            sealedAt := (sealedOrder 1 11 (natLe 0 8)).sealedAt,
            closing := (sealedOrder 1 11 (natLe 0 8)).closing,
            policy := (sealedOrder 1 11 (natLe 0 8)).policy, checked := true,
            through := (sealedOrder 1 11 (natLe 0 8)).through,
            drawn := (sealedOrder 1 11 (natLe 0 8)).drawn : Slot } =
        true) ∧
     ((sealedOrder 1 11 (natLe 0 8)).checked = true ∨
        (sealedOrder 1 11 (natLe 0 8)).checked = false ∧
          (awaiting (sealedOrder 1 11 (natLe 0 8))).nextToCheck (sealedOrder 1 11 (natLe 0 8)) = true ∧
            (fieldAt (sealedOrder 1 11 (natLe 0 8)).bytes (sealAt (sealedOrder 1 11 (natLe 0 8)).bytes)
                      4 ==
                    fieldAt (sealedOrder 1 11 (natLe 0 8)).bytes 8 8 % 2 ^ 32 &&
                  fieldAt (sealedOrder 1 11 (natLe 0 8)).bytes
                      (sealAt (sealedOrder 1 11 (natLe 0 8)).bytes + 4) 4 ==
                    orderCrc (sealedOrder 1 11 (natLe 0 8)).bytes) =
                true ∧
              (awaiting (sealedOrder 1 11 (natLe 0 8))).flag Fld.INTAKE_STAT_HELD = false ∧
                fieldAt (sealedOrder 1 11 (natLe 0 8)).bytes 8 8 ≠ 0 ∧
                  (awaiting (sealedOrder 1 11 (natLe 0 8))).nextSeq ≤
                      fieldAt (sealedOrder 1 11 (natLe 0 8)).bytes 8 8 ∧
                    fieldAt (sealedOrder 1 11 (natLe 0 8)).bytes 8 8 <
                        (awaiting (sealedOrder 1 11 (natLe 0 8))).nextSeq + 4096 ∧
                      ∀ y ∈ (awaiting (sealedOrder 1 11 (natLe 0 8))).intake.slots,
                        y.idx ≠ 7 →
                          y.checked = true →
                            fieldAt y.bytes 8 8 ≠ fieldAt (sealedOrder 1 11 (natLe 0 8)).bytes 8 8) ∧
     ((List.filter (fun x => x.accepted) (awaiting (sealedOrder 1 11 (natLe 0 8))).intake.orders).length <
        16384) ∧
     (fieldAt (sealedOrder 1 11 (natLe 0 8)).bytes 1 1 = 0) ∧
     (fieldAt (sealedOrder 1 11 (natLe 0 8)).bytes 0 1 ≠ 3) ∧
     ((awaiting (sealedOrder 1 11 (natLe 0 8))).ringRoom (sealedOrder 1 11 (natLe 0 8)).bytes = true) ∧
     (headerBad (sealedOrder 1 11 (natLe 0 8)).bytes = some 0)) ∧
    ((7 < 4096) ∧
     ((awaiting (sealedOrder 1 10 (natLe 2 8))).accepting = true) ∧
     ((awaiting (sealedOrder 1 10 (natLe 2 8))).slotAt 7 = some (sealedOrder 1 10 (natLe 2 8))) ∧
     ((sealedOrder 1 10 (natLe 2 8)).idx = 7) ∧
     ((sealedOrder 1 10 (natLe 2 8)).st = SlotState.sealed) ∧
     (((awaiting (sealedOrder 1 10 (natLe 2 8))).tick 600).myTurn
          { idx := (sealedOrder 1 10 (natLe 2 8)).idx, st := (sealedOrder 1 10 (natLe 2 8)).st,
            bytes := (sealedOrder 1 10 (natLe 2 8)).bytes, ran := (sealedOrder 1 10 (natLe 2 8)).ran,
            since := (sealedOrder 1 10 (natLe 2 8)).since, src := (sealedOrder 1 10 (natLe 2 8)).src,
            sealedAt := (sealedOrder 1 10 (natLe 2 8)).sealedAt,
            closing := (sealedOrder 1 10 (natLe 2 8)).closing,
            policy := (sealedOrder 1 10 (natLe 2 8)).policy, checked := true,
            through := (sealedOrder 1 10 (natLe 2 8)).through,
            drawn := (sealedOrder 1 10 (natLe 2 8)).drawn : Slot } =
        true) ∧
     ((sealedOrder 1 10 (natLe 2 8)).checked = true ∨
        (sealedOrder 1 10 (natLe 2 8)).checked = false ∧
          (awaiting (sealedOrder 1 10 (natLe 2 8))).nextToCheck (sealedOrder 1 10 (natLe 2 8)) = true ∧
            (fieldAt (sealedOrder 1 10 (natLe 2 8)).bytes (sealAt (sealedOrder 1 10 (natLe 2 8)).bytes)
                      4 ==
                    fieldAt (sealedOrder 1 10 (natLe 2 8)).bytes 8 8 % 2 ^ 32 &&
                  fieldAt (sealedOrder 1 10 (natLe 2 8)).bytes
                      (sealAt (sealedOrder 1 10 (natLe 2 8)).bytes + 4) 4 ==
                    orderCrc (sealedOrder 1 10 (natLe 2 8)).bytes) =
                true ∧
              (awaiting (sealedOrder 1 10 (natLe 2 8))).flag Fld.INTAKE_STAT_HELD = false ∧
                fieldAt (sealedOrder 1 10 (natLe 2 8)).bytes 8 8 ≠ 0 ∧
                  (awaiting (sealedOrder 1 10 (natLe 2 8))).nextSeq ≤
                      fieldAt (sealedOrder 1 10 (natLe 2 8)).bytes 8 8 ∧
                    fieldAt (sealedOrder 1 10 (natLe 2 8)).bytes 8 8 <
                        (awaiting (sealedOrder 1 10 (natLe 2 8))).nextSeq + 4096 ∧
                      ∀ y ∈ (awaiting (sealedOrder 1 10 (natLe 2 8))).intake.slots,
                        y.idx ≠ 7 →
                          y.checked = true →
                            fieldAt y.bytes 8 8 ≠ fieldAt (sealedOrder 1 10 (natLe 2 8)).bytes 8 8) ∧
     ((List.filter (fun x => x.accepted) (awaiting (sealedOrder 1 10 (natLe 2 8))).intake.orders).length <
        16384) ∧
     (fieldAt (sealedOrder 1 10 (natLe 2 8)).bytes 1 1 = 0) ∧
     (fieldAt (sealedOrder 1 10 (natLe 2 8)).bytes 0 1 ≠ 3) ∧
     ((awaiting (sealedOrder 1 10 (natLe 2 8))).ringRoom (sealedOrder 1 10 (natLe 2 8)).bytes = true) ∧
     (headerBad (sealedOrder 1 10 (natLe 2 8)).bytes = none) ∧
     ((awaiting (sealedOrder 1 10 (natLe 2 8))).bodyBad (fieldAt (sealedOrder 1 10 (natLe 2 8)).bytes 0 1)
          (slice (sealedOrder 1 10 (natLe 2 8)).bytes 64
            (fieldAt (sealedOrder 1 10 (natLe 2 8)).bytes 2 2)) =
        some (4102, 64))) ∧
    ((7 < 4096) ∧
     ((awaiting (sealedOrder 1 10 (natLe 0 8))).accepting = true) ∧
     ((awaiting (sealedOrder 1 10 (natLe 0 8))).slotAt 7 = some (sealedOrder 1 10 (natLe 0 8))) ∧
     ((sealedOrder 1 10 (natLe 0 8)).idx = 7) ∧
     ((sealedOrder 1 10 (natLe 0 8)).st = SlotState.sealed) ∧
     (((awaiting (sealedOrder 1 10 (natLe 0 8))).tick 600).myTurn
          { idx := (sealedOrder 1 10 (natLe 0 8)).idx, st := (sealedOrder 1 10 (natLe 0 8)).st,
            bytes := (sealedOrder 1 10 (natLe 0 8)).bytes, ran := (sealedOrder 1 10 (natLe 0 8)).ran,
            since := (sealedOrder 1 10 (natLe 0 8)).since, src := (sealedOrder 1 10 (natLe 0 8)).src,
            sealedAt := (sealedOrder 1 10 (natLe 0 8)).sealedAt,
            closing := (sealedOrder 1 10 (natLe 0 8)).closing,
            policy := (sealedOrder 1 10 (natLe 0 8)).policy, checked := true,
            through := (sealedOrder 1 10 (natLe 0 8)).through,
            drawn := (sealedOrder 1 10 (natLe 0 8)).drawn : Slot } =
        true) ∧
     ((sealedOrder 1 10 (natLe 0 8)).checked = true ∨
        (sealedOrder 1 10 (natLe 0 8)).checked = false ∧
          (awaiting (sealedOrder 1 10 (natLe 0 8))).nextToCheck (sealedOrder 1 10 (natLe 0 8)) = true ∧
            (fieldAt (sealedOrder 1 10 (natLe 0 8)).bytes (sealAt (sealedOrder 1 10 (natLe 0 8)).bytes)
                      4 ==
                    fieldAt (sealedOrder 1 10 (natLe 0 8)).bytes 8 8 % 2 ^ 32 &&
                  fieldAt (sealedOrder 1 10 (natLe 0 8)).bytes
                      (sealAt (sealedOrder 1 10 (natLe 0 8)).bytes + 4) 4 ==
                    orderCrc (sealedOrder 1 10 (natLe 0 8)).bytes) =
                true ∧
              (awaiting (sealedOrder 1 10 (natLe 0 8))).flag Fld.INTAKE_STAT_HELD = false ∧
                fieldAt (sealedOrder 1 10 (natLe 0 8)).bytes 8 8 ≠ 0 ∧
                  (awaiting (sealedOrder 1 10 (natLe 0 8))).nextSeq ≤
                      fieldAt (sealedOrder 1 10 (natLe 0 8)).bytes 8 8 ∧
                    fieldAt (sealedOrder 1 10 (natLe 0 8)).bytes 8 8 <
                        (awaiting (sealedOrder 1 10 (natLe 0 8))).nextSeq + 4096 ∧
                      ∀ y ∈ (awaiting (sealedOrder 1 10 (natLe 0 8))).intake.slots,
                        y.idx ≠ 7 →
                          y.checked = true →
                            fieldAt y.bytes 8 8 ≠ fieldAt (sealedOrder 1 10 (natLe 0 8)).bytes 8 8) ∧
     ((List.filter (fun x => x.accepted) (awaiting (sealedOrder 1 10 (natLe 0 8))).intake.orders).length <
        16384) ∧
     (fieldAt (sealedOrder 1 10 (natLe 0 8)).bytes 1 1 = 0) ∧
     (fieldAt (sealedOrder 1 10 (natLe 0 8)).bytes 0 1 ≠ 3) ∧
     ((awaiting (sealedOrder 1 10 (natLe 0 8))).ringRoom (sealedOrder 1 10 (natLe 0 8)).bytes = true) ∧
     (headerBad (sealedOrder 1 10 (natLe 0 8)).bytes = none) ∧
     ((awaiting (sealedOrder 1 10 (natLe 0 8))).bodyBad (fieldAt (sealedOrder 1 10 (natLe 0 8)).bytes 0 1)
          (slice (sealedOrder 1 10 (natLe 0 8)).bytes 64
            (fieldAt (sealedOrder 1 10 (natLe 0 8)).bytes 2 2)) =
        none)) :=
  ⟨⟨by decide +kernel, by decide +kernel, rfl, by decide +kernel, by decide +kernel, by decide +kernel, by decide +kernel, by decide +kernel, by decide +kernel, by decide +kernel⟩,
   ⟨by decide +kernel, by decide +kernel, rfl, by decide +kernel, by decide +kernel, by decide +kernel, by decide +kernel, by decide +kernel⟩,
   ⟨by decide +kernel, by decide +kernel, rfl, by decide +kernel, by decide +kernel, by decide +kernel, by decide +kernel, by decide +kernel, by decide +kernel⟩,
   ⟨by decide +kernel, by decide +kernel, rfl, by decide +kernel, by decide +kernel, by decide +kernel, by decide +kernel, by decide +kernel, by decide +kernel, by decide +kernel⟩,
   ⟨by decide +kernel, by decide +kernel, rfl, by decide +kernel, by decide +kernel, by decide +kernel, by decide +kernel, by decide +kernel, by decide +kernel⟩,
   ⟨by decide +kernel, by decide +kernel, rfl, by decide +kernel, by decide +kernel, by decide +kernel, by decide +kernel, by decide +kernel, by decide +kernel, by decide +kernel, by decide +kernel, by decide +kernel⟩,
   ⟨by decide +kernel, by decide +kernel, rfl, by decide +kernel, by decide +kernel, by decide +kernel, by decide +kernel, by decide +kernel, by decide +kernel, by decide +kernel, by decide +kernel, by decide +kernel, by decide +kernel⟩,
   ⟨by decide +kernel, by decide +kernel, rfl, by decide +kernel, by decide +kernel, by decide +kernel, by decide +kernel, by decide +kernel, by decide +kernel, by decide +kernel, by decide +kernel, by decide +kernel, by decide +kernel⟩⟩

/-- Intake is on over one order, and port J0 has acknowledged FSEQ 5. -/
def acked (o : Order) : State := ((State.withOrder up o).setFlag Fld.INTAKE_CTL_ENABLE true)

/-- An order of SEQ 9 whose record is FSEQ 1, journaled. -/
def journaled : Order := { anOrder 9 (orderBytes 10 0 (natLe 0 8)) with phase := .journaled, recFseq := 1, acceptedPosted := false, policy := 1 }

/-- The Receipt Log is at an address. -/
def logging (s : State) : State := State.withFlds s [(Fld.RECEIPT_BASE_ADDR, 16), (Fld.RECEIPT_SIZE_LOG2, 6)]

/-- An order whose policy asks for no partner. -/
def localRecord : Order := { journaled with policy := 0 }

/-- Its completion is due. -/
def completed : Order := { anOrder 9 (orderBytes 10 0 (natLe 0 8)) with phase := .done, final := some (⟨9, 0, 7, 2, 0, 0, 10, 0, true⟩, 1) }

/-- Recovery, which a retraining began. -/
def recovering : State := { up.setFlag Fld.LANE_CTL_RETRAIN true with ports := { up.ports with inRecovery := true } }

/-- Its release is due. -/
def releasing : Order := { completed with finalPosted := true, rel := some (⟨9, 0, 0, 3, 0, 0, 10, 0, true⟩, 2) }

/-- Nothing is due. -/
def idleOrder : Order := anOrder 9 (orderBytes 10 0 (natLe 0 8))

theorem wit_ReceiptsPosted :
    (((acked journaled).accepting = true) ∧
     ((acked journaled).order 9 = some journaled) ∧
     (journaled.phase = OrderPhase.journaled) ∧
     ((acked journaled).durable journaled.recFseq journaled.policy = false)) ∧
    (((logging (acked localRecord)).accepting = true) ∧
     ((logging (acked localRecord)).order 9 = some localRecord) ∧
     (localRecord.phase = OrderPhase.journaled) ∧
     ((logging (acked localRecord)).durable localRecord.recFseq localRecord.policy = true) ∧
     ((logging (acked localRecord)).intake.held = []) ∧
     ((logging (acked localRecord)).logRoom = true) ∧
     (9 + 1 < 2 ^ 64)) ∧
    (((logging (acked completed)).cUp = true) ∧
     ((logging (acked completed)).intakeOn = true) ∧
     ((logging (acked completed)).boot.recovering = none) ∧
     ((logging (acked completed)).order 9 = some completed) ∧
     (completed.acceptedPosted = true) ∧
     (completed.phase = OrderPhase.done) ∧
     (completed.final =
        some
          ({ seq := 9, step := 0, payload := 7, kind := 2, flags := 0, code := 0, opcode := 10,
              phaseAt := 0, own := true : Receipt },
            1)) ∧
     (completed.finalPosted = false) ∧
     ((logging (acked completed)).durable 1 completed.policy = true) ∧
     ({ seq := 9, step := 0, payload := 7, kind := 2, flags := 0, code := 0, opcode := 10, phaseAt := 0,
            own := true : Receipt }.seq =
        9) ∧
     ({ seq := 9, step := 0, payload := 7, kind := 2, flags := 0, code := 0, opcode := 10, phaseAt := 0,
            own := true : Receipt }.own =
        true) ∧
     ({ seq := 9, step := 0, payload := 7, kind := 2, flags := 0, code := 0, opcode := 10, phaseAt := 0,
            own := true : Receipt }.kind =
        2) ∧
     ((logging (acked completed)).intake.held = []) ∧
     ((logging (acked completed)).logRoom = true)) ∧
    (((logging (acked releasing)).cUp = true) ∧
     ((logging (acked releasing)).intakeOn = true) ∧
     ((logging (acked releasing)).boot.recovering = none) ∧
     ((logging (acked releasing)).order 9 = some releasing) ∧
     (releasing.acceptedPosted = true) ∧
     (releasing.phase = OrderPhase.done) ∧
     (releasing.finalPosted = true) ∧
     (releasing.durFlags.testBit 1 = false) ∧
     (releasing.rel =
        some
          ({ seq := 9, step := 0, payload := 0, kind := 3, flags := 0, code := 0, opcode := 10,
              phaseAt := 0, own := true : Receipt },
            2)) ∧
     ((logging (acked releasing)).durable 2 releasing.policy = true) ∧
     ({ seq := 9, step := 0, payload := 0, kind := 3, flags := 0, code := 0, opcode := 10, phaseAt := 0,
            own := true : Receipt }.seq =
        9) ∧
     ({ seq := 9, step := 0, payload := 0, kind := 3, flags := 0, code := 0, opcode := 10, phaseAt := 0,
            own := true : Receipt }.own =
        true) ∧
     ({ seq := 9, step := 0, payload := 0, kind := 3, flags := 0, code := 0, opcode := 10, phaseAt := 0,
            own := true : Receipt }.kind =
        3) ∧
     ((logging (acked releasing)).intake.held = []) ∧
     ((logging (acked releasing)).logRoom = true)) ∧
    (((logging (acked idleOrder)).cUp = true) ∧
     ((logging (acked idleOrder)).intakeOn = true) ∧
     ((logging (acked idleOrder)).boot.recovering = none) ∧
     ((logging (acked idleOrder)).order 9 = some idleOrder) ∧
     (idleOrder.acceptedPosted = true) ∧
     (idleOrder.phase = OrderPhase.accepted) ∧
     (idleOrder.final = none) ∧
     (idleOrder.finalPosted = false)) :=
  ⟨by decide +kernel,
   by decide +kernel,
   by decide +kernel,
   by decide +kernel,
   by decide +kernel⟩

/-- One receipt is held in a full log. -/
def fullLog : State :=
  let s := (State.withFlds (logging up) [(Fld.RECEIPT_HEAD_PRODUCED, 64), (Fld.INTAKE_STAT_LOG_FULL, 1), (Fld.INTAKE_CTL_ENABLE, 1)])
  { s with intake := { s.intake with held := [⟨9, 0, 0, 4, 0, 0x1001, 10, 0, false⟩] } }

theorem wit_ReceiptConsumed :
    (((logging up).reach (hostWrites (7 * 2 ^ 32)).port Reg.RECEIPT_HEAD = true) ∧
     (accField (hostWrites (7 * 2 ^ 32)) Fld.RECEIPT_HEAD_CONSUMED = some 7) ∧
     ((logging up).intake.held = [])) ∧
    ((fullLog.reach (hostWrites (1 * 2 ^ 32)).port Reg.RECEIPT_HEAD = true) ∧
     (accField (hostWrites (1 * 2 ^ 32)) Fld.RECEIPT_HEAD_CONSUMED = some 1) ∧
     (fullLog.intake.held =
        [{ seq := 9, step := 0, payload := 0, kind := 4, flags := 0, code := 4097, opcode := 10,
            phaseAt := 0, own := false : Receipt }]) ∧
     ({ seq := 9, step := 0, payload := 0, kind := 4, flags := 0, code := 4097, opcode := 10,
            phaseAt := 0, own := false : Receipt }.own =
        false) ∧
     (fullLog.intakeOn = true) ∧
     (fullLog.boot.recovering = none) ∧
     (fullLog.logBase = 0 ∨
        (fullLog.fld Fld.RECEIPT_HEAD_PRODUCED + 2 ^ 32 - 1) % 2 ^ 32 < fullLog.ringSize)) :=
  ⟨by decide +kernel,
   by decide +kernel⟩

/-- Intake is on under a QUIESCE hold. -/
def quiesced : State := State.withFlds up [(Fld.INTAKE_STAT_HELD, 1), (Fld.INTAKE_CTL_ENABLE, 1)]

/-- An accepted order whose ACCEPTED has been posted, intake off. -/
def posted : Order := { idleOrder with latest := some ⟨9, 0, 0, 1, 0, 0, 10, 0, true⟩ }

/-- A recovery from a cold reset waits for a partner. -/
def waitsOn : State := { up with boot := { up.boot with recovering := some .cold } }

theorem wit_IntakeControl :
    ((quiesced.reach (hostWrites 3).port Reg.INTAKE_CTL = true) ∧
     (accSets (hostWrites 3) Fld.INTAKE_CTL_RESUME = true) ∧
     (accSets (hostWrites 3) Fld.INTAKE_CTL_FORCE_OPEN = false) ∧
     (quiesced.intakeOn = true) ∧
     (accField (hostWrites 3) Fld.INTAKE_CTL_ENABLE = some 1)) ∧
    (((State.withOrder up posted).reach (hostWrites 1).port Reg.INTAKE_CTL = true) ∧
     ((State.withOrder up posted).intakeOn = false) ∧
     (accField (hostWrites 1) Fld.INTAKE_CTL_ENABLE = some 1) ∧
     (accSets (hostWrites 1) Fld.INTAKE_CTL_RESUME = false) ∧
     (accSets (hostWrites 1) Fld.INTAKE_CTL_FORCE_OPEN = false) ∧
     ((State.withOrder up posted).boot.recovering = none) ∧
     ((State.withOrder up posted).intake.held = []) ∧
     ((State.withOrder up posted).intake.orders = [posted]) ∧
     (posted.phase = OrderPhase.accepted) ∧
     (posted.acceptedPosted = true) ∧
     (posted.finalPosted = false) ∧
     (posted.final = none) ∧
     (posted.latest =
        some
          { seq := 9, step := 0, payload := 0, kind := 1, flags := 0, code := 0, opcode := 10,
            phaseAt := 0, own := true : Receipt }) ∧
     ({ seq := 9, step := 0, payload := 0, kind := 1, flags := 0, code := 0, opcode := 10, phaseAt := 0,
            own := true : Receipt }.seq =
        posted.seq) ∧
     ({ seq := 9, step := 0, payload := 0, kind := 1, flags := 0, code := 0, opcode := 10, phaseAt := 0,
            own := true : Receipt }.own =
        true) ∧
     ((State.withOrder up posted).logRoom = true)) ∧
    ((waitsOn.reach (hostWrites 4).port Reg.INTAKE_CTL = true) ∧
     (accSets (hostWrites 4) Fld.INTAKE_CTL_FORCE_OPEN = true) ∧
     (accSets (hostWrites 4) Fld.INTAKE_CTL_RESUME = false) ∧
     (waitsOn.boot.recovering.isSome = true) ∧
     (waitsOn.readyUp = true) ∧
     (waitsOn.recoveryWaits = true)) :=
  ⟨by decide +kernel,
   by decide +kernel,
   by decide +kernel⟩

/-- Option J is not fitted. -/
def noJ : State := State.withFlds up [(Fld.DEV_GRADE_OPT_J, 0)]

theorem wit_IntakeConfiguration :
    ((quiesced.reach (hostWrites 305418240).port
          (match IntakeReg.base with
          | IntakeReg.nextSeq => Reg.INTAKE_NEXT_SEQ
          | IntakeReg.base => Reg.RECEIPT_BASE
          | IntakeReg.size => Reg.RECEIPT_SIZE) =
        true) ∧
     (quiesced.intakeOn = true ∨
        IntakeReg.base = IntakeReg.nextSeq ∧ ∃ o ∈ quiesced.intake.orders, o.phase ≠ OrderPhase.journaled)) ∧
    (((State.withOrder up posted).reach (hostWrites 305418240).port
          (match IntakeReg.nextSeq with
          | IntakeReg.nextSeq => Reg.INTAKE_NEXT_SEQ
          | IntakeReg.base => Reg.RECEIPT_BASE
          | IntakeReg.size => Reg.RECEIPT_SIZE) =
        true) ∧
     ((State.withOrder up posted).intakeOn = true ∨
        IntakeReg.nextSeq = IntakeReg.nextSeq ∧
          ∃ o ∈ (State.withOrder up posted).intake.orders, o.phase ≠ OrderPhase.journaled)) ∧
    ((up.reach (hostWrites 305418240).port
          (match IntakeReg.base with
          | IntakeReg.nextSeq => Reg.INTAKE_NEXT_SEQ
          | IntakeReg.base => Reg.RECEIPT_BASE
          | IntakeReg.size => Reg.RECEIPT_SIZE) =
        true) ∧
     (up.intakeOn = false) ∧
     (∀ o ∈ up.intake.orders, o.phase = OrderPhase.journaled)) ∧
    ((up.reach (hostWrites 18).port
          (match IntakeReg.size with
          | IntakeReg.nextSeq => Reg.INTAKE_NEXT_SEQ
          | IntakeReg.base => Reg.RECEIPT_BASE
          | IntakeReg.size => Reg.RECEIPT_SIZE) =
        true) ∧
     (up.intakeOn = false) ∧
     (∀ o ∈ up.intake.orders, o.phase = OrderPhase.journaled)) ∧
    ((up.reach (hostWrites 18).port
          (match IntakeReg.nextSeq with
          | IntakeReg.nextSeq => Reg.INTAKE_NEXT_SEQ
          | IntakeReg.base => Reg.RECEIPT_BASE
          | IntakeReg.size => Reg.RECEIPT_SIZE) =
        true) ∧
     (up.intakeOn = false) ∧
     (∀ o ∈ up.intake.orders, o.phase = OrderPhase.journaled)) ∧
    ((up.reach (hostWrites 2).port Reg.DURABILITY_POLICY = true) ∧
     (accField (hostWrites 2) Fld.DURABILITY_POLICY_POLICY = some 2) ∧
     (2 < 3)) ∧
    ((noJ.reach (hostWrites 2).port Reg.DURABILITY_POLICY = true) ∧
     (accField (hostWrites 2) Fld.DURABILITY_POLICY_POLICY = some 2) ∧
     (2 < 3)) :=
  ⟨by decide +kernel,
   by decide +kernel,
   by decide +kernel,
   by decide +kernel,
   by decide +kernel,
   by decide +kernel,
   by decide +kernel⟩

/-- A frame of 20 bytes with FSEQ 4. -/
def aFrame : JFrame := ⟨4, 1, false, 0, 0, 1, 9, zeros 20, 1, true, true⟩

/-- Both journal ports are UP; J0 and J1 hold a state. -/
def journal (q p : JPort) : State :=
  { State.withFlds up [(Fld.JRNL_STAT_J0_STATE, 3), (Fld.JRNL_STAT_J1_STATE, 3), (Fld.JRNL_NEXT_FSEQ_FSEQ, 5)] with
    jrnl := { up.jrnl with frames := [aFrame], j0 := q, j1 := p } }

/-- The frame heads the queue, within a credit. -/
def queued (credit : Nat) (retx : Bool) : JPort := { JPort.reset with queue := [(4, retx)], credit := credit }

/-- A frame of a partner with two numbers. -/
def fromPartner (typ a b : Nat) : List Byte := wireFrame typ 0 0 0 0 0 0 0 0 (natLe a 8 ++ natLe b 8 ++ zeros 8)

/-- A FETCH waits. -/
def fetching : JPort := { queued 0 false with fetchDue := some (1, 3) }

theorem wit_JournalSending :
    ((up.cUp = true) ∧
     (2 ≤ 2)) ∧
    (((journal (queued 1 false) JPort.reset).cUp = true) ∧
     (0 < 2) ∧
     ((journal (queued 1 false) JPort.reset).fld (jState 0) = 3) ∧
     (((journal (queued 1 false) JPort.reset).jport 0).queue = [(4, false)]) ∧
     (List.find? (fun x => x.fseq == 4) (journal (queued 1 false) JPort.reset).jrnl.frames = some aFrame) ∧
     (((journal (queued 1 false) JPort.reset).jport 0).used + (68 + aFrame.payload.length + 4095) / 4096 ≤
        ((journal (queued 1 false) JPort.reset).jport 0).credit)) ∧
    (((journal (queued 1 false) (queued 1 true)).cUp = true) ∧
     (1 < 2) ∧
     ((journal (queued 1 false) (queued 1 true)).fld (jState 1) = 3) ∧
     (((journal (queued 1 false) (queued 1 true)).jport 1).queue = [(4, true)]) ∧
     (List.find? (fun x => x.fseq == 4) (journal (queued 1 false) (queued 1 true)).jrnl.frames =
        some aFrame) ∧
     (((journal (queued 1 false) (queued 1 true)).jport 1).used +
          (68 + aFrame.payload.length + 4095) / 4096 ≤
        ((journal (queued 1 false) (queued 1 true)).jport 1).credit)) ∧
    (((journal (queued 0 false) JPort.reset).cUp = true) ∧
     (0 < 2) ∧
     ((journal (queued 0 false) JPort.reset).fld (jState 0) = 3) ∧
     (((journal (queued 0 false) JPort.reset).jport 0).queue = [(4, false)]) ∧
     (List.find? (fun x => x.fseq == 4) (journal (queued 0 false) JPort.reset).jrnl.frames = some aFrame) ∧
     (((journal (queued 0 false) JPort.reset).jport 0).credit <
        ((journal (queued 0 false) JPort.reset).jport 0).used + (68 + aFrame.payload.length + 4095) / 4096)) ∧
    (((journal (queued 1 false) JPort.reset).cUp = true) ∧
     (0 < 2) ∧
     ((journal (queued 1 false) JPort.reset).fld (jState 0) = 3) ∧
     (wireOk (fromPartner 17 9 0) = true) ∧
     (fieldAt (fromPartner 17 9 0) 3 1 = 17)) ∧
    (((journal JPort.reset fetching).cUp = true) ∧
     (1 < 2) ∧
     ((journal JPort.reset fetching).fld (jState 1) = 3) ∧
     (wireOk (fromPartner 17 9 0) = true) ∧
     (fieldAt (fromPartner 17 9 0) 3 1 = 17)) ∧
    (((journal JPort.reset fetching).cUp = true) ∧
     (1 < 2) ∧
     ((journal JPort.reset fetching).fld (jState 1) = 3) ∧
     (wireOk (zeros 68) = false)) :=
  ⟨by decide +kernel,
   by decide +kernel,
   by decide +kernel,
   by decide +kernel,
   by decide +kernel,
   by decide +kernel,
   by decide +kernel⟩

/-- A frame was sent in cycle 100. -/
def unacked (expiries : Nat) : JPort := { JPort.reset with unacked := [(4, 100)], queue := [(3, false), (4, false), (6, false)], expiries := expiries }

/-- ACK_TIMEOUT is 50 cycles, RETRIES is 3. -/
def expiring (p : JPort) : State := State.withFlds (journal p p) [(Fld.JRNL_CTL_ACK_TIMEOUT, 50), (Fld.JRNL_CTL_RETRIES, 3)]

theorem wit_JournalAcknowledgement :
    ((0 < 2) ∧
     ((journal (unacked 1) JPort.reset).cUp = true) ∧
     ((journal (unacked 1) JPort.reset).fld (jState 0) = 3) ∧
     (wireOk (fromPartner 16 5 0) = true) ∧
     (fieldAt (fromPartner 16 5 0) 3 1 = 16) ∧
     ((journal (unacked 1) JPort.reset).fld (jAcked 0) < fieldAt (fromPartner 16 5 0) 64 8) ∧
     ((journal (unacked 1) JPort.reset).policyShort = false)) ∧
    ((0 < 2) ∧
     ((journal (unacked 1) JPort.reset).cUp = true) ∧
     ((journal (unacked 1) JPort.reset).fld (jState 0) = 3) ∧
     (wireOk (fromPartner 16 0 0) = true) ∧
     (fieldAt (fromPartner 16 0 0) 3 1 = 16) ∧
     (fieldAt (fromPartner 16 0 0) 64 8 ≤ (journal (unacked 1) JPort.reset).fld (jAcked 0))) ∧
    ((0 < 2) ∧
     ((journal (unacked 1) JPort.reset).cUp = true) ∧
     ((journal (unacked 1) JPort.reset).fld (jState 0) = 3) ∧
     (wireOk (zeros 68) = false)) ∧
    ((0 < 2) ∧
     ((expiring (unacked 1)).cUp = true) ∧
     ((expiring (unacked 1)).fld (jState 0) = 3) ∧
     (((expiring (unacked 1)).jport 0).unacked = [(4, 100)]) ∧
     (((expiring (unacked 1)).tick 151).past
          (max 100 ((expiring (unacked 1)).jport 0).advanced +
            (expiring (unacked 1)).fld Fld.JRNL_CTL_ACK_TIMEOUT) =
        true) ∧
     (((expiring (unacked 1)).jport 0).expiries + 1 < (expiring (unacked 1)).fld Fld.JRNL_CTL_RETRIES)) ∧
    ((1 < 2) ∧
     ((expiring (unacked 2)).cUp = true) ∧
     ((expiring (unacked 2)).fld (jState 1) = 3) ∧
     (((expiring (unacked 2)).jport 1).unacked = [(4, 100)]) ∧
     (((expiring (unacked 2)).tick 151).past
          (max 100 ((expiring (unacked 2)).jport 1).advanced +
            (expiring (unacked 2)).fld Fld.JRNL_CTL_ACK_TIMEOUT) =
        true) ∧
     ((expiring (unacked 2)).fld Fld.JRNL_CTL_RETRIES ≤ ((expiring (unacked 2)).jport 1).expiries + 1)) ∧
    ((1 < 2) ∧
     ((expiring (unacked 2)).cUp = true) ∧
     ((expiring (unacked 2)).fld (jState 1) = 3) ∧
     (((expiring (unacked 2)).jport 1).unacked = [(4, 100)]) ∧
     (((expiring (unacked 2)).tick 150).past
          (max 100 ((expiring (unacked 2)).jport 1).advanced +
            (expiring (unacked 2)).fld Fld.JRNL_CTL_ACK_TIMEOUT) =
        false)) ∧
    ((1 < 2) ∧
     ((expiring (unacked 2)).cUp = true) ∧
     ((expiring (unacked 2)).fld (jState 1) = 3)) :=
  ⟨by decide +kernel,
   by decide +kernel,
   by decide +kernel,
   by decide +kernel,
   by decide +kernel,
   by decide +kernel,
   by decide +kernel⟩

/-- Option J is fitted, and J0 and J1 stand in a state. -/
def ported (st : Nat) : State :=
  { State.withFlds up [(Fld.DEV_GRADE_OPT_J, 1), (Fld.JRNL_STAT_J0_STATE, st), (Fld.JRNL_STAT_J1_STATE, st)] with
    jrnl := { up.jrnl with frames := [aFrame] } }

theorem wit_JournalTraining :
    ((0 < 2) ∧
     ((ported 1).cUp = true) ∧
     ((ported 1).optJ = true) ∧
     ((ported 1).fld (jState 0) ≠ 0)) ∧
    ((1 < 2) ∧
     ((ported 3).cUp = true) ∧
     ((ported 3).reach (hostWrites (2 ^ Fld.JRNL_CTL_RETRAIN_J1.lo)).port Reg.JRNL_CTL = true) ∧
     ((ported 3).optJ = true) ∧
     ((ported 3).fld (jState 1) ≠ 0) ∧
     (accSets (hostWrites (2 ^ Fld.JRNL_CTL_RETRAIN_J1.lo)) (jRetrain 1) = true)) ∧
    ((1 < 2) ∧
     ((ported 2).cUp = true) ∧
     ((ported 2).fld (jState 1) = 2) ∧
     (wireOk (fromPartner 18 3 7) = true) ∧
     (fieldAt (fromPartner 18 3 7) 3 1 = 18) ∧
     (((ported 2).tick 5).swNow (jRetrain 1) = false) ∧
     ((ported 2).boot.recovering ≠ some ResetKind.warm) ∧
     ((ported 2).boot.recovering ≠ some ResetKind.cold) ∧
     ((ported 2).jrnl.frames = [] ∨ (ported 2).oldestFseq ≤ fieldAt (fromPartner 18 3 7) 64 8 + 1) ∧
     ((ported 2).policyNow ≤ 1)) :=
  ⟨by decide +kernel,
   by decide +kernel,
   by decide +kernel⟩

/-- J0 is UP and J1 trains. -/
def oneTrains : State := State.withFlds up [(Fld.JRNL_STAT_J0_STATE, 3), (Fld.JRNL_STAT_J1_STATE, 2)]

/-- A REPLAY frame around a stored frame. -/
def replayFrame : List Byte := wireFrame 0x13 0 0 0 0 0 0 0 0 (aFrame.wire 1 0 false)

/-- A recovery after FLR with nothing abandoned. -/
def afterFlr : State := { up.setFlag Fld.INTAKE_STAT_RECOVERING true with boot := { up.boot with recovering := some .flr } }

/-- A read of 4 bytes has been asked for. -/
def asked : State := { up with intake := { up.intake with asked := [(9, 0, 0x1000, 4), (8, 0, 0x2000, 4)] } }

theorem wit_RecoveryRows :
    ((0 < 2) ∧
     (oneTrains.cUp = true) ∧
     (oneTrains.fld (jState 0) = 3) ∧
     (oneTrains.fld (jState (1 - 0)) = 2) ∧
     (wireOk replayFrame = true) ∧
     (fieldAt replayFrame 3 1 = 19) ∧
     (wireOk (wirePayload replayFrame) = true)) ∧
    ((0 < 2) ∧
     (oneTrains.cUp = true) ∧
     (oneTrains.fld (jState 0) = 3) ∧
     (oneTrains.fld (jState (1 - 0)) = 2) ∧
     (wireOk (zeros 68) = false)) ∧
    ((up.boot.recovering = none) ∧
     (up.reloadDue = false)) ∧
    ((afterFlr.cUp = true) ∧
     (afterFlr.boot.recovering = some ResetKind.flr) ∧
     (afterFlr.stept.stepOn = false) ∧
     (afterFlr.dig.rerunTo = none) ∧
     (afterFlr.dig.reload = 0) ∧
     (afterFlr.intake.orders = []) ∧
     (afterFlr.intake.held = []) ∧
     (afterFlr.dig.script = [])) ∧
    ((asked.cUp = true) ∧
     (asked.ports.busMaster = true) ∧
     (∀ r ∈ asked.rows, r.seq ≠ 9) ∧
     (asked.dig.reload = 0) ∧
     (asked.askedFor 9 0 = some (9, 0, 4096, 4)) ∧
     (0 = 0 ∧ [1, 2, 3, 4].length = 4 ∨ 1 ≤ 0 ∧ 0 ≤ 4 ∧ [1, 2, 3, 4].length < 4)) ∧
    ((asked.cUp = true) ∧
     (asked.ports.busMaster = true) ∧
     (∀ r ∈ asked.rows, r.seq ≠ 9) ∧
     (asked.dig.reload = 0) ∧
     (asked.askedFor 9 0 = some (9, 0, 4096, 4)) ∧
     (4 = 0 ∧ [1, 2, 3].length = 4 ∨ 1 ≤ 4 ∧ 4 ≤ 4 ∧ [1, 2, 3].length < 4)) :=
  ⟨by decide +kernel,
   by decide +kernel,
   by decide +kernel,
   by decide +kernel,
   by decide +kernel,
   by decide +kernel⟩

/-- A MARK of step 4 with D_TOTAL 100 and D_ACC 30; a PHASE of step 4; a READY for step 5; a WAIT for step 4. -/
def aMark : List Byte := markFrame 0 8 8 4 100000 100 30

/-- A frame that came 1,000 cycles ago on the other pair. -/
def repeated : State := { up with stept := { up.stept with recent := [(aMark, 40)] } }

/-- The device originates marks, every PERIOD or on credits. -/
def source (sel drive : Nat) : State := State.withFlds up [(Fld.STEP_SRC_SEL, sel), (Fld.STEP_SRC_DRIVE_OUT, drive), (Fld.STEP_STAT_ADV_CREDIT, 3)]

/-- A PHASE frame of mark 4. -/
def aPhase (p : Nat) : List Byte := phaseFrame p 4 30

/-- Step 4 is in progress on that mark, in phase 2. -/
def stepping : State :=
  { State.withFlds (source 0 0) [(Fld.STEP_NOW_STEP, 4), (Fld.STEP_PHASE_PHASE, 2), (Fld.STEP_PHASE_PHASES_LOG2, 8), (Fld.STEP_PHASE_LAG, 7), (Fld.DEV_STAT_RUNNING, 1)] with
    stept := { up.stept with run := some { theRun with next := 5, started := true }, stepOn := true, anchor := some ⟨0, 120, 4, 6250⟩, stepMark := some theMark, predicted := some 100120, period := some 100000, instant := some (4, 50) } }

/-- A WAIT frame for mark 4. -/
def aWait : List Byte := waitFrame 4

/-- A barrier source waits for READY for step 5 since cycle 100. -/
def waiting : State := { source 1 1 with stept := { up.stept with waitSince := some 100, gen := some (4, 90), effMargin := 400, run := some { theRun with next := 5 } } }

/-- A READY frame for step 5. -/
def aReady : List Byte := readyFrame false 50 5

/-- That mark of another step, as a PHASE mark, and one to be applied later. -/
def markOf (n : Nat) : Mark := { theMark with step := n }

/-- That mark, applied at cycle 700. -/
def laterMark : Mark := { theMark with applyAt := 700 }

/-- A phase mark is due in the step in progress. -/
def phaseDue (p : Nat) : State := { stepping with stept := { stepping.stept with marks := [{ theMark with isPhase := true, phase := p }] } }

/-- A mark of a phase of the same step. -/
def phaseMark (p : Nat) : Mark := { theMark with isPhase := true, phase := p }

/-- Step 4 is in progress in holdover, with a mark for step 5 that holdover made. -/
def heldStep : State := { stepping.setFlag Fld.STEP_STAT_HOLDOVER true with stept := { stepping.stept with marks := [{ theMark with step := 5, holdover := true, fromLink := false, applyAt := 900 }], gen := some (5, 400) } }

/-- A step mark for step 5 is due while step 4 is in progress; or with no run. -/
def stepDue (s : State) : State := { s with stept := { s.stept with marks := [{ theMark with step := 5 }] } }

theorem wit_CampanileFrames_1 :
    ((up.cUp = true) ∧
     ((up.tick 50).inFrame true aMark = false)) ∧
    ((repeated.cUp = true) ∧
     ((repeated.tick 1064).inFrame false aMark = false)) ∧
    ((up.cUp = true) ∧
     ((up.tick 50).inFrame false (zeros 32) = true) ∧
     ((1, Instr.markFrame 50 false (zeros 32)) ∈
        [(1, Instr.markFrame 50 false (zeros 32)), (2, Instr.phaseFrame 50 false (zeros 32)),
          (3, Instr.readyFrame 50 (zeros 32)), (4, Instr.waitFrame 50 false (zeros 32))]) ∧
     (frameCrcOk (1, Instr.markFrame 50 false (zeros 32)).1 (zeros 32) = false)) ∧
    ((up.cUp = true) ∧
     ((up.tick 50).inFrame false (withCrc [4, 1, 0, 0, 0, 0, 0, 0, 0, 0, 0, 0]) = true) ∧
     ((4, Instr.waitFrame 50 false (withCrc [4, 1, 0, 0, 0, 0, 0, 0, 0, 0, 0, 0])) ∈
        [(1, Instr.markFrame 50 false (withCrc [4, 1, 0, 0, 0, 0, 0, 0, 0, 0, 0, 0])),
          (2, Instr.phaseFrame 50 false (withCrc [4, 1, 0, 0, 0, 0, 0, 0, 0, 0, 0, 0])),
          (3, Instr.readyFrame 50 (withCrc [4, 1, 0, 0, 0, 0, 0, 0, 0, 0, 0, 0])),
          (4, Instr.waitFrame 50 false (withCrc [4, 1, 0, 0, 0, 0, 0, 0, 0, 0, 0, 0]))])) ∧
    ((up.cUp = true) ∧
     ((up.tick 50).inFrame false (withCrc [4, 1, 0, 0, 0, 0, 0, 0, 0, 0, 0, 0]) = true) ∧
     ((4, Instr.waitFrame 50 false (withCrc [4, 1, 0, 0, 0, 0, 0, 0, 0, 0, 0, 0])) ∈
        [(1, Instr.markFrame 50 false (withCrc [4, 1, 0, 0, 0, 0, 0, 0, 0, 0, 0, 0])),
          (2, Instr.phaseFrame 50 false (withCrc [4, 1, 0, 0, 0, 0, 0, 0, 0, 0, 0, 0])),
          (3, Instr.readyFrame 50 (withCrc [4, 1, 0, 0, 0, 0, 0, 0, 0, 0, 0, 0])),
          (4, Instr.waitFrame 50 false (withCrc [4, 1, 0, 0, 0, 0, 0, 0, 0, 0, 0, 0]))]) ∧
     (frameCrcOk (4, Instr.waitFrame 50 false (withCrc [4, 1, 0, 0, 0, 0, 0, 0, 0, 0, 0, 0])).1
          (withCrc [4, 1, 0, 0, 0, 0, 0, 0, 0, 0, 0, 0]) =
        true) ∧
     (frameFieldsOk (4, Instr.waitFrame 50 false (withCrc [4, 1, 0, 0, 0, 0, 0, 0, 0, 0, 0, 0])).1
          (withCrc [4, 1, 0, 0, 0, 0, 0, 0, 0, 0, 0, 0]) =
        false)) ∧
    (((source 1 0).cUp = true) ∧
     (((source 1 0).tick 50).inFrame false aMark = true) ∧
     (frameCrcOk 1 aMark = true ∧ frameFieldsOk 1 aMark = true) ∧
     ((source 1 0).stepSrc ≠ 0)) ∧
    (((source 0 0).cUp = true) ∧
     (((source 0 0).tick 50).inFrame false aMark = true) ∧
     (frameCrcOk 1 aMark = true ∧ frameFieldsOk 1 aMark = true) ∧
     ((source 0 0).stepSrc = 0) ∧
     ((source 0 0).stept.run = none) ∧
     ((source 0 0).inHoldover = false) ∧
     ((source 0 0).holds = false) ∧
     ((source 0 0).stept.predicted = none) ∧
     ((source 0 0).accOf (fieldAt aMark 22 2) ≤ fieldAt aMark 20 2)) ∧
    (((source 0 1).cUp = true) ∧
     (((source 0 1).tick 50).inFrame false aMark = true) ∧
     (frameCrcOk 1 aMark = true ∧ frameFieldsOk 1 aMark = true) ∧
     ((source 0 1).stepSrc = 0) ∧
     ((source 0 1).stept.run = none) ∧
     ((source 0 1).inHoldover = false) ∧
     ((source 0 1).holds = false) ∧
     ((source 0 1).stept.predicted = none) ∧
     ((source 0 1).accOf (fieldAt aMark 22 2) ≤ fieldAt aMark 20 2)) ∧
    (((source 2 1).cUp = true) ∧
     (((source 2 1).tick 50).inFrame false (aPhase 16) = true) ∧
     (frameCrcOk 2 (aPhase 16) = true ∧ frameFieldsOk 2 (aPhase 16) = true) ∧
     ((source 2 1).stepSrc ≠ 0)) ∧
    (((source 0 0).cUp = true) ∧
     (((source 0 0).tick 50).inFrame false (aPhase 16) = true) ∧
     (frameCrcOk 2 (aPhase 16) = true ∧ frameFieldsOk 2 (aPhase 16) = true) ∧
     ((source 0 0).stepSrc = 0) ∧
     ((source 0 0).stept.anchor = none ∨ fieldAt (aPhase 16) 4 4 ≠ (source 0 0).stepNow % 2 ^ 32)) ∧
    ((stepping.cUp = true) ∧
     ((stepping.tick 500).inFrame false (phaseFrame 16 5 30) = true) ∧
     (frameCrcOk 2 (phaseFrame 16 5 30) = true ∧ frameFieldsOk 2 (phaseFrame 16 5 30) = true) ∧
     (stepping.stepSrc = 0) ∧
     (stepping.stept.anchor = none ∨ fieldAt (phaseFrame 16 5 30) 4 4 ≠ stepping.stepNow % 2 ^ 32)) ∧
    ((stepping.cUp = true) ∧
     ((stepping.tick 500).inFrame false (aPhase 240) = true) ∧
     (frameCrcOk 2 (aPhase 240) = true ∧ frameFieldsOk 2 (aPhase 240) = true) ∧
     (stepping.stepSrc = 0) ∧
     (stepping.stept.anchor = some { m := 0, t := 120, k := 4, len := 6250 : Anchor }) ∧
     (stepping.stept.stepMark = some theMark) ∧
     (fieldAt (aPhase 240) 4 4 = stepping.stepNow % 2 ^ 32) ∧
     (stepping.phaseInStep theMark (fieldAt (aPhase 240) 2 2) = true) ∧
     (stepping.accOf (fieldAt (aPhase 240) 8 2) ≤ theMark.dTotal)) :=
  ⟨by decide +kernel,
   by decide +kernel,
   by decide +kernel,
   by decide +kernel,
   by decide +kernel,
   by decide +kernel,
   by decide +kernel,
   by decide +kernel,
   by decide +kernel,
   by decide +kernel,
   by decide +kernel,
   by decide +kernel⟩

theorem wit_CampanileFrames_2 :
    ((stepping.cUp = true) ∧
     ((stepping.tick 500).inFrame false aWait = true) ∧
     (frameCrcOk 4 aWait = true ∧ frameFieldsOk 4 aWait = true) ∧
     (stepping.stept.run.isSome = true) ∧
     (stepping.nextStep ≠ some (fieldAt aWait 4 8))) ∧
    ((stepping.cUp = true) ∧
     ((stepping.tick 500).inFrame false (waitFrame 5) = true) ∧
     (frameCrcOk 4 (waitFrame 5) = true ∧ frameFieldsOk 4 (waitFrame 5) = true) ∧
     (stepping.stept.run = none ∨ stepping.nextStep = some (fieldAt (waitFrame 5) 4 8))) ∧
    (((source 1 1).cUp = true) ∧
     (((source 1 1).tick 500).inFrame false aWait = true) ∧
     (frameCrcOk 4 aWait = true ∧ frameFieldsOk 4 aWait = true) ∧
     ((source 1 1).stept.run = none ∨ (source 1 1).nextStep = some (fieldAt aWait 4 8))) ∧
    ((waiting.cUp = true) ∧
     (frameCrcOk 3 aReady = true ∧ frameFieldsOk 3 aReady = true)) ∧
    ((up.cUp = true) ∧
     (frameCrcOk 3 aReady = true ∧ frameFieldsOk 3 aReady = true)) ∧
    (((pending 4).cUp = true) ∧
     (dueMark (max (pending 4).now 120) (pending 4).stept.marks = some (markOf 4, [laterMark])) ∧
     ((markOf 4).isPhase = false) ∧
     ((pending 4).stept.run = some theRun) ∧
     ((pending 4).stept.anchor = none) ∧
     (theRun.next ≤ (markOf 4).step)) ∧
    (((pending 3).cUp = true) ∧
     (dueMark (max (pending 3).now 120) (pending 3).stept.marks = some (markOf 3, [laterMark])) ∧
     ((markOf 3).isPhase = false) ∧
     ((pending 3).stept.run = some theRun) ∧
     ((pending 3).stept.anchor = none) ∧
     ((markOf 3).step < theRun.next)) ∧
    (((phaseDue 16).cUp = true) ∧
     (dueMark (max (phaseDue 16).now 120) (phaseDue 16).stept.marks = some (phaseMark 16, [])) ∧
     ((phaseMark 16).isPhase = true)) ∧
    (((phaseDue 1).cUp = true) ∧
     (dueMark (max (phaseDue 1).now 120) (phaseDue 1).stept.marks = some (phaseMark 1, [])) ∧
     ((phaseMark 1).isPhase = true)) ∧
    ((heldStep.cUp = true) ∧
     ((heldStep.tick 500).inFrame false (markFrame 0 8 8 5 100000 100 30) = true) ∧
     (frameCrcOk 1 (markFrame 0 8 8 5 100000 100 30) = true ∧
        frameFieldsOk 1 (markFrame 0 8 8 5 100000 100 30) = true) ∧
     (heldStep.stepSrc = 0)) ∧
    ((heldStep.cUp = true) ∧
     ((heldStep.tick 500).inFrame false aMark = true) ∧
     (frameCrcOk 1 aMark = true ∧ frameFieldsOk 1 aMark = true) ∧
     (heldStep.stepSrc = 0)) ∧
    (((source 0 1).cUp = true) ∧
     (((source 0 1).tick 50).inFrame false aMark = true) ∧
     (frameCrcOk 1 aMark = true ∧ frameFieldsOk 1 aMark = true) ∧
     ((source 0 1).stepSrc = 0)) :=
  ⟨by decide +kernel,
   by decide +kernel,
   by decide +kernel,
   by decide +kernel,
   by decide +kernel,
   by decide +kernel,
   by decide +kernel,
   by decide +kernel,
   by decide +kernel,
   by decide +kernel,
   by decide +kernel,
   by decide +kernel⟩

theorem wit_CampanileFrames_3 :
    ((stepping.cUp = true) ∧
     ((stepping.tick 500).inFrame false (aPhase 7) = true) ∧
     (frameCrcOk 2 (aPhase 7) = true ∧ frameFieldsOk 2 (aPhase 7) = true) ∧
     (stepping.stepSrc = 0) ∧
     (stepping.stept.anchor = some { m := 0, t := 120, k := 4, len := 6250 : Anchor }) ∧
     (stepping.stept.stepMark = some theMark) ∧
     (fieldAt (aPhase 7) 4 4 = stepping.stepNow % 2 ^ 32) ∧
     (stepping.phaseInStep theMark (fieldAt (aPhase 7) 2 2) = false)) ∧
    ((stepping.cUp = true) ∧
     ((stepping.tick 500).inFrame false (phaseFrame 240 4 300) = true) ∧
     (frameCrcOk 2 (phaseFrame 240 4 300) = true ∧ frameFieldsOk 2 (phaseFrame 240 4 300) = true) ∧
     (stepping.stepSrc = 0) ∧
     (stepping.stept.anchor = some { m := 0, t := 120, k := 4, len := 6250 : Anchor }) ∧
     (stepping.stept.stepMark = some theMark) ∧
     (fieldAt (phaseFrame 240 4 300) 4 4 = stepping.stepNow % 2 ^ 32) ∧
     (stepping.phaseInStep theMark (fieldAt (phaseFrame 240 4 300) 2 2) = true)) ∧
    (((stepDue stepping).cUp = true) ∧
     (dueMark (max (stepDue stepping).now 120) (stepDue stepping).stept.marks = some (markOf 5, [])) ∧
     ((markOf 5).isPhase = false) ∧
     (Option.all (fun n => decide (n ≤ (markOf 5).step)) (stepDue stepping).nextStep = true)) ∧
    (((stepDue up).cUp = true) ∧
     (dueMark (max (stepDue up).now 120) (stepDue up).stept.marks = some (markOf 5, [])) ∧
     ((markOf 5).isPhase = false) ∧
     (Option.all (fun n => decide (n ≤ (markOf 5).step)) (stepDue up).nextStep = true)) :=
  ⟨by decide +kernel,
   by decide +kernel,
   by decide +kernel,
   by decide +kernel⟩

/-- A run begins on a source. -/
def sourceRun (sel drive : Nat) : State := { source sel drive with stept := { up.stept with run := some theRun, maxAcc := 40 } }

/-- It has no credit. -/
def noCredit : State := (sourceRun 2 1).setFld Fld.STEP_STAT_ADV_CREDIT 0

/-- DEV_STAT.RUNNING is 1. -/
def running : State := up.setFlag Fld.DEV_STAT_RUNNING true

/-- A value of STEP_CTL: a period and PHASES_LOG2, with STRIDE_LOG2 5. -/
def stepCtl (period l2 : Nat) : RegAcc := hostWrites (period + l2 * 2 ^ 40 + 5 * 2 ^ 48)

/-- Option C is not fitted. -/
def noC : State := up.setFlag Fld.DEV_GRADE_OPT_C false

/-- The barrier source has generated step 4 and its period point for step 5 is past; downstream is ready or not. -/
def atPoint (ready : Nat) : State :=
  let s := State.withFlds (source 1 1) [(Fld.STEP_SRC_BARRIER, 1), (Fld.STEP_CTL_PERIOD, 4096), (Fld.STEP_CTL_PHASES_LOG2, 8)]
  { s with stept := { s.stept with gen := some (4, 100), run := some { theRun with next := 5, started := true }, outA := true, downWait := true, ready := some ready } }

theorem wit_MarkSources_1 :
    (((source 2 0).reach (hostWrites 4294967295).port Reg.STEP_ADVANCE = true) ∧
     (accField (hostWrites 4294967295) Fld.STEP_ADVANCE_COUNT = some 4294967295)) ∧
    (((source 1 0).reach (hostWrites 7).port Reg.STEP_ADVANCE = true) ∧
     (accField (hostWrites 7) Fld.STEP_ADVANCE_COUNT = some 7)) ∧
    (((sourceRun 1 0).cUp = true) ∧
     ((sourceRun 1 0).boot.recovering = none) ∧
     ((sourceRun 1 0).stept.run = some theRun) ∧
     ((sourceRun 1 0).stept.gen = none) ∧
     (theRun.b ≤ max (sourceRun 1 0).now 20) ∧
     (theRun.next ≤ theRun.first) ∧
     ((sourceRun 1 0).stept.anchor = none) ∧
     ((sourceRun 1 0).stepSrc = 1 ∨
        (sourceRun 1 0).stepSrc = 2 ∧ (sourceRun 1 0).fld Fld.STEP_STAT_ADV_CREDIT ≠ 0)) ∧
    (((sourceRun 2 0).cUp = true) ∧
     ((sourceRun 2 0).boot.recovering = none) ∧
     ((sourceRun 2 0).stept.run = some theRun) ∧
     ((sourceRun 2 0).stept.gen = none) ∧
     (theRun.b ≤ max (sourceRun 2 0).now 20) ∧
     (theRun.next ≤ theRun.first) ∧
     ((sourceRun 2 0).stept.anchor = none) ∧
     ((sourceRun 2 0).stepSrc = 1 ∨
        (sourceRun 2 0).stepSrc = 2 ∧ (sourceRun 2 0).fld Fld.STEP_STAT_ADV_CREDIT ≠ 0)) ∧
    (((sourceRun 2 1).cUp = true) ∧
     ((sourceRun 2 1).boot.recovering = none) ∧
     ((sourceRun 2 1).stept.run = some theRun) ∧
     ((sourceRun 2 1).stept.gen = none) ∧
     (theRun.b ≤ max (sourceRun 2 1).now 20) ∧
     (theRun.next ≤ theRun.first) ∧
     ((sourceRun 2 1).stept.anchor = none) ∧
     ((sourceRun 2 1).stepSrc = 1 ∨
        (sourceRun 2 1).stepSrc = 2 ∧ (sourceRun 2 1).fld Fld.STEP_STAT_ADV_CREDIT ≠ 0)) ∧
    ((noCredit.cUp = true) ∧
     (noCredit.boot.recovering = none) ∧
     (noCredit.stept.run = some theRun) ∧
     (noCredit.stept.gen = none) ∧
     (theRun.b ≤ max noCredit.now 20) ∧
     (theRun.next ≤ theRun.first) ∧
     (noCredit.stept.anchor = none) ∧
     (noCredit.stepSrc = 2) ∧
     (noCredit.fld Fld.STEP_STAT_ADV_CREDIT = 0)) ∧
    ((waiting.cUp = true) ∧
     (waiting.stept.waitSince = some 100) ∧
     (waiting.inHoldover = false) ∧
     (100 + 65536 * (waiting.stept.waitsSent + 1) ≤ max waiting.now 65636)) ∧
    ((waiting.cUp = true) ∧
     (waiting.stept.waitSince = some 100) ∧
     (waiting.stept.slowSaid = false) ∧
     ((waiting.tick 501).past (100 + waiting.stept.effMargin) = true)) ∧
    ((waiting.cUp = true) ∧
     (waiting.stept.waitSince = some 100) ∧
     ((waiting.tick 500).past (100 + waiting.stept.effMargin) = false)) ∧
    (((hostWrites 1).half = Half.whole) ∧
     (stepping.reach (hostWrites 1).port (if true = true then Reg.STEP_CTL else Reg.STEP_SRC) = true) ∧
     (stepping.running = true)) ∧
    (((hostWrites 1).half = Half.whole) ∧
     (stepping.reach (hostWrites 1).port (if false = true then Reg.STEP_CTL else Reg.STEP_SRC) = true) ∧
     (stepping.running = true)) ∧
    (((stepCtl 4096 10).half = Half.whole) ∧
     (up.reach (stepCtl 4096 10).port Reg.STEP_CTL = true) ∧
     (up.running = false) ∧
     (8 ≤ bitsOf (BitVec.toNat (stepCtl 4096 10).value) 40 5 ∧
        bitsOf (BitVec.toNat (stepCtl 4096 10).value) 40 5 ≤ 16 ∧
          4096 ≤ bitsOf (BitVec.toNat (stepCtl 4096 10).value) 0 40 ∧
            4 * 2 ^ bitsOf (BitVec.toNat (stepCtl 4096 10).value) 40 5 ≤
              bitsOf (BitVec.toNat (stepCtl 4096 10).value) 0 40)) :=
  ⟨by decide +kernel,
   by decide +kernel,
   by decide +kernel,
   by decide +kernel,
   by decide +kernel,
   by decide +kernel,
   by decide +kernel,
   by decide +kernel,
   by decide +kernel,
   by decide +kernel,
   by decide +kernel,
   by decide +kernel⟩

theorem wit_MarkSources_2 :
    (((stepCtl 262144 16).half = Half.whole) ∧
     (up.reach (stepCtl 262144 16).port Reg.STEP_CTL = true) ∧
     (up.running = false) ∧
     (8 ≤ bitsOf (BitVec.toNat (stepCtl 262144 16).value) 40 5 ∧
        bitsOf (BitVec.toNat (stepCtl 262144 16).value) 40 5 ≤ 16 ∧
          4096 ≤ bitsOf (BitVec.toNat (stepCtl 262144 16).value) 0 40 ∧
            4 * 2 ^ bitsOf (BitVec.toNat (stepCtl 262144 16).value) 40 5 ≤
              bitsOf (BitVec.toNat (stepCtl 262144 16).value) 0 40)) ∧
    (((stepCtl 4096 11).half = Half.whole) ∧
     (up.reach (stepCtl 4096 11).port Reg.STEP_CTL = true) ∧
     (up.running = false) ∧
     (¬(8 ≤ bitsOf (BitVec.toNat (stepCtl 4096 11).value) 40 5 ∧
          bitsOf (BitVec.toNat (stepCtl 4096 11).value) 40 5 ≤ 16 ∧
            4096 ≤ bitsOf (BitVec.toNat (stepCtl 4096 11).value) 0 40 ∧
              4 * 2 ^ bitsOf (BitVec.toNat (stepCtl 4096 11).value) 40 5 ≤
                bitsOf (BitVec.toNat (stepCtl 4096 11).value) 0 40))) ∧
    (((hostWrites 17).half = Half.whole) ∧
     (up.reach (hostWrites 17).port Reg.STEP_SRC = true) ∧
     (up.running = false) ∧
     (bitsOf (BitVec.toNat (hostWrites 17).value) 0 2 ≠ 3)) ∧
    (((hostWrites 18).half = Half.whole) ∧
     (noC.reach (hostWrites 18).port Reg.STEP_SRC = true) ∧
     (noC.running = false) ∧
     (bitsOf (BitVec.toNat (hostWrites 18).value) 0 2 ≠ 3)) ∧
    (((hostWrites 3).half = Half.whole) ∧
     (up.reach (hostWrites 3).port Reg.STEP_SRC = true) ∧
     (up.running = false) ∧
     (bitsOf (BitVec.toNat (hostWrites 3).value) 0 2 = 3)) ∧
    (((atPoint 4).cUp = true) ∧
     ((atPoint 4).boot.recovering = none) ∧
     (((atPoint 4).tick 4196).dueGeneration = some (5, 4196)) ∧
     (((atPoint 4).tick 4196).barrierHolds 5 = true) ∧
     ((atPoint 4).stept.waitSince = none)) ∧
    (((atPoint 5).cUp = true) ∧
     ((atPoint 5).boot.recovering = none) ∧
     (((atPoint 5).tick 4300).dueGeneration = some (5, 4196)) ∧
     (((atPoint 5).tick 4300).barrierHolds 5 = false)) ∧
    (((sourceRun 2 0).cUp = true) ∧
     ((sourceRun 2 0).boot.recovering = none) ∧
     (((sourceRun 2 0).tick 20).dueGeneration = some (4, 20)) ∧
     (((sourceRun 2 0).tick 20).barrierHolds 4 = false)) :=
  ⟨by decide +kernel,
   by decide +kernel,
   by decide +kernel,
   by decide +kernel,
   by decide +kernel,
   by decide +kernel,
   by decide +kernel,
   by decide +kernel⟩

/-- MARGIN is 400 cycles. -/
def following : State := { stepping with stept := { stepping.stept with effMargin := 400, effLimit := 3 } }

/-- Light was lost in the cycle of the last MARK. -/
def lostThen : State := { following with stept := { following.stept with lossAt := some 50, stepOn := false } }

/-- Holdover since a mark of step 4 in cycle 50. -/
def holding : State := { following.setFlag Fld.STEP_STAT_HOLDOVER true with stept := { following.stept with gen := some (4, 50) } }

/-- Campanile Out is up. -/
def driving : State := { up with stept := { up.stept with outA := true, downWait := true } }

/-- The last echo set of pair A is out since cycle 100. -/
def echoing : State := { up with stept := { up.stept with inA := { up.stept.inA with echoSent := [(7, 100)], echoCount := 63, echoSum := 1000 } } }

/-- An echo set is to be returned. -/
def returning : State := { up with stept := { up.stept with echoOut := [(70, 100)] } }

theorem wit_ReferenceLoss_1 :
    ((following.cUp = true) ∧
     (following.stept.run.isSome = true) ∧
     (following.stepSrc = 0) ∧
     (following.inHoldover = false) ∧
     (following.holds = false) ∧
     (following.stept.predicted = some 100120) ∧
     (following.stept.lossAt = none) ∧
     (following.stept.stepOn = true) ∧
     ((following.tick 100521).past (100120 + following.stept.effMargin) = true)) ∧
    ((following.cUp = true) ∧
     (following.stept.run.isSome = true) ∧
     (following.stepSrc = 0) ∧
     (following.inHoldover = false) ∧
     (following.holds = false) ∧
     (following.stept.predicted = some 100120) ∧
     (following.stept.lossAt = none) ∧
     (following.stept.stepOn = true) ∧
     ((following.tick 100520).past (100120 + following.stept.effMargin) = false)) ∧
    ((up.cUp = true) ∧
     (up.stept.run = none)) ∧
    ((following.cUp = true) ∧
     (following.stept.run.isSome = true) ∧
     (following.stepSrc = 0) ∧
     (following.inHoldover = false) ∧
     (following.holds = false) ∧
     (following.stept.predicted.isSome = true)) ∧
    ((lostThen.cUp = true) ∧
     (lostThen.stept.run.isSome = true) ∧
     (lostThen.stepSrc = 0) ∧
     (lostThen.inHoldover = false) ∧
     (lostThen.holds = false) ∧
     ((lostThen.tick 51).lossCounts = true ∨
        Option.any (fun p => (lostThen.tick 51).past (p + lostThen.stept.effMargin))
            lostThen.stept.predicted =
          true)) ∧
    ((holding.cUp = true) ∧
     (holding.stept.run.isSome = true) ∧
     (holding.inHoldover = true) ∧
     (holding.holds = false) ∧
     (holding.stept.genStopped = false) ∧
     (holding.stept.gen = some (4, 50)) ∧
     (50 + holding.heldPeriod ≤ max holding.now 100050)) ∧
    ((driving.cUp = true) ∧
     (driving.downUp = true)) ∧
    ((driving.cUp = true)) ∧
    ((up.cUp = true)) ∧
    ((echoing.cUp = true) ∧
     (7 < 64) ∧
     (List.find? (fun x => x.1 == 7)
          (if false = true then echoing.stept.inB.echoSent else echoing.stept.inA.echoSent) =
        some (7, 100))) ∧
    ((up.cUp = true) ∧
     (63 < 64)) ∧
    ((returning.cUp = true) ∧
     (returning.stept.echoOut = [(70, 100)]) ∧
     (100 + 192 ≤ max returning.now 292)) :=
  ⟨by decide +kernel,
   by decide +kernel,
   by decide +kernel,
   by decide +kernel,
   by decide +kernel,
   by decide +kernel,
   by decide +kernel,
   by decide +kernel,
   by decide +kernel,
   by decide +kernel,
   by decide +kernel,
   by decide +kernel⟩

theorem wit_ReferenceLoss_2 :
    ((returning.cUp = true) ∧
     (returning.stept.echoOut = [(70, 100)]) ∧
     (max returning.now 291 < 100 + 192)) ∧
    ((following.reach (hostWrites (2 ^ Fld.STEP_SKEW_COMP_RETRAIN.lo)).port Reg.STEP_SKEW_COMP = true) ∧
     (accSets (hostWrites (2 ^ Fld.STEP_SKEW_COMP_RETRAIN.lo)) Fld.STEP_SKEW_COMP_RETRAIN = true)) ∧
    ((up.reach (hostWrites (2 ^ Fld.STEP_SKEW_COMP_RETRAIN.lo)).port Reg.STEP_SKEW_COMP = true) ∧
     (accSets (hostWrites (2 ^ Fld.STEP_SKEW_COMP_RETRAIN.lo)) Fld.STEP_SKEW_COMP_RETRAIN = true)) :=
  ⟨by decide +kernel,
   by decide +kernel,
   by decide +kernel⟩

/-- A scrapped part. -/
def scrapped : State := up.setFld Fld.SEC_LIFECYCLE_STATE 3

/-- A session-free device in a power state. -/
def inPower (k : Nat) : State := up.setFld Fld.PWR_STATE_STATE k

/-- A run is in progress. -/
def inRun : State := { up with stept := { up.stept with run := some ⟨9, 4, 9, 4, 20, false⟩ } }

/-- A return is due in cycle 20. -/
def returning20 (k q : Nat) : State := { (inPower k).setFld Fld.PWR_STAT_STRETCH q with pwr := { up.pwr with returnAt := some 20 } }

/-- P4, waiting in stage 1, with MAIN_EN at a level. -/
def inP4 (en : Bool) : State := { ((inPower 4).setFld Fld.DEV_BOOT_STAGE 1).setFlag Fld.DEV_STAT_READY false with pwr := { PwrSt.reset with mainEn := en } }

/-- The input has been low since cycle 7. -/
def lowVolts : State := { inRun with pwr := { inRun.pwr with lowVoltSince := some 7 } }

theorem wit_PowerStates_1 :
    ((scrapped.reach (hostWrites 2).port Reg.PWR_STATE = true) ∧
     (2 ∈ [2, 3]) ∧
     (accField (hostWrites 2) Fld.PWR_STATE_REQ = some 2) ∧
     (scrapped.fld Fld.SEC_LIFECYCLE_STATE = 3)) ∧
    ((up.reach (hostWrites 2).port Reg.PWR_STATE = true) ∧
     (2 ∈ [2, 3]) ∧
     (accField (hostWrites 2) Fld.PWR_STATE_REQ = some 2) ∧
     (up.fld Fld.SEC_LIFECYCLE_STATE ≠ 3) ∧
     (up.dbgLevel = 0) ∧
     (up.power ≤ 1) ∧
     (up.stept.run = none)) ∧
    (((inPower 1).reach (hostWrites 3).port Reg.PWR_STATE = true) ∧
     (3 ∈ [2, 3]) ∧
     (accField (hostWrites 3) Fld.PWR_STATE_REQ = some 3) ∧
     ((inPower 1).fld Fld.SEC_LIFECYCLE_STATE ≠ 3) ∧
     ((inPower 1).dbgLevel = 0) ∧
     ((inPower 1).power ≤ 1) ∧
     ((inPower 1).stept.run = none)) ∧
    ((inRun.reach (hostWrites 3).port Reg.PWR_STATE = true) ∧
     (3 ∈ [2, 3]) ∧
     (accField (hostWrites 3) Fld.PWR_STATE_REQ = some 3) ∧
     (inRun.fld Fld.SEC_LIFECYCLE_STATE ≠ 3) ∧
     (inRun.dbgLevel = 0) ∧
     (inRun.power ≤ 1) ∧
     (inRun.stept.run.isSome = true) ∧
     (inRun.halted = false)) ∧
    (((inPower 2).reach (hostWrites 0).port Reg.PWR_STATE = true) ∧
     (accField (hostWrites 0) Fld.PWR_STATE_REQ = some 0) ∧
     ((inPower 2).fld Fld.SEC_LIFECYCLE_STATE ≠ 3) ∧
     ((inPower 2).dbgLevel ≠ 3)) ∧
    (((inPower 3).reach (hostWrites 0).port Reg.PWR_STATE = true) ∧
     (accField (hostWrites 0) Fld.PWR_STATE_REQ = some 0) ∧
     ((inPower 3).fld Fld.SEC_LIFECYCLE_STATE ≠ 3) ∧
     ((inPower 3).dbgLevel ≠ 3)) ∧
    ((inRun.reach (hostWrites 0).port Reg.PWR_STATE = true) ∧
     (accField (hostWrites 0) Fld.PWR_STATE_REQ = some 0) ∧
     (inRun.fld Fld.SEC_LIFECYCLE_STATE ≠ 3) ∧
     (inRun.dbgLevel ≠ 3)) ∧
    ((inRun.reach (hostWrites 4).port Reg.PWR_STATE = true) ∧
     (accField (hostWrites 4) Fld.PWR_STATE_REQ = some 4) ∧
     (inRun.power ≠ 4) ∧
     (inRun.dbgLevel = 0)) ∧
    (((returning20 3 256).pwr.returnAt = some 20) ∧
     (20 ≤ max (returning20 3 256).now 20) ∧
     (2 ≤ (returning20 3 256).power) ∧
     ((returning20 3 256).flag Fld.DBG_CTL_RESUME = false)) ∧
    (((returning20 3 256).pwr.returnAt = some 20) ∧
     (max (returning20 3 256).now 19 < 20)) ∧
    (((inP4 true).power = 4) ∧
     ((inP4 true).fld Fld.DEV_BOOT_STAGE = 1) ∧
     ((inP4 true).mayRise = true)) ∧
    (((inP4 false).power = 4) ∧
     ((inP4 false).fld Fld.DEV_BOOT_STAGE = 1) ∧
     ((inP4 false).mayRise = false)) :=
  ⟨by decide +kernel,
   by decide +kernel,
   by decide +kernel,
   by decide +kernel,
   by decide +kernel,
   by decide +kernel,
   by decide +kernel,
   by decide +kernel,
   ⟨rfl, by decide +kernel, by decide +kernel, by decide +kernel⟩,
   ⟨rfl, by decide +kernel⟩,
   by decide +kernel,
   by decide +kernel⟩

theorem wit_PowerStates_2 :
    ((inRun.pwr.auxGood = true) ∧
     (inRun.fld Fld.SEC_LIFECYCLE_STATE ≠ 3) ∧
     (inRun.pwr.rails = true) ∧
     (inRun.sec.romWait = false) ∧
     (inRun.dbgLevel = 0)) ∧
    ((inRun.pwr.auxGood = true) ∧
     (inRun.fld Fld.SEC_LIFECYCLE_STATE ≠ 3) ∧
     (inRun.pwr.rails = true) ∧
     (inRun.sec.romWait = false) ∧
     (inRun.dbgLevel = 0) ∧
     (44000 ≤ 44000) ∧
     (44000 < 48000) ∧
     (inRun.pwr.inputSaid = none)) ∧
    ((lowVolts.pwr.auxGood = true) ∧
     (lowVolts.fld Fld.SEC_LIFECYCLE_STATE ≠ 3) ∧
     (lowVolts.pwr.rails = true) ∧
     (lowVolts.sec.romWait = false) ∧
     (lowVolts.dbgLevel = 0) ∧
     (43999 < 44000) ∧
     (lowVolts.pwr.lowVoltSince = some 7) ∧
     (7 + 2000000 ≤ max lowVolts.now 2000007) ∧
     (lowVolts.pwr.mainGood = true)) :=
  ⟨by decide +kernel,
   by decide +kernel,
   ⟨by decide +kernel, by decide +kernel, by decide +kernel, by decide +kernel, by decide +kernel, by decide +kernel, rfl, by decide +kernel, by decide +kernel⟩⟩

/-- S_P is 1,020 and 1,200 W were measured last. -/
def stretched : State := { (up.setFld Fld.PWR_STAT_STRETCH 1020).setFld Fld.PWR_STATE_STATE 1 with pwr := { up.pwr with sP := 1020, samples := [1200, 900], lastMeasure := 100, lastAdjust := 100 } }

/-- The inlet was reported in cycle 9. -/
def warmInlet : State := { up with pwr := { up.pwr with coolantSaid := some 9 } }

/-- The DMC restarts. -/
def dmcRestarts : State := { stretched with sec := { stretched.sec with dmcDown := true } }

theorem wit_PowerAndHeat_1 :
    ((up.reach (hostWrites 600).port Reg.PWR_CAP = true) ∧
     (accField (hostWrites 600) Fld.PWR_CAP_CAP_W = some 600) ∧
     (600 ≤ 600 ∧ 600 ≤ 1200)) ∧
    ((up.reach (hostWrites 1200).port Reg.PWR_CAP = true) ∧
     (accField (hostWrites 1200) Fld.PWR_CAP_CAP_W = some 1200) ∧
     (600 ≤ 1200 ∧ 1200 ≤ 1200)) ∧
    ((up.reach (hostWrites 1201).port Reg.PWR_CAP = true) ∧
     (accField (hostWrites 1201) Fld.PWR_CAP_CAP_W = some 1201) ∧
     (1201 < 600 ∨ 1200 < 1201)) ∧
    ((up.reach (mgmtWrites 599).port Reg.PWR_CAP = true) ∧
     (accField (mgmtWrites 599) Fld.PWR_CAP_CAP_W = some 599) ∧
     (599 < 600 ∨ 1200 < 599)) ∧
    ((stretched.pwr.rails = true) ∧
     (stretched.pwr.auxGood = true) ∧
     (256 ≤ stretched.pwr.sP) ∧
     (stretched.pwr.sP ≤ 1024) ∧
     (256 ≤ stretched.pwr.sT) ∧
     (stretched.pwr.sT ≤ 1024) ∧
     (stretched.pwr.lastMeasure + 2000 ≤ max stretched.now 2100)) ∧
    ((up.pwr.rails = true) ∧
     (up.pwr.auxGood = true) ∧
     (256 ≤ up.pwr.sP) ∧
     (up.pwr.sP ≤ 1024) ∧
     (256 ≤ up.pwr.sT) ∧
     (up.pwr.sT ≤ 1024) ∧
     (up.pwr.lastMeasure + 2000 ≤ max up.now 2100)) ∧
    ((stretched.pwr.rails = true) ∧
     (stretched.pwr.auxGood = true) ∧
     (256 ≤ stretched.pwr.sP) ∧
     (stretched.pwr.sP ≤ 1024) ∧
     (256 ≤ stretched.pwr.sT) ∧
     (stretched.pwr.sT ≤ 1024) ∧
     (max stretched.now 2099 < stretched.pwr.lastMeasure + 2000)) ∧
    ((stretched.pwr.rails = true) ∧
     (stretched.pwr.auxGood = true) ∧
     (256 ≤ stretched.pwr.sP) ∧
     (stretched.pwr.sP ≤ 1024) ∧
     (256 ≤ stretched.pwr.sT) ∧
     (stretched.pwr.sT ≤ 1024) ∧
     (stretched.sec.dmcDown = false) ∧
     (stretched.pwr.lastAdjust + 20000 ≤ max stretched.now 20100) ∧
     (-16 ≤ 3) ∧
     (3 ≤ 16) ∧
     ((min 1024 (max 256 ((stretched.pwr.sP : Int) + 3))).toNat < 1024 ∨
        stretched.pwr.samples.headD 0 ≤ stretched.fld Fld.PWR_CAP_CAP_W)) ∧
    ((stretched.pwr.rails = true) ∧
     (stretched.pwr.auxGood = true) ∧
     (256 ≤ stretched.pwr.sP) ∧
     (stretched.pwr.sP ≤ 1024) ∧
     (256 ≤ stretched.pwr.sT) ∧
     (stretched.pwr.sT ≤ 1024) ∧
     (stretched.sec.dmcDown = false) ∧
     (stretched.pwr.lastAdjust + 20000 ≤ max stretched.now 20100) ∧
     (-16 ≤ -16) ∧
     (-16 ≤ 16) ∧
     ((min 1024 (max 256 ((stretched.pwr.sP : Int) + -16))).toNat < 1024 ∨
        stretched.pwr.samples.headD 0 ≤ stretched.fld Fld.PWR_CAP_CAP_W)) ∧
    (((stretched.setFld Fld.PWR_CAP_CAP_W 1000).pwr.rails = true) ∧
     ((stretched.setFld Fld.PWR_CAP_CAP_W 1000).pwr.auxGood = true) ∧
     (256 ≤ (stretched.setFld Fld.PWR_CAP_CAP_W 1000).pwr.sP) ∧
     ((stretched.setFld Fld.PWR_CAP_CAP_W 1000).pwr.sP ≤ 1024) ∧
     (256 ≤ (stretched.setFld Fld.PWR_CAP_CAP_W 1000).pwr.sT) ∧
     ((stretched.setFld Fld.PWR_CAP_CAP_W 1000).pwr.sT ≤ 1024) ∧
     ((stretched.setFld Fld.PWR_CAP_CAP_W 1000).sec.dmcDown = false) ∧
     ((stretched.setFld Fld.PWR_CAP_CAP_W 1000).pwr.lastAdjust + 20000 ≤
        max (stretched.setFld Fld.PWR_CAP_CAP_W 1000).now 20100) ∧
     (-16 ≤ 4) ∧
     (4 ≤ 16) ∧
     ((min 1024 (max 256 (((stretched.setFld Fld.PWR_CAP_CAP_W 1000).pwr.sP : Int) + 4))).toNat = 1024) ∧
     ((stretched.setFld Fld.PWR_CAP_CAP_W 1000).fld Fld.PWR_CAP_CAP_W <
        (stretched.setFld Fld.PWR_CAP_CAP_W 1000).pwr.samples.headD 0)) ∧
    ((up.pwr.rails = true) ∧
     (up.pwr.auxGood = true) ∧
     (256 ≤ up.pwr.sP) ∧
     (up.pwr.sP ≤ 1024) ∧
     (256 ≤ up.pwr.sT) ∧
     (up.pwr.sT ≤ 1024) ∧
     (1600 ≤ 1600) ∧
     (up.pwr.hot = false)) ∧
    ((stretched.pwr.rails = true) ∧
     (stretched.pwr.auxGood = true) ∧
     (256 ≤ stretched.pwr.sP) ∧
     (stretched.pwr.sP ≤ 1024) ∧
     (256 ≤ stretched.pwr.sT) ∧
     (stretched.pwr.sT ≤ 1024) ∧
     (1519 < 1520)) :=
  ⟨by decide +kernel,
   by decide +kernel,
   by decide +kernel,
   by decide +kernel,
   by decide +kernel,
   by decide +kernel,
   by decide +kernel,
   by decide +kernel,
   by decide +kernel,
   by decide +kernel,
   by decide +kernel,
   by decide +kernel⟩

theorem wit_PowerAndHeat_2 :
    ((inRun.pwr.rails = true) ∧
     (inRun.pwr.auxGood = true) ∧
     (256 ≤ inRun.pwr.sP) ∧
     (inRun.pwr.sP ≤ 1024) ∧
     (256 ≤ inRun.pwr.sT) ∧
     (inRun.pwr.sT ≤ 1024) ∧
     (1760 ≤ 1760) ∧
     (inRun.dbgLevel = 0)) ∧
    ((up.pwr.rails = true) ∧
     (up.pwr.auxGood = true) ∧
     (256 ≤ up.pwr.sP) ∧
     (up.pwr.sP ≤ 1024) ∧
     (256 ≤ up.pwr.sT) ∧
     (up.pwr.sT ≤ 1024) ∧
     (1759 < 1760)) ∧
    ((up.pwr.rails = true) ∧
     (up.pwr.auxGood = true) ∧
     (256 ≤ up.pwr.sP) ∧
     (up.pwr.sP ≤ 1024) ∧
     (256 ≤ up.pwr.sT) ∧
     (up.pwr.sT ≤ 1024) ∧
     (640 < 641) ∧
     (up.pwr.coolantSaid = none)) ∧
    ((warmInlet.pwr.rails = true) ∧
     (warmInlet.pwr.auxGood = true) ∧
     (256 ≤ warmInlet.pwr.sP) ∧
     (warmInlet.pwr.sP ≤ 1024) ∧
     (256 ≤ warmInlet.pwr.sT) ∧
     (warmInlet.pwr.sT ≤ 1024) ∧
     (640 < 641) ∧
     (warmInlet.pwr.coolantSaid = some 9) ∧
     (max warmInlet.now 120000000008 < 9 + 120000000000)) ∧
    ((dmcRestarts.pwr.rails = true) ∧
     (dmcRestarts.pwr.auxGood = true) ∧
     (256 ≤ dmcRestarts.pwr.sP) ∧
     (dmcRestarts.pwr.sP ≤ 1024) ∧
     (256 ≤ dmcRestarts.pwr.sT) ∧
     (dmcRestarts.pwr.sT ≤ 1024) ∧
     (dmcRestarts.sec.dmcDown = true)) :=
  ⟨by decide +kernel,
   by decide +kernel,
   by decide +kernel,
   ⟨by decide +kernel, by decide +kernel, by decide +kernel, by decide +kernel, by decide +kernel, by decide +kernel, by decide +kernel, rfl, by decide +kernel⟩,
   by decide +kernel⟩

/-- A stage of the power-up sequence, its rails up or not. -/
def booting (k : Nat) (rails : Bool) : State :=
  { State.reset.setFld Fld.DEV_BOOT_STAGE k with pwr := { PwrSt.reset with rails := rails } }

/-- The entropy start is over. -/
def entropyOver : State := { booting 6 true with boot := { BootSt.reset with entropyDone := true } }

theorem wit_BootSequence :
    ((State.reset.boot.stopped = false) ∧
     (State.reset.readyUp = false) ∧
     (State.reset.pwr.auxGood = true) ∧
     (State.reset.fld Fld.DEV_BOOT_STAGE = 0)) ∧
    (((booting 1 false).boot.stopped = false) ∧
     ((booting 1 false).readyUp = false) ∧
     ((booting 1 false).pwr.auxGood = true) ∧
     ((booting 1 false).fld Fld.DEV_BOOT_STAGE = 1) ∧
     ((booting 1 false).mayRise = true) ∧
     ((booting 1 false).pwr.rails = false) ∧
     ((booting 1 false).power ≠ 4) ∧
     ((booting 1 false).sec.romWait = false)) ∧
    (((booting 1 false).boot.stopped = false) ∧
     ((booting 1 false).readyUp = false) ∧
     ((booting 1 false).pwr.auxGood = true) ∧
     ((booting 1 false).fld Fld.DEV_BOOT_STAGE = 1) ∧
     ((booting 1 false).mayRise = true) ∧
     ((booting 1 false).pwr.rails = false) ∧
     ((booting 1 false).power ≠ 4) ∧
     ((booting 1 false).sec.romWait = false) ∧
     (255 < 256)) ∧
    (((booting 2 true).boot.stopped = false) ∧
     ((booting 2 true).readyUp = false) ∧
     ((booting 2 true).pwr.auxGood = true) ∧
     ((booting 2 true).fld Fld.DEV_BOOT_STAGE = 2) ∧
     ((booting 2 true).pwr.rails = true) ∧
     (∀ f ∈ [1, 3], f < 6) ∧
     ([1, 3].length ≤ 6)) ∧
    (((booting 2 true).boot.stopped = false) ∧
     ((booting 2 true).readyUp = false) ∧
     ((booting 2 true).pwr.auxGood = true) ∧
     ((booting 2 true).fld Fld.DEV_BOOT_STAGE = 2) ∧
     ((booting 2 true).pwr.rails = true) ∧
     (∀ f ∈ ([] : List Nat), f < 6) ∧
     (([] : List Nat).length ≤ 6) ∧
     (5 < 6)) ∧
    (((booting 3 true).boot.stopped = false) ∧
     ((booting 3 true).readyUp = false) ∧
     ((booting 3 true).pwr.auxGood = true) ∧
     ((booting 3 true).fld Fld.DEV_BOOT_STAGE = 3) ∧
     ((booting 3 true).pwr.rails = true)) ∧
    (((booting 4 true).boot.stopped = false) ∧
     ((booting 4 true).readyUp = false) ∧
     ((booting 4 true).pwr.auxGood = true) ∧
     ((booting 4 true).fld Fld.DEV_BOOT_STAGE = 4) ∧
     ((booting 4 true).pwr.rails = true) ∧
     ((booting 4 true).sites.length = 720)) ∧
    (((booting 5 true).boot.stopped = false) ∧
     ((booting 5 true).readyUp = false) ∧
     ((booting 5 true).pwr.auxGood = true) ∧
     ((booting 5 true).fld Fld.DEV_BOOT_STAGE = 5) ∧
     ((booting 5 true).pwr.rails = true) ∧
     ((booting 5 true).mports.length = 32)) ∧
    (((booting 6 true).boot.stopped = false) ∧
     ((booting 6 true).readyUp = false) ∧
     ((booting 6 true).pwr.auxGood = true) ∧
     ((booting 6 true).fld Fld.DEV_BOOT_STAGE = 6) ∧
     ((booting 6 true).pwr.rails = true) ∧
     ((booting 6 true).boot.stage6 = false) ∧
     (∀ l ∈ (booting 6 true).ports.lanes, l.failed = false) ∧
     ((booting 6 true).boot.entropyDone = false)) ∧
    ((entropyOver.boot.stopped = false) ∧
     (entropyOver.readyUp = false) ∧
     (entropyOver.pwr.auxGood = true) ∧
     (entropyOver.fld Fld.DEV_BOOT_STAGE = 6) ∧
     (entropyOver.pwr.rails = true) ∧
     (entropyOver.boot.stage6 = false) ∧
     (∀ l ∈ entropyOver.ports.lanes, l.failed = false) ∧
     (entropyOver.boot.entropyDone = true)) :=
  ⟨by decide +kernel,
   by decide +kernel,
   by decide +kernel,
   by decide +kernel,
   by decide +kernel,
   by decide +kernel,
   by decide +kernel,
   by decide +kernel,
   by decide +kernel,
   by decide +kernel⟩

/-- An order and a slot are in hand. -/
def inHand : State := State.withSlot (State.withOrder up (anOrder 9 [])) ⟨3, .filling, zeros 8, 8, 0, .host, 0, false, 0, false, false, none⟩

/-- Auxiliary power is away. -/
def auxAway : State := { State.reset with pwr := { PwrSt.reset with auxGood := false } }

theorem wit_Resets :
    ((inHand.dbgLevel = 0) ∧
     (inHand.cUp = true) ∧
     (inHand.stept.stepOn = false) ∧
     (inHand.dig.rerunTo = none) ∧
     (inHand.boot.resetting = none) ∧
     (inHand.fld Fld.HOST_LINK_RATE ≠ 0)) ∧
    ((inHand.dbgLevel = 0) ∧
     (inHand.cUp = true) ∧
     (inHand.stept.stepOn = false) ∧
     (inHand.dig.rerunTo = none) ∧
     (inHand.boot.resetting = none) ∧
     (inHand.ports.trained = true)) ∧
    ((inRun.dbgLevel = 0) ∧
     (inRun.pwr.auxGood = true) ∧
     (inRun.pwr.rails = true) ∧
     (inRun.boot.resetting ≠ some ResetKind.cold)) ∧
    ((inRun.dbgLevel = 0) ∧
     (inRun.pwr.auxGood = true) ∧
     (inRun.pwr.rails = true) ∧
     (inRun.boot.resetting ≠ some ResetKind.cold) ∧
     ((mgmtWrites 1).port = Port.mgmt) ∧
     (inRun.reach Port.mgmt Reg.DEV_RESET = true) ∧
     (accSets (mgmtWrites 1) Fld.DEV_RESET_WARM = true) ∧
     (accSets (mgmtWrites 1) Fld.DEV_RESET_COLD = false)) ∧
    ((inRun.dbgLevel = 0) ∧
     ((mgmtWrites 2).port = Port.mgmt) ∧
     (inRun.reach Port.mgmt Reg.DEV_RESET = true) ∧
     (accSets (mgmtWrites 2) Fld.DEV_RESET_COLD = true)) ∧
    ((inRun.dbgLevel = 0) ∧
     ((hostWrites 3).port = Port.host)) ∧
    ((inRun.dbgLevel = 0) ∧
     (inRun.pwr.auxGood = true)) ∧
    ((auxAway.dbgLevel = 0) ∧
     (auxAway.pwr.auxGood = false)) :=
  ⟨by decide +kernel,
   by decide +kernel,
   by decide +kernel,
   by decide +kernel,
   by decide +kernel,
   by decide +kernel,
   by decide +kernel,
   by decide +kernel⟩

/-- A source in the midst of its startup test. -/
def aSource : NoiseSrc := { NoiseSrc.reset with last := true, run := 39, aptFirst := true, aptCount := 793, aptPos := 900, taken := 1022 }

/-- The entropy source starts, its settling over. -/
def starting : State := { up.setFlag Fld.TRNG_STAT_STARTUP true with trng := { TrngSt.reset with settled := true, srcs := aSource :: List.replicate 15 NoiseSrc.reset } }

/-- A source in service, 40 equal samples taken. -/
def stuckSource : NoiseSrc := { NoiseSrc.reset with last := true, run := 40, inUse := true, taken := 1024 }

/-- The source in service, four words in the pool. -/
def serving : State := { (up.setFlag Fld.TRNG_STAT_VALID true).setFlag Fld.TRNG_CTL_SRC true with trng := { TrngSt.reset with settled := true, srcs := stuckSource :: List.replicate 15 { stuckSource with run := 3 }, pool := [5, 6, 7, 8, 9, 10, 11], expander := [3], cond := [1, 2], drbg := some (Drbg.instantiate (zeros 48)) } }

/-- Settling. -/
def settling : State := { starting with trng := { TrngSt.reset with startAt := 10 } }

/-- Twelve sources are in use during a start. -/
def discarding : State := { starting with trng := { TrngSt.reset with discard := 63, srcs := List.replicate 16 { stuckSource with run := 3 } } }

/-- A reseed is due. -/
def reseedDue : State := serving.setFld Fld.TRNG_DRBG_REQUESTS 65536

/-- The pool is short. -/
def poolShort : State := { reseedDue with trng := { reseedDue.trng with pool := [5] } }

theorem wit_EntropySource_1 :
    ((16 ≤ 16)) ∧
    ((0 < 16) ∧
     (starting.pwr.rails = true) ∧
     (starting.trng.settled = true) ∧
     (starting.trng.srcs[0]? = some aSource) ∧
     (starting.trngStarting = true) ∧
     (aSource.taken + 1 < 1024) ∧
     (aSource.run ≤ 39) ∧
     (aSource.aptCount < 794)) ∧
    ((0 < 16) ∧
     (serving.pwr.rails = true) ∧
     (serving.trng.settled = true) ∧
     (serving.trng.srcs[0]? = some stuckSource) ∧
     (serving.trngStarting = false) ∧
     (stuckSource.inUse = true) ∧
     (stuckSource.run = 40) ∧
     (stuckSource.last = true) ∧
     (stuckSource.aptPos = 0) ∧
     (serving.fld Fld.TRNG_CTL_RETIRE = 0) ∧
     (serving.fld Fld.TRNG_CTL_ALERT_THRESH = 0)) ∧
    ((settling.trngStarting = true) ∧
     (settling.trng.settled = false) ∧
     (settling.trng.startAt + 3800000 ≤ max settling.now 3800010)) ∧
    ((settling.trngStarting = true) ∧
     (settling.trng.settled = false) ∧
     (max settling.now 3800009 < settling.trng.startAt + 3800000)) ∧
    ((discarding.pwr.rails = true) ∧
     (12 ≤ discarding.inUse) ∧
     ((List.replicate 64 7).length = 64) ∧
     (∀ n ∈ discarding.trng.srcs, n.retireDue = false) ∧
     (discarding.trngStarting = true) ∧
     (discarding.trng.discard < 64)) ∧
    ((serving.pwr.rails = true) ∧
     (12 ≤ serving.inUse) ∧
     ((List.replicate 64 7).length = 64) ∧
     (∀ n ∈ serving.trng.srcs, n.retireDue = false) ∧
     (serving.trngStarting = false) ∧
     (serving.reseedDue = false) ∧
     (serving.trng.pool.length ≤ 252)) ∧
    ((serving.pwr.rails = true) ∧
     (serving.trngValid = true) ∧
     (serving.trng.drbg = some (Drbg.instantiate (zeros 48))) ∧
     (serving.flag Fld.TRNG_STAT_EXP_STALL = false) ∧
     (serving.trng.expander.length + 8 ≤ 512) ∧
     (serving.fld Fld.TRNG_DRBG_REQUESTS + 1 < 65536)) ∧
    ((reseedDue.pwr.rails = true) ∧
     (reseedDue.trngValid = true) ∧
     (reseedDue.trng.drbg = some (Drbg.instantiate (zeros 48))) ∧
     (65536 ≤ reseedDue.fld Fld.TRNG_DRBG_REQUESTS) ∧
     (6 ≤ reseedDue.trng.pool.length)) ∧
    ((poolShort.pwr.rails = true) ∧
     (poolShort.trngValid = true) ∧
     (poolShort.trng.drbg = some (Drbg.instantiate (zeros 48))) ∧
     (65536 ≤ poolShort.fld Fld.TRNG_DRBG_REQUESTS) ∧
     (poolShort.trng.pool.length < 6)) ∧
    ((serving.reach Port.host Reg.TRNG_WORD = true) ∧
     (serving.trngValid = true) ∧
     (serving.flag Fld.TRNG_STAT_EXP_STALL = false) ∧
     ((if serving.fld Fld.TRNG_CTL_SRC = 0 then serving.trng.expander else serving.trng.cond) = [1, 2])) ∧
    (((serving.setFlag Fld.TRNG_CTL_SRC false).reach Port.mgmt Reg.TRNG_WORD = true) ∧
     ((serving.setFlag Fld.TRNG_CTL_SRC false).trngValid = true) ∧
     ((serving.setFlag Fld.TRNG_CTL_SRC false).flag Fld.TRNG_STAT_EXP_STALL = false) ∧
     ((if (serving.setFlag Fld.TRNG_CTL_SRC false).fld Fld.TRNG_CTL_SRC = 0 then
          (serving.setFlag Fld.TRNG_CTL_SRC false).trng.expander
        else (serving.setFlag Fld.TRNG_CTL_SRC false).trng.cond) =
        [3])) :=
  ⟨by decide +kernel,
   ⟨by decide +kernel, by decide +kernel, by decide +kernel, rfl, by decide +kernel, by decide +kernel, by decide +kernel, by decide +kernel⟩,
   ⟨by decide +kernel, by decide +kernel, by decide +kernel, rfl, by decide +kernel, by decide +kernel, by decide +kernel, by decide +kernel, by decide +kernel, by decide +kernel, by decide +kernel⟩,
   by decide +kernel,
   by decide +kernel,
   by decide +kernel,
   by decide +kernel,
   ⟨by decide +kernel, by decide +kernel, rfl, by decide +kernel, by decide +kernel, by decide +kernel⟩,
   ⟨by decide +kernel, by decide +kernel, rfl, by decide +kernel, by decide +kernel⟩,
   ⟨by decide +kernel, by decide +kernel, rfl, by decide +kernel, by decide +kernel⟩,
   by decide +kernel,
   by decide +kernel⟩

theorem wit_EntropySource_2 :
    ((up.reach Port.host Reg.TRNG_WORD = true) ∧
     (up.trngValid = false ∨
        up.flag Fld.TRNG_STAT_EXP_STALL = true ∨
          (if up.fld Fld.TRNG_CTL_SRC = 0 then up.trng.expander else up.trng.cond) = [])) ∧
    ((serving.reach (hostWrites 0).port Reg.TRNG_CTL = true)) :=
  ⟨by decide +kernel,
   by decide +kernel⟩

/-- A run is in progress, site 7 being failed. -/
def siteFailed : State := { up with
  stept := { up.stept with run := some ⟨9, 4, 9, 4, 20, false⟩ }
  sites := up.sites.modify 7 fun x => { x with reason := 3, fenced := true }
  regs := up.regs.set (Reg.SPARE_SEL).idx 7 }

/-- SPARE_CTL with RE_QUALIFY. -/
def asks : RegAcc := hostWrites (2 ^ Fld.SPARE_CTL_RE_QUALIFY.lo)

/-- A test of site 7 is under way. -/
def testing7 : State := { siteFailed.setFlag Fld.SPARE_STAT_REQUAL_BUSY true with spare := { up.spare with requalOn := some 7 } }

/-- Field 5 is on its standby. -/
def onStandby : State := { up with pwr := { up.pwr with pllStandby := [5] } }

theorem wit_SparesAndMonitors_1 :
    ((siteFailed.reach asks.port Reg.SPARE_CTL = true) ∧
     (accSets asks Fld.SPARE_CTL_RE_QUALIFY = true)) ∧
    ((testing7.reach asks.port Reg.SPARE_CTL = true) ∧
     (accSets asks Fld.SPARE_CTL_RE_QUALIFY = true)) ∧
    ((up.reach asks.port Reg.SPARE_CTL = true) ∧
     (accSets asks Fld.SPARE_CTL_RE_QUALIFY = true)) ∧
    ((testing7.cUp = true) ∧
     (testing7.spare.requalOn = some 7) ∧
     (7 < testing7.sites.length) ∧
     (testing7.spare.requalNext = none) ∧
     ((testing7.tick 5).swNow Fld.SPARE_CTL_RE_QUALIFY = false) ∧
     ((testing7.site 7).reason ≠ 0)) ∧
    ((testing7.cUp = true) ∧
     (testing7.spare.requalOn = some 7) ∧
     (7 < testing7.sites.length) ∧
     (testing7.spare.requalNext = none) ∧
     ((testing7.tick 5).swNow Fld.SPARE_CTL_RE_QUALIFY = false) ∧
     (testing7.stept.run.isSome = true)) ∧
    ((720 ≤ 720)) ∧
    ((siteFailed.cUp = true) ∧
     (siteFailed.stept.run.isSome = true) ∧
     (9 < siteFailed.sites.length) ∧
     (9 < 720) ∧
     (siteFailed.unused 9 = false)) ∧
    ((siteFailed.cUp = true) ∧
     (siteFailed.stept.run.isSome = true) ∧
     (9 < siteFailed.sites.length) ∧
     (9 < 720) ∧
     (siteFailed.unused 9 = false) ∧
     ((siteFailed.site 9).reason = 0)) ∧
    ((siteFailed.cUp = true) ∧
     (siteFailed.stept.run.isSome = true) ∧
     (7 < siteFailed.sites.length) ∧
     (7 < 720) ∧
     (siteFailed.unused 7 = false) ∧
     ((siteFailed.site 7).reason ≠ 0)) ∧
    ((up.pwr.rails = true) ∧
     (6 ≤ 6)) ∧
    ((up.pwr.rails = true) ∧
     (5 < 6) ∧
     (5 ∉ up.pwr.pllStandby) ∧
     (up.pwr.pllStandby.length < 6)) ∧
    ((onStandby.pwr.rails = true) ∧
     (5 < 6) ∧
     (5 ∈ onStandby.pwr.pllStandby) ∧
     (5 ∉ onStandby.pwr.noPll)) :=
  ⟨by decide +kernel,
   by decide +kernel,
   by decide +kernel,
   by decide +kernel,
   by decide +kernel,
   by decide +kernel,
   by decide +kernel,
   by decide +kernel,
   by decide +kernel,
   by decide +kernel,
   by decide +kernel,
   by decide +kernel⟩

theorem wit_SparesAndMonitors_2 :
    ((up.pwr.rails = true)) := by decide +kernel

/-- The plan's order is synchronous. -/
def synchronous (s : State) : State := { s with plan := { s.plan with data := { s.plan.data with ctrls := [⟨0, 64, 1, 1⟩], synchronous := true } } }

/-- A SYNCHRONOUS plan is in effect. -/
def synchronousPlan : State := { planned with plan := { planned.plan with data := { tinyPlan with synchronous := true } } }

/-- A D1 session, with a trigger step. -/
def d1 (k : Nat) : State := (up.setFld Fld.DBG_LEVEL_LEVEL 1).setFld Fld.OCU_TRIG_STEP_STEP k

/-- It is in step 4. -/
def d1Step (k : Nat) : State := { (d1 k).setFld Fld.STEP_NOW_STEP 4 with stept := { up.stept with stepOn := true } }

/-- The value of OCU_CTL that arms. -/
def arms : RegAcc := hostWrites (2 ^ Fld.OCU_CTL_ARM.lo)

theorem wit_ModesDigestOculus :
    ((running.reach (hostWrites 1).port Reg.MODE_CTL = true) ∧
     (accField (hostWrites 1) Fld.MODE_CTL_MODE = some 1) ∧
     (running.running = true)) ∧
    ((up.reach (hostWrites 1).port Reg.MODE_CTL = true) ∧
     (accField (hostWrites 1) Fld.MODE_CTL_MODE = some 1) ∧
     (up.running = false) ∧
     (1 = 1)) ∧
    ((synchronousPlan.reach (mgmtWrites 0).port Reg.MODE_CTL = true) ∧
     (accField (mgmtWrites 0) Fld.MODE_CTL_MODE = some 0) ∧
     (synchronousPlan.running = false) ∧
     (0 = 0) ∧
     (synchronousPlan.planOn = true) ∧
     (synchronousPlan.plan.data.synchronous = true)) ∧
    ((running.reach (hostWrites 1).port Reg.LOAD_BALANCE = true) ∧
     (accField (hostWrites 1) Fld.LOAD_BALANCE_ENABLE = some 1) ∧
     (running.running = true)) ∧
    (((up.setFlag Fld.MODE_STAT_MODE true).reach (hostWrites 1).port Reg.LOAD_BALANCE = true) ∧
     (accField (hostWrites 1) Fld.LOAD_BALANCE_ENABLE = some 1) ∧
     ((up.setFlag Fld.MODE_STAT_MODE true).running = false) ∧
     ((up.setFlag Fld.MODE_STAT_MODE true).flag Fld.MODE_STAT_MODE = true)) ∧
    ((up.reach Port.host Reg.DIGEST_STEP = true)) ∧
    ((up.reach Port.mgmt Reg.DIGEST_STEP = true)) ∧
    ((up.reach (hostWrites 1).port Reg.OCU_CTL = true) ∧
     (up.dbgLevel = 0)) ∧
    (((d1Step 4).reach arms.port Reg.OCU_CTL = true) ∧
     ((d1Step 4).dbgLevel ≠ 0) ∧
     (accSets arms Fld.OCU_CTL_ARM = true) ∧
     ((d1Step 4).stepToCome ≤ (d1Step 4).fld Fld.OCU_TRIG_STEP_STEP)) ∧
    (((d1Step 3).reach arms.port Reg.OCU_CTL = true) ∧
     ((d1Step 3).dbgLevel ≠ 0) ∧
     (accSets arms Fld.OCU_CTL_ARM = true) ∧
     ((d1Step 3).fld Fld.OCU_TRIG_STEP_STEP < (d1Step 3).stepToCome)) :=
  ⟨by decide +kernel,
   by decide +kernel,
   by decide +kernel,
   by decide +kernel,
   by decide +kernel,
   by decide +kernel,
   by decide +kernel,
   by decide +kernel,
   by decide +kernel,
   by decide +kernel⟩

/-- The host link is down. -/
def linkDown : State := up.setFld Fld.HOST_LINK_RATE 0

/-- Software has just asked for it again. -/
def retrainedNow : State := { recovering with now := 5, swSets := [(5, .LANE_CTL, 2 ^ Fld.LANE_CTL_RETRAIN.lo)] }

/-- LANE_CTL with RETRAIN. -/
def retrains : RegAcc := hostWrites (2 ^ Fld.LANE_CTL_RETRAIN.lo)

/-- SEL_LANE selects a port. -/
def lanePort (k : Nat) (s : State) : State := s.setReg .SEL_LANE (BitVec.ofNat 64 k)

/-- The host has not enabled bus mastering, and a read waits. -/
def masterOff : State := { up with ports := { up.ports with busMaster := false }, intake := { up.intake with asked := [(9, 0, 4096, 64)] } }

theorem wit_OpticalLinks_1 :
    ((lanesOf 4 ≤ 2)) ∧
    ((up.cUp = true) ∧
     (0 < 2) ∧
     ((up.ports.lanes.any fun l => l.port == 3 && l.lane == 0 && !l.failed) = true)) ∧
    ((up.cUp = true) ∧
     (1 < 2) ∧
     ((up.ports.lanes.any fun l => l.port == 3 && l.lane == 1 && !l.failed) = true)) ∧
    ((linkDown.cUp = true) ∧
     (17 < 18) ∧
     (∀ l ∈ linkDown.ports.lanes, l.port = 0 → l.lane = 17 → l.role = 31) ∧
     ((linkDown.ports.lanes.any fun l => l.port == 0 && l.lane == 17 && !l.failed) = true) ∧
     (linkDown.fld Fld.HOST_LINK_RATE = 0) ∧
     (16 ≤ (List.filter (fun x => x != 17) linkDown.hostPairs).length)) ∧
    ((recovering.cUp = true) ∧
     (recovering.fld Fld.HOST_LINK_RATE ≠ 0) ∧
     (recovering.ports.inRecovery = true) ∧
     ((recovering.tick 5).swNow Fld.LANE_CTL_RETRAIN = false)) ∧
    ((retrainedNow.cUp = true) ∧
     (retrainedNow.fld Fld.HOST_LINK_RATE ≠ 0) ∧
     (retrainedNow.ports.inRecovery = true) ∧
     ((retrainedNow.tick 5).swNow Fld.LANE_CTL_RETRAIN = true) ∧
     (retrainedNow.flag Fld.LANE_CTL_RETRAIN = true)) ∧
    ((up.cUp = true) ∧
     (up.fld Fld.HOST_LINK_RATE ≠ 0) ∧
     (up.ports.inRecovery = false)) ∧
    ((linkDown.cUp = true) ∧
     (linkDown.boot.stage6 = true) ∧
     (1 ≤ 3) ∧
     (3 ≤ 3) ∧
     (linkDown.hostPairs = List.range 18)) ∧
    ((up.reach retrains.port Reg.LANE_CTL = true) ∧
     (accSets retrains Fld.LANE_CTL_RETRAIN = true) ∧
     (bitsOf (BitVec.toNat (up.reg (Reg.at retrains.port Reg.SEL_LANE))) 0 3 = 0) ∧
     (up.fld Fld.HOST_LINK_RATE ≠ 0)) ∧
    ((linkDown.reach (mgmtWrites (2 ^ Fld.LANE_CTL_RETRAIN.lo)).port Reg.LANE_CTL = true) ∧
     (accSets (mgmtWrites (2 ^ Fld.LANE_CTL_RETRAIN.lo)) Fld.LANE_CTL_RETRAIN = true) ∧
     (bitsOf
          (BitVec.toNat
            (linkDown.reg (Reg.at (mgmtWrites (2 ^ Fld.LANE_CTL_RETRAIN.lo)).port Reg.SEL_LANE)))
          0 3 =
        0) ∧
     (linkDown.fld Fld.HOST_LINK_RATE = 0)) ∧
    (((lanePort 1 (up.setFld Fld.JRNL_STAT_J0_STATE 3)).reach retrains.port Reg.LANE_CTL = true) ∧
     (accSets retrains Fld.LANE_CTL_RETRAIN = true) ∧
     (bitsOf
          (BitVec.toNat
            ((lanePort 1 (up.setFld Fld.JRNL_STAT_J0_STATE 3)).reg (Reg.at retrains.port Reg.SEL_LANE)))
          0 3 =
        1)) ∧
    (((lanePort 2 up).reach retrains.port Reg.LANE_CTL = true) ∧
     (accSets retrains Fld.LANE_CTL_RETRAIN = true) ∧
     (bitsOf (BitVec.toNat ((lanePort 2 up).reg (Reg.at retrains.port Reg.SEL_LANE))) 0 3 = 2)) :=
  ⟨by decide +kernel,
   by decide +kernel,
   by decide +kernel,
   by decide +kernel,
   by decide +kernel,
   by decide +kernel,
   by decide +kernel,
   by decide +kernel,
   by decide +kernel,
   by decide +kernel,
   by decide +kernel,
   by decide +kernel⟩

theorem wit_OpticalLinks_2 :
    (((lanePort 3 up).reach retrains.port Reg.LANE_CTL = true) ∧
     (accSets retrains Fld.LANE_CTL_RETRAIN = true) ∧
     (bitsOf (BitVec.toNat ((lanePort 3 up).reg (Reg.at retrains.port Reg.SEL_LANE))) 0 3 = 3)) ∧
    (((lanePort 3 siteFailed).reach retrains.port Reg.LANE_CTL = true) ∧
     (accSets retrains Fld.LANE_CTL_RETRAIN = true) ∧
     (bitsOf (BitVec.toNat ((lanePort 3 siteFailed).reg (Reg.at retrains.port Reg.SEL_LANE))) 0 3 = 3)) ∧
    (((lanePort 4 up).reach retrains.port Reg.LANE_CTL = true) ∧
     (accSets retrains Fld.LANE_CTL_RETRAIN = true) ∧
     (4 ≤ bitsOf (BitVec.toNat ((lanePort 4 up).reg (Reg.at retrains.port Reg.SEL_LANE))) 0 3)) ∧
    ((masterOff.cUp = true) ∧
     (masterOff.ports.busMaster = false)) :=
  ⟨by decide +kernel,
   by decide +kernel,
   by decide +kernel,
   by decide +kernel⟩

/-- An accepted order of SEQ 9 with a body, its bulk at hand. -/
def orderOf (op : Nat) (body : List Byte) (bulk : Option (List Byte)) : Order :=
  { anOrder 9 (orderBytes op (if bulk.isSome then 1 else 0) body) with bulk := bulk }

/-- It is the one order in hand. -/
def withOrder9 (s : State) (op : Nat) (body : List Byte) (bulk : Option (List Byte)) : State := State.withOrder s (orderOf op body bulk)

/-- A rollback is under way. -/
def rollingBack (s : State) : State := { s with dig := { s.dig with rerunTo := some 4 } }

/-- The plan in effect is SYNCHRONOUS. -/
def syncPlan : State := { planned with plan := { planned.plan with data := { tinyPlan with synchronous := true } } }

theorem wit_PlanOrders_1 :
    (((withOrder9 up 1 [] (some [])).executable 9 1 = some (orderOf 1 [] (some []))) ∧
     ((orderOf 1 [] (some [])).bulk = some []) ∧
     ((withOrder9 up 1 [] (some [])).engaged = false) ∧
     (([] : List Nat) = [])) ∧
    (((withOrder9 up 1 [] (some [])).executable 9 1 = some (orderOf 1 [] (some []))) ∧
     ((orderOf 1 [] (some [])).bulk = some []) ∧
     ((withOrder9 up 1 [] (some [])).engaged = false) ∧
     ((((withOrder9 up 1 [] (some [])).tick 5).verifyImage
            [{ port := 0, tile := 7, fault := TileFault.uncorrectable 0 : TileCheck }]).2 =
        some (20482, 1792))) ∧
    (((withOrder9 up 1 [] (some [])).executable 9 1 = some (orderOf 1 [] (some []))) ∧
     ((orderOf 1 [] (some [])).bulk = some []) ∧
     ((withOrder9 up 1 [] (some [])).engaged = false) ∧
     ((((withOrder9 up 1 [] (some [])).tick 5).verifyImage []).2 = none)) ∧
    (((rollingBack (withOrder9 up 1 [] (some []))).executable 9 1 = some (orderOf 1 [] (some []))) ∧
     ((orderOf 1 [] (some [])).bulk = some []) ∧
     ((rollingBack (withOrder9 up 1 [] (some []))).engaged = true)) ∧
    (((withOrder9 planned 2 [3] (some [])).executable 9 2 = some (orderOf 2 [3] (some []))) ∧
     ((orderOf 2 [3] (some [])).bulk = some []) ∧
     ((withOrder9 planned 2 [3] (some [])).engaged = false)) ∧
    (((rollingBack (withOrder9 planned 2 [3] (some []))).executable 9 2 = some (orderOf 2 [3] (some []))) ∧
     ((orderOf 2 [3] (some [])).bulk = some []) ∧
     ((rollingBack (withOrder9 planned 2 [3] (some []))).engaged = true)) ∧
    (((withOrder9 planned 3 [7] none).executable 9 3 = some (orderOf 3 [7] none)) ∧
     ((withOrder9 planned 3 [7] none).engaged = false)) ∧
    (((withOrder9 up 3 [7] none).executable 9 3 = some (orderOf 3 [7] none)) ∧
     ((withOrder9 up 3 [7] none).engaged = false)) ∧
    (((rollingBack (withOrder9 planned 3 [7] none)).executable 9 3 = some (orderOf 3 [7] none)) ∧
     ((rollingBack (withOrder9 planned 3 [7] none)).engaged = true)) ∧
    (((withOrder9 planned 7 [0] none).executable 9 7 = some (orderOf 7 [0] none)) ∧
     ((withOrder9 planned 7 [0] none).engaged = false) ∧
     (fieldAt (orderOf 7 [0] none).body 0 1 = 0) ∧
     ((withOrder9 planned 7 [0] none).planOn = false ∨
        (withOrder9 planned 7 [0] none).plan.data.synchronous = false)) ∧
    (((withOrder9 syncPlan 7 [0] none).executable 9 7 = some (orderOf 7 [0] none)) ∧
     ((withOrder9 syncPlan 7 [0] none).engaged = false) ∧
     (fieldAt (orderOf 7 [0] none).body 0 1 = 0) ∧
     ((withOrder9 syncPlan 7 [0] none).planOn = true) ∧
     ((withOrder9 syncPlan 7 [0] none).plan.data.synchronous = true)) ∧
    (((withOrder9 syncPlan 7 [1, 1] none).executable 9 7 = some (orderOf 7 [1, 1] none)) ∧
     ((withOrder9 syncPlan 7 [1, 1] none).engaged = false) ∧
     (fieldAt (orderOf 7 [1, 1] none).body 0 1 = 1)) :=
  ⟨by decide +kernel,
   by decide +kernel,
   by decide +kernel,
   by decide +kernel,
   by decide +kernel,
   by decide +kernel,
   by decide +kernel,
   by decide +kernel,
   by decide +kernel,
   by decide +kernel,
   by decide +kernel,
   by decide +kernel⟩

theorem wit_PlanOrders_2 :
    (((withOrder9 planned 7 [1, 0] none).executable 9 7 = some (orderOf 7 [1, 0] none)) ∧
     ((withOrder9 planned 7 [1, 0] none).engaged = false) ∧
     (fieldAt (orderOf 7 [1, 0] none).body 0 1 = 1)) ∧
    (((rollingBack (withOrder9 planned 7 [1, 0] none)).executable 9 7 = some (orderOf 7 [1, 0] none)) ∧
     ((rollingBack (withOrder9 planned 7 [1, 0] none)).engaged = true)) ∧
    (((withOrder9 planned 6 [0] (some [])).executable 9 6 = some (orderOf 6 [0] (some []))) ∧
     ((withOrder9 planned 6 [0] (some [])).engaged = false)) ∧
    (((withOrder9 planned 6 [1] none).executable 9 6 = some (orderOf 6 [1] none)) ∧
     ((withOrder9 planned 6 [1] none).engaged = false)) ∧
    (((rollingBack (withOrder9 planned 6 [1] none)).executable 9 6 = some (orderOf 6 [1] none)) ∧
     ((rollingBack (withOrder9 planned 6 [1] none)).engaged = true)) :=
  ⟨by decide +kernel,
   by decide +kernel,
   by decide +kernel,
   by decide +kernel,
   by decide +kernel⟩

/-- The plan uses every V-core. -/
def vAllUsed : State := { planned with plan := { planned.plan with data := { tinyPlan with vUsed := 140 } } }

/-- A ROW_SAMPLE body: 2 rows of 3 FP32 entries from 4,096, K 1. -/
def rowBody (seed : Nat) : List Byte := natLe 4096 8 ++ natLe 12 8 ++ natLe 0 8 ++ natLe 2 4 ++ natLe 3 4 ++ natLe 6 1 ++ natLe 0 1 ++ natLe 1 2 ++ zeros 4 ++ natLe 0x3F800000 4 ++ zeros 4 ++ natLe seed 8 ++ zeros 40

/-- A frame is in the rings of no partner yet, under BOTH. -/
def notDurable : State := { up with jrnl := { up.jrnl with frames := [⟨5, 1, true, 0, 0, 0, 9, [], 2, true, true⟩] } }

theorem wit_RunOrders :
    (((rollingBack (withOrder9 planned 4 [3] none)).executable 9 4 = some (orderOf 4 [3] none)) ∧
     ((rollingBack (withOrder9 planned 4 [3] none)).engaged = true)) ∧
    (((withOrder9 up 4 (zeros 8 ++ [3]) none).executable 9 4 = some (orderOf 4 (zeros 8 ++ [3]) none)) ∧
     ((withOrder9 up 4 (zeros 8 ++ [3]) none).engaged = false)) ∧
    (((withOrder9 planned 4 (zeros 8 ++ [3]) none).executable 9 4 = some (orderOf 4 (zeros 8 ++ [3]) none)) ∧
     ((withOrder9 planned 4 (zeros 8 ++ [3]) none).engaged = false)) ∧
    (((withOrder9 up 5 [] none).executable 9 5 = some (orderOf 5 [] none)) ∧
     ((withOrder9 up 5 [] none).engaged = false)) ∧
    (((withOrder9 planned 5 [] none).executable 9 5 = some (orderOf 5 [] none)) ∧
     ((withOrder9 planned 5 [] none).engaged = false)) ∧
    (((rollingBack (withOrder9 planned 5 [] none)).executable 9 5 = some (orderOf 5 [] none)) ∧
     ((rollingBack (withOrder9 planned 5 [] none)).engaged = true)) ∧
    (((withOrder9 up 10 [1] none).executable 9 10 = some (orderOf 10 [1] none)) ∧
     ((withOrder9 up 10 [1] none).allDurable = true)) ∧
    (((withOrder9 up 10 [0] none).executable 9 10 = some (orderOf 10 [0] none)) ∧
     ((withOrder9 up 10 [0] none).allDurable = true)) ∧
    (((withOrder9 vAllUsed 8 (rowBody 0) none).executable 9 8 = some (orderOf 8 (rowBody 0) none)) ∧
     ((withOrder9 vAllUsed 8 (rowBody 0) none).rowMayStart (orderOf 8 (rowBody 0) none) = true) ∧
     ((withOrder9 vAllUsed 8 (rowBody 0) none).noRowCores = true)) ∧
    (((withOrder9 up 8 (rowBody 0) none).executable 9 8 = some (orderOf 8 (rowBody 0) none)) ∧
     ((withOrder9 up 8 (rowBody 0) none).rowMayStart (orderOf 8 (rowBody 0) none) = true) ∧
     ((withOrder9 up 8 (rowBody 0) none).noRowCores = false) ∧
     ((withOrder9 up 8 (rowBody 0) none).rowSeed (orderOf 8 (rowBody 0) none) = none)) ∧
    (((withOrder9 up 8 (rowBody 6) none).executable 9 8 = some (orderOf 8 (rowBody 6) none)) ∧
     ((withOrder9 up 8 (rowBody 6) none).rowMayStart (orderOf 8 (rowBody 6) none) = true) ∧
     ((withOrder9 up 8 (rowBody 6) none).noRowCores = false) ∧
     ((withOrder9 up 8 (rowBody 6) none).rowSeed (orderOf 8 (rowBody 6) none) = some 6) ∧
     ((withOrder9 up 8 (rowBody 6) none).rows = []) ∧
     ((withOrder9 up 8 (rowBody 6) none).intake.fetches = []) ∧
     ((withOrder9 up 8 (rowBody 6) none).intake.asked = []) ∧
     ((withOrder9 up 8 (rowBody 6) none).ports.busMaster = true) ∧
     (0 < fieldAt (orderOf 8 (rowBody 6) none).body 24 4) ∧
     (fieldAt (orderOf 8 (rowBody 6) none).body 33 1 = 0) ∧
     (0 <
        fieldAt (orderOf 8 (rowBody 6) none).body 28 4 *
          rowSize (fieldAt (orderOf 8 (rowBody 6) none).body 32 1))) ∧
    (((withOrder9 notDurable 10 [1] none).executable 9 10 = some (orderOf 10 [1] none)) ∧
     ((withOrder9 notDurable 10 [1] none).allDurable = false)) :=
  ⟨by decide +kernel,
   by decide +kernel,
   by decide +kernel,
   by decide +kernel,
   by decide +kernel,
   by decide +kernel,
   by decide +kernel,
   by decide +kernel,
   by decide +kernel,
   by decide +kernel,
   by decide +kernel,
   by decide +kernel⟩

/-- A mark of step `n`. -/
def markOfSet (n : Nat) : Mark := ⟨false, n, 0, 4, 4, 100000, 0, 0, false, 0, true⟩

/-- Steps 4 to 6 are to run, the mark of step 4 applied in cycle 30; the boundary before it ended in cycle 20. -/
def toStart : State := { planned with stept := { planned.stept with run := some ⟨9, 4, 6, 4, 20, false⟩, applied := [(markOfSet 4, some 30)] } }

/-- It is late. -/
def lateStart : State := { toStart with stept := { toStart.stept with run := some ⟨9, 4, 6, 5, 90, true⟩, applied := [(markOfSet 5, some 30)] } }

/-- Step 4 is in progress, its phases to come. -/
def inPhases : State := { (planned.setFld Fld.STEP_NOW_STEP 4).setFld Fld.STEP_PHASE_PHASES_LOG2 4 with stept := { planned.stept with run := some ⟨9, 4, 6, 5, 20, true⟩, stepOn := true, anchor := some ⟨0, 120, 4, 1600⟩ } }

/-- Write-back has ended. -/
def wroteBack (n : Nat) : State := { ((inPhases.setFld Fld.STEP_NOW_STEP n).setFld Fld.STEP_PHASE_PHASE 15) with ex := { inPhases.ex with stepEnded := true } }

/-- A transfer of a kind, its one part frame 7. -/
def aTransfer (kind : Nat) : Transfer := ⟨zeros 512, 6, [7], [], 9, 12, kind, 0, [], ⟨false, false, false⟩⟩

/-- It is under way for a CHECKPOINT order with a host buffer, the part in both rings or in one. -/
def transferring (kind : Nat) (both : Bool) : State :=
  { planned with
    intake := { planned.intake with orders := [{ orderOf 5 (natLe 4096 8 ++ natLe 100 8) none with phase := .executing }] }
    jrnl := { planned.jrnl with transfers := [aTransfer kind], frames := [⟨7, 4, true, 0, 0, 0, 0, [], 0, true, both⟩] } }

/-- BAR2 shows the first bytes of the LPDDR tier; a residence stands there or not. -/
def window (s : State) : State := { s.setFld Fld.HOST_WIN_TIER 1 with ports := { s.ports with bar2Size := 2 ^ 33 } }

/-- Memory is up. -/
def memory : State := { planned with mports := planned.mports.map fun m => { m with state := 0 } }

/-- BAR2 is up and no plan is loaded. -/
def windowOpen : State := window { memory with regs := up.regs }

theorem wit_StepsAndBoundaries :
    ((toStart.cUp = true) ∧
     (toStart.boot.recovering = none) ∧
     (toStart.dig.rerunTo = none) ∧
     (toStart.stept.run =
        some { seq := 9, first := 4, last := 6, next := 4, b := 20, started := false : RunSt }) ∧
     (toStart.stept.stepOn = false) ∧
     ({ seq := 9, first := 4, last := 6, next := 4, b := 20, started := false : RunSt }.next ≤
        { seq := 9, first := 4, last := 6, next := 4, b := 20, started := false : RunSt }.last) ∧
     ({ seq := 9, first := 4, last := 6, next := 4, b := 20, started := false : RunSt }.next < 2 ^ 64) ∧
     (toStart.halted = false) ∧
     (toStart.holds = false) ∧
     (toStart.power < 2) ∧
     (toStart.stept.applied = [(markOfSet 4, some 30)]) ∧
     ((markOfSet 4).step =
        { seq := 9, first := 4, last := 6, next := 4, b := 20, started := false : RunSt }.next) ∧
     (max 30 { seq := 9, first := 4, last := 6, next := 4, b := 20, started := false : RunSt }.b ≤
        max toStart.now 30)) ∧
    ((toStart.cUp = true) ∧
     (toStart.boot.recovering = none) ∧
     (toStart.dig.rerunTo = none) ∧
     (toStart.stept.run =
        some { seq := 9, first := 4, last := 6, next := 4, b := 20, started := false : RunSt }) ∧
     (toStart.stept.stepOn = false) ∧
     ({ seq := 9, first := 4, last := 6, next := 4, b := 20, started := false : RunSt }.next ≤
        { seq := 9, first := 4, last := 6, next := 4, b := 20, started := false : RunSt }.last) ∧
     ({ seq := 9, first := 4, last := 6, next := 4, b := 20, started := false : RunSt }.next < 2 ^ 64) ∧
     (toStart.halted = false) ∧
     (toStart.holds = false) ∧
     (toStart.power < 2) ∧
     (toStart.stept.applied = [(markOfSet 4, some 30)]) ∧
     ((markOfSet 4).step =
        { seq := 9, first := 4, last := 6, next := 4, b := 20, started := false : RunSt }.next) ∧
     (max toStart.now 29 <
        max 30 { seq := 9, first := 4, last := 6, next := 4, b := 20, started := false : RunSt }.b)) ∧
    ((lateStart.cUp = true) ∧
     (lateStart.boot.recovering = none) ∧
     (lateStart.dig.rerunTo = none) ∧
     (lateStart.stept.run =
        some { seq := 9, first := 4, last := 6, next := 5, b := 90, started := true : RunSt }) ∧
     (lateStart.stept.stepOn = false) ∧
     ({ seq := 9, first := 4, last := 6, next := 5, b := 90, started := true : RunSt }.next ≤
        { seq := 9, first := 4, last := 6, next := 5, b := 90, started := true : RunSt }.last) ∧
     ({ seq := 9, first := 4, last := 6, next := 5, b := 90, started := true : RunSt }.next < 2 ^ 64) ∧
     (lateStart.halted = false) ∧
     (lateStart.holds = false) ∧
     (lateStart.power < 2) ∧
     (lateStart.stept.applied = [(markOfSet 5, some 30)]) ∧
     ((markOfSet 5).step =
        { seq := 9, first := 4, last := 6, next := 5, b := 90, started := true : RunSt }.next) ∧
     (max 30 { seq := 9, first := 4, last := 6, next := 5, b := 90, started := true : RunSt }.b ≤
        max lateStart.now 95)) ∧
    ((inPhases.cUp = true) ∧
     (inPhases.stept.anchor = some { m := 0, t := 120, k := 4, len := 1600 : Anchor }) ∧
     (inPhases.phi + 1 < 65536) ∧
     ({ m := 0, t := 120, k := 4, len := 1600 : Anchor }.m ≤ inPhases.phi + 1) ∧
     (inPhases.phi + 1 <
        { m := 0, t := 120, k := 4, len := 1600 : Anchor }.m +
          2 ^ { m := 0, t := 120, k := 4, len := 1600 : Anchor }.k) ∧
     (inPhases.phi + 1 < inPhases.phases) ∧
     ({ m := 0, t := 120, k := 4, len := 1600 : Anchor }.t +
          (inPhases.phi + 1 - { m := 0, t := 120, k := 4, len := 1600 : Anchor }.m) *
              { m := 0, t := 120, k := 4, len := 1600 : Anchor }.len /
            2 ^ { m := 0, t := 120, k := 4, len := 1600 : Anchor }.k ≤
        max inPhases.now 220)) ∧
    ((inPhases.cUp = true) ∧
     (inPhases.stept.anchor = some { m := 0, t := 120, k := 4, len := 1600 : Anchor }) ∧
     (inPhases.phi + 1 < 65536) ∧
     ({ m := 0, t := 120, k := 4, len := 1600 : Anchor }.m ≤ inPhases.phi + 1) ∧
     (inPhases.phi + 1 <
        { m := 0, t := 120, k := 4, len := 1600 : Anchor }.m +
          2 ^ { m := 0, t := 120, k := 4, len := 1600 : Anchor }.k) ∧
     (inPhases.phi + 1 < inPhases.phases) ∧
     (max inPhases.now 219 <
        { m := 0, t := 120, k := 4, len := 1600 : Anchor }.t +
          (inPhases.phi + 1 - { m := 0, t := 120, k := 4, len := 1600 : Anchor }.m) *
              { m := 0, t := 120, k := 4, len := 1600 : Anchor }.len /
            2 ^ { m := 0, t := 120, k := 4, len := 1600 : Anchor }.k)) ∧
    (((wroteBack 4).cUp = true) ∧
     ((wroteBack 4).stept.run =
        some { seq := 9, first := 4, last := 6, next := 5, b := 20, started := true : RunSt }) ∧
     ({ seq := 9, first := 4, last := 6, next := 5, b := 20, started := true : RunSt }.last + 1 < 2 ^ 64) ∧
     ((wroteBack 4).stept.stepOn = true) ∧
     ((wroteBack 4).dig.reload = 0) ∧
     (true = true ∨ (wroteBack 4).spare.selftest = none) ∧
     ((wroteBack 4).slog.abandoned = false) ∧
     ((wroteBack 4).ex.stepEnded = true) ∧
     ((wroteBack 4).flushDone = true) ∧
     ((wroteBack 4).halted = false) ∧
     ((wroteBack 4).slog.rerun = false) ∧
     ((wroteBack 4).spare.damage = []) ∧
     ((wroteBack 4).dig.rerunTo = none) ∧
     ((wroteBack 4).boot.recovering = none) ∧
     ((wroteBack 4).flag Fld.PWR_STATE_PENDING = false) ∧
     (∀ o ∈ (wroteBack 4).intake.orders, o.op ∉ [2, 3, 5, 7])) ∧
    (((wroteBack 6).cUp = true) ∧
     ((wroteBack 6).stept.run =
        some { seq := 9, first := 4, last := 6, next := 5, b := 20, started := true : RunSt }) ∧
     ({ seq := 9, first := 4, last := 6, next := 5, b := 20, started := true : RunSt }.last + 1 < 2 ^ 64) ∧
     ((wroteBack 6).stept.stepOn = true) ∧
     ((wroteBack 6).dig.reload = 0) ∧
     (true = true ∨ (wroteBack 6).spare.selftest = none) ∧
     ((wroteBack 6).slog.abandoned = false) ∧
     ((wroteBack 6).ex.stepEnded = true) ∧
     ((wroteBack 6).flushDone = true) ∧
     ((wroteBack 6).halted = false) ∧
     ((wroteBack 6).slog.rerun = false) ∧
     ((wroteBack 6).spare.damage = []) ∧
     ((wroteBack 6).dig.rerunTo = none) ∧
     ((wroteBack 6).boot.recovering = none) ∧
     ((wroteBack 6).flag Fld.PWR_STATE_PENDING = false) ∧
     (∀ o ∈ (wroteBack 6).intake.orders, o.op ∉ [2, 3, 5, 7])) ∧
    ((toStart.cUp = true) ∧
     (toStart.stept.run =
        some { seq := 9, first := 4, last := 6, next := 4, b := 20, started := false : RunSt }) ∧
     ({ seq := 9, first := 4, last := 6, next := 4, b := 20, started := false : RunSt }.last + 1 < 2 ^ 64) ∧
     (toStart.stept.stepOn = false)) ∧
    (((transferring 2 true).cUp = true) ∧
     ((transferring 2 true).jrnl.transfers = [aTransfer 2]) ∧
     ((aTransfer 2).next < 2 ^ 64) ∧
     ((aTransfer 2).left = [] ∧
        (∀ n ∈ (aTransfer 2).parts, (transferring 2 true).durable n (aTransfer 2).policy = true) ∧
          ((aTransfer 2).kind = 0 → (transferring 2 true).windowOpen wCheckpoint = true))) ∧
    (((transferring 1 true).cUp = true) ∧
     ((transferring 1 true).jrnl.transfers = [aTransfer 1]) ∧
     ((aTransfer 1).next < 2 ^ 64) ∧
     ((aTransfer 1).left = [] ∧
        (∀ n ∈ (aTransfer 1).parts, (transferring 1 true).durable n (aTransfer 1).policy = true) ∧
          ((aTransfer 1).kind = 0 → (transferring 1 true).windowOpen wCheckpoint = true))) ∧
    (((transferring 0 true).cUp = true) ∧
     ((transferring 0 true).jrnl.transfers = [aTransfer 0]) ∧
     ((aTransfer 0).next < 2 ^ 64) ∧
     (¬((aTransfer 0).left = [] ∧
          (∀ n ∈ (aTransfer 0).parts, (transferring 0 true).durable n (aTransfer 0).policy = true) ∧
            ((aTransfer 0).kind = 0 → (transferring 0 true).windowOpen wCheckpoint = true)))) :=
  ⟨⟨by decide +kernel, by decide +kernel, by decide +kernel, rfl, by decide +kernel, by decide +kernel, by decide +kernel, by decide +kernel, by decide +kernel, by decide +kernel, rfl, by decide +kernel, by decide +kernel⟩,
   ⟨by decide +kernel, by decide +kernel, by decide +kernel, rfl, by decide +kernel, by decide +kernel, by decide +kernel, by decide +kernel, by decide +kernel, by decide +kernel, rfl, by decide +kernel, by decide +kernel⟩,
   ⟨by decide +kernel, by decide +kernel, by decide +kernel, rfl, by decide +kernel, by decide +kernel, by decide +kernel, by decide +kernel, by decide +kernel, by decide +kernel, rfl, by decide +kernel, by decide +kernel⟩,
   ⟨by decide +kernel, rfl, by decide +kernel, by decide +kernel, by decide +kernel, by decide +kernel, by decide +kernel⟩,
   ⟨by decide +kernel, rfl, by decide +kernel, by decide +kernel, by decide +kernel, by decide +kernel, by decide +kernel⟩,
   ⟨by decide +kernel, rfl, by decide +kernel, by decide +kernel, by decide +kernel, by decide +kernel, by decide +kernel, by decide +kernel, by decide +kernel, by decide +kernel, by decide +kernel, by decide +kernel, by decide +kernel, by decide +kernel, by decide +kernel, by decide +kernel⟩,
   ⟨by decide +kernel, rfl, by decide +kernel, by decide +kernel, by decide +kernel, by decide +kernel, by decide +kernel, by decide +kernel, by decide +kernel, by decide +kernel, by decide +kernel, by decide +kernel, by decide +kernel, by decide +kernel, by decide +kernel, by decide +kernel⟩,
   ⟨by decide +kernel, rfl, by decide +kernel, by decide +kernel⟩,
   ⟨by decide +kernel, rfl, by decide +kernel, by decide +kernel⟩,
   ⟨by decide +kernel, rfl, by decide +kernel, by decide +kernel⟩,
   ⟨by decide +kernel, rfl, by decide +kernel, by decide +kernel⟩⟩

/-- A sequencer entry of an OP, ready at once; and one with FLAGS. -/
def anEntry (op arg : Nat) : SeqEntry := ⟨op, 0, 1, 0, arg, 0xFFFFFFFF⟩

/-- The controller has ended the sweep. -/
def controlled (s : State) : State := { s with ex := { s.ex with annealDone := true } }

/-- The site that core 0 stands on is fenced. -/
def fencedAt (site : Nat) (s : State) : State := s.onSite site fun x => { x with fenced := true }

/-- The core has run its entries up to a position. -/
def coreAs (s : State) (c : CoreSt) : State := { s with ex := { s.ex with cores := [c] } }

/-- The core waits at barrier 7, where it arrived at cycle 100; a second one has not arrived. -/
def atBarrier (others : List Nat) : State :=
  let s := coreAs (sampling [anEntry 11 7]) { CoreSt.start 0 with waiting := some 7 }
  { s with
    ex := { s.ex with barriers := [⟨7, [(0, 100)]⟩] }
    spare := { s.spare with mapM := [0, 1], effWdog := 1000 }
    plan := { s.plan with shape := { tableShape [anEntry 11 7] with tables := ⟨0, [anEntry 11 7]⟩ :: others.map fun n => ⟨n, [anEntry 11 7]⟩ } } }

/-- A second core has not ended. -/
def twoCores : State :=
  let s := sampling [anEntry 15 0]
  { s with ex := { s.ex with cores := [CoreSt.start 0, CoreSt.start 1] } }

/-- Every parcel of the slot is updated. -/
def slotDone (s : State) : State := { s with ex := { s.ex with done := [0] } }

theorem wit_SequencerRows_1 :
    ((((sampling [anEntry 1 0]).tick 5).entryDue 0 1 = some (CoreSt.start 0, anEntry 1 0)) ∧
     (((sampling [anEntry 1 0]).tick 5).gatherReady (CoreSt.start 0) = true)) ∧
    ((((sampling [anEntry 1 0]).tick 5).entryDue 0 1 = some (CoreSt.start 0, anEntry 1 0)) ∧
     (((sampling [anEntry 1 0]).tick 5).gatherReady (CoreSt.start 0) = true) ∧
     (((sampling [anEntry 1 0]).tick 5).siteOf (0 / 1024) (0 % 1024) = some 0)) ∧
    ((((sampling [anEntry 15 0]).tick 5).entryDue 0 1 = none)) ∧
    ((((controlled (sampling [anEntry 5 0])).tick 5).entryDue 0 5 = some (CoreSt.start 0, anEntry 5 0)) ∧
     (((controlled (sampling [anEntry 5 0])).tick 5).lastSweep = false ∨
        (CoreSt.start 0).pass + 1 < (controlled (sampling [anEntry 5 0])).replicas ∨
          ((controlled (sampling [anEntry 5 0])).tick 5).controllerDone = true)) ∧
    ((4816 ≤ 4816)) ∧
    ((((sampling [anEntry 11 7]).tick 5).entryDue 0 11 = some (CoreSt.start 0, anEntry 11 7)) ∧
     (0 < 4096) ∧
     (((sampling [anEntry 11 7]).tick 5).nodeFenced 0 = false)) ∧
    ((((fencedAt 0 (sampling [anEntry 11 7])).tick 5).entryDue 0 11 = some (CoreSt.start 0, anEntry 11 7)) ∧
     (0 < 4096) ∧
     (((fencedAt 0 (sampling [anEntry 11 7])).tick 5).siteOf (0 / 1024) (0 % 1024) = some 0) ∧
     (((fencedAt 0 (sampling [anEntry 11 7])).site 0).fenced = true) ∧
     (0 < (fencedAt 0 (sampling [anEntry 11 7])).sites.length)) ∧
    ((((sampling [anEntry 11 7]).tick 5).entryDue 0 11 = some (CoreSt.start 0, anEntry 11 7)) ∧
     (0 < 4096) ∧
     (719 < 720) ∧
     (719 < (sampling [anEntry 11 7]).sites.length)) ∧
    ((4815 = 4096 + 719) ∧
     (719 < 720) ∧
     (719 < (fencedAt 719 (sampling [anEntry 11 7])).sites.length) ∧
     (((fencedAt 719 (sampling [anEntry 11 7])).tick 5).sweeping = true) ∧
     ((fencedAt 719 (sampling [anEntry 11 7])).core 4815 = none) ∧
     (((fencedAt 719 (sampling [anEntry 11 7])).site 719).fenced = true) ∧
     (((fencedAt 719 (sampling [anEntry 11 7])).tick 5).serves 719 = none)) ∧
    ((((sampling [anEntry 11 7]).tick 5).entryDue 1 11 = none) ∧
     (1 < 4096)) ∧
    ((((atBarrier []).tick 148).sweeping = true) ∧
     (((atBarrier []).tick 148).dueBarrier = some { id := 7, arrived := [(0, 100)] : Barrier })) ∧
    ((((atBarrier []).tick 147).dueBarrier = none)) :=
  ⟨by decide +kernel,
   by decide +kernel,
   by decide +kernel,
   by decide +kernel,
   by decide +kernel,
   by decide +kernel,
   by decide +kernel,
   by decide +kernel,
   by decide +kernel,
   by decide +kernel,
   by decide +kernel,
   by decide +kernel⟩

theorem wit_SequencerRows_2 :
    ((((twoChains (sampling [anEntry 15 0])).tick 5).entryDue 0 15 = some (CoreSt.start 0, anEntry 15 0)) ∧
     ((CoreSt.start 0).pass + 1 < (twoChains (sampling [anEntry 15 0])).replicas)) ∧
    (((twoCores.tick 10).entryDue 0 15 = some (CoreSt.start 0, anEntry 15 0)) ∧
     (twoCores.replicas ≤ (CoreSt.start 0).pass + 1) ∧
     ((twoCores.tick 10).passSpent = true) ∧
     (∃ x ∈ twoCores.ex.cores, x.node ≠ 0 ∧ x.ended = false)) ∧
    ((((slotDone (sampling [])).tick 10).slotEndDue = true)) ∧
    ((((slotDone (twoChains (sampling []))).tick 10).slotEndDue = true)) ∧
    ((((synchronous (slotDone (sampling []))).tick 10).slotEndDue = true)) ∧
    ((((slotDone (sampling [])).tick 9).slotEndDue = false)) ∧
    ((((atBarrier [1]).tick 1100).sweeping = true) ∧
     (((atBarrier [1]).tick 1100).watchdogDue 7 = some (1, 1)) ∧
     (((atBarrier [1]).site 1).reason = 0) ∧
     (1 < (atBarrier [1]).sites.length)) :=
  ⟨by decide +kernel,
   by decide +kernel,
   by decide +kernel,
   by decide +kernel,
   by decide +kernel,
   by decide +kernel,
   by decide +kernel⟩

/-- A unary FP32 block of parcel 0 whose lane 0 holds 1. -/
def unaryBlock : BlockD := ⟨0, 6, false, false, 0, 1, 64, 256⟩

/-- The core fills from that block and drains it as BF16. -/
def arithmetic (es : List SeqEntry) : State :=
  let s := sampling es
  { s with plan := { s.plan with data := { s.plan.data with
      blocks := [unaryBlock], nBlocks := 1, payloads := [natLe 0x3F800000 4 ++ zeros 252]
      drains := [⟨0, 0, 1, 0, 0, 0, 0x3F800000, 0, 0, 0xFFFFFFFF⟩] } } }

/-- A sequencer entry with FLAGS and COUNT. -/
def flagged (op flags count arg : Nat) : SeqEntry := ⟨op, flags, count, 0, arg, 0xFFFFFFFF⟩

/-- Bank A is closed since cycle 3. -/
def fullBank : Bank := { Bank.reset with closed := true, closedAt := 3, cols := Vault.ofX (.fin 1) :: List.replicate 63 Vault.zero }

/-- The core holds that bank. -/
def fullCore : CoreSt := { CoreSt.start 0 with bankA := fullBank }

/-- Bank A is due for the drain path. -/
def draining : State := coreAs (arithmetic [flagged 2 4 1 0, anEntry 3 0]) fullCore

/-- A block of parcel 0 presented at cycle 8. -/
def presented : Drained := ⟨0, 0, 0, 0, 0, 0x3F80 :: List.replicate 63 0, 8, 8⟩

/-- That block waits for UPDATE under a DIST. -/
def deciding (dist : Nat) : State :=
  let s := coreAs (arithmetic [anEntry 15 0]) { CoreSt.start 0 with drains := [presented] }
  { s with
    plan := { s.plan with data := { s.plan.data with ranges := [⟨0, 1, 1, dist⟩] } }
    ex := { s.ex with betas := [0x3F800000] } }

/-- A V-core moves the continuous parcel of M-core 0, whose linear block is presented. -/
def moving (dist : Nat) : State :=
  let s := arithmetic [flagged 2 4 1 0, anEntry 3 0]
  let l : SeqEntry := anEntry 7 0
  { s with
    plan := { s.plan with
      data := { s.plan.data with
        runs := [⟨0, 1, 4, 1, 0, 0⟩], parcels := [⟨4, 0, [0]⟩], ranges := [⟨0, 1, 1, dist⟩]
        blocks := [⟨4, 6, false, false, 0, 1, 1, 16⟩]
        payloads := [[0, 1] ++ natLe 0xFFFFFFFFFF 5 ++ zeros 5 ++ natLe 0x3F800000 4] }
      shape := { s.plan.shape with tables := s.plan.shape.tables ++ [⟨1024, [l]⟩] } }
    ex := { s.ex with
      betas := [0x3F800000]
      cores := [{ CoreSt.start 0 with drains := [presented] }, CoreSt.start 1024] } }

/-- The pass is over and a reduction of four parts in FP64 is due; in a Throughput step or not. -/
def reducing (throughput : Bool) : State :=
  let s := arithmetic [anEntry 6 0]
  { s with
    plan := { s.plan with data := { s.plan.data with reds := [⟨0, 0, 0, 4, 0⟩] } }
    ex := { s.ex with slot := 1 }
    slog := { s.slog with throughput := throughput } }

/-- The parcel of the slot in progress has no factor blocks. -/
def unfactored : State := coreAs (sampling [anEntry 15 0]) (CoreSt.start 0)

theorem wit_ArithmeticRows_1 :
    ((((arithmetic [flagged 2 4 1 0]).tick 5).entryDue 0 2 = some (CoreSt.start 0, flagged 2 4 1 0)) ∧
     (((arithmetic [flagged 2 4 1 0]).tick 5).macReady (CoreSt.start 0) (flagged 2 4 1 0) = true) ∧
     ((arithmetic [flagged 2 4 1 0]).plan.data.blocks[(flagged 2 4 1 0).arg]? = some unaryBlock)) ∧
    ((((arithmetic [flagged 2 7 1 0]).tick 5).entryDue 0 2 = some (CoreSt.start 0, flagged 2 7 1 0)) ∧
     (((arithmetic [flagged 2 7 1 0]).tick 5).macReady (CoreSt.start 0) (flagged 2 7 1 0) = true) ∧
     ((arithmetic [flagged 2 7 1 0]).plan.data.blocks[(flagged 2 7 1 0).arg]? = some unaryBlock)) ∧
    (((draining.tick 5).entryDue 0 2 = some (fullCore, flagged 2 4 1 0)) ∧
     ((draining.tick 5).macReady fullCore (flagged 2 4 1 0) = false)) ∧
    (((draining.tick 5).drainDue 0 = some (fullCore, false)) ∧
     (draining.plan.data.drain
          ((draining.plan.data.drainOf draining.plan.shape (fullCore.bank false).parcel).getD 0) =
        some
          { id := 0, cls := 0, out := 1, round := 0, act := 0, actTable := 0, scale := 1065353216,
            clampLo := 0, clampHi := 0, bias := 4294967295 : DrainCfg })) ∧
    (((draining.tick 3).drainDue 0 = none)) ∧
    ((((deciding 2).tick 10).updateDue 0 = some (Sum.inl presented)) ∧
     ((deciding 2).plan.data.parcels[presented.parcel]? =
        some { typ := 0, cls := 0, vars := [0] : Parcel }) ∧
     ((deciding 2).plan.data.rule presented.parcel = some Rule.heatBath) ∧
     (Rule.heatBath ∈ [Rule.heatBath, Rule.glauber, Rule.metropolis]) ∧
     ({ typ := 0, cls := 0, vars := [0] : Parcel }.vars = [0]) ∧
     (0 ∉ ((deciding 2).tick 10).pairedVars presented.chain)) ∧
    ((((deciding 1).tick 10).updateDue 0 = some (Sum.inl presented)) ∧
     ((deciding 1).plan.data.parcels[presented.parcel]? =
        some { typ := 0, cls := 0, vars := [0] : Parcel }) ∧
     ((deciding 1).plan.data.rule presented.parcel = some Rule.glauber) ∧
     (Rule.glauber ∈ [Rule.heatBath, Rule.glauber, Rule.metropolis]) ∧
     ({ typ := 0, cls := 0, vars := [0] : Parcel }.vars = [0]) ∧
     (0 ∉ ((deciding 1).tick 10).pairedVars presented.chain)) ∧
    ((((deciding 16).tick 10).updateDue 0 = some (Sum.inl presented)) ∧
     ((deciding 16).plan.data.parcels[presented.parcel]? =
        some { typ := 0, cls := 0, vars := [0] : Parcel }) ∧
     ((deciding 16).plan.data.rule presented.parcel = some Rule.metropolis) ∧
     (Rule.metropolis ∈ [Rule.heatBath, Rule.glauber, Rule.metropolis]) ∧
     ({ typ := 0, cls := 0, vars := [0] : Parcel }.vars = [0]) ∧
     (0 ∉ ((deciding 16).tick 10).pairedVars presented.chain)) ∧
    ((((deciding 2).tick 9).updateDue 0 = none)) ∧
    ((((moving 4).tick 10).entryDue 1024 7 = some (CoreSt.start 1024, anEntry 7 0)) ∧
     (((moving 4).tick 10).langevinReady (CoreSt.start 1024) (anEntry 7 0) = true) ∧
     ((moving 4).plan.home.langevin (anEntry 7 0) = [0]) ∧
     ((moving 4).ex.done.contains ((moving 4).parcelIn (CoreSt.start 1024).pass 0) = false) ∧
     ((moving 4).plan.data.rule 0 = some Rule.ula) ∧
     (Rule.ula ∈ [Rule.ula, Rule.mala]) ∧
     ((moving 4).plan.data.drainOf (moving 4).plan.shape 0 = some 0) ∧
     ((moving 4).plan.data.drain 0 =
        some
          { id := 0, cls := 0, out := 1, round := 0, act := 0, actTable := 0, scale := 1065353216,
            clampLo := 0, clampHi := 0, bias := 4294967295 : DrainCfg }) ∧
     (Option.map (fun x => x.vars) (moving 4).plan.data.parcels[0]? = some [0])) ∧
    ((((moving 20).tick 10).entryDue 1024 7 = some (CoreSt.start 1024, anEntry 7 0)) ∧
     (((moving 20).tick 10).langevinReady (CoreSt.start 1024) (anEntry 7 0) = true) ∧
     ((moving 20).plan.home.langevin (anEntry 7 0) = [0]) ∧
     ((moving 20).ex.done.contains ((moving 20).parcelIn (CoreSt.start 1024).pass 0) = false) ∧
     ((moving 20).plan.data.rule 0 = some Rule.mala) ∧
     (Rule.mala ∈ [Rule.ula, Rule.mala]) ∧
     ((moving 20).plan.data.drainOf (moving 20).plan.shape 0 = some 0) ∧
     ((moving 20).plan.data.drain 0 =
        some
          { id := 0, cls := 0, out := 1, round := 0, act := 0, actTable := 0, scale := 1065353216,
            clampLo := 0, clampHi := 0, bias := 4294967295 : DrainCfg }) ∧
     (Option.map (fun x => x.vars) (moving 20).plan.data.parcels[0]? = some [0])) ∧
    ((((reducing false).tick 10).entryDue 0 6 = some (CoreSt.start 0, anEntry 6 0)) ∧
     (((reducing false).tick 10).passEnded (CoreSt.start 0).pass = true) ∧
     (List.find? (fun x => x.id == (anEntry 6 0).arg) (reducing false).plan.data.reds =
        some { id := 0, mode := 0, op := 0, parts := 4, source := 0 : RedRec }) ∧
     (((reducing false).tick 10).arrivalsOk
          { id := 0, mode := 0, op := 0, parts := 4, source := 0 : RedRec } [] [] =
        true)) :=
  ⟨by decide +kernel,
   by decide +kernel,
   by decide +kernel,
   by decide +kernel,
   by decide +kernel,
   by decide +kernel,
   by decide +kernel,
   by decide +kernel,
   by decide +kernel,
   by decide +kernel,
   by decide +kernel,
   by decide +kernel⟩

theorem wit_ArithmeticRows_2 :
    ((((reducing true).tick 10).entryDue 0 6 = some (CoreSt.start 0, anEntry 6 0)) ∧
     (((reducing true).tick 10).passEnded (CoreSt.start 0).pass = true) ∧
     (List.find? (fun x => x.id == (anEntry 6 0).arg) (reducing true).plan.data.reds =
        some { id := 0, mode := 0, op := 0, parts := 4, source := 0 : RedRec }) ∧
     (((reducing true).tick 10).arrivalsOk
          { id := 0, mode := 0, op := 0, parts := 4, source := 0 : RedRec } [3, 1, 0, 2] [0, 2, 1, 3] =
        true)) ∧
    ((((reducing true).tick 10).entryDue 0 6 = some (CoreSt.start 0, anEntry 6 0)) ∧
     (((reducing true).tick 10).passEnded (CoreSt.start 0).pass = true) ∧
     (List.find? (fun x => x.id == (anEntry 6 0).arg) (reducing true).plan.data.reds =
        some { id := 0, mode := 0, op := 0, parts := 4, source := 0 : RedRec }) ∧
     (((reducing true).tick 10).arrivalsOk
          { id := 0, mode := 0, op := 0, parts := 4, source := 0 : RedRec } [3, 1, 0] [0, 2, 1, 3] =
        false)) ∧
    ((((arithmetic [flagged 2 4 1 0]).tick 5).entryDue 0 2 = some (CoreSt.start 0, flagged 2 4 1 0)) ∧
     (((arithmetic [flagged 2 4 1 0]).tick 5).macReady (CoreSt.start 0) (flagged 2 4 1 0) = true) ∧
     (((arithmetic [flagged 2 4 1 0]).tick 5).siteOf (0 / 1024) (0 % 1024) = some 0) ∧
     ((CoreFault.residue, Damage.charge 0 0) ∈
        [(CoreFault.residue, Damage.charge 0 0), (CoreFault.parity false 3 1 2, Damage.slice 0 false 3),
          (CoreFault.uncorrectable 5, Damage.bank 0 5)])) ∧
    ((((arithmetic [flagged 2 4 1 0]).tick 5).entryDue 0 2 = some (CoreSt.start 0, flagged 2 4 1 0)) ∧
     (((arithmetic [flagged 2 4 1 0]).tick 5).macReady (CoreSt.start 0) (flagged 2 4 1 0) = true) ∧
     (((arithmetic [flagged 2 4 1 0]).tick 5).siteOf (0 / 1024) (0 % 1024) = some 0) ∧
     ((CoreFault.parity false 3 1 2, Damage.slice 0 false 3) ∈
        [(CoreFault.residue, Damage.charge 0 0), (CoreFault.parity false 3 1 2, Damage.slice 0 false 3),
          (CoreFault.uncorrectable 5, Damage.bank 0 5)])) ∧
    ((((arithmetic [flagged 2 4 1 0]).tick 5).entryDue 0 2 = some (CoreSt.start 0, flagged 2 4 1 0)) ∧
     (((arithmetic [flagged 2 4 1 0]).tick 5).macReady (CoreSt.start 0) (flagged 2 4 1 0) = true) ∧
     (((arithmetic [flagged 2 4 1 0]).tick 5).siteOf (0 / 1024) (0 % 1024) = some 0) ∧
     ((CoreFault.uncorrectable 5, Damage.bank 0 5) ∈
        [(CoreFault.residue, Damage.charge 0 0), (CoreFault.parity false 3 1 2, Damage.slice 0 false 3),
          (CoreFault.uncorrectable 5, Damage.bank 0 5)])) ∧
    ((((deciding 16).tick 10).updateDue 0 = some (Sum.inl presented))) ∧
    (((unfactored.tick 10).updateDue 0 = some (Sum.inr 0))) ∧
    ((((moving 20).tick 10).entryDue 1024 7 = some (CoreSt.start 1024, anEntry 7 0)) ∧
     (((moving 20).tick 10).langevinReady (CoreSt.start 1024) (anEntry 7 0) = true)) :=
  ⟨by decide +kernel,
   by decide +kernel,
   by decide +kernel,
   by decide +kernel,
   by decide +kernel,
   by decide +kernel,
   by decide +kernel,
   by decide +kernel⟩

/-- The controller is open over a group of two variables, paired or not. -/
def grouped (paired : Bool) : State :=
  let s := sampling []
  { s with
    plan := { s.plan with data := { s.plan.data with
      nVars := 2, runs := [⟨0, 2, 0, 1, 0, 0⟩], parcels := [⟨0, 0, [0, 1]⟩], ctrls := [⟨1, 64, 1, 4⟩]
      anneal := { s.plan.data.anneal with groups := [⟨0, true, 0, [0, 1]⟩] } } }
    ex := { s.ex with
      slot := 1, groupAcc := [0]
      chain := { s.ex.chain with vals := [1, 0], an := { s.ex.chain.an with groups := [⟨paired, 0, 0⟩] } }
      betas := [0x3F800000] } }

/-- A swap event is due. -/
def swapping : State := { closing 1 with ex := { (closing 1).ex with annealDone := true, swapDue := true, energy := [(0, true), (0, true)] } }

theorem wit_AnnealRows :
    ((((grouped true).tick 10).controllerOpen = true) ∧
     ((grouped true).ex.groupNext < (grouped true).replicas * (grouped true).nGroups) ∧
     ((grouped true).plan.data.anneal.groups[(grouped true).ex.groupNext % (grouped true).nGroups]? =
        some { id := 0, hard := true, f := 0, members := [0, 1] : GroupD })) ∧
    ((((grouped false).tick 10).controllerOpen = true) ∧
     ((grouped false).ex.groupNext < (grouped false).replicas * (grouped false).nGroups) ∧
     ((grouped false).plan.data.anneal.groups[(grouped false).ex.groupNext % (grouped false).nGroups]? =
        some { id := 0, hard := true, f := 0, members := [0, 1] : GroupD })) ∧
    ((((sampling []).tick 10).controllerOpen = false)) ∧
    ((((closing 0).tick 10).controllerOpen = true) ∧
     ((closing 0).replicas * (closing 0).nGroups ≤ (closing 0).ex.groupNext)) ∧
    ((((closing 1).tick 10).controllerOpen = true) ∧
     ((closing 1).replicas * (closing 1).nGroups ≤ (closing 1).ex.groupNext)) ∧
    (((swapping.tick 10).sweeping = true) ∧
     (swapping.ex.annealDone = true) ∧
     (swapping.ex.swapDue = true)) ∧
    (((closing 1).ex.swapDue = false)) :=
  ⟨by decide +kernel,
   by decide +kernel,
   by decide +kernel,
   by decide +kernel,
   by decide +kernel,
   by decide +kernel,
   by decide +kernel⟩

/-- A hop of two flits from core 0 on site 0 to core 1 on site 1, allocated at cycle 2 with its data due at 6. -/
def hopping : State :=
  let s := sampling []
  { s with
    spare := { s.spare with mapM := [0, 1] }
    plan := { s.plan with shape := { s.plan.shape with hops := [⟨2, 0, 1, 1, 2, 1, 0⟩] } }
    mesh := { s.mesh with hops := [⟨2, 4, 6, 2, 4⟩] } }

/-- The hop is in flight since cycle 2; a router on its way erred once before. -/
def flyingHop : State := { hopping with ex := { hopping.ex with inFlight := [(0, 2, 6)] } }

/-- Router 719 has erred once in the step. -/
def erredOnce : State := flyingHop.onSite 719 fun x => { x with flitErrors := 1 }

/-- Packet 3 from router 40 is on its way to its target 41, with another branch waiting on the same output or not. -/
def carrying (waits : List Branch) : State :=
  { up with mesh := { up.mesh with
      packets := [⟨3, 40, 2, [41], [], false⟩], flying := [⟨40, 1, 3, [41], false, 4⟩], waiting := waits
      inUse := [(40, 1, 2)] } }

/-- Packet 3 has reached both of its targets; a number of them are still to acknowledge. -/
def reached (left : List Nat) : State :=
  { up with mesh := { up.mesh with packets := [⟨3, 40, 2, left, [41, 42], false⟩] } }

theorem wit_MeshTraffic_1 :
    ((720 ≤ 720)) ∧
    ((0 < 720) ∧
     ((hopping.tick 5).injectDue 0 0 = true) ∧
     ((hopping.tick 5).hopAt 0 =
        some
          ({ cycle := 2, src := 0, dst := 1, plane := 1, flits := 2, duration := 1, slack := 0 : Hop },
            { a := 2, l := 4, t := 6, a' := 2, l' := 4 : HopAlloc })) ∧
     ((hopping.site 0).fenced = false)) ∧
    ((0 < 720) ∧
     (((fencedAt 0 hopping).tick 5).injectDue 0 0 = true) ∧
     (((fencedAt 0 hopping).tick 5).hopAt 0 =
        some
          ({ cycle := 2, src := 0, dst := 1, plane := 1, flits := 2, duration := 1, slack := 0 : Hop },
            { a := 2, l := 4, t := 6, a' := 2, l' := 4 : HopAlloc })) ∧
     (((fencedAt 0 hopping).site 0).fenced = true) ∧
     (((fencedAt 0 hopping).tick 5).portHop
          { cycle := 2, src := 0, dst := 1, plane := 1, flits := 2, duration := 1, slack := 0 : Hop } 0 =
        false) ∧
     (0 < (fencedAt 0 hopping).sites.length)) ∧
    ((0 < 720) ∧
     ((hopping.tick 1).injectDue 0 0 = false)) ∧
    (((flyingHop.tick 6).deliveryDue 0 = true) ∧
     (List.find? (fun x => x.1 == 0) flyingHop.ex.inFlight = some (0, 2, 6))) ∧
    (((flyingHop.tick 6).deliveryDue 0 = true) ∧
     (List.find? (fun x => x.1 == 0) flyingHop.ex.inFlight = some (0, 2, 6)) ∧
     (719 < 720) ∧
     (719 < flyingHop.sites.length)) ∧
    (((erredOnce.tick 6).deliveryDue 0 = true) ∧
     (List.find? (fun x => x.1 == 0) erredOnce.ex.inFlight = some (0, 2, 6)) ∧
     (719 < 720) ∧
     (719 < erredOnce.sites.length)) ∧
    (((flyingHop.tick 5).deliveryDue 0 = false)) ∧
    ((40 < 720) ∧
     (40 < up.sites.length) ∧
     (up.cUp = true) ∧
     ((up.site 40).dead = false) ∧
     (∀ p ∈ up.mesh.packets, p.id ≠ 3) ∧
     (∀ b ∈ up.mesh.flying, b.pkt ≠ 3) ∧
     (2 ≤ 34) ∧
     (34 ≤ 34) ∧
     ((up.site 40).fenced = false)) ∧
    ((40 < 720) ∧
     (40 < up.sites.length) ∧
     (up.cUp = true) ∧
     ((up.site 40).dead = false) ∧
     (∀ p ∈ up.mesh.packets, p.id ≠ 3) ∧
     (∀ b ∈ up.mesh.flying, b.pkt ≠ 3) ∧
     (2 ≤ 34) ∧
     (34 ≤ 34) ∧
     ((up.site 40).fenced = false) ∧
     (0 < 720) ∧
     (0 < up.sites.length)) ∧
    ((40 < 720) ∧
     (40 < up.sites.length) ∧
     (up.cUp = true) ∧
     ((up.site 40).dead = false) ∧
     (∀ p ∈ up.mesh.packets, p.id ≠ 3) ∧
     (∀ b ∈ up.mesh.flying, b.pkt ≠ 3) ∧
     (2 ≤ 2) ∧
     (2 ≤ 34) ∧
     (42 < 720) ∧
     (42 ≠ 40) ∧
     ((up.site 40).fenced = false) ∧
     (up.flag Fld.MODE_STAT_MODE = false) ∧
     ((up.tick 5).orderDir 40 40 42 = some 1) ∧
     (1 < 4) ∧
     (∀ b ∈ up.mesh.waiting, b.site ≠ 40 ∨ b.dir ≠ 1)) ∧
    ((40 < 720) ∧
     (40 < (fencedAt 40 up).sites.length) ∧
     ((fencedAt 40 up).cUp = true) ∧
     (((fencedAt 40 up).site 40).dead = false) ∧
     (∀ p ∈ (fencedAt 40 up).mesh.packets, p.id ≠ 3) ∧
     (∀ b ∈ (fencedAt 40 up).mesh.flying, b.pkt ≠ 3) ∧
     (2 ≤ 2) ∧
     (2 ≤ 34) ∧
     (((fencedAt 40 up).site 40).fenced = true)) :=
  ⟨by decide +kernel,
   by decide +kernel,
   by decide +kernel,
   by decide +kernel,
   by decide +kernel,
   by decide +kernel,
   by decide +kernel,
   by decide +kernel,
   by decide +kernel,
   by decide +kernel,
   by decide +kernel,
   by decide +kernel⟩

theorem wit_MeshTraffic_2 :
    ((41 < 720) ∧
     ((carrying []).cUp = true) ∧
     (((carrying []).site 41).dead = false) ∧
     (((carrying []).site 41).fenced = false) ∧
     (((carrying []).tick 5).arriving 3 41 =
        some { site := 40, dir := 1, pkt := 3, targets := [41], copy := false, done := 4 : Branch }) ∧
     (List.find? (fun x => x.id == 3) (carrying []).mesh.packets =
        some { id := 3, src := 40, flits := 2, waiting := [41], reached := [], failed := false : Packet }) ∧
     ({ site := 40, dir := 1, pkt := 3, targets := [41], copy := false, done := 4 : Branch }.targets =
        [41])) ∧
    ((40 < 720) ∧
     (1 < 4) ∧
     ((carrying []).cUp = true) ∧
     (((carrying []).tick 5).underWay 40 1 < (carrying []).creditUsed 40 1) ∧
     (∀ b ∈ (carrying []).mesh.waiting, b.site ≠ 40 ∨ b.dir ≠ 1)) ∧
    ((40 < 720) ∧
     (1 < 4) ∧
     ((carrying
            [{ site := 40, dir := 1, pkt := 3, targets := [77], copy := true, done := 0 : Branch }]).cUp =
        true) ∧
     (((carrying
                  [{ site := 40, dir := 1, pkt := 3, targets := [77], copy := true, done := 0 :
                      Branch }]).tick
              5).underWay
          40 1 <
        (carrying
              [{ site := 40, dir := 1, pkt := 3, targets := [77], copy := true, done := 0 :
                  Branch }]).creditUsed
          40 1) ∧
     (List.find? (fun b => b.site == 40 && b.dir == 1)
          (carrying
                [{ site := 40, dir := 1, pkt := 3, targets := [77], copy := true, done := 0 :
                    Branch }]).mesh.waiting =
        some { site := 40, dir := 1, pkt := 3, targets := [77], copy := true, done := 0 : Branch })) ∧
    ((40 < 720) ∧
     (1 < 4) ∧
     (up.cUp = true) ∧
     (up.creditUsed 40 1 ≤ (up.tick 5).underWay 40 1)) ∧
    (((reached [41]).cUp = true) ∧
     (List.find? (fun x => x.id == 3) (reached [41]).mesh.packets =
        some
          { id := 3, src := 40, flits := 2, waiting := [41], reached := [41, 42], failed := false :
            Packet }) ∧
     (41 ∈
        { id := 3, src := 40, flits := 2, waiting := [41], reached := [41, 42], failed := false :
            Packet }.reached) ∧
     ({ id := 3, src := 40, flits := 2, waiting := [41], reached := [41, 42], failed := false :
            Packet }.waiting =
        [41])) ∧
    (((reached [42, 41]).cUp = true) ∧
     (List.find? (fun x => x.id == 3) (reached [42, 41]).mesh.packets =
        some
          { id := 3, src := 40, flits := 2, waiting := [42, 41], reached := [41, 42], failed := false :
            Packet }) ∧
     (41 ∈
        { id := 3, src := 40, flits := 2, waiting := [42, 41], reached := [41, 42], failed := false :
            Packet }.reached) ∧
     (41 ∈
        { id := 3, src := 40, flits := 2, waiting := [42, 41], reached := [41, 42], failed := false :
            Packet }.waiting) ∧
     (1 <
        { id := 3, src := 40, flits := 2, waiting := [42, 41], reached := [41, 42], failed := false :
              Packet }.waiting.length)) ∧
    ((∀ q ∈ (reached [42]).mesh.packets, q.id = 3 → 41 ∉ q.waiting ∨ 41 ∉ q.reached)) :=
  ⟨by decide +kernel,
   by decide +kernel,
   by decide +kernel,
   by decide +kernel,
   by decide +kernel,
   by decide +kernel,
   by decide +kernel⟩

/-- A change to port 31. -/
def onPort (f : MPort → MPort) : State := memory.onMport 31 f

/-- Tile 1 has had an open merge entry since cycle 2. -/
def merging : State := onPort fun m => { m with entries := [(1, 2)] }

/-- A request heads the queue of port 31, whose account holds a tile. -/
def queuedRequest (r : MReq) : State := onPort fun m => { m with queue := [r], account := 4096 }

/-- A read, and a write of a whole tile, at the head of the queue. -/
def aRead : MReq := ⟨9, false, 4096, 64, none, 3, 4096⟩

/-- A write of a whole tile. -/
def aWrite : MReq := ⟨9, true, 4096, 4096, some (List.replicate 4096 5), 3, 4096⟩

/-- A read admitted at cycle 3 is under way. -/
def reading (f : MPort → MPort) : State := onPort fun m => f { m with reads := [(aRead, 3)] }

/-- Tile 1 is poisoned. -/
def poisoned (m : MPort) : MPort := { m with poison := [1] }

/-- Tile 1 holds a check that no bytes have. -/
def unchecked (m : MPort) : MPort := { m with checks := [(1, 2 ^ 32)] }

theorem crc32c_lt (bs : List Byte) : crc crc32c bs < 2 ^ 32 := by
  have h : ∀ (l : List Nat) (n a : Nat), l.foldl (fun acc i => acc * 2 + n / 2 ^ i % 2) a < (a + 1) * 2 ^ l.length := by
    intro l n
    induction l with
    | nil => intro a; simp
    | cons x l ih =>
      intro a
      have := ih (a * 2 + n / 2 ^ x % 2)
      have h2 : n / 2 ^ x % 2 < 2 := Nat.mod_lt _ (by decide)
      simp only [List.foldl_cons, List.length_cons]
      calc _ < (a * 2 + n / 2 ^ x % 2 + 1) * 2 ^ l.length := this
        _ ≤ (a * 2 + 2) * 2 ^ l.length := Nat.mul_le_mul_right _ (by omega)
        _ = (a + 1) * 2 ^ (l.length + 1) := by ring
  have := h (List.range 32) (crcRun crc32c crc32c.init bs) 0
  exact Nat.xor_lt_two_pow (by simpa [crc32c, reflectBits] using this) (by decide)

theorem unchecked_fails : (reading unchecked).tileAgrees 31 1 = false := by
  have h := crc32c_lt ((reading unchecked).readMem 31 4096 4096)
  have e : ((reading unchecked).mport 31).checks = [(1, 2 ^ 32)] := by decide +kernel
  simp only [State.tileAgrees, e, State.tileCrc]
  simp
  omega

/-- A write admitted at cycle 3 is not yet acknowledged. -/
def writing : State := onPort fun m => { m with writes := [(aRead, 3)], entries := [(1, 2)] }

/-- A SCRUB window is open in the step; the scrubber stands at a tile. -/
def scrubbing (pos : Nat) : State :=
  let s := onPort fun m => { m with scrubPos := pos }
  { s with
    stept := { s.stept with anchor := some ⟨0, 0, 0, 0⟩, stepOn := true }
    plan := { s.plan with data := { s.plan.data with windows := [⟨4, 0, 65535, 1, 0⟩] } } }

/-- A Throughput step. -/
def throughputStep : State := { memory with slog := { memory.slog with throughput := true }, stept := { memory.stept with stepOn := true } }

/-- The host selects memory port 31. -/
def selecting : State := memory.setReg (Reg.SEL_MPORT.at .host) 31

/-- A residence of block 0 of the plan stands at the start of port 16. -/
def resident : State :=
  { window memory with plan := { planned.plan with
      res := [⟨0, 2, 16, 0⟩]
      data := { tinyPlan with blocks := [unaryBlock], nBlocks := 1, payloads := [zeros 256] } } }

theorem wit_MemoryPorts_1 :
    ((inPart 32 0 ([] : List Byte).length = false)) ∧
    ((memory.portActive 31 = true) ∧
     (31 < 32) ∧
     (31 < memory.mports.length) ∧
     (Memory.wf memory.mem = true) ∧
     (inPart 31 (portBytes 31 - 4) [1, 2, 3, 4].length = true) ∧
     ([1, 2, 3, 4] ≠ []) ∧
     (memory.planOn = true) ∧
     (inUsable 31 (portBytes 31 - 4) [1, 2, 3, 4].length = true)) ∧
    ((memory.portActive 31 = true) ∧
     (31 < 32) ∧
     (31 < memory.mports.length) ∧
     (Memory.wf memory.mem = true) ∧
     (inPart 31 (portBytes 31 - 3) [1, 2, 3, 4].length = true) ∧
     ([1, 2, 3, 4] ≠ []) ∧
     (memory.planOn = true) ∧
     (inUsable 31 (portBytes 31 - 3) [1, 2, 3, 4].length = false)) ∧
    ((merging.portActive 31 = true) ∧
     (31 < 32) ∧
     (31 < merging.mports.length) ∧
     (Memory.wf merging.mem = true) ∧
     (inPart 31 4096 64 = true) ∧
     (inUsable 31 4096 64 = true) ∧
     (64 ≠ 0) ∧
     (merging.planOn = true) ∧
     (tilesOf 4096 64 = [1]) ∧
     (∃ e ∈ (merging.mport 31).entries, e.1 = 1 ∧ (merging.tick 18).ccyc ≤ e.2 + 16)) ∧
    ((merging.portActive 31 = true) ∧
     (31 < 32) ∧
     (31 < merging.mports.length) ∧
     (Memory.wf merging.mem = true) ∧
     (inPart 31 4096 64 = true) ∧
     (inUsable 31 4096 64 = true) ∧
     (64 ≠ 0) ∧
     (merging.planOn = true) ∧
     (tilesOf 4096 64 = [1]) ∧
     (∀ e ∈ (merging.mport 31).entries, e.1 = 1 → e.2 + 16 < (merging.tick 19).ccyc) ∧
     ((merging.mport 31).entries.length < 64)) ∧
    (((queuedRequest aRead).portActive 31 = true) ∧
     (31 < 32) ∧
     (31 < (queuedRequest aRead).mports.length) ∧
     (Memory.wf (queuedRequest aRead).mem = true) ∧
     (((queuedRequest aRead).tick 5).admittable 31 = some aRead) ∧
     (aRead.write = false) ∧
     (((queuedRequest aRead).mport 31).writes = [])) ∧
    (((queuedRequest aWrite).portActive 31 = true) ∧
     (31 < 32) ∧
     (31 < (queuedRequest aWrite).mports.length) ∧
     (Memory.wf (queuedRequest aWrite).mem = true) ∧
     (((queuedRequest aWrite).tick 5).admittable 31 = some aWrite) ∧
     (aWrite.write = true) ∧
     (aWrite.data = some (List.replicate 4096 5)) ∧
     ((List.replicate 4096 5).length = aWrite.len) ∧
     (partTiles aWrite.addr aWrite.len = []) ∧
     (((queuedRequest aWrite).mport 31).reads = []) ∧
     (∀ q ∈ ((queuedRequest aWrite).mport 31).queue, q.write = true)) ∧
    (((reading id).portActive 31 = true) ∧
     (31 < 32) ∧
     (31 < (reading id).mports.length) ∧
     (Memory.wf (reading id).mem = true) ∧
     (((reading id).mport 31).reads = [(aRead, 3)]) ∧
     (3 + portReadLat 31 ≤ ((reading id).tick 323).ccyc) ∧
     (∀ x ∈ tilesOf aRead.addr aRead.len,
        x ∉ ((reading id).mport 31).poison ∧ (reading id).tileAgrees 31 x = true)) ∧
    (((reading poisoned).portActive 31 = true) ∧
     (31 < 32) ∧
     (31 < (reading poisoned).mports.length) ∧
     (Memory.wf (reading poisoned).mem = true) ∧
     (((reading poisoned).mport 31).reads = [(aRead, 3)]) ∧
     (3 + portReadLat 31 ≤ ((reading poisoned).tick 323).ccyc) ∧
     (tilesOf aRead.addr aRead.len = [1]) ∧
     ((reading poisoned).inResidence 31 1 = false) ∧
     ((aRead.data.getD ((reading poisoned).readMem 31 aRead.addr aRead.len)).length = aRead.len) ∧
     (1 ∈ ((reading poisoned).mport 31).poison)) ∧
    (((reading unchecked).portActive 31 = true) ∧
     (31 < 32) ∧
     (31 < (reading unchecked).mports.length) ∧
     (Memory.wf (reading unchecked).mem = true) ∧
     (((reading unchecked).mport 31).reads = [(aRead, 3)]) ∧
     (3 + portReadLat 31 ≤ ((reading unchecked).tick 323).ccyc) ∧
     (tilesOf aRead.addr aRead.len = [1]) ∧
     ((reading unchecked).inResidence 31 1 = false) ∧
     ((aRead.data.getD ((reading unchecked).readMem 31 aRead.addr aRead.len)).length = aRead.len) ∧
     (1 ∉ ((reading unchecked).mport 31).poison) ∧
     ((reading unchecked).tileAgrees 31 1 = false) ∧
     (((reading unchecked).mport 31).poisonFull = false) ∧
     (((reading unchecked).mport 31).poison.length < 255)) ∧
    ((writing.portActive 31 = true) ∧
     (31 < 32) ∧
     (31 < writing.mports.length) ∧
     (Memory.wf writing.mem = true) ∧
     ((writing.mport 31).writes = [(aRead, 3)]) ∧
     (3 + portAckLat 31 ≤ (writing.tick 99).ccyc)) ∧
    ((writing.portActive 31 = true) ∧
     (31 < 32) ∧
     (31 < writing.mports.length) ∧
     (Memory.wf writing.mem = true) ∧
     ((writing.mport 31).writes = [(aRead, 3)]) ∧
     ((writing.tick 98).ccyc < 3 + portAckLat 31)) :=
  ⟨by decide +kernel,
   by decide +kernel,
   by decide +kernel,
   by decide +kernel,
   by decide +kernel,
   by decide +kernel,
   ⟨by decide +kernel, by decide +kernel, by decide +kernel, by decide +kernel, rfl, by decide +kernel, rfl, by decide +kernel, by decide +kernel, by decide +kernel, by decide +kernel⟩,
   by decide +kernel,
   by decide +kernel,
   ⟨by decide +kernel, by decide +kernel, by decide +kernel, by decide +kernel, by decide +kernel, by decide +kernel, by decide +kernel, by decide +kernel, by decide +kernel, by decide +kernel, unchecked_fails, by decide +kernel, by decide +kernel⟩,
   by decide +kernel,
   by decide +kernel⟩

theorem wit_MemoryPorts_2 :
    ((writing.portActive 31 = true) ∧
     (31 < 32) ∧
     (31 < writing.mports.length) ∧
     (Memory.wf writing.mem = true)) ∧
    (((scrubbing 7).portActive 31 = true) ∧
     (31 < 32) ∧
     (31 < (scrubbing 7).mports.length) ∧
     (Memory.wf (scrubbing 7).mem = true) ∧
     ((scrubbing 7).stept.anchor.isSome = true) ∧
     (((scrubbing 7).tick 5).windowOpen wScrub = true) ∧
     (((scrubbing 7).mport 31).scrubPos ∉ ((scrubbing 7).mport 31).poison) ∧
     ((scrubbing 7).tileAgrees 31 ((scrubbing 7).mport 31).scrubPos = true)) ∧
    (((scrubbing 8388607).portActive 31 = true) ∧
     (31 < 32) ∧
     (31 < (scrubbing 8388607).mports.length) ∧
     (Memory.wf (scrubbing 8388607).mem = true) ∧
     ((scrubbing 8388607).stept.anchor.isSome = true) ∧
     (((scrubbing 8388607).tick 5).windowOpen wScrub = true) ∧
     (((scrubbing 8388607).mport 31).scrubPos ∉ ((scrubbing 8388607).mport 31).poison) ∧
     ((scrubbing 8388607).tileAgrees 31 ((scrubbing 8388607).mport 31).scrubPos = true)) ∧
    ((throughputStep.portActive 31 = true) ∧
     (31 < 32) ∧
     (31 < throughputStep.mports.length) ∧
     (Memory.wf throughputStep.mem = true) ∧
     (inPart 31 4092 8 = true) ∧
     (throughputStep.slog.throughput = true) ∧
     (throughputStep.stept.stepOn = true) ∧
     (∀ x ∈ tilesOf 4092 8, x ∉ (throughputStep.mport 31).poison ∧ throughputStep.tileAgrees 31 x = true)) ∧
    ((memory.portActive 31 = true) ∧
     (31 < 32) ∧
     (31 < memory.mports.length) ∧
     (Memory.wf memory.mem = true) ∧
     (inPart 31 4092 8 = true) ∧
     (memory.slog.throughput = false)) ∧
    ((memory.portActive 31 = true) ∧
     (31 < 32) ∧
     (31 < memory.mports.length) ∧
     (Memory.wf memory.mem = true) ∧
     (inPart 31 4092 [1, 2, 3, 4, 5, 6, 7, 8].length = true) ∧
     ([1, 2, 3, 4, 5, 6, 7, 8] ≠ []) ∧
     (∀ x ∈ tilesOf 4092 [1, 2, 3, 4, 5, 6, 7, 8].length,
        x ∉ (memory.mport 31).poison ∧ memory.tileAgrees 31 x = true)) ∧
    ((selecting.portActive 31 = true) ∧
     (31 < 32) ∧
     (31 < selecting.mports.length) ∧
     (Memory.wf selecting.mem = true) ∧
     (selecting.reach (hostWrites 3).port Reg.MPORT_CVU_CTL = true) ∧
     (selecting.selMport (hostWrites 3).port = 31) ∧
     ((selecting.mport 31).cvuArm = false) ∧
     (accSets (hostWrites 3) { reg := Reg.MPORT_CVU_CTL, lo := 0, w := 1 : Machine.Field } = true)) ∧
    ((windowOpen.windowUp = true) ∧
     (8 + [1, 2, 3].length ≤ windowOpen.ports.bar2Size) ∧
     (windowOpen.windowPieces 8 [1, 2, 3].length = [(16, 8, [1, 2, 3].length)]) ∧
     (∀ x ∈ tilesOf 8 [1, 2, 3].length,
        x ∉ (windowOpen.mport 16).poison ∧ windowOpen.tileAgrees 16 x = true) ∧
     (Memory.wf windowOpen.mem = true)) ∧
    ((windowOpen.windowUp = true) ∧
     (8 + [1, 2, 3].length ≤ windowOpen.ports.bar2Size) ∧
     (windowOpen.windowPieces 8 [1, 2, 3].length = [(16, 8, [1, 2, 3].length)]) ∧
     (∀ x ∈ tilesOf 8 [1, 2, 3].length,
        x ∉ (windowOpen.mport 16).poison ∧ windowOpen.tileAgrees 16 x = true) ∧
     (Memory.wf windowOpen.mem = true) ∧
     (windowOpen.planOn = false)) ∧
    ((resident.windowUp = true) ∧
     (8 + [1, 2, 3].length ≤ resident.ports.bar2Size) ∧
     (resident.windowPieces 8 [1, 2, 3].length = [(16, 8, [1, 2, 3].length)]) ∧
     (∀ x ∈ tilesOf 8 [1, 2, 3].length, x ∉ (resident.mport 16).poison ∧ resident.tileAgrees 16 x = true) ∧
     (Memory.wf resident.mem = true) ∧
     (resident.planOn = true) ∧
     (∃ x ∈ tilesOf 8 [1, 2, 3].length, resident.inResidence 16 x = true) ∧
     (resident.stept.stepOn = false)) ∧
    ((resident.windowUp = true) ∧
     (4096 + [1, 2, 3].length ≤ resident.ports.bar2Size) ∧
     (resident.windowPieces 4096 [1, 2, 3].length = [(16, 4096, [1, 2, 3].length)]) ∧
     (∀ x ∈ tilesOf 4096 [1, 2, 3].length,
        x ∉ (resident.mport 16).poison ∧ resident.tileAgrees 16 x = true) ∧
     (Memory.wf resident.mem = true) ∧
     (resident.planOn = true) ∧
     (∀ x ∈ tilesOf 4096 [1, 2, 3].length, resident.inResidence 16 x = false)) :=
  ⟨by decide +kernel,
   by decide +kernel,
   by decide +kernel,
   by decide +kernel,
   by decide +kernel,
   by decide +kernel,
   by decide +kernel,
   by decide +kernel,
   by decide +kernel,
   by decide +kernel,
   by decide +kernel⟩

end Sys2Proof.Tests
end

section
/-! SUPPORT. The frozen part of the state: what no command but OPERATING_HOURS_TICK and the clock changes. Each function
of the model keeps `State.frozen` (so the memory stays in canonical form and the block's units keep their number), and
each command answers a later state of the same block. -/

namespace Sys2Proof.Machine

/-! ### The parts that the frozen part does not look at -/

theorem State.whole_iff (s : State) : s.whole = true ↔ Memory.wf s.mem = true ∧ s.sites.length = 720 ∧
    s.mports.length = 32 ∧ s.trng.srcs.length = 16 ∧ s.intr.table.length = 64 := by
  simp [State.whole, and_assoc]

@[simp ↓] theorem State.frozen_update (s : State) (ccyc crem : Nat) (regs : Vector W64 Reg.count) (stept : StepT)
    (intake : IntakeSt) (jrnl : JrnlSt) (bel : BelfrySt) (mgmt : MgmtSt) (sec : SecSt) (pwr : PwrSt) (ports : PortSt)
    (boot : BootSt) (plan : PlanSt) (ex : Exec) (slog : StepLog) (dig : DigestSt) (spare : SpareSt) (mesh : MeshSt)
    (ocu : OcuSt) (rows : List RowJob) (emitted : List Emission) (fresh : Nat)
    (hwSets swSets : List (Nat × Reg × Nat)) :
    State.frozen { s with
      ccyc := ccyc, crem := crem, regs := regs, stept := stept, intake := intake, jrnl := jrnl, bel := bel, mgmt := mgmt
      sec := sec, pwr := pwr, ports := ports, boot := boot, plan := plan, ex := ex, slog := slog, dig := dig
      spare := spare, mesh := mesh, ocu := ocu, rows := rows, emitted := emitted, fresh := fresh, hwSets := hwSets
      swSets := swSets } = s.frozen := by rfl

@[simp ↓] theorem State.frozen_update_mram (s : State) (m : Mram) (jrnl : JrnlSt) (bel : BelfrySt)
    (ha : m.attestKey = s.mram.attestKey)
    (hc : m.cert = s.mram.cert) (hh : m.hours = s.mram.hours) :
    State.frozen { s with mram := m, jrnl := jrnl, bel := bel } = s.frozen := by
  simp [State.frozen, State.whole, ha, hc, hh]

@[simp ↓] theorem State.frozen_update_intr (s : State) (pba u modCount modTime : Nat) (enable functionMask : Bool)
    (timer releasedAt : Option Nat) :
    State.frozen { s with intr := ⟨s.intr.table, pba, enable, functionMask, u, timer, modCount, modTime, releasedAt⟩ } =
      s.frozen := by rfl

@[simp ↓] theorem State.frozen_update_table (s : State) (l : List Msix) (h : l.length = s.intr.table.length) :
    State.frozen { s with intr := { s.intr with table := l } } = s.frozen := by
  simp [State.frozen, State.whole, h]

@[simp ↓] theorem State.frozen_update_units (s : State) (sites : List SiteSt) (mports : List MPort) (slog : StepLog)
    (hs : sites.length = s.sites.length) (hm : mports.length = s.mports.length) :
    State.frozen { s with sites := sites, mports := mports, slog := slog } = s.frozen := by
  simp [State.frozen, State.whole, hs, hm]

theorem State.frozen_rebuild {s u : State} (h : s.frozen.whole = true) (hw : u.whole = true)
    (hn : u.now = s.now) (hp : u.pending = s.pending) (hf : u.fuse = s.fuse) (ha : u.mram.attestKey = s.mram.attestKey)
    (hc : u.mram.cert = s.mram.cert) (hh : u.mram.hours = s.mram.hours) : u.frozen = s.frozen := by
  rw [State.frozen, State.frozen, hn, hp, hf, ha, hc, hh, hw, show s.whole = true from h]

@[simp ↓] theorem State.frozen_ite {c : Prop} [Decidable c] (a b : State) :
    (if c then a else b).frozen = if c then a.frozen else b.frozen := by split <;> rfl

@[simp ↓] theorem State.frozen_foldl {α : Type} {f : State → α → State} (h : ∀ s a, (f s a).frozen = s.frozen)
    (l : List α) (s : State) : (l.foldl f s).frozen = s.frozen := by
  induction l generalizing s with
  | nil => rfl
  | cons a l ih => rw [List.foldl_cons, ih, h]

theorem State.frozen_foldl_via {α β : Type} (g : β → State) {f : β → α → β}
    (h : ∀ b a, (g (f b a)).frozen = (g b).frozen) (l : List α) (b : β) :
    (g (l.foldl f b)).frozen = (g b).frozen := by
  induction l generalizing b with
  | nil => rfl
  | cons a l ih => rw [List.foldl_cons, ih, h]

theorem State.frozen_foldl_via_whole {α β : Type} (g : β → State) {f : β → α → β}
    (h : ∀ b a, (g b).frozen.whole = true → (g (f b a)).frozen = (g b).frozen) (l : List α) (b : β)
    (hb : (g b).frozen.whole = true) : (g (l.foldl f b)).frozen = (g b).frozen := by
  induction l generalizing b with
  | nil => rfl
  | cons a l ih => rw [List.foldl_cons, ih _ (by rw [h b a hb]; exact hb), h b a hb]

theorem State.frozen_foldl_whole {α : Type} {f : State → α → State}
    (h : ∀ s a, s.frozen.whole = true → (f s a).frozen = s.frozen) (l : List α) (s : State)
    (hs : s.frozen.whole = true) : (l.foldl f s).frozen = s.frozen :=
  State.frozen_foldl_via_whole (fun s => s) h l s hs

/-! ### What a row answers -/

/-- A later state of the same block: time has not run back, and the rest of the frozen part is as it was. -/
def State.Later (s u : State) : Prop := s.now ≤ u.now ∧ u.frozen = { s.frozen with now := u.now }

theorem State.later_tick (s : State) (t : Nat) : s.Later (s.tick t) := ⟨s.now_le_tick t, rfl⟩

theorem State.Later.trans {s u v : State} (h : s.Later u) (h' : u.Later v) : s.Later v :=
  ⟨h.1.trans h'.1, by rw [h'.2, h.2]⟩

theorem State.Later.of_frozen {s u v : State} (h : s.Later u) (hv : v.frozen = u.frozen) : s.Later v := by
  have hn : v.now = u.now := congrArg Frozen.now hv
  exact ⟨by rw [hn]; exact h.1, by rw [hv, h.2, hn]⟩

/-- Whatever state a row answers is a later state of the same block. -/
def Result.Keeps (r : Result) (s : State) : Prop := ∀ u, r = .next u → s.Later u

@[simp] theorem State.tick_whole (s : State) (t : Nat) : (s.tick t).frozen.whole = s.frozen.whole := by rfl

theorem State.when_keeps_frozen {s : State} {t : Nat} {c : State → Bool} {f : State → State}
    (hf : (f (s.tick t)).frozen = (s.tick t).frozen) : (s.when t c f).Keeps s := fun _ h =>
  State.when_keeps (s.later_tick t) (fun _ => (s.later_tick t).of_frozen hf) h

theorem State.access_keeps {s : State} {t : Nat} {a : RegAcc} {r : Reg} {f : State → State}
    (hf : (f (s.tick t)).frozen = (s.tick t).frozen) : (s.access t a r f).Keeps s :=
  State.when_keeps_frozen hf

theorem Result.fault_keeps {c : Prop} [Decidable c] {e : Fault} {r : Result} {s : State} (h : r.Keeps s) :
    Result.Keeps (if c then .fault e else r) s := by
  split
  · exact fun _ h => nomatch h
  · exact h

@[simp ↓] theorem State.emit_frozen (s : State) (e : Emission) : (s.emit e).frozen = s.frozen := by rfl

theorem State.keazia_keeps {s : State} {t : Nat} {f : State → State}
    (hf : (f (s.tick t)).frozen = (s.tick t).frozen) : (s.keazia t f).Keeps s :=
  State.when_keeps_frozen (by simp [hf])

theorem State.pldm_keeps {s : State} {t : Nat} {f : State → State}
    (hf : (f (s.tick t)).frozen = (s.tick t).frozen) : (s.pldm t f).Keeps s :=
  State.when_keeps_frozen (by simp [hf])

theorem State.orderRow_keeps {s : State} {t seq op : Nat} {f : State → Order → State}
    (hf : ∀ o, (f (s.tick t) o).frozen = (s.tick t).frozen) : (s.orderRow t seq op f).Keeps s :=
  State.when_keeps_frozen (by split; exacts [hf _, rfl])

theorem State.probeRow_keeps {s : State} {t seq action : Nat} {f : State → Order → State}
    (hf : ∀ o, (f (s.tick t) o).frozen = (s.tick t).frozen) : (s.probeRow t seq action f).Keeps s :=
  State.when_keeps_frozen (by split; exacts [hf _, rfl])

/-! ### Functions of Machine/Ops -/

@[simp ↓] theorem State.setReg_frozen (s : State) (r : Reg) (v : W64) : (s.setReg r v).frozen = s.frozen := by rfl

@[simp ↓] theorem State.setFld_frozen (s : State) (f : Field) (n : Nat) : (s.setFld f n).frozen = s.frozen := by rfl

@[simp ↓] theorem State.setFlag_frozen (s : State) (f : Field) (b : Bool) :
    (s.setFlag f b).frozen = s.frozen := by rfl

@[simp ↓] theorem State.addFld_frozen (s : State) (f : Field) (n : Nat) : (s.addFld f n).frozen = s.frozen := by rfl

@[simp ↓] theorem State.incFld_frozen (s : State) (f : Field) : (s.incFld f).frozen = s.frozen := by rfl

@[simp ↓] theorem State.maxFld_frozen (s : State) (f : Field) (n : Nat) : (s.maxFld f n).frozen = s.frozen := by rfl

@[simp ↓] theorem State.freshVal_frozen (s : State) : (s.freshVal).2.frozen = s.frozen := by rfl

@[simp ↓] theorem State.noteHw_frozen (s : State) (r : Reg) (mask : Nat) :
    (s.noteHw r mask).frozen = s.frozen := by rfl

@[simp ↓] theorem State.hwSet_frozen (s : State) (f : Field) : (s.hwSet f).frozen = s.frozen := by rfl

@[simp ↓] theorem State.swSet_frozen (s : State) (f : Field) : (s.swSet f).frozen = s.frozen := by rfl

@[simp ↓] theorem State.hwClear_frozen (s : State) (f : Field) :
    (s.hwClear f).frozen = s.frozen := by simp [State.hwClear]

@[simp ↓] theorem State.writeFields_frozen (s : State) (r : Reg) (a : RegAcc) :
    (s.writeFields r a).frozen = s.frozen := by rfl


/-! ### Functions of Machine/Events -/

@[simp ↓] theorem State.sendVector_frozen (s : State) (i : Nat) : (s.sendVector i).frozen = s.frozen := by
  simp [State.sendVector]
  split <;> simp

@[simp ↓] theorem State.setCause_frozen (s : State) (i : Nat) :
    (s.setCause i).frozen = s.frozen := by simp [State.setCause]

@[simp ↓] theorem State.showUsed_frozen (s : State) : (s.showUsed).frozen = s.frozen := by simp [State.showUsed]

@[simp ↓] theorem State.addFrameRaw_frozen (s : State) (typ : Nat) (lastPart : Bool) (orderSeq policy : Nat)
    (payload : List Byte) :
    (s.addFrameRaw typ lastPart orderSeq policy payload).frozen = s.frozen := by simp [State.addFrameRaw]

@[simp ↓] theorem State.newSegment_frozen (s : State) : (s.newSegment).frozen = s.frozen := by simp [State.newSegment]

@[simp ↓] theorem State.addFrame_frozen (s : State) (typ : Nat) (lastPart : Bool) (orderSeq policy : Nat)
    (payload : List Byte) :
    (s.addFrame typ lastPart orderSeq policy payload).frozen = s.frozen := by simp [State.addFrame]

@[simp ↓] theorem State.addRecord_frozen (s : State) (typ orderSeq policy : Nat) (bs : List Byte) :
    (s.addRecord typ orderSeq policy bs).frozen = s.frozen := by simp [State.addRecord]

@[simp ↓] theorem State.setBucket_frozen (s : State) (b : Bucket) :
    (s.setBucket b).frozen = s.frozen := by simp [State.setBucket]

@[simp ↓] theorem State.countWrote_frozen (s : State) : (s.countWrote).frozen = s.frozen := by simp [State.countWrote]

@[simp ↓] theorem State.endWrote_frozen (s : State) : (s.endWrote).frozen = s.frozen := by simp [State.endWrote]

@[simp ↓] theorem State.putCapture_frozen (s : State) (p : Port) (c : Capture) :
    (s.putCapture p c).frozen = s.frozen := by simp [State.putCapture]

@[simp ↓] theorem State.recapture_frozen (s : State) : (s.recapture).frozen = s.frozen := by simp [State.recapture]

@[simp ↓] theorem State.storeRecord_frozen (s : State) (r : List Byte) :
    (s.storeRecord r).frozen = s.frozen := by simp [State.storeRecord]

@[simp ↓] theorem State.writeRecord_frozen (s : State) (code : Nat) (r : List Byte) :
    (s.writeRecord code r).frozen = s.frozen := by simp [State.writeRecord]

@[simp ↓] theorem State.refillAll_frozen (s : State) : (s.refillAll).frozen = s.frozen := by simp [State.refillAll]

@[simp ↓] theorem State.summary_frozen (s : State) (code : Nat) :
    (s.summary code).frozen = s.frozen := by simp [State.summary]

@[simp ↓] theorem State.summaries_frozen (s : State) : (s.summaries).frozen = s.frozen := by simp [State.summaries]

@[simp ↓] theorem State.refillFirst_frozen (s : State) :
    (s.refillFirst).frozen = s.frozen := by simp [State.refillFirst]

@[simp ↓] theorem State.record_frozen (s : State) (code payload : Nat) (src : Source) :
    (s.record code payload src).frozen = s.frozen := by simp [State.record]

@[simp ↓] theorem State.checkReturn_frozen {s s' : State} {port typ : Nat} {b : List Byte}
    (h : s.checkReturn port typ b = some s') : s'.frozen = s.frozen := by
  unfold State.checkReturn at h
  split at h
  · cases h
  · cases h
    simp

@[simp ↓] theorem State.drainPending_frozen (s : State) :
    (s.drainPending).frozen = s.frozen := by simp [State.drainPending]

@[simp ↓] theorem State.noteValue_frozen (s : State) (off value step phase : Nat) :
    (s.noteValue off value step phase).frozen = s.frozen := by simp [State.noteValue]

@[simp ↓] theorem State.stampFrames_frozen (s : State) (n step phase : Nat) :
    (s.stampFrames n step phase).frozen = s.frozen := by simp [State.stampFrames]

@[simp ↓] theorem State.noteChange_frozen (s : State) (off value step phase : Nat) (src : Source) :
    (s.noteChange off value step phase src).frozen = s.frozen := by simp [State.noteChange]

@[simp ↓] theorem State.noteConfig_frozen (s : State) (r : Reg) (src : Source) :
    (s.noteConfig r src).frozen = s.frozen := by simp [State.noteConfig]

@[simp ↓] theorem State.noteOwn_frozen (s : State) (r : Reg) :
    (s.noteOwn r).frozen = s.frozen := by simp [State.noteOwn]


/-! ### Functions of Machine/Windows -/

@[simp ↓] theorem State.sayWidened_frozen (s : State) : (s.sayWidened).frozen = s.frozen := by simp [State.sayWidened]


/-! ### Functions of Machine/Journal -/

@[simp ↓] theorem State.onPort_frozen (s : State) (port : Nat) (f : JPort → JPort) :
    (s.onPort port f).frozen = s.frozen := by rfl

@[simp ↓] theorem State.checkPolicy_frozen (s : State) :
    (s.checkPolicy).frozen = s.frozen := by simp [State.checkPolicy]

@[simp ↓] theorem State.setPortState_frozen (s : State) (port st : Nat) :
    (s.setPortState port st).frozen = s.frozen := by simp [State.setPortState]

@[simp ↓] theorem State.noteFlush_frozen (s : State) : (s.noteFlush).frozen = s.frozen := by simp [State.noteFlush]

@[simp ↓] theorem State.sendFrame_frozen (s : State) (port : Nat) : (s.sendFrame port).frozen = s.frozen := by
  unfold State.sendFrame
  split <;> simp

@[simp ↓] theorem State.advanceAck_frozen (s : State) (port n : Nat) : (s.advanceAck port n).frozen = s.frozen := by
  unfold State.advanceAck
  split <;> simp

theorem execJournalAck_keeps (t port : Nat) (bytes : List Byte) (s : State) :
    (execJournalAck t port bytes s).Keeps s :=
  Result.fault_keeps <| State.when_keeps_frozen <| by
    split
    · exact State.checkReturn_frozen ‹_›
    · dsimp only
      split <;> simp

@[simp ↓] theorem State.sendFetch_frozen (s : State) (port : Nat) : (s.sendFetch port).frozen = s.frozen := by
  dsimp only [State.sendFetch]
  split <;> simp

theorem execJournalCredit_keeps (t port : Nat) (bytes : List Byte) (s : State) :
    (execJournalCredit t port bytes s).Keeps s :=
  Result.fault_keeps <| State.when_keeps_frozen <| by
    split
    · exact State.checkReturn_frozen ‹_›
    · simp

@[simp ↓] theorem State.portDown_frozen (s : State) (port : Nat) :
    (s.portDown port).frozen = s.frozen := by simp [State.portDown]

theorem execJournalAckTimeout_keeps (t port : Nat) (s : State) : (execJournalAckTimeout t port s).Keeps s :=
  Result.fault_keeps <| State.when_keeps_frozen (by simp)

theorem execJournalLossOfLight_keeps (t port : Nat) (s : State) : (execJournalLossOfLight t port s).Keeps s :=
  Result.fault_keeps fun _ hu => State.when_keeps (s.later_tick t) (fun _ => by
    dsimp only
    split
    · exact ((s.later_tick t).trans (State.later_tick _ ((s.tick t).now + 1))).of_frozen (by simp)
    · exact (s.later_tick t).of_frozen (by simp)) hu

@[simp ↓] theorem State.startTraining_frozen (s : State) (port : Nat) :
    (s.startTraining port).frozen = s.frozen := by simp [State.startTraining]

theorem execJournalLinkUp_keeps (t port : Nat) (s : State) : (execJournalLinkUp t port s).Keeps s :=
  Result.fault_keeps <| State.when_keeps_frozen (by simp)

@[simp ↓] theorem State.trained_frozen (s : State) (port lastStored credit : Nat) :
    (s.trained port lastStored credit).frozen = s.frozen := by simp [State.trained]

@[simp ↓] theorem State.fetchFrom_frozen (s : State) (port lastStored : Nat) :
    (s.fetchFrom port lastStored).frozen = s.frozen := by simp [State.fetchFrom]

theorem execTrainReply_keeps (t port : Nat) (bytes : List Byte) (s : State) :
    (execTrainReply t port bytes s).Keeps s :=
  Result.fault_keeps <| State.when_keeps_frozen <| by
    split
    · exact State.checkReturn_frozen ‹_›
    · simp

@[simp ↓] theorem State.takeReplay_frozen (s : State) (port : Nat) (bytes : List Byte) :
    (s.takeReplay port bytes).frozen = s.frozen := by
  unfold State.takeReplay
  split
  · exact State.checkReturn_frozen ‹_›
  · dsimp only
    split <;> simp

@[simp ↓] theorem State.jrnlCtl_frozen (s : State) (a : RegAcc) :
    (s.jrnlCtl a).frozen = s.frozen := by simp [State.jrnlCtl]

theorem execJrnlRetrain_keeps (t : Nat) (acc : RegAcc) (s : State) : (execJrnlRetrain t acc s).Keeps s :=
  State.access_keeps (by simp)


/-! ### Functions of Machine/Grid -/

@[simp ↓] theorem State.onSite_frozen (s : State) (i : Nat) (f : SiteSt → SiteSt) :
    (s.onSite i f).frozen = s.frozen := by
  simp [State.onSite, State.frozen, State.whole]

@[simp ↓] theorem State.remap_frozen (s : State) (n : Nat) : (s.remap n).frozen = s.frozen := by simp [State.remap]

@[simp ↓] theorem State.noteAlloc_frozen (s : State) : (s.noteAlloc).frozen = s.frozen := by
  dsimp only [State.noteAlloc]
  split <;> simp

@[simp ↓] theorem State.allocPlan_frozen (s : State) : (s.allocPlan).frozen = s.frozen := by simp [State.allocPlan]

@[simp ↓] theorem State.trialHops_frozen (s : State) : (s.trialHops).frozen = s.frozen := by simp [State.trialHops]

@[simp ↓] theorem State.reallocHops_frozen (s : State) :
    (s.reallocHops).frozen = s.frozen := by simp [State.reallocHops]

@[simp ↓] theorem State.reallocFrom_frozen (s before : State) :
    (s.reallocFrom before).frozen = s.frozen := by simp [State.reallocFrom]


/-! ### Functions of Machine/Chains -/

@[simp ↓] theorem State.onEx_frozen (s : State) (f : Exec → Exec) : (s.onEx f).frozen = s.frozen := by rfl

@[simp ↓] theorem State.mendShadows_frozen (s : State) :
    (s.mendShadows).frozen = s.frozen := by simp [State.mendShadows]

@[simp ↓] theorem State.setShadow_frozen (s : State) : (s.setShadow).frozen = s.frozen := by simp [State.setShadow]

@[simp ↓] theorem State.oldCounts_frozen (s : State) : (s.oldCounts).frozen = s.frozen := by simp [State.oldCounts]

@[simp ↓] theorem State.onChain_frozen (s : State) (f : ChainSt → ChainSt) : (s.onChain f).frozen = s.frozen := by rfl

@[simp ↓] theorem State.onAnneal_frozen (s : State) (f : Anneal → Anneal) : (s.onAnneal f).frozen = s.frozen := by rfl

@[simp ↓] theorem State.onLog_frozen (s : State) (f : StepLog → StepLog) : (s.onLog f).frozen = s.frozen := by rfl

@[simp ↓] theorem State.formBetas_frozen (s : State) : (s.formBetas).frozen = s.frozen := by simp [State.formBetas]


/-! ### Functions of Machine/Sequencer -/

@[simp ↓] theorem State.onCore_frozen (s : State) (node : Nat) (f : CoreSt → CoreSt) :
    (s.onCore node f).frozen = s.frozen := by rfl

@[simp ↓] theorem State.onCores_frozen (s : State) (f : CoreSt → CoreSt) : (s.onCores f).frozen = s.frozen := by rfl

@[simp ↓] theorem State.homeParcels_frozen (s : State) :
    (s.homeParcels).frozen = s.frozen := by simp [State.homeParcels]

@[simp ↓] theorem State.damage_frozen (s : State) (d : Damage) :
    (s.damage d).frozen = s.frozen := by simp [State.damage]

@[simp ↓] theorem State.sramCorrected_frozen (s : State) (site bank : Nat) :
    (s.sramCorrected site bank).frozen = s.frozen := by
  dsimp only [State.sramCorrected]
  simp

@[simp ↓] theorem State.coreFault_frozen (s : State) (node : Nat) (f : CoreFault) :
    (s.coreFault node f).frozen = s.frozen := by
  dsimp only [State.coreFault]
  repeat' split
  all_goals simp

@[simp ↓] theorem State.ghost_frozen (s : State) (site n : Nat) :
    (s.ghost site n).frozen = s.frozen := by simp [State.ghost]

@[simp ↓] theorem State.flitParity_frozen (s : State) (router : Nat) :
    (s.flitParity router).frozen = s.frozen := by simp [State.flitParity]

@[simp ↓] theorem State.flitCheck_frozen (s : State) (e : Option Nat) : (s.flitCheck e).frozen = s.frozen := by
  unfold State.flitCheck
  split <;> simp

theorem execGather_keeps (t node : Nat) (fault : CoreFault) (s : State) : (execGather t node fault s).Keeps s :=
  State.when_keeps_frozen (by simp)

@[simp ↓] theorem State.arrive_frozen (s : State) (node id : Nat) :
    (s.arrive node id).frozen = s.frozen := by simp [State.arrive]

@[simp ↓] theorem State.syncEntry_frozen (s : State) (node : Nat) (e : SeqEntry) (flag : Bool) :
    (s.syncEntry node e flag).frozen = s.frozen := by simp [State.syncEntry]

theorem execSync_keeps (t node : Nat) (x : Signal) (s : State) : (execSync t node x s).Keeps s :=
  Result.fault_keeps <| State.when_keeps_frozen (by split <;> simp)

@[simp ↓] theorem State.release_frozen (s : State) (id : Nat) :
    (s.release id).frozen = s.frozen := by simp [State.release]

theorem execBarrierRelease_keeps (t : Nat) (s : State) : (execBarrierRelease t s).Keeps s :=
  State.when_keeps_frozen (by split <;> simp)

theorem execWriteback_keeps (t node : Nat) (s : State) : (execWriteback t node s).Keeps s :=
  State.when_keeps_frozen (by simp)


/-! ### Functions of Machine/Arith -/

theorem execMac_keeps (t node : Nat) (fault : CoreFault) (s : State) : (execMac t node fault s).Keeps s :=
  State.when_keeps_frozen (by split <;> simp)

@[simp ↓] theorem State.capture_frozen (s : State) (cols : List Vault) (outs : List Nat) (shift site core : Nat) :
    (s.capture cols outs shift site core).frozen = s.frozen := by simp [State.capture]

@[simp ↓] theorem State.drainFlags_frozen (s : State) (node chain q fill : Nat) (o : DrainOut) :
    (s.drainFlags node chain q fill o).frozen = s.frozen := by simp [State.drainFlags]

@[simp ↓] theorem State.drainBank_frozen (s : State) (c : CoreSt) (side : Bool) :
    (s.drainBank c side).frozen = s.frozen := by
  dsimp only [State.drainBank]
  split <;> simp

@[simp ↓] theorem State.badCapture_frozen (s : State) (bad : Option (Nat × Nat)) :
    (s.badCapture bad).frozen = s.frozen := by simp [State.badCapture]

theorem execDrain_keeps (t node : Nat) (fault : CoreFault) (s : State) : (execDrain t node fault s).Keeps s :=
  State.when_keeps_frozen (by split <;> simp)

theorem execReduce_keeps (t node : Nat) (order : Arrivals) (s : State) : (execReduce t node order s).Keeps s :=
  State.when_keeps_frozen <| by
    split
    · split
      · dsimp only
        split <;> simp
      · simp
    · rfl


/-! ### Functions of Machine/Sampling -/

@[simp ↓] theorem State.commit_frozen (s : State) (core chain v new : Nat) :
    (s.commit core chain v new).frozen = s.frozen := by simp [State.commit]

@[simp ↓] theorem State.parcelDone_frozen (s : State) (chain q : Nat) :
    (s.parcelDone chain q).frozen = s.frozen := by simp [State.parcelDone]

@[simp ↓] theorem State.drawParcel_frozen (s : State) (chain q : Nat) :
    (s.drawParcel chain q).2.frozen = s.frozen := by simp [State.drawParcel]

@[simp ↓] theorem State.updateLanes_frozen (s : State) (core : Nat) (d : Drained) (out : Nat) (pc : Parcel)
    (r : Rule) : (s.updateLanes core d out pc r).frozen = s.frozen := by
  dsimp only [State.updateLanes]
  split <;> simp

@[simp ↓] theorem State.updatePotts_frozen (s : State) (core : Nat) (d : Drained) (out : Nat) (pc : Parcel) :
    (s.updatePotts core d out pc).frozen = s.frozen := by
  simp [State.updatePotts]
  split <;> simp

@[simp ↓] theorem State.updateBlock_frozen (s : State) (core : Nat) (d : Drained) :
    (s.updateBlock core d).frozen = s.frozen := by
  unfold State.updateBlock
  split <;> simp

theorem execUpdate_keeps (t node : Nat) (s : State) : (execUpdate t node s).Keeps s :=
  State.when_keeps_frozen (by split <;> simp)

@[simp ↓] theorem State.countMove_frozen (s : State) (vnode chain v : Nat) (mala changed down bad : Bool) :
    (s.countMove vnode chain v mala changed down bad).frozen = s.frozen := by simp [State.countMove]

@[simp ↓] theorem State.moveParcel_frozen (s : State) (vnode node chain q : Nat) :
    (s.moveParcel vnode node chain q).frozen = s.frozen := by
  simp [State.moveParcel]
  split <;> simp

theorem execLangevin_keeps (t node : Nat) (s : State) : (execLangevin t node s).Keeps s :=
  State.when_keeps_frozen (by split <;> simp)

@[simp ↓] theorem State.slotConflicts_frozen (s : State) : (s.slotConflicts).frozen = s.frozen := by
  unfold State.slotConflicts
  split
  · exact State.frozen_foldl (fun s p => by split <;> simp) _ _
  · rfl

@[simp ↓] theorem State.nextSlot_frozen (s : State) : (s.nextSlot).frozen = s.frozen := by simp [State.nextSlot]

theorem execSlotEnd_keeps (t : Nat) (s : State) : (execSlotEnd t s).Keeps s :=
  State.when_keeps_frozen (by simp)


/-! ### Functions of Machine/Anneal -/

@[simp ↓] theorem State.startSweep_frozen (s : State) : (s.startSweep).frozen = s.frozen := by simp [State.startSweep]

@[simp ↓] theorem State.startAligned_frozen (s : State) :
    (s.startAligned).frozen = s.frozen := by simp [State.startAligned]

@[simp ↓] theorem State.openSweep_frozen (s : State) : (s.openSweep).frozen = s.frozen := by simp [State.openSweep]

@[simp ↓] theorem State.haltNow_frozen (s : State) : (s.haltNow).frozen = s.frozen := by simp [State.haltNow]

@[simp ↓] theorem State.sweepOver_frozen (s : State) : (s.sweepOver).frozen = s.frozen := by
  dsimp only [State.sweepOver]
  simp

@[simp ↓] theorem State.onGroup_frozen (s : State) (chain g : Nat) (f : GroupSt → GroupSt) :
    (s.onGroup chain g f).frozen = s.frozen := by rfl

@[simp ↓] theorem State.setVar_frozen (s : State) (chain v n : Nat) :
    (s.setVar chain v n).frozen = s.frozen := by simp [State.setVar]

@[simp ↓] theorem State.repair_frozen (s : State) (chain : Nat) (g : GroupD) (gi : Nat) :
    (s.repair chain g gi).frozen = s.frozen := by simp [State.repair]

@[simp ↓] theorem State.repairPaired_frozen (s : State) : (s.repairPaired).frozen = s.frozen := by
  refine State.frozen_foldl (fun s chain => State.frozen_foldl (fun s g => ?_) _ _) _ _
  split
  · split <;> simp
  · rfl

@[simp ↓] theorem State.drawCtrl_frozen (s : State) (id : Nat) :
    (s.drawCtrl id).2.frozen = s.frozen := by simp [State.drawCtrl]

@[simp ↓] theorem State.pairedMove_frozen (s : State) (chain : Nat) (g : GroupD) (gi : Nat) :
    (s.pairedMove chain g gi).frozen = s.frozen := by
  dsimp only [State.pairedMove]
  split <;> simp

@[simp ↓] theorem State.runGroup_frozen (s : State) (chain : Nat) (g : GroupD) (gi : Nat) :
    (s.runGroup chain g gi).frozen = s.frozen := by simp [State.runGroup]

theorem execGroup_keeps (t : Nat) (s : State) : (execGroup t s).Keeps s :=
  State.when_keeps_frozen (by dsimp only; split <;> simp)

@[simp ↓] theorem State.countRun_frozen (s : State) (chain : Nat) (g : GroupD) (gi : Nat) :
    (s.countRun chain g gi).frozen = s.frozen := by simp [State.countRun]

@[simp ↓] theorem State.countRuns_frozen (s : State) : (s.countRuns).frozen = s.frozen := by simp [State.countRuns]

@[simp ↓] theorem State.formEnergy_frozen (s : State) : (s.formEnergy).frozen = s.frozen := by simp [State.formEnergy]

@[simp ↓] theorem State.updateBest_frozen (s : State) : (s.updateBest).frozen = s.frozen := by
  unfold State.updateBest
  split <;> simp

@[simp ↓] theorem State.updateStuck_frozen (s : State) :
    (s.updateStuck).frozen = s.frozen := by simp [State.updateStuck]

@[simp ↓] theorem State.updatePenalty_frozen (s : State) :
    (s.updatePenalty).frozen = s.frozen := by simp [State.updatePenalty]

@[simp ↓] theorem State.endSweep_frozen (s : State) : (s.endSweep).frozen = s.frozen := by simp [State.endSweep]

@[simp ↓] theorem State.balance_frozen (s : State) (moves : List (Nat × Nat × Nat)) :
    (s.balance moves).frozen = s.frozen := by simp [State.balance]

theorem execAnneal_keeps (t : Nat) (moves : List (Nat × Nat × Nat)) (s : State) : (execAnneal t moves s).Keeps s :=
  State.when_keeps_frozen (by simp)

@[simp ↓] theorem State.swapPair_frozen (s : State) (event : Nat) (before : List Nat) (k : Nat) :
    (s.swapPair event before k).frozen = s.frozen := by
  unfold State.swapPair
  split
  next u v hv =>
    have hf : v.frozen = s.frozen := by rw [← State.drawCtrl_frozen s _, hv]
    split
    · lift_lets
      intros
      split <;> exact hf
    · exact hf

theorem execSwap_keeps (t : Nat) (s : State) : (execSwap t s).Keeps s :=
  State.when_keeps_frozen (by simp)

theorem execEndEntry_keeps (t node : Nat) (s : State) : (execEndEntry t node s).Keeps s :=
  State.when_keeps_frozen (by simp)


/-! ### Functions of Machine/Context -/

@[simp ↓] theorem State.formParts_frozen (s : State) (x : Transfer) (parts : List (Bool × List Byte)) :
    (s.formParts x parts).1.frozen = s.frozen := by
  induction parts generalizing s x with
  | nil => rfl
  | cons p ps ih =>
    unfold State.formParts
    split
    · rfl
    · simp [ih]

@[simp ↓] theorem State.putTransfer_frozen (s : State) (x : Transfer) :
    (s.putTransfer x).frozen = s.frozen := by simp [State.putTransfer]

@[simp ↓] theorem State.startTransfer_frozen (s : State) (bytes : List Byte) (seq kind policy : Nat) :
    (s.startTransfer bytes seq kind policy).frozen = s.frozen := by simp [State.startTransfer]

@[simp ↓] theorem State.pumpPeriodic_frozen (s : State) : (s.pumpPeriodic).frozen = s.frozen := by
  unfold State.pumpPeriodic
  split <;> simp

theorem execJournalFrameSend_keeps (t port : Nat) (s : State) : (execJournalFrameSend t port s).Keeps s :=
  Result.fault_keeps <| State.when_keeps_frozen (by simp)

@[simp ↓] theorem State.atPhase_frozen (s : State) : (s.atPhase).frozen = s.frozen := by simp [State.atPhase]

@[simp ↓] theorem State.periodic_frozen (s : State) (next : Nat) :
    (s.periodic next).frozen = s.frozen := by simp [State.periodic]

@[simp ↓] theorem State.endTransfer_frozen (s : State) (x : Transfer) :
    (s.endTransfer x).frozen = s.frozen := by simp [State.endTransfer]


/-! ### Functions of Machine/StepTime -/

@[simp ↓] theorem State.onStep_frozen (s : State) (f : StepT → StepT) : (s.onStep f).frozen = s.frozen := by rfl

@[simp ↓] theorem State.holdNow_frozen (s : State) : (s.holdNow).frozen = s.frozen := by simp [State.holdNow]

@[simp ↓] theorem State.enterHoldover_frozen (s : State) (light : Bool) :
    (s.enterHoldover light).frozen = s.frozen := by simp [State.enterHoldover]

@[simp ↓] theorem State.clearHoldover_frozen (s : State) :
    (s.clearHoldover).frozen = s.frozen := by simp [State.clearHoldover]

@[simp ↓] theorem State.oneMorePhase_frozen (s : State) :
    (s.oneMorePhase).frozen = s.frozen := by simp [State.oneMorePhase]

@[simp ↓] theorem State.answerIdle_frozen (s : State) (m : Mark) :
    (s.answerIdle m).frozen = s.frozen := by simp [State.answerIdle]

@[simp ↓] theorem State.beginPhasesTo_frozen (s : State) (p : Nat) :
    (s.beginPhasesTo p).frozen = s.frozen := by simp [State.beginPhasesTo]

@[simp ↓] theorem State.armWatch_frozen (s : State) (hint : Nat) : (s.armWatch hint).frozen = s.frozen := by
  simp [State.armWatch]
  split <;> simp

@[simp ↓] theorem State.applyStepMark_frozen (s : State) (m : Mark) :
    (s.applyStepMark m).frozen = s.frozen := by simp [State.applyStepMark]

@[simp ↓] theorem State.applyPhaseMark_frozen (s : State) (m : Mark) :
    (s.applyPhaseMark m).frozen = s.frozen := by simp [State.applyPhaseMark]

@[simp ↓] theorem State.applyMark_frozen (s : State) (m : Mark) :
    (s.applyMark m).frozen = s.frozen := by simp [State.applyMark]

@[simp ↓] theorem State.sendEchoes_frozen (s : State) (pairB up : Bool) :
    (s.sendEchoes pairB up).frozen = s.frozen := by
  unfold State.sendEchoes
  split
  · refine State.frozen_foldl (fun s i => ?_) _ _
    simp
  · rfl

@[simp ↓] theorem State.checkFrame_frozen {s s' : State} {typ : Nat} {b : List Byte}
    (h : s.checkFrame typ b = some s') : s'.frozen = s.frozen := by
  unfold State.checkFrame at h
  split at h
  · cases h
    simp
  · split at h
    · cases h
      simp
    · cases h

@[simp ↓] theorem State.measureHop_frozen (s : State) : (s.measureHop).frozen = s.frozen := by simp [State.measureHop]

@[simp ↓] theorem State.endRunTime_frozen (s : State) : (s.endRunTime).frozen = s.frozen := by simp [State.endRunTime]

@[simp ↓] theorem State.markInstant_frozen (s : State) (m hint : Nat) : (s.markInstant m hint).frozen = s.frozen := by
  unfold State.markInstant
  split <;> simp

@[simp ↓] theorem State.resume_frozen (s : State) (step : Nat) (stale : Bool) :
    (s.resume step stale).frozen = s.frozen := by simp [State.resume]

@[simp ↓] theorem State.takeMark_frozen (s : State) (b : List Byte) :
    (s.takeMark b).frozen = s.frozen := by simp [State.takeMark]

theorem execMarkFrame_keeps (t : Nat) (pairB : Bool) (bytes : List Byte) (s : State) :
    (execMarkFrame t pairB bytes s).Keeps s :=
  State.when_keeps_frozen <| by
    split
    · exact State.checkFrame_frozen ‹_›
    · simp

@[simp ↓] theorem State.takePhase_frozen (s : State) (b : List Byte) : (s.takePhase b).frozen = s.frozen := by
  unfold State.takePhase
  split <;> simp

theorem execPhaseFrame_keeps (t : Nat) (pairB : Bool) (bytes : List Byte) (s : State) :
    (execPhaseFrame t pairB bytes s).Keeps s :=
  State.when_keeps_frozen <| by
    split
    · exact State.checkFrame_frozen ‹_›
    · simp

theorem execMarkApply_keeps (t : Nat) (s : State) : (execMarkApply t s).Keeps s :=
  State.when_keeps_frozen (by split <;> simp)

@[simp ↓] theorem State.trySendReady_frozen (s : State) : (s.trySendReady).frozen = s.frozen := by
  unfold State.trySendReady
  split <;> simp

theorem execReadyFrame_keeps (t : Nat) (bytes : List Byte) (s : State) : (execReadyFrame t bytes s).Keeps s :=
  State.when_keeps_frozen <| by
    split
    · exact State.checkFrame_frozen ‹_›
    · simp
      split
      · split <;> simp
      · rfl

theorem execWaitFrame_keeps (t : Nat) (pairB : Bool) (bytes : List Byte) (s : State) :
    (execWaitFrame t pairB bytes s).Keeps s :=
  State.when_keeps_frozen <| by
    split
    · exact State.checkFrame_frozen ‹_›
    · simp

@[simp ↓] theorem State.makeMark_frozen (s : State) (step : Nat) :
    (s.makeMark step).frozen = s.frozen := by simp [State.makeMark]

theorem execMarkGenerate_keeps (t : Nat) (s : State) : (execMarkGenerate t s).Keeps s :=
  State.when_keeps_frozen (by dsimp only; repeat' split; all_goals simp)

@[simp ↓] theorem State.stepAdvance_frozen (s : State) (a : RegAcc) : (s.stepAdvance a).frozen = s.frozen := by
  unfold State.stepAdvance
  split <;> simp

theorem execStepAdvance_keeps (t : Nat) (acc : RegAcc) (s : State) : (execStepAdvance t acc s).Keeps s :=
  State.access_keeps (by simp)

theorem execWaitSend_keeps (t : Nat) (s : State) : (execWaitSend t s).Keeps s :=
  State.when_keeps_frozen (by simp)

theorem execBarrierSlow_keeps (t : Nat) (s : State) : (execBarrierSlow t s).Keeps s :=
  State.when_keeps_frozen (by simp)

theorem execReferenceLost_keeps (t : Nat) (s : State) : (execReferenceLost t s).Keeps s :=
  State.when_keeps_frozen (by simp)

theorem execCampanileLossOfLight_keeps (t : Nat) (s : State) : (execCampanileLossOfLight t s).Keeps s :=
  State.when_keeps_frozen (by simp)

theorem execHoldoverMark_keeps (t : Nat) (s : State) : (execHoldoverMark t s).Keeps s :=
  State.when_keeps_frozen (by split <;> simp)

theorem execDownstreamDown_keeps (t : Nat) (s : State) : (execDownstreamDown t s).Keeps s :=
  State.when_keeps_frozen (by simp)

theorem execCampanileFailover_keeps (t : Nat) (outPort : Bool) (s : State) :
    (execCampanileFailover t outPort s).Keeps s :=
  State.when_keeps_frozen (by simp)

@[simp ↓] theorem State.stepSkew_frozen (s : State) (a : RegAcc) :
    (s.stepSkew a).frozen = s.frozen := by simp [State.stepSkew]

theorem execStepRetrain_keeps (t : Nat) (acc : RegAcc) (s : State) : (execStepRetrain t acc s).Keeps s :=
  State.access_keeps (by simp)

@[simp ↓] theorem State.hopMeasured_frozen (s : State) :
    (s.hopMeasured).frozen = s.frozen := by simp [State.hopMeasured]

theorem execEchoReceived_keeps (t : Nat) (fromUp pairB : Bool) (id : Nat) (s : State) :
    (execEchoReceived t fromUp pairB id s).Keeps s :=
  State.when_keeps_frozen (by dsimp only; split <;> simp)

theorem execEchoReturn_keeps (t : Nat) (s : State) : (execEchoReturn t s).Keeps s :=
  State.when_keeps_frozen (by split <;> simp)

theorem execCampanileLinkUp_keeps (t : Nat) (outPort pairB : Bool) (s : State) :
    (execCampanileLinkUp t outPort pairB s).Keeps s :=
  State.when_keeps_frozen (by simp)

@[simp ↓] theorem State.stepConfig_frozen (s : State) (r : Reg) (a : RegAcc) :
    (s.stepConfig r a).frozen = s.frozen := by simp [State.stepConfig]

theorem execStepConfigWrite_keeps (t : Nat) (ctl : Bool) (acc : RegAcc) (s : State) :
    (execStepConfigWrite t ctl acc s).Keeps s :=
  State.access_keeps (by simp)

@[simp ↓] theorem State.stepLimits_frozen (s : State) (r : Reg) (a : RegAcc) :
    (s.stepLimits r a).frozen = s.frozen := by simp [State.stepLimits]

@[simp ↓] theorem State.boundaryLimits_frozen (s : State) :
    (s.boundaryLimits).frozen = s.frozen := by simp [State.boundaryLimits]

@[simp ↓] theorem State.startPhases_frozen (s : State) (n : Nat) (m : Mark) (startAt : Nat) (first : Bool) :
    (s.startPhases n m startAt first).frozen = s.frozen := by simp [State.startPhases]

@[simp ↓] theorem State.startLag_frozen (s : State) (lag cause : Nat) :
    (s.startLag lag cause).frozen = s.frozen := by simp [State.startLag]

@[simp ↓] theorem State.startHeld_frozen (s : State) (hold : Bool) : (s.startHeld hold).frozen = s.frozen := by
  dsimp only [State.startHeld]
  simp

@[simp ↓] theorem State.startClock_frozen (s : State) (n : Nat) (a : Option Nat) (hold : Bool) :
    (s.startClock n a hold).frozen = s.frozen := by
  simp [State.startClock]
  split <;> simp

theorem execPhaseBegin_keeps (t : Nat) (s : State) : (execPhaseBegin t s).Keeps s :=
  State.when_keeps_frozen (by simp)


/-! ### Functions of Machine/Ports -/

@[simp ↓] theorem State.recordSpared_frozen (s : State) (kind site : Nat) :
    (s.recordSpared kind site).frozen = s.frozen := by simp [State.recordSpared]

@[simp ↓] theorem State.onLanes_frozen (s : State) (f : Lane → Lane) : (s.onLanes f).frozen = s.frozen := by rfl

@[simp ↓] theorem State.setRole_frozen (s : State) (pair role : Nat) :
    (s.setRole pair role).frozen = s.frozen := by simp [State.setRole]

@[simp ↓] theorem State.useSpare_frozen (s : State) (port pair : Nat) :
    (s.useSpare port pair).frozen = s.frozen := by simp [State.useSpare]

@[simp ↓] theorem State.hostRecovery_frozen (s : State) :
    (s.hostRecovery).frozen = s.frozen := by simp [State.hostRecovery]

@[simp ↓] theorem State.hostDown_frozen (s : State) : (s.hostDown).frozen = s.frozen := by simp [State.hostDown]

@[simp ↓] theorem State.hostPairFailed_frozen (s : State) (role : Nat) :
    (s.hostPairFailed role).frozen = s.frozen := by
  simp [State.hostPairFailed]
  split <;> simp

theorem execLaneFailed_keeps (t port lane : Nat) (s : State) : (execLaneFailed t port lane s).Keeps s :=
  Result.fault_keeps <| State.when_keeps_frozen (by split <;> simp)

theorem execHostLinkRecovered_keeps (t : Nat) (s : State) : (execHostLinkRecovered t s).Keeps s :=
  State.when_keeps_frozen (by simp)

theorem execHostLinkUp_keeps (t rate : Nat) (flit : Bool) (s : State) : (execHostLinkUp t rate flit s).Keeps s :=
  State.when_keeps_frozen (by simp)

@[simp ↓] theorem State.laneCtl_frozen (s : State) (a : RegAcc) : (s.laneCtl a).frozen = s.frozen := by
  simp [State.laneCtl]
  split <;> simp

theorem execLaneRetrain_keeps (t : Nat) (acc : RegAcc) (s : State) : (execLaneRetrain t acc s).Keeps s :=
  State.access_keeps (by simp)

theorem execBusMasterEnable_keeps (t : Nat) (s : State) : (execBusMasterEnable t s).Keeps s :=
  State.when_keeps_frozen <| by
    dsimp only
    refine (State.frozen_foldl (fun s q => ?_) _ _).trans ?_ <;> simp


/-! ### Functions of Machine/Entropy -/

@[simp ↓] theorem State.onTrng_frozen (s : State) (f : TrngSt → TrngSt)
    (h : ∀ x, (f x).srcs.length = x.srcs.length) : (s.onTrng f).frozen = s.frozen := by
  simp [State.onTrng, State.frozen, State.whole, h]

theorem State.takeWords_frozen {s s' : State} {n : Nat} {ws : List Nat} (h : s.takeWords n = some (ws, s')) :
    s'.frozen = s.frozen := by
  unfold State.takeWords at h
  split at h
  · cases h
    simp
  · cases h

@[simp ↓] theorem State.showSources_frozen (s : State) :
    (s.showSources).frozen = s.frozen := by simp [State.showSources]

@[simp ↓] theorem State.startEntropy_frozen (s : State) : (s.startEntropy).frozen = s.frozen := by
  simp only [State.startEntropy]
  simp

@[simp ↓] theorem State.startRecovery_frozen (s : State) (k : ResetKind) :
    (s.startRecovery k).frozen = s.frozen := by simp [State.startRecovery]

@[simp ↓] theorem State.blowSvn_frozen (s : State) : (s.blowSvn).frozen = s.frozen := by rfl

@[simp ↓] theorem State.tryReady_frozen (s : State) : (s.tryReady).frozen = s.frozen := by simp [State.tryReady]

@[simp ↓] theorem State.endStart_frozen (s : State) (valid : Bool) :
    (s.endStart valid).frozen = s.frozen := by simp [State.endStart]

theorem execEntropySettled_keeps (t : Nat) (s : State) : (execEntropySettled t s).Keeps s :=
  State.when_keeps_frozen (by simp)

@[simp ↓] theorem State.alertWindow_frozen (s : State) : (s.alertWindow).frozen = s.frozen := by
  simp [State.alertWindow, apply_ite TrngSt.srcs]

@[simp ↓] theorem State.healthFail_frozen (s : State) (src : Nat) (apt : Bool) :
    (s.healthFail src apt).frozen = s.frozen := by
  dsimp only [State.healthFail]
  repeat' split
  all_goals simp

@[simp ↓] theorem State.judgeStart_frozen (s : State) : (s.judgeStart).frozen = s.frozen := by simp [State.judgeStart]

@[simp ↓] theorem State.sample_frozen (s : State) (src : Nat) (b : Bool) : (s.sample src b).frozen = s.frozen := by
  unfold State.sample
  split <;> simp

theorem execNoiseSample_keeps (t src : Nat) (bit : Bool) (s : State) : (execNoiseSample t src bit s).Keeps s :=
  Result.fault_keeps <| State.when_keeps_frozen (by simp)

@[simp ↓] theorem State.retireDue_frozen (s : State) : (s.retireDue).frozen = s.frozen := by
  refine State.frozen_foldl (fun s i => ?_) _ _
  split
  · split <;> simp
  · rfl

@[simp ↓] theorem State.fillCond_frozen (s : State) : (s.fillCond).frozen = s.frozen := by simp [State.fillCond]

@[simp ↓] theorem State.reseed_frozen (s : State) : (s.reseed).frozen = s.frozen := by simp [State.reseed]

@[simp ↓] theorem State.startBlock_frozen (s : State) (ws : List Nat) :
    (s.startBlock ws).frozen = s.frozen := by simp [State.startBlock]

theorem execConditionedBlock_keeps (t : Nat) (raw : List W64) (s : State) : (execConditionedBlock t raw s).Keeps s :=
  State.when_keeps_frozen (by simp)

theorem execExpanderRequest_keeps (t : Nat) (s : State) : (execExpanderRequest t s).Keeps s :=
  State.when_keeps_frozen (by dsimp only; split <;> simp)

theorem execExpanderReseed_keeps (t : Nat) (s : State) : (execExpanderReseed t s).Keeps s :=
  State.when_keeps_frozen (by simp)

@[simp ↓] theorem State.readWord_frozen (s : State) : (s.readWord).2.frozen = s.frozen := by
  dsimp only [State.readWord]
  repeat' split
  all_goals simp

theorem execTrngWordRead_keeps (t : Nat) (port : Port) (s : State) : (execTrngWordRead t port s).Keeps s :=
  State.when_keeps_frozen (by dsimp only; split <;> simp)

@[simp ↓] theorem State.trngCtl_frozen (s : State) (a : RegAcc) :
    (s.trngCtl a).frozen = s.frozen := by simp [State.trngCtl]

theorem execTrngCtlWrite_keeps (t : Nat) (acc : RegAcc) (s : State) : (execTrngCtlWrite t acc s).Keeps s :=
  State.access_keeps (by simp)


/-! ### Functions of Machine/Interrupts -/

@[simp ↓] theorem State.sendVectors_frozen (s : State) (set : Nat) :
    (s.sendVectors set).frozen = s.frozen := by simp [State.sendVectors]

@[simp ↓] theorem State.intStatClear_frozen (s : State) (a : RegAcc) :
    (s.intStatClear a).frozen = s.frozen := by simp [State.intStatClear]

theorem execIntStatClear_keeps (t : Nat) (acc : RegAcc) (s : State) : (execIntStatClear t acc s).Keeps s :=
  State.access_keeps (by simp)

@[simp ↓] theorem State.intEnable_frozen (s : State) (a : RegAcc) :
    (s.intEnable a).frozen = s.frozen := by simp [State.intEnable]

theorem execIntEnableWrite_keeps (t : Nat) (acc : RegAcc) (s : State) : (execIntEnableWrite t acc s).Keeps s :=
  State.access_keeps (by simp)

@[simp ↓] theorem State.intSet_frozen (s : State) (a : RegAcc) :
    (s.intSet a).frozen = s.frozen := by simp [State.intSet]

theorem execIntSet_keeps (t : Nat) (acc : RegAcc) (s : State) : (execIntSet t acc s).Keeps s :=
  State.access_keeps (by simp)

@[simp ↓] theorem State.intMod_frozen (s : State) (a : RegAcc) :
    (s.intMod a).frozen = s.frozen := by simp [State.intMod]

theorem execIntModWrite_keeps (t : Nat) (acc : RegAcc) (s : State) : (execIntModWrite t acc s).Keeps s :=
  State.access_keeps (by simp)

@[simp ↓] theorem State.releaseReceipts_frozen (s : State) :
    (s.releaseReceipts).frozen = s.frozen := by simp [State.releaseReceipts]

@[simp ↓] theorem State.moderate_frozen (s : State) : (s.moderate).frozen = s.frozen := by simp [State.moderate]

theorem execReceiptModerationTimer_keeps (t : Nat) (s : State) : (execReceiptModerationTimer t s).Keeps s :=
  State.when_keeps_frozen (by simp)

@[simp ↓] theorem State.flushPba_frozen (s : State) : (s.flushPba).frozen = s.frozen := by simp [State.flushPba]

@[simp ↓] theorem State.msixControl_frozen (s : State) (k : MsixCtl) : (s.msixControl k).frozen = s.frozen := by
  dsimp only [State.msixControl]
  repeat' split
  all_goals simp

theorem execMsixUnmask_keeps (t : Nat) (ctl : MsixCtl) (s : State) : (execMsixUnmask t ctl s).Keeps s := by
  unfold execMsixUnmask
  split
  · split
    · exact State.when_keeps_frozen (by simp)
    · exact fun _ h => nomatch h
  · exact State.when_keeps_frozen (by simp)


/-! ### Functions of Machine/Intake -/

@[simp ↓] theorem State.onIntake_frozen (s : State) (f : IntakeSt → IntakeSt) :
    (s.onIntake f).frozen = s.frozen := by rfl

@[simp ↓] theorem State.onOrder_frozen (s : State) (seq : Nat) (f : Order → Order) :
    (s.onOrder seq f).frozen = s.frozen := by rfl

@[simp ↓] theorem State.showIntake_frozen (s : State) : (s.showIntake).frozen = s.frozen := by simp [State.showIntake]

@[simp ↓] theorem State.freeSlot_frozen (s : State) (k : Nat) :
    (s.freeSlot k).frozen = s.frozen := by simp [State.freeSlot]

@[simp ↓] theorem State.setSlot_frozen (s : State) (x : Slot) :
    (s.setSlot x).frozen = s.frozen := by simp [State.setSlot]

@[simp ↓] theorem State.showLog_frozen (s : State) : (s.showLog).frozen = s.frozen := by simp [State.showLog]

@[simp ↓] theorem State.ownReceipt_frozen (s : State) (r : Receipt) : (s.ownReceipt r).frozen = s.frozen := by
  simp [State.ownReceipt]
  split <;> simp

@[simp ↓] theorem State.writeReceipt_frozen (s : State) (r : Receipt) :
    (s.writeReceipt r).frozen = s.frozen := by simp [State.writeReceipt]

@[simp ↓] theorem State.flushHeld_frozen (s : State) : (s.flushHeld).frozen = s.frozen := by simp [State.flushHeld]

@[simp ↓] theorem State.post_frozen (s : State) (r : Receipt) : (s.post r).frozen = s.frozen := by simp [State.post]

@[simp ↓] theorem State.refuse_frozen (s : State) (x : Slot) (code payload : Nat) :
    (s.refuse x code payload).frozen = s.frozen := by simp [State.refuse]

@[simp ↓] theorem State.early_frozen (s : State) (x : Slot) : (s.early x).frozen = s.frozen := by
  dsimp only [State.early]
  repeat' split
  all_goals simp

@[simp ↓] theorem State.sealSlot_frozen (s : State) (x : Slot) :
    (s.sealSlot x).frozen = s.frozen := by simp [State.sealSlot]

@[simp ↓] theorem State.writeSlot_frozen (s : State) (src : Port) (k off : Nat) (d : List Byte) :
    (s.writeSlot src k off d).frozen = s.frozen := by simp [State.writeSlot]

@[simp ↓] theorem State.writeImage_frozen (s : State) (off : Nat) (d : List Byte) :
    (s.writeImage off d).frozen = s.frozen := by simp [State.writeImage]

theorem execIntakeSlotWrite_keeps (t slot off : Nat) (data : List Byte) (s : State) :
    (execIntakeSlotWrite t slot off data s).Keeps s :=
  Result.fault_keeps <| State.when_keeps_frozen (by simp)

theorem execSealTimeout_keeps (t slot : Nat) (s : State) : (execSealTimeout t slot s).Keeps s :=
  Result.fault_keeps <| State.when_keeps_frozen (by split <;> simp)

@[simp ↓] theorem State.askHost_frozen (s : State) (seq slot addr len : Nat) :
    (s.askHost seq slot addr len).frozen = s.frozen := by
  dsimp only [State.askHost]
  simp

theorem State.fetch_frozen {s s' : State} {seq slot addr len : Nat} (h : s.fetch seq slot addr len = .wait s') :
    s'.frozen = s.frozen := by
  unfold State.fetch at h
  split at h
  · cases h
  · split at h
    · split at h <;> cases h
    · split at h
      · cases h
        rfl
      · cases h
        simp

theorem State.bulkOf_frozen {s s' : State} {b : List Byte} {most : Nat} (h : s.bulkOf b most = .wait s') :
    s'.frozen = s.frozen := by
  unfold State.bulkOf at h
  dsimp only at h
  split at h
  · cases h
  · split at h
    · cases h
      exact State.fetch_frozen ‹_›
    · cases h
    · split at h <;> cases h

theorem State.drawSeed_frozen {s s' : State} {n w : Nat} (h : s.drawSeed n = some (w, s')) :
    s'.frozen = s.frozen := by
  induction n generalizing s with
  | zero => cases h
  | succ n ih =>
    unfold State.drawSeed at h
    split at h
    · have ht := State.takeWords_frozen ‹_›
      split at h
      · rw [ih h, ht]
      · cases h
        exact ht
    · cases h

@[simp ↓] theorem State.dropFetches_frozen (s : State) (seq : Nat) :
    (s.dropFetches seq).frozen = s.frozen := by simp [State.dropFetches]

@[simp ↓] theorem State.journalOrder_frozen (s : State) (x : Slot) (bulk : Option (List Byte)) (drawn : Option Nat) :
    (s.journalOrder x bulk drawn).frozen = s.frozen := by simp [State.journalOrder]

@[simp ↓] theorem State.showRoom_frozen (s : State) (room : Bool) :
    (s.showRoom room).frozen = s.frozen := by simp [State.showRoom]

@[simp ↓] theorem State.tryJournal_frozen (s : State) (x : Slot) (bulk : Option (List Byte)) :
    (s.tryJournal x bulk).frozen = s.frozen := by simp [State.tryJournal]

@[simp ↓] theorem State.acceptSeed_frozen (s : State) (x : Slot) (bulk : Option (List Byte)) :
    (s.acceptSeed x bulk).frozen = s.frozen := by
  unfold State.acceptSeed
  split
  · split
    · simp
    · split
      · simp [State.drawSeed_frozen ‹_›]
      · rfl
  · simp

@[simp ↓] theorem State.acceptBulk_frozen (s : State) (tiles : ImageCheck) (x : Slot)
    (ht : (tiles s).1.frozen = s.frozen) : (s.acceptBulk tiles x).frozen = s.frozen := by
  have hv : ∀ (c : Prop) [Decidable c], (if c then tiles s else (s, none)).1.frozen = s.frozen := by
    intro c _
    split
    exacts [ht, rfl]
  dsimp only [State.acceptBulk]
  split
  · split
    · exact State.bulkOf_frozen ‹_›
    · simp
    · split <;> simp [hv]
  · simp

@[simp ↓] theorem State.accept_frozen (s : State) (tiles : ImageCheck) (x : Slot)
    (ht : (tiles s).1.frozen = s.frozen) : (s.accept tiles x).frozen = s.frozen := by
  unfold State.accept
  dsimp only
  split
  · simp
  · split
    · simp
    · simp [ht]

@[simp ↓] theorem State.afterChecks_frozen (s : State) (tiles : ImageCheck) (k : Nat)
    (ht : ∀ v, v.frozen = s.frozen → (tiles v).1.frozen = v.frozen) : (s.afterChecks tiles k).frozen = s.frozen := by
  unfold State.afterChecks
  split
  · dsimp only
    split
    · rw [State.accept_frozen _ _ _ (ht _ (by simp))]
      simp
    · simp
  · rfl

@[simp ↓] theorem State.postAccepted_frozen (s : State) (o : Order) :
    (s.postAccepted o).frozen = s.frozen := by simp [State.postAccepted]

theorem execAccepted_keeps (t seq : Nat) (s : State) : (execAccepted t seq s).Keeps s :=
  State.when_keeps_frozen (by split <;> simp)

@[simp ↓] theorem State.takesEffect_frozen (s : State) (o : Order) :
    (s.takesEffect o).frozen = s.frozen := by simp [State.takesEffect]

@[simp ↓] theorem State.finishAs_frozen (s : State) (o : Order) (kind code payload : Nat) (eff : Bool) :
    (s.finishAs o kind code payload eff).frozen = s.frozen := by simp [State.finishAs]

@[simp ↓] theorem State.complete_frozen (s : State) (o : Order) (code payload : Nat) :
    (s.complete o code payload).frozen = s.frozen := by simp [State.complete]

@[simp ↓] theorem State.effectDone_frozen (s : State) (o : Order) (payload : Nat) :
    (s.effectDone o payload).frozen = s.frozen := by simp [State.effectDone]

@[simp ↓] theorem State.rejectOrder_frozen (s : State) (o : Order) (code payload : Nat) :
    (s.rejectOrder o code payload).frozen = s.frozen := by simp [State.rejectOrder]

@[simp ↓] theorem State.formReleases_frozen (s : State) :
    (s.formReleases).frozen = s.frozen := by simp [State.formReleases]

@[simp ↓] theorem State.postDue_frozen (s : State) (seq : Nat) : (s.postDue seq).frozen = s.frozen := by
  dsimp only [State.postDue]
  repeat' split
  all_goals simp

theorem execReceiptPost_keeps (t seq : Nat) (s : State) : (execReceiptPost t seq s).Keeps s :=
  State.when_keeps_frozen (by simp)

@[simp ↓] theorem State.receiptHead_frozen (s : State) (a : RegAcc) :
    (s.receiptHead a).frozen = s.frozen := by simp [State.receiptHead]

theorem execReceiptConsumed_keeps (t : Nat) (acc : RegAcc) (s : State) : (execReceiptConsumed t acc s).Keeps s :=
  State.access_keeps (by simp)

@[simp ↓] theorem State.repost_frozen (s : State) : (s.repost).frozen = s.frozen := by
  dsimp only [State.repost]
  rw [State.frozen_foldl (fun s r => State.post_frozen s r), State.frozen_foldl]
  · simp
  · intro s o
    split
    · split <;> simp
    · rfl

@[simp ↓] theorem State.intakeConfig_frozen (s : State) (r : Reg) (a : RegAcc) :
    (s.intakeConfig r a).frozen = s.frozen := by simp [State.intakeConfig]

theorem execIntakeConfigWrite_keeps (t : Nat) (reg : IntakeReg) (acc : RegAcc) (s : State) :
    (execIntakeConfigWrite t reg acc s).Keeps s :=
  State.access_keeps (by simp)

@[simp ↓] theorem State.policyWrite_frozen (s : State) (a : RegAcc) :
    (s.policyWrite a).frozen = s.frozen := by simp [State.policyWrite]

theorem execDurabilityPolicyWrite_keeps (t : Nat) (acc : RegAcc) (s : State) :
    (execDurabilityPolicyWrite t acc s).Keeps s :=
  State.access_keeps (by simp)


/-! ### Functions of Machine/Memory -/

@[simp ↓] theorem State.writeMem_frozen (s : State) (port addr : Nat) (d : List Byte) (h : s.frozen.whole = true) :
    (s.writeMem port addr d).frozen = s.frozen := by
  obtain ⟨hmem, hsites, hports, hsrcs, htable⟩ := (State.whole_iff s).mp h
  exact State.frozen_rebuild h
    ((State.whole_iff _).mpr ⟨memWrite_wf hmem _ _, hsites, hports, hsrcs, htable⟩) rfl rfl rfl rfl rfl rfl

theorem State.frozen_filterMem (s : State) (p : Host.Cell → Bool) (h : s.frozen.whole = true) :
    State.frozen { s with mem := s.mem.filter p } = s.frozen := by
  obtain ⟨hmem, hsites, hports, hsrcs, htable⟩ := (State.whole_iff s).mp h
  exact State.frozen_rebuild h
    ((State.whole_iff _).mpr ⟨filter_wf hmem _, hsites, hports, hsrcs, htable⟩) rfl rfl rfl rfl rfl rfl

@[simp ↓] theorem State.onMport_frozen (s : State) (p : Nat) (f : MPort → MPort) :
    (s.onMport p f).frozen = s.frozen := by
  simp [State.onMport, State.frozen, State.whole]

@[simp ↓] theorem State.storeTiles_frozen (s : State) (port addr : Nat) (d : List Byte) (h : s.frozen.whole = true) :
    (s.storeTiles port addr d).frozen = s.frozen := by simp [State.storeTiles, h]


/-! ### Functions of Machine/Effects -/

@[simp ↓] theorem State.checkLow_frozen (s : State) (m u : Nat) :
    (s.checkLow m u).frozen = s.frozen := by simp [State.checkLow]

@[simp ↓] theorem State.showSpares_frozen (s : State) : (s.showSpares).frozen = s.frozen := by simp [State.showSpares]

@[simp ↓] theorem State.mapShape_frozen (s : State) : (s.mapShape).frozen = s.frozen := by simp [State.mapShape]

@[simp ↓] theorem State.showShape_frozen (s : State) : (s.showShape).frozen = s.frozen := by simp [State.showShape]

@[simp ↓] theorem State.joinRequalified_frozen (s : State) :
    (s.joinRequalified).frozen = s.frozen := by simp [State.joinRequalified]

@[simp ↓] theorem State.placeBlock_frozen (s : State) (r : Residence) (h : s.frozen.whole = true) :
    (s.placeBlock r).frozen = s.frozen := by simp [State.placeBlock, h]

@[simp ↓] theorem State.foldl_placeBlock_frozen (l : List Residence) (s : State) (h : s.frozen.whole = true) :
    (l.foldl State.placeBlock s).frozen = s.frozen :=
  State.frozen_foldl_whole State.placeBlock_frozen l s h

@[simp ↓] theorem State.fillPorts_frozen (s : State) : (s.fillPorts).frozen = s.frozen := by simp [State.fillPorts]

@[simp ↓] theorem State.takeShape_frozen (s : State) (sel : Nat) (sh : ShapeP) :
    (s.takeShape sel sh).frozen = s.frozen := by simp [State.takeShape]

@[simp ↓] theorem State.freshSegment_frozen (s : State) :
    (s.freshSegment).frozen = s.frozen := by simp [State.freshSegment]

@[simp ↓] theorem State.layPlan_frozen (s : State) (seq : Nat) (img : List Byte) (sel : Nat)
    (h : s.frozen.whole = true) : (s.layPlan seq img sel).frozen = s.frozen := by simp [State.layPlan, h]

@[simp ↓] theorem State.takePlan_frozen (s : State) (o : Order) (img : List Byte) (sel : Nat)
    (h : s.frozen.whole = true) : (s.takePlan o img sel).frozen = s.frozen := by simp [State.takePlan, h]

@[simp ↓] theorem State.doPlan_frozen (s : State) (o : Order) (img : List Byte) (h : s.frozen.whole = true) :
    (s.doPlan o img).frozen = s.frozen := by
  dsimp only [State.doPlan]
  repeat' split
  all_goals simp [h]

@[simp ↓] theorem State.setBind_frozen (s : State) (seq id : Nat) (pay : List Byte) (h : s.frozen.whole = true) :
    (s.setBind seq id pay).frozen = s.frozen := by simp [State.setBind, h]

@[simp ↓] theorem State.takeBind_frozen (s : State) (o : Order) (id : Nat) (pay : List Byte)
    (h : s.frozen.whole = true) : (s.takeBind o id pay).frozen = s.frozen := by simp [State.takeBind, h]

@[simp ↓] theorem State.doBind_frozen (s : State) (o : Order) (pay : List Byte) (h : s.frozen.whole = true) :
    (s.doBind o pay).frozen = s.frozen := by simp [State.doBind, h]

@[simp ↓] theorem State.seedNow_frozen (s : State) (seed : W64) (fresh : Bool) :
    (s.seedNow seed fresh).frozen = s.frozen := by simp [State.seedNow]

@[simp ↓] theorem State.noteSeed_frozen (s : State) (seq : Nat) (seed : W64) (fresh : Bool) :
    (s.noteSeed seq seed fresh).frozen = s.frozen := by simp [State.noteSeed]

@[simp ↓] theorem State.doSeed_frozen (s : State) (o : Order) :
    (s.doSeed o).frozen = s.frozen := by simp [State.doSeed]

@[simp ↓] theorem State.setMode_frozen (s : State) (mode lb : Option Bool) (src : Source) :
    (s.setMode mode lb src).frozen = s.frozen := by simp [State.setMode]

@[simp ↓] theorem State.doMode_frozen (s : State) (o : Order) :
    (s.doMode o).frozen = s.frozen := by simp [State.doMode]

@[simp ↓] theorem State.heldMode_frozen (s : State) : (s.heldMode).frozen = s.frozen := by
  unfold State.heldMode
  split <;> simp

@[simp ↓] theorem State.takeContext_frozen (s : State) (b : List Byte) (m : CtxMark) :
    (s.takeContext b m).frozen = s.frozen := by simp [State.takeContext]

@[simp ↓] theorem State.restoreFrom_frozen (s : State) (o : Order) (b : List Byte) :
    (s.restoreFrom o b).frozen = s.frozen := by
  unfold State.restoreFrom
  split <;> simp

@[simp ↓] theorem State.doRestore_frozen (s : State) (o : Order) (bulk : List Byte) :
    (s.doRestore o bulk).frozen = s.frozen := by
  simp [State.doRestore]
  split <;> simp

@[simp ↓] theorem State.putValues_frozen (s : State) (b : List Byte) :
    (s.putValues b).frozen = s.frozen := by simp [State.putValues]

@[simp ↓] theorem State.doCheckpoint_frozen (s : State) (o : Order) (next : Nat) :
    (s.doCheckpoint o next).frozen = s.frozen := by simp [State.doCheckpoint]

@[simp ↓] theorem State.endCheckpoint_frozen (s : State) (o : Order) (b : List Byte) :
    (s.endCheckpoint o b).frozen = s.frozen := by simp [State.endCheckpoint]


/-! ### Functions of Machine/Rerun -/

@[simp ↓] theorem State.fetchNeeded_frozen (s : State) (ops : List Nat) (plan : Nat) :
    (s.fetchNeeded ops plan).1.frozen = s.frozen := by
  refine State.frozen_foldl_via Prod.fst (fun acc o => ?_) _ _
  split
  · simp
  · exact State.bulkOf_frozen ‹_›
  · split
    · simp [State.bulkOf_frozen ‹_›]
    · simp

@[simp ↓] theorem State.forgetBulk_frozen (s : State) : (s.forgetBulk).frozen = s.frozen := by simp [State.forgetBulk]

@[simp ↓] theorem State.toBase_frozen (s : State) (h : s.frozen.whole = true) : (s.toBase).frozen = s.frozen := by
  dsimp only [State.toBase]
  simp
  split <;> simp [h]

@[simp ↓] theorem State.reapply_frozen (s : State) (seq : Nat) (h : s.frozen.whole = true) :
    (s.reapply seq).frozen = s.frozen := by
  dsimp only [State.reapply]
  repeat' split
  all_goals simp [h]

@[simp ↓] theorem State.firstGo_frozen (s : State) : (s.firstGo).frozen = s.frozen := by simp [State.firstGo]

@[simp ↓] theorem State.beginStep_frozen (s : State) (throughput reexec : Bool) :
    (s.beginStep throughput reexec).frozen = s.frozen := by simp [State.beginStep]

@[simp ↓] theorem State.startRerun_frozen (s : State) (step : Nat) (throughput reexec : Bool) :
    (s.startRerun step throughput reexec).frozen = s.frozen := by simp [State.startRerun]

@[simp ↓] theorem State.endRecovery_frozen (s : State) :
    (s.endRecovery).frozen = s.frozen := by simp [State.endRecovery]

@[simp ↓] theorem State.goOn_frozen (s : State) (marks : List (Bool × Nat × Bool)) (h : s.frozen.whole = true) :
    (s.goOn marks).frozen = s.frozen := by
  induction marks generalizing s with
  | nil =>
    unfold State.goOn
    dsimp only
    split
    · simp
    · split
      · split <;> simp
      · split <;> simp
  | cons x rest ih =>
    obtain ⟨b, q, m⟩ := x
    cases b
    · rw [State.goOn, ih _ (by simp [h]), State.reapply_frozen _ _ h]
    · simp [State.goOn]

@[simp ↓] theorem State.rerunAll_frozen (s : State) (h : s.frozen.whole = true) :
    (s.rerunAll).frozen = s.frozen := by simp [State.rerunAll, h]


/-! ### Functions of Machine/Spares -/

@[simp ↓] theorem State.onSpare_frozen (s : State) (f : SpareSt → SpareSt) : (s.onSpare f).frozen = s.frozen := by rfl

@[simp ↓] theorem State.onMaps_frozen (s : State) (f : FieldMap → FieldMap) : (s.onMaps f).frozen = s.frozen := by rfl

@[simp ↓] theorem State.declareFailed_frozen (s : State) (site reason : Nat) :
    (s.declareFailed site reason).frozen = s.frozen := by simp [State.declareFailed]

@[simp ↓] theorem State.chargeSite_frozen (s : State) (site mech : Nat) :
    (s.chargeSite site mech).1.frozen = s.frozen := by
  dsimp only [State.chargeSite]
  repeat' split
  all_goals simp

@[simp ↓] theorem State.replaceBank_frozen (s : State) (site bank : Nat) :
    (s.replaceBank site bank).1.frozen = s.frozen := by
  unfold State.replaceBank
  split <;> simp

@[simp ↓] theorem State.faultSlice_frozen (s : State) (site : Nat) (bankB : Bool) (slice : Nat) :
    (s.faultSlice site bankB slice).1.frozen = s.frozen := by
  dsimp only [State.faultSlice]
  repeat' split
  all_goals simp

@[simp ↓] theorem State.weigh_frozen (s : State) (d : Damage) : (s.weigh d).1.frozen = s.frozen := by
  unfold State.weigh
  split <;> simp

@[simp ↓] theorem State.declareAll_frozen (s : State) (ds : List Damage) (selftest : Option Nat) :
    (s.declareAll ds selftest).frozen = s.frozen := by
  dsimp only [State.declareAll]
  refine (State.frozen_foldl (fun s x => ?_) _ _).trans (State.frozen_foldl_via Prod.fst (fun acc d => ?_) _ _)
  <;> simp

@[simp ↓] theorem State.sayAlternates_frozen (s : State) (site : Nat) :
    (s.sayAlternates site).frozen = s.frozen := by simp [State.sayAlternates]

@[simp ↓] theorem State.engageRouter_frozen (s : State) (site : Nat) : (s.engageRouter site).1.frozen = s.frozen := by
  dsimp only [State.engageRouter]
  repeat' split
  all_goals simp

@[simp ↓] theorem State.engageRouters_frozen (s : State) (ds : List Damage) :
    (s.engageRouters ds).1.frozen = s.frozen :=
  State.frozen_foldl_via Prod.fst (fun acc i => by simp) _ _

@[simp ↓] theorem State.moveCore_frozen (s : State) (node site : Nat) :
    (s.moveCore node site).frozen = s.frozen := by simp [State.moveCore]

@[simp ↓] theorem State.engage_frozen (s : State) (node from_ site : Nat) :
    (s.engage node from_ site).frozen = s.frozen := by simp [State.engage]

@[simp ↓] theorem State.substitute_frozen (s : State) : (s.substitute).frozen = s.frozen := by
  refine State.frozen_foldl (fun s i => ?_) _ _
  split
  · split
    · dsimp only
      split <;> simp
    · rfl
  · rfl

@[simp ↓] theorem State.endLantern_frozen (s : State) : (s.endLantern).frozen = s.frozen := by
  refine State.frozen_foldl (fun s i => ?_) _ _
  split
  · split
    · split <;> simp
    · rfl
  · rfl

@[simp ↓] theorem State.beginRequal_frozen (s : State) : (s.beginRequal).frozen = s.frozen := by
  unfold State.beginRequal
  split <;> simp

@[simp ↓] theorem State.applyRequal_frozen (s : State) :
    (s.applyRequal).frozen = s.frozen := by simp [State.applyRequal]

@[simp ↓] theorem State.requalNow_frozen (s : State) : (s.requalNow).frozen = s.frozen := by simp [State.requalNow]

@[simp ↓] theorem State.dealTier_frozen (s : State) (tier : Nat) :
    (s.dealTier tier).frozen = s.frozen := by simp [State.dealTier]

@[simp ↓] theorem State.deal_frozen (s : State) : (s.deal).1.frozen = s.frozen := by simp [State.deal]

@[simp ↓] theorem State.fallback_frozen (s : State) (h : s.frozen.whole = true) :
    (s.fallback).1.frozen = s.frozen := by
  dsimp only [State.fallback]
  repeat' split
  all_goals simp [h]

set_option maxRecDepth 3000 in
theorem State.coverSites_succ (n : Nat) (s : State) : State.coverSites (n + 1) s =
    let v := (s.lanternUnfit.foldl (fun s i => s.declareFailed i 5) s).substitute
    match v.lostSites.filterMap v.serves with
    | [] => (v, true)
    | nodes =>
      if nodes.any (1024 ≤ ·) then (v, false)
      else
        let f := v.fallback
        if f.2 && !f.1.lanternUnfit.isEmpty then State.coverSites n f.1 else f := by rfl

@[simp ↓] theorem State.coverSites_frozen (n : Nat) (s : State) (h : s.frozen.whole = true) :
    (State.coverSites n s).1.frozen = s.frozen := by
  induction n generalizing s with
  | zero => rfl
  | succ n ih =>
    rw [State.coverSites_succ]
    have hv : ((s.lanternUnfit.foldl (fun s i => s.declareFailed i 5) s).substitute).frozen = s.frozen := by simp
    generalize (s.lanternUnfit.foldl (fun s i => s.declareFailed i 5) s).substitute = v at hv
    have hf : v.fallback.1.frozen = s.frozen := (State.fallback_frozen v (by rw [hv]; exact h)).trans hv
    dsimp only
    split
    · exact hv
    · split
      · exact hv
      · split
        · rw [ih _ (by rw [hf]; exact h), hf]
        · exact hf

@[simp ↓] theorem State.heldWrites_frozen (s : State) : (s.heldWrites).frozen = s.frozen := by simp [State.heldWrites]

@[simp ↓] theorem State.dropSelftest_frozen (s : State) : (s.dropSelftest).frozen = s.frozen := by
  unfold State.dropSelftest
  split <;> simp

@[simp ↓] theorem State.endRun_frozen (s : State) (code payload next : Nat) :
    (s.endRun code payload next).frozen = s.frozen := by
  unfold State.endRun
  split <;> simp

@[simp ↓] theorem State.reportTraffic_frozen (s : State) :
    (s.reportTraffic).frozen = s.frozen := by simp [State.reportTraffic]

@[simp ↓] theorem State.pauseAt_frozen (s : State) (b : List Byte) :
    (s.pauseAt b).frozen = s.frozen := by simp [State.pauseAt]

@[simp ↓] theorem State.pause_frozen (s : State) : (s.pause).frozen = s.frozen := by simp [State.pause]

@[simp ↓] theorem State.pauseLimit_frozen (s : State) (h : s.frozen.whole = true) :
    (s.pauseLimit).frozen = s.frozen := by simp [State.pauseLimit, h]

@[simp ↓] theorem State.rewritePlan_frozen (s : State) (ds : List Damage) (h : s.frozen.whole = true) :
    (s.rewritePlan ds).frozen = s.frozen :=
  State.frozen_foldl_whole (fun s _ hs => State.foldl_placeBlock_frozen _ s hs) _ s h

@[simp ↓] theorem State.reExecute_frozen (s : State) : (s.reExecute).frozen = s.frozen := by simp [State.reExecute]

@[simp ↓] theorem State.askPartner_frozen (s : State) : (s.askPartner).frozen = s.frozen := by
  unfold State.askPartner
  split <;> simp

@[simp ↓] theorem State.reloadEnd_frozen (s : State) (h : s.frozen.whole = true) :
    (s.reloadEnd).frozen = s.frozen := by simp [State.reloadEnd, h]

@[simp ↓] theorem State.reloadGo_frozen (s : State) (h : s.frozen.whole = true) :
    (s.reloadGo).frozen = s.frozen := by simp [State.reloadGo, h]

@[simp ↓] theorem State.startReload_frozen (s : State) (why : Nat) (h : s.frozen.whole = true) :
    (s.startReload why).frozen = s.frozen := by simp [State.startReload, h]

@[simp ↓] theorem State.rollback_frozen (s : State) (h : s.frozen.whole = true) :
    (s.rollback).frozen = s.frozen := by simp [State.rollback, h]

@[simp ↓] theorem State.loseTier_frozen (s : State) (tier : Nat) :
    (s.loseTier tier).frozen = s.frozen := by simp [State.loseTier]

@[simp ↓] theorem State.wipePort_frozen (s : State) (port : Nat) (h : s.frozen.whole = true) :
    (s.wipePort port).frozen = s.frozen := by
  rw [State.wipePort, State.onMport_frozen]
  exact State.frozen_filterMem s _ h

@[simp ↓] theorem State.loseStack_frozen (s : State) (n : Nat) (h : s.frozen.whole = true) :
    (s.loseStack n).frozen = s.frozen := by simp [State.loseStack, h]

@[simp ↓] theorem State.losePackage_frozen (s : State) (port : Nat) (h : s.frozen.whole = true) :
    (s.losePackage port).frozen = s.frozen := by simp [State.losePackage, h]

@[simp ↓] theorem State.loseParts_frozen (s : State) (ds : List Damage) (h : s.frozen.whole = true) :
    (s.loseParts ds).1.frozen = s.frozen := by
  dsimp only [State.loseParts]
  refine (State.frozen_foldl_whole (fun s p hs => ?_) _ _ ?_).trans ?_
  · split <;> simp [hs]
  · simp [h]
  · simp

@[simp ↓] theorem State.settleSites_frozen (s : State) (ds : List Damage) (selftest : Option Nat)
    (h : s.frozen.whole = true) : (s.settleSites ds selftest).st.frozen = s.frozen := by
  unfold State.settleSites
  dsimp only
  rw [State.showSpares_frozen]
  split <;> split <;> simp [h]

@[simp ↓] theorem State.moveOut_frozen (s : State) : (s.moveOut).frozen = s.frozen := by
  unfold State.moveOut
  split <;> simp

@[simp ↓] theorem State.selftestFor_frozen (s : State) (step : Nat) :
    (s.selftestFor step).frozen = s.frozen := by simp [State.selftestFor]

@[simp ↓] theorem State.selftestResult_frozen (s : State) (ok : Bool) :
    (s.selftestResult ok).1.frozen = s.frozen := by
  dsimp only [State.selftestResult]
  repeat' split
  all_goals simp

@[simp ↓] theorem State.movePart_frozen (s : State) (port : Nat) (h : s.frozen.whole = true) :
    (s.movePart port).frozen = s.frozen := by simp [State.movePart, h]

@[simp ↓] theorem State.mendPlan_frozen (s : State) (ds : List Damage) (h : s.frozen.whole = true) :
    (s.mendPlan ds).frozen = s.frozen := by simp [State.mendPlan, h]

@[simp ↓] theorem State.settleRun_frozen (s : State) (ds : List Damage) (selftest : Option Nat)
    (h : s.frozen.whole = true) : (s.settleRun ds selftest).1.frozen = s.frozen := by
  have hs := State.settleSites_frozen (s.onSpare fun y => { y with damage := [] }) ds selftest (by simp [h])
  have hl := State.loseParts_frozen _ ds (by rw [hs]; simp [h])
  rw [hs, State.onSpare_frozen] at hl
  dsimp only [State.settleRun]
  split
  · simp [hl]
  · split
    · simp [hl, h]
    · split
      · split <;> simp [hl, h]
      · exact hl

@[simp ↓] theorem State.afterSettled_frozen (s : State) :
    (s.afterSettled).frozen = s.frozen := by simp [State.afterSettled]

@[simp ↓] theorem State.settle_frozen (s : State) (selfOk : Bool) (h : s.frozen.whole = true) :
    (s.settle selfOk).1.frozen = s.frozen := by
  dsimp only [State.settle]
  repeat' split
  all_goals simp [h]

@[simp ↓] theorem State.settleIdle_frozen (s : State) (h : s.frozen.whole = true) :
    (s.settleIdle).frozen = s.frozen := by
  have hs := State.settleSites_frozen (s.onSpare fun y => { y with damage := [] }) s.spare.damage none (by simp [h])
  have hl := State.loseParts_frozen _ s.spare.damage (by rw [hs]; simp [h])
  rw [hs, State.onSpare_frozen] at hl
  dsimp only [State.settleIdle]
  split
  · rfl
  · split
    · simp [hl]
    · split
      · simp [hl, h]
      · split
        · simp [hl]
        · split
          · simp [hl, h]
          · split <;> simp [hl, h]

@[simp ↓] theorem State.askRequal_frozen (s : State) (i : Nat) :
    (s.askRequal i).frozen = s.frozen := by simp [State.askRequal]

@[simp ↓] theorem State.spareCtl_frozen (s : State) (a : RegAcc) :
    (s.spareCtl a).frozen = s.frozen := by simp [State.spareCtl]

theorem execReQualify_keeps (t : Nat) (acc : RegAcc) (s : State) : (execReQualify t acc s).Keeps s :=
  State.access_keeps (by simp)

@[simp ↓] theorem State.failRequal_frozen (s : State) (i : Nat) :
    (s.failRequal i).frozen = s.frozen := by simp [State.failRequal]

@[simp ↓] theorem State.requalResult_frozen (s : State) (i : Nat) (pass : Bool) :
    (s.requalResult i pass).frozen = s.frozen := by simp [State.requalResult]

theorem execReQualificationDone_keeps (t : Nat) (pass : Bool) (s : State) :
    (execReQualificationDone t pass s).Keeps s :=
  State.when_keeps_frozen (by dsimp only; repeat' split; all_goals simp)

theorem execIslandMonitor_keeps (t site : Nat) (router : Bool) (s : State) (h : s.frozen.whole = true) :
    (execIslandMonitor t site router s).Keeps s :=
  Result.fault_keeps <| State.when_keeps_frozen (by simp [h])

theorem execCoreWatchdog_keeps (t barrier : Nat) (s : State) : (execCoreWatchdog t barrier s).Keeps s :=
  State.when_keeps_frozen (by split <;> simp)

theorem execPllSwitch_keeps (t field : Nat) (s : State) : (execPllSwitch t field s).Keeps s :=
  Result.fault_keeps <| State.when_keeps_frozen (by simp)

theorem execRegulatorSwitch_keeps (t : Nat) (s : State) : (execRegulatorSwitch t s).Keeps s :=
  State.when_keeps_frozen (by simp)


/-! ### Functions of Machine/Orders -/

theorem State.withBulk_frozen (s : State) (o : Order) (f : State → List Byte → State)
    (hf : ∀ v d, v.frozen = s.frozen → (f v d).frozen = v.frozen) : (s.withBulk o f).frozen = s.frozen := by
  unfold State.withBulk
  split
  · exact hf s _ rfl
  · split
    · exact hf s _ rfl
    · split
      · exact State.bulkOf_frozen ‹_›
      · simp
      · rw [hf _ _ (by simp)]
        simp

theorem execDataBind_keeps (t seq : Nat) (s : State) (h : s.frozen.whole = true) : (execDataBind t seq s).Keeps s :=
  State.orderRow_keeps fun o => State.withBulk_frozen _ _ _ fun v d hv => by split <;> simp [hv, h]

theorem execSeedSet_keeps (t seq : Nat) (s : State) : (execSeedSet t seq s).Keeps s :=
  State.orderRow_keeps fun o => by simp

@[simp ↓] theorem State.doRun_frozen (s : State) (o : Order) : (s.doRun o).frozen = s.frozen := by
  dsimp only [State.doRun]
  repeat' split
  all_goals simp

theorem execRun_keeps (t seq : Nat) (s : State) : (execRun t seq s).Keeps s :=
  State.orderRow_keeps fun o => by simp

theorem execCheckpoint_keeps (t seq : Nat) (s : State) : (execCheckpoint t seq s).Keeps s :=
  State.orderRow_keeps fun o => by simp

theorem execRestore_keeps (t seq : Nat) (s : State) : (execRestore t seq s).Keeps s :=
  State.orderRow_keeps fun o => by
    split
    · rfl
    · split
      · exact State.withBulk_frozen _ _ _ fun v d _ => by simp
      · simp

theorem execModeSet_keeps (t seq : Nat) (s : State) : (execModeSet t seq s).Keeps s :=
  State.orderRow_keeps fun o => by simp

theorem execQuiesce_keeps (t seq : Nat) (s : State) : (execQuiesce t seq s).Keeps s :=
  State.orderRow_keeps fun o => by simp

@[simp ↓] theorem State.applyAtBoundary_frozen (s : State) (seq : Nat) (h : s.frozen.whole = true) :
    (s.applyAtBoundary seq).frozen = s.frozen := by
  dsimp only [State.applyAtBoundary]
  repeat' split
  · exact State.withBulk_frozen _ _ _ fun v d hv => by simp [hv, h]
  all_goals simp

@[simp ↓] theorem State.applyOrders_frozen (s : State) (h : s.frozen.whole = true) :
    (s.applyOrders).frozen = s.frozen :=
  State.frozen_foldl_whole State.applyAtBoundary_frozen _ s h


/-! ### Functions of Machine/PowerStates -/

@[simp ↓] theorem State.resumeCores_frozen (s : State) :
    (s.resumeCores).frozen = s.frozen := by simp [State.resumeCores]

@[simp ↓] theorem State.closeSession_frozen (s : State) (reason : Nat) :
    (s.closeSession reason).frozen = s.frozen := by simp [State.closeSession]

@[simp ↓] theorem State.toPower_frozen (s : State) (dst : Nat) :
    (s.toPower dst).frozen = s.frozen := by simp [State.toPower]

@[simp ↓] theorem State.clearOculus_frozen (s : State) :
    (s.clearOculus).frozen = s.frozen := by simp [State.clearOculus]

@[simp ↓] theorem State.suspend_frozen (s : State) : (s.suspend).frozen = s.frozen := by simp [State.suspend]

@[simp ↓] theorem State.enterP3_frozen (s : State) : (s.enterP3).frozen = s.frozen := by simp [State.enterP3]

@[simp ↓] theorem State.powerBoundary_frozen (s : State) : (s.powerBoundary).frozen = s.frozen := by
  simp [State.powerBoundary]
  split <;> simp


/-! ### Functions of Machine/Steps -/

@[simp ↓] theorem State.startStep_frozen (s : State) (n : Nat) (a : Option Nat) (hold : Bool) :
    (s.startStep n a hold).frozen = s.frozen := by simp [State.startStep]

@[simp ↓] theorem State.haltFirst_frozen (s : State) : (s.haltFirst).frozen = s.frozen := by simp [State.haltFirst]

theorem execStepStart_keeps (t : Nat) (s : State) : (execStepStart t s).Keeps s :=
  State.when_keeps_frozen (by split <;> simp)

@[simp ↓] theorem State.setUncovered_frozen (s : State) (step : Nat) :
    (s.setUncovered step).frozen = s.frozen := by simp [State.setUncovered]

@[simp ↓] theorem State.closeDigest_frozen (s : State) :
    (s.closeDigest).frozen = s.frozen := by simp [State.closeDigest]

@[simp ↓] theorem State.reportStep_frozen (s : State) : (s.reportStep).frozen = s.frozen := by
  dsimp only [State.reportStep]
  rw [State.reportTraffic_frozen]
  cases s.slog.nonfinite <;> cases s.slog.fieldNan <;> cases s.slog.saturated <;> simp

@[simp ↓] theorem State.countStep_frozen (s : State) : (s.countStep).frozen = s.frozen := by simp [State.countStep]

@[simp ↓] theorem State.ocuMissed_frozen (s : State) : (s.ocuMissed).frozen = s.frozen := by simp [State.ocuMissed]

@[simp ↓] theorem State.endStep_frozen (s : State) (cause : Nat) :
    (s.endStep cause).frozen = s.frozen := by simp [State.endStep]

@[simp ↓] theorem State.closeStep_frozen (s : State) : (s.closeStep).frozen = s.frozen := by simp [State.closeStep]

@[simp ↓] theorem State.applyHeld_frozen (s : State) : (s.applyHeld).frozen = s.frozen := by simp [State.applyHeld]

@[simp ↓] theorem State.leaveStep_frozen (s : State) (cause : Nat) :
    (s.leaveStep cause).frozen = s.frozen := by simp [State.leaveStep]

@[simp ↓] theorem State.finishStep_frozen (s : State) (h : s.frozen.whole = true) :
    (s.finishStep).frozen = s.frozen := by simp [State.finishStep, h]

@[simp ↓] theorem State.finishRerun_frozen (s : State) (h : s.frozen.whole = true) :
    (s.finishRerun).frozen = s.frozen := by simp [State.finishRerun, h]

@[simp ↓] theorem State.repairStacks_frozen (s : State) (hbm : List Nat) :
    (s.repairStacks hbm).frozen = s.frozen := by simp [State.repairStacks]

theorem execBoundaryActions_keeps (t : Nat) (found : AtBoundary) (s : State) (h : s.frozen.whole = true) :
    (execBoundaryActions t found s).Keeps s :=
  State.when_keeps_frozen (by simp [h])

@[simp ↓] theorem State.contextDone_frozen (s : State) (x : Transfer) : (s.contextDone x).frozen = s.frozen := by
  simp [State.contextDone]
  split <;> simp

theorem execContextComplete_keeps (t : Nat) (s : State) : (execContextComplete t s).Keeps s :=
  State.when_keeps_frozen (by split <;> simp)


/-! ### Functions of Machine/Mesh -/

@[simp ↓] theorem State.onMesh_frozen (s : State) (f : MeshSt → MeshSt) : (s.onMesh f).frozen = s.frozen := by rfl

theorem execHopInject_keeps (t i site : Nat) (s : State) : (execHopInject t i site s).Keeps s :=
  Result.fault_keeps <| State.when_keeps_frozen (by split <;> simp)

theorem execHopDelivery_keeps (t i : Nat) (parity : Option Nat) (s : State) :
    (execHopDelivery t i parity s).Keeps s :=
  Result.fault_keeps <| State.when_keeps_frozen (by split <;> simp)

@[simp ↓] theorem State.showCopies_frozen (s : State) (site : Nat) :
    (s.showCopies site).frozen = s.frozen := by simp [State.showCopies]

@[simp ↓] theorem State.sendBranch_frozen (s : State) (b : Branch) :
    (s.sendBranch b).frozen = s.frozen := by simp [State.sendBranch]

@[simp ↓] theorem State.serveOutput_frozen (s : State) (site dir : Nat) :
    (s.serveOutput site dir).frozen = s.frozen := by
  unfold State.serveOutput
  split <;> simp

@[simp ↓] theorem State.takeBranch_frozen (s : State) (b : Branch) :
    (s.takeBranch b).frozen = s.frozen := by simp [State.takeBranch]

@[simp ↓] theorem State.onPacket_frozen (s : State) (id : Nat) (f : Packet → Packet) :
    (s.onPacket id f).frozen = s.frozen := by rfl

@[simp ↓] theorem State.eject_frozen (s : State) (p : Packet) (site : Nat) :
    (s.eject p site).frozen = s.frozen := by simp [State.eject]

@[simp ↓] theorem State.fork_frozen (s : State) (p : Packet) (site : Nat) (targets : List Nat) :
    (s.fork p site targets).frozen = s.frozen := by simp [State.fork]

@[simp ↓] theorem State.passPacket_frozen (s : State) (b : Branch) (site : Nat) :
    (s.passPacket b site).frozen = s.frozen := by
  dsimp only [State.passPacket]
  split <;> simp

@[simp ↓] theorem State.givePacket_frozen (s : State) (p : Packet) (node : Bool) :
    (s.givePacket p node).frozen = s.frozen := by simp [State.givePacket]

theorem execFreeSlotPacket_keeps (t id site : Nat) (targets : Targets) (flits : Flits) (s : State) :
    (execFreeSlotPacket t id site targets flits s).Keeps s :=
  Result.fault_keeps <| State.when_keeps_frozen (by split <;> simp)

theorem execCreditReturn_keeps (t site dir : Nat) (s : State) : (execCreditReturn t site dir s).Keeps s :=
  Result.fault_keeps <| State.when_keeps_frozen (by simp)

@[simp ↓] theorem State.ackPacket_frozen (s : State) (p : Packet) (target : Nat) :
    (s.ackPacket p target).frozen = s.frozen := by simp [State.ackPacket]

theorem execFreeSlotAck_keeps (t id : Nat) (target : AckFlit) (s : State) : (execFreeSlotAck t id target s).Keeps s :=
  Result.fault_keeps <| State.when_keeps_frozen (by split <;> simp)


/-! ### Functions of Machine/Mport -/

@[simp ↓] theorem State.dropCopy_frozen (s : State) (hbm : Bool) :
    (s.dropCopy hbm).frozen = s.frozen := by simp [State.dropCopy]

@[simp ↓] theorem State.tileDamaged_frozen (s : State) (port tile content : Nat) (h : s.frozen.whole = true) :
    (s.tileDamaged port tile content).frozen = s.frozen := by simp [State.tileDamaged, h]

@[simp ↓] theorem State.poisonTile_frozen (s : State) (port tile : Nat) (h : s.frozen.whole = true) :
    (s.poisonTile port tile).frozen = s.frozen := by simp [State.poisonTile, h]

@[simp ↓] theorem State.markUncorr_frozen (s : State) (port : Nat) :
    (s.markUncorr port).frozen = s.frozen := by simp [State.markUncorr]

@[simp ↓] theorem State.badTile_frozen (s : State) (port tile : Nat) (scrub ecc : Bool) (content : Nat)
    (h : s.frozen.whole = true) :
    (s.badTile port tile scrub ecc content).frozen = s.frozen := by simp [State.badTile, h]

@[simp ↓] theorem State.eccCorrected_frozen (s : State) (port : Nat) :
    (s.eccCorrected port).frozen = s.frozen := by simp [State.eccCorrected]

@[simp ↓] theorem State.portSram_frozen (s : State) (port : Nat) (h : s.frozen.whole = true) :
    (s.portSram port).frozen = s.frozen := by simp [State.portSram, h]

@[simp ↓] theorem State.verifyTile_frozen (s : State) (port tile : Nat) (scrub : Bool) (f : TileFault)
    (h : s.frozen.whole = true) : (s.verifyTile port tile scrub f).1.frozen = s.frozen := by
  dsimp only [State.verifyTile]
  repeat' split
  all_goals simp [h]

@[simp ↓] theorem State.verifyTiles_frozen (s : State) (port : Nat) (fs : List TileCheck) (tiles : List Nat)
    (h : s.frozen.whole = true) : (s.verifyTiles port fs tiles).1.frozen = s.frozen := by
  induction tiles generalizing s with
  | nil => rfl
  | cons t ts ih =>
    rw [State.verifyTiles, ih _ (by simp [h]), State.verifyTile_frozen _ _ _ _ _ h]

@[simp ↓] theorem State.putTiles_frozen (s : State) (port addr : Nat) (d : List Byte) (fs : List TileCheck)
    (h : s.frozen.whole = true) : (s.putTiles port addr d fs).frozen = s.frozen := by simp [State.putTiles, h]

theorem execCvuArm_keeps (t : Nat) (a : RegAcc) (s : State) : (execCvuArm t a s).Keeps s :=
  State.access_keeps (by simp)

@[simp ↓] theorem State.accrue_frozen (s : State) (port : Nat) :
    (s.accrue port).frozen = s.frozen := by simp [State.accrue]

@[simp ↓] theorem State.openRead_frozen (s : State) (port tile : Nat) :
    (s.openRead port tile).1.frozen = s.frozen := by
  dsimp only [State.openRead]
  repeat' split
  all_goals simp

@[simp ↓] theorem State.openReads_frozen (s : State) (port addr len : Nat) :
    (s.openReads port addr len).1.frozen = s.frozen :=
  State.frozen_foldl_via Prod.fst (fun acc t => by simp) _ _

theorem execMportRequest_keeps (t port id : Nat) (write : Bool) (addr len : Nat) (data : List Byte) (s : State) :
    (execMportRequest t port id write addr len data s).Keeps s :=
  Result.fault_keeps <| State.when_keeps_frozen (by simp)

@[simp ↓] theorem State.charge_frozen (s : State) (port : Nat) (r : MReq) : (s.charge port r).frozen = s.frozen := by
  dsimp only [State.charge]
  simp

@[simp ↓] theorem State.keepFor_frozen (s : State) (r : MReq) (at_ : Nat) (old : List Byte) (port : Nat) :
    (s.keepFor r at_ old port).2.frozen = s.frozen := by
  dsimp only [State.keepFor]
  repeat' split
  all_goals simp

theorem State.foldr_keepFor_frozen (s : State) (ws : List (MReq × Nat)) (r : MReq) (port : Nat) :
    (ws.foldr (fun w (acc : MReq × State) => acc.2.keepFor acc.1 w.1.addr (w.1.data.getD []) port) (r, s)).2.frozen =
      s.frozen := by
  induction ws with
  | nil => rfl
  | cons w ws ih => rw [List.foldr_cons, State.keepFor_frozen, ih]

@[simp ↓] theorem State.admitWrite_frozen (s : State) (port : Nat) (r : MReq) (d : List Byte)
    (h : s.frozen.whole = true) : (s.admitWrite port r d).frozen = s.frozen := by
  dsimp only [State.admitWrite]
  rw [State.onMport_frozen]
  refine (State.frozen_foldl_via Prod.snd (fun acc x => ?_) _ _).trans ?_
  · simp
  · simp [h]

@[simp ↓] theorem State.admitRead_frozen (s : State) (port : Nat) (r : MReq) :
    (s.admitRead port r).frozen = s.frozen := by
  dsimp only [State.admitRead]
  rw [State.onMport_frozen, State.foldr_keepFor_frozen]

theorem execMportAdmit_keeps (t port : Nat) (faults : List TileCheck) (s : State) (h : s.frozen.whole = true) :
    (execMportAdmit t port faults s).Keeps s :=
  Result.fault_keeps <| State.when_keeps_frozen (by dsimp only; repeat' split; all_goals simp [h])

theorem execMportReadDelivery_keeps (t port : Nat) (faults : List TileCheck) (s : State)
    (h : s.frozen.whole = true) : (execMportReadDelivery t port faults s).Keeps s :=
  Result.fault_keeps <| State.when_keeps_frozen (by split <;> simp [h])

theorem execMportWriteAck_keeps (t port : Nat) (s : State) : (execMportWriteAck t port s).Keeps s :=
  Result.fault_keeps <| State.when_keeps_frozen (by simp)

theorem execMergeEntryClose_keeps (t port : Nat) (s : State) : (execMergeEntryClose t port s).Keeps s :=
  Result.fault_keeps <| State.when_keeps_frozen (by simp)

theorem execScrubRead_keeps (t port : Nat) (f : TileFault) (s : State) (h : s.frozen.whole = true) :
    (execScrubRead t port f s).Keeps s :=
  Result.fault_keeps <| State.when_keeps_frozen (by simp [h])

theorem execAtomicAdd_keeps (t port addr : Nat) (value : W64) (faults : List TileCheck) (s : State)
    (h : s.frozen.whole = true) : (execAtomicAdd t port addr value faults s).Keeps s :=
  Result.fault_keeps <| State.when_keeps_frozen (by simp [h])

theorem execFreeSlotRequest_keeps (t port : Nat) (write : Bool) (addr len : Nat) (data : List Byte)
    (faults : List TileCheck) (s : State) (h : s.frozen.whole = true) :
    (execFreeSlotRequest t port write addr len data faults s).Keeps s :=
  Result.fault_keeps <| State.when_keeps_frozen (by simp [h])


/-! ### Functions of Machine/Row -/

@[simp ↓] theorem State.onJob_frozen (s : State) (seq : Nat) (f : RowJob → RowJob) :
    (s.onJob seq f).frozen = s.frozen := by rfl

@[simp ↓] theorem State.endJob_frozen (s : State) (o : Order) (code payload : Nat) (rejected : Bool) :
    (s.endJob o code payload rejected).frozen = s.frozen := by simp [State.endJob]

@[simp ↓] theorem State.rowFetch_frozen (s : State) (seq : Nat) (reads : List (Nat × Nat × Nat)) :
    (s.rowFetch seq reads).1.frozen = s.frozen := by
  induction reads generalizing s with
  | nil => rfl
  | cons x rest ih =>
    obtain ⟨slot, addr, len⟩ := x
    unfold State.rowFetch
    split
    · exact (ih _).trans (State.fetch_frozen ‹_›)
    · rfl
    · exact ih _

@[simp ↓] theorem State.rowDone_frozen (s : State) (o : Order) (j : RowJob) (data : List (List Byte)) :
    (s.rowDone o j data).frozen = s.frozen := by simp [State.rowDone]

@[simp ↓] theorem State.rowsEnd_frozen (s : State) (o : Order) (j : RowJob) :
    (s.rowsEnd o j).frozen = s.frozen := by simp [State.rowsEnd]

@[simp ↓] theorem State.rowGo_frozen (s : State) (seq fuel : Nat) : (s.rowGo seq fuel).frozen = s.frozen := by
  induction fuel generalizing s with
  | zero => rfl
  | succ n ih =>
    unfold State.rowGo
    split
    · next j o _ _ =>
      split
      · simp
      · have hr := State.rowFetch_frozen s seq (rowReads o.body j.row)
        split <;> next heq =>
          rw [heq] at hr
          simp [ih, ← hr]
    · rfl

@[simp ↓] theorem State.rowStart_frozen (s : State) (o : Order) : (s.rowStart o).frozen = s.frozen := by
  simp [State.rowStart]
  split <;> simp

theorem execRowSample_keeps (t seq : Nat) (s : State) : (execRowSample t seq s).Keeps s :=
  State.when_keeps_frozen (by split <;> simp)

theorem execHostReadCompletion_keeps (t seq slot : Nat) (data : List Byte) (err : Nat) (s : State)
    (h : s.frozen.whole = true) : (execHostReadCompletion t seq slot data err s).Keeps s :=
  State.when_keeps_frozen (by simp [h])


/-! ### Functions of Machine/Modes -/

@[simp ↓] theorem State.writeMode_frozen (s : State) (lb : Bool) (a : RegAcc) :
    (s.writeMode lb a).frozen = s.frozen := by
  unfold State.writeMode
  split <;> simp

theorem execModeCtlWrite_keeps (t : Nat) (lb : Bool) (a : RegAcc) (s : State) : (execModeCtlWrite t lb a s).Keeps s :=
  State.access_keeps (by simp)

@[simp ↓] theorem State.snapDigest_frozen (s : State) (p : Port) :
    (s.snapDigest p).frozen = s.frozen := by simp [State.snapDigest]

@[simp ↓] theorem State.answer_frozen (s : State) (p : Port) (v : W64) :
    (s.answer p v).frozen = s.frozen := by simp [State.answer]

theorem execDigestStepRead_keeps (t : Nat) (p : Port) (s : State) : (execDigestStepRead t p s).Keeps s :=
  State.when_keeps_frozen (by simp)

@[simp ↓] theorem State.writeOcuCtl_frozen (s : State) (a : RegAcc) :
    (s.writeOcuCtl a).frozen = s.frozen := by simp [State.writeOcuCtl]

@[simp ↓] theorem State.ocuRefuse_frozen (s : State) : (s.ocuRefuse).frozen = s.frozen := by simp [State.ocuRefuse]

theorem execOculusArm_keeps (t : Nat) (a : RegAcc) (s : State) : (execOculusArm t a s).Keeps s :=
  State.access_keeps (by simp)


/-! ### Functions of Machine/Mgmt -/

@[simp ↓] theorem State.onMgmt_frozen (s : State) (f : MgmtSt → MgmtSt) : (s.onMgmt f).frozen = s.frozen := by rfl

theorem execI3cDynamicAddress_keeps (t : Nat) (legacy : Bool) (addr : Nat) (s : State) :
    (execI3cDynamicAddress t legacy addr s).Keeps s :=
  State.when_keeps_frozen (by simp)

theorem execSetEndpointId_keeps (t eid : Nat) (s : State) : (execSetEndpointId t eid s).Keeps s :=
  State.when_keeps_frozen (by simp)

theorem execGetEndpointId_keeps (t : Nat) (s : State) : (execGetEndpointId t s).Keeps s :=
  State.when_keeps_frozen (by simp)

@[simp ↓] theorem State.openReply_frozen (s : State) (n : Nat) :
    (s.openReply n).frozen = s.frozen := by simp [State.openReply]

theorem execGetMctpVersionSupport_keeps (t : Nat) (s : State) : (execGetMctpVersionSupport t s).Keeps s :=
  State.when_keeps_frozen (by simp)

theorem execGetMessageTypeSupport_keeps (t : Nat) (s : State) : (execGetMessageTypeSupport t s).Keeps s :=
  State.when_keeps_frozen (by simp)

theorem execGetVendorMessageSupport_keeps (t : Nat) (s : State) : (execGetVendorMessageSupport t s).Keeps s :=
  State.when_keeps_frozen (by simp)

theorem execHeartbeat_keeps (t : Nat) (s : State) : (execHeartbeat t s).Keeps s :=
  State.keazia_keeps (by simp)

theorem execMgmtWdogExpired_keeps (t : Nat) (s : State) : (execMgmtWdogExpired t s).Keeps s :=
  State.when_keeps_frozen (by simp)

@[simp ↓] theorem State.mgmtWdog_frozen (s : State) (a : RegAcc) :
    (s.mgmtWdog a).frozen = s.frozen := by simp [State.mgmtWdog]

theorem execMgmtWdogWrite_keeps (t : Nat) (acc : RegAcc) (s : State) : (execMgmtWdogWrite t acc s).Keeps s :=
  State.access_keeps (by simp)

theorem execMgmtStatRead_keeps (t : Nat) (s : State) : (execMgmtStatRead t s).Keeps s :=
  State.keazia_keeps (by simp)


/-! ### Functions of Machine/Belfry -/

@[simp ↓] theorem State.sayLost_frozen (s : State) : (s.sayLost).frozen = s.frozen := by simp [State.sayLost]

@[simp ↓] theorem State.failCopy_frozen (s : State) (c : Nat) :
    (s.failCopy c).frozen = s.frozen := by simp [State.failCopy]

theorem execBelfryEvent_keeps (t code payload : Nat) (src : Source) (fail0 fail1 : Bool) (s : State) :
    (execBelfryEvent t code payload src fail0 fail1 s).Keeps s :=
  State.when_keeps_frozen (by simp)

theorem execBelfryRefill_keeps (t : Nat) (s : State) : (execBelfryRefill t s).Keeps s :=
  State.when_keeps_frozen (by simp)

@[simp ↓] theorem State.clearLast_frozen (s : State) (keyId : Nat) : (s.clearLast keyId).frozen = s.frozen := by
  dsimp only [State.clearLast]
  simp

@[simp ↓] theorem State.unfreeze_frozen (s : State) : (s.unfreeze).frozen = s.frozen := by
  dsimp only [State.unfreeze]
  split <;> simp

@[simp ↓] theorem State.belfryCtl_frozen (s : State) (a : RegAcc) :
    (s.belfryCtl a).frozen = s.frozen := by simp [State.belfryCtl]

theorem execBelfryFreezeSet_keeps (t : Nat) (acc : RegAcc) (s : State) : (execBelfryFreezeSet t acc s).Keeps s :=
  State.access_keeps (by simp)

theorem execBelfryFreezeClear_keeps (t : Nat) (acc : RegAcc) (s : State) : (execBelfryFreezeClear t acc s).Keeps s :=
  State.access_keeps (by simp)

theorem execFreezeExpired_keeps (t : Nat) (s : State) : (execFreezeExpired t s).Keeps s :=
  State.when_keeps_frozen (by simp)

@[simp ↓] theorem State.acceptClear_frozen (s : State) (keyId : Nat) :
    (s.acceptClear keyId).frozen = s.frozen := by simp [State.acceptClear]

theorem execBelfryCleared_keeps (t : Nat) (s : State) : (execBelfryCleared t s).Keeps s :=
  State.when_keeps_frozen (by simp)

@[simp ↓] theorem State.rewriteCopy_frozen (s : State) (area copy i : Nat) (r : List Byte) :
    (s.rewriteCopy area copy i r).frozen = s.frozen := by simp [State.rewriteCopy]

@[simp ↓] theorem State.belfryIndex_frozen (s : State) (a : RegAcc) : (s.belfryIndex a).frozen = s.frozen := by
  dsimp only [State.belfryIndex]
  split <;> simp

theorem execBelfryIndexWrite_keeps (t : Nat) (acc : RegAcc) (s : State) : (execBelfryIndexWrite t acc s).Keeps s :=
  State.access_keeps (by simp)


/-! ### Functions of Machine/Recovery -/

@[simp ↓] theorem State.mergeRecords_frozen (s : State) :
    (s.mergeRecords).frozen = s.frozen := by simp [State.mergeRecords]

@[simp ↓] theorem State.adopt_frozen (s : State) (seq : Nat) : (s.adopt seq).frozen = s.frozen := by
  dsimp only [State.adopt]
  repeat' split
  all_goals simp

@[simp ↓] theorem State.adoptAll_frozen (s : State) : (s.adoptAll).frozen = s.frozen := by simp [State.adoptAll]

@[simp ↓] theorem State.findContext_frozen (s : State) : (s.findContext).frozen = s.frozen := by
  dsimp only [State.findContext]
  split <;> simp

@[simp ↓] theorem State.sayPaused_frozen (s : State) : (s.sayPaused).frozen = s.frozen := by simp [State.sayPaused]

@[simp ↓] theorem State.restorePlan_frozen (s : State) (seq : Nat) (h : s.frozen.whole = true) :
    (s.restorePlan seq).frozen = s.frozen := by
  dsimp only [State.restorePlan]
  repeat' split
  all_goals simp [h]

@[simp ↓] theorem State.reinstate_frozen (s : State) (x : Reg × List Nat) : (s.reinstate x).frozen = s.frozen := by
  unfold State.reinstate
  split <;> simp

@[simp ↓] theorem State.reinstateAll_frozen (s : State) :
    (s.reinstateAll).frozen = s.frozen := by simp [State.reinstateAll]

@[simp ↓] theorem State.resumeRun_frozen (s : State) : (s.resumeRun).frozen = s.frozen := by
  unfold State.resumeRun
  split <;> simp

@[simp ↓] theorem State.showLast_frozen (s : State) (es : List (Bool × Nat × Nat)) :
    (s.showLast es).frozen = s.frozen := by
  dsimp only [State.showLast]
  repeat' split
  all_goals simp

@[simp ↓] theorem State.voidProbes_frozen (s : State) : (s.voidProbes).frozen = s.frozen := by simp [State.voidProbes]

@[simp ↓] theorem State.seedAlone_frozen (s : State) : (s.seedAlone).frozen = s.frozen := by
  unfold State.seedAlone
  split <;> simp

@[simp ↓] theorem State.restoreAll_frozen (s : State) (h : s.frozen.whole = true) :
    (s.restoreAll).frozen = s.frozen := by
  dsimp only [State.restoreAll]
  split <;> simp [h]

@[simp ↓] theorem State.recoverFull_frozen (s : State) (h : s.frozen.whole = true) :
    (s.recoverFull).frozen = s.frozen := by simp [State.recoverFull, h]

@[simp ↓] theorem State.keepOrders_frozen (s : State) : (s.keepOrders).frozen = s.frozen := by simp [State.keepOrders]

@[simp ↓] theorem State.recoverStep_frozen (s : State) (h : s.frozen.whole = true) :
    (s.recoverStep).frozen = s.frozen := by
  simp [State.recoverStep, h]
  split <;> simp [h]

@[simp ↓] theorem State.recover_frozen (s : State) (h : s.frozen.whole = true) : (s.recover).frozen = s.frozen := by
  simp [State.recover, h]
  split <;> simp [h]

theorem execRecovery_keeps (t : Nat) (s : State) (h : s.frozen.whole = true) : (execRecovery t s).Keeps s :=
  State.when_keeps_frozen (by simp [h])

theorem execReplay_keeps (t port : Nat) (bytes : List Byte) (s : State) (h : s.frozen.whole = true) :
    (execReplay t port bytes s).Keeps s :=
  Result.fault_keeps <| State.when_keeps_frozen (by simp [h])

@[simp ↓] theorem State.intakeCtl_frozen (s : State) (a : RegAcc) (h : s.frozen.whole = true) :
    (s.intakeCtl a).frozen = s.frozen := by simp [State.intakeCtl, h]

theorem execIntakeEnable_keeps (t : Nat) (acc : RegAcc) (s : State) (h : s.frozen.whole = true) :
    (execIntakeEnable t acc s).Keeps s :=
  State.access_keeps (by simp [h])

theorem execIntakeResume_keeps (t : Nat) (acc : RegAcc) (s : State) (h : s.frozen.whole = true) :
    (execIntakeResume t acc s).Keeps s :=
  State.access_keeps (by simp [h])

theorem execForceOpen_keeps (t : Nat) (acc : RegAcc) (s : State) (h : s.frozen.whole = true) :
    (execForceOpen t acc s).Keeps s :=
  State.access_keeps (by simp [h])


/-! ### Functions of Machine/Reset -/

@[simp ↓] theorem State.resetRegs_frozen (s : State) (keep : Reg → Bool) (fields : List Field) :
    (s.resetRegs keep fields).frozen = s.frozen := by simp [State.resetRegs]

@[simp ↓] theorem State.setStage_frozen (s : State) (n : Nat) :
    (s.setStage n).frozen = s.frozen := by simp [State.setStage]

@[simp ↓] theorem State.startBoot_frozen (s : State) (stage : Nat) (k : ResetKind) :
    (s.startBoot stage k).frozen = s.frozen := by simp [State.startBoot]

@[simp ↓] theorem State.noteReset_frozen (s : State) (k : ResetKind) (cause : Nat) :
    (s.noteReset k cause).frozen = s.frozen := by
  unfold State.noteReset
  split <;> simp

@[simp ↓] theorem State.resetAny_frozen (s : State) (reason : Nat) :
    (s.resetAny reason).frozen = s.frozen := by simp [State.resetAny]

@[simp ↓] theorem State.abandonStep_frozen (s : State) :
    (s.abandonStep).frozen = s.frozen := by simp [State.abandonStep]

@[simp ↓] theorem State.resetFunction_frozen (s : State) (h : s.frozen.whole = true) :
    (s.resetFunction).frozen = s.frozen := by
  obtain ⟨hmem, hsites, hports, hsrcs, _⟩ := (State.whole_iff s).mp h
  exact State.frozen_rebuild h ((State.whole_iff _).mpr ⟨hmem, hsites, hports, hsrcs, rfl⟩) rfl rfl rfl rfl rfl rfl

@[simp ↓] theorem State.dropHostLink_frozen (s : State) :
    (s.dropHostLink).frozen = s.frozen := by simp [State.dropHostLink]

@[simp ↓] theorem State.lightReset_frozen (s : State) (k : ResetKind) (cause : Nat) (h : s.frozen.whole = true) :
    (s.lightReset k cause).frozen = s.frozen := by simp [State.lightReset, h]

@[simp ↓] theorem State.notePosted_frozen (s : State) : (s.notePosted).frozen = s.frozen := by simp [State.notePosted]

theorem State.frozen_loseMemory (s : State) (p : Host.Cell → Bool) (ms : List MPort) (j : JrnlSt) (w : PwrSt)
    (h : s.frozen.whole = true) (hm : ms.length = s.mports.length) :
    State.frozen { s with jrnl := j, mem := s.mem.filter p, mports := ms, pwr := w } = s.frozen := by
  obtain ⟨hmem, hsites, hports, hsrcs, htable⟩ := (State.whole_iff s).mp h
  exact State.frozen_rebuild h
    ((State.whole_iff _).mpr ⟨filter_wf hmem _, hsites, hm.trans hports, hsrcs, htable⟩) rfl rfl rfl rfl rfl rfl

@[simp ↓] theorem State.loseCompute_frozen (s : State) (h : s.frozen.whole = true) :
    (s.loseCompute).frozen = s.frozen := by
  obtain ⟨hmem, hsites, hports, hsrcs, _⟩ := (State.whole_iff s).mp h
  exact State.frozen_rebuild h
    ((State.whole_iff _).mpr ⟨hmem, by simpa [State.loseCompute], by simpa [State.loseCompute], hsrcs, rfl⟩)
    rfl rfl rfl rfl rfl rfl

@[simp ↓] theorem State.loadFseq_frozen (s : State) : (s.loadFseq).frozen = s.frozen := by simp [State.loadFseq]

@[simp ↓] theorem State.warmReset_frozen (s : State) (cause : Nat) (h : s.frozen.whole = true) :
    (s.warmReset cause).frozen = s.frozen := by
  simp only [State.warmReset]
  simp
  rw [State.loseCompute_frozen] <;> rw [State.frozen_loseMemory] <;> simp [h]

@[simp ↓] theorem State.coldPower_frozen (s : State) : (s.coldPower).frozen = s.frozen := by simp [State.coldPower]

@[simp ↓] theorem State.loseAll_frozen (s : State) (h : s.frozen.whole = true) : (s.loseAll).frozen = s.frozen := by
  have hl := State.loseCompute_frozen s.notePosted (by simp [h])
  rw [State.notePosted_frozen] at hl
  obtain ⟨_, hsites, _⟩ := (State.whole_iff s.notePosted.loseCompute).mp (by rw [← h, ← hl]; rfl)
  rw [← hl]
  exact State.frozen_rebuild (hl ▸ h)
    ((State.whole_iff _).mpr ⟨rfl, by simpa [State.loseAll] using hsites, rfl, rfl, rfl⟩) rfl rfl rfl rfl rfl rfl

@[simp ↓] theorem State.holdRom_frozen (s : State) : (s.holdRom).frozen = s.frozen := by simp [State.holdRom]

@[simp ↓] theorem State.coldKeepM_frozen (s : State) (cause : Nat) (h : s.frozen.whole = true) :
    (s.coldKeepM cause).frozen = s.frozen := by
  dsimp only [State.coldKeepM]
  repeat' split
  all_goals simp [h]

@[simp ↓] theorem State.coldReset_frozen (s : State) (cause : Nat) (h : s.frozen.whole = true) :
    (s.coldReset cause).frozen = s.frozen := by simp [State.coldReset, h]

@[simp ↓] theorem State.resetBy_frozen (s : State) (k : ResetKind) (cause : Nat) (h : s.frozen.whole = true) :
    (s.resetBy k cause).frozen = s.frozen := by
  simp [State.resetBy, h]
  split <;> simp [h]

@[simp ↓] theorem State.endSession_frozen (s : State) (reason : Nat) (h : s.frozen.whole = true) :
    (s.endSession reason).frozen = s.frozen := by simp [State.endSession, h]

@[simp ↓] theorem State.clearSecrets_frozen (s : State) (h : s.frozen.whole = true) :
    (s.clearSecrets).frozen = s.frozen := by
  obtain ⟨_, hsites, hports, hsrcs, htable⟩ := (State.whole_iff s).mp h
  simp only [State.clearSecrets]
  simp
  exact State.frozen_rebuild h
    ((State.whole_iff _).mpr ⟨rfl, hsites, by simpa, hsrcs, htable⟩) rfl rfl rfl rfl rfl rfl

theorem execFlr_keeps (t : Nat) (s : State) (h : s.frozen.whole = true) : (execFlr t s).Keeps s :=
  State.when_keeps_frozen (by simp [h])

theorem execHotReset_keeps (t : Nat) (lost : Bool) (s : State) (h : s.frozen.whole = true) :
    (execHotReset t lost s).Keeps s :=
  State.when_keeps_frozen (by simp [h])

theorem execWarmRstN_keeps (t : Nat) (s : State) (h : s.frozen.whole = true) : (execWarmRstN t s).Keeps s :=
  State.when_keeps_frozen (by simp [h])

@[simp ↓] theorem State.devReset_frozen (s : State) (a : RegAcc) (h : s.frozen.whole = true) :
    (s.devReset a).frozen = s.frozen := by simp [State.devReset, h]

theorem execDevResetWarm_keeps (t : Nat) (acc : RegAcc) (s : State) (h : s.frozen.whole = true) :
    (execDevResetWarm t acc s).Keeps s :=
  State.access_keeps (by simp [h])

theorem execDevResetCold_keeps (t : Nat) (acc : RegAcc) (s : State) (h : s.frozen.whole = true) :
    (execDevResetCold t acc s).Keeps s :=
  State.access_keeps (by simp [h])

theorem execAuxPowerLoss_keeps (t : Nat) (s : State) (h : s.frozen.whole = true) : (execAuxPowerLoss t s).Keeps s :=
  State.when_keeps_frozen (by simp [h])

theorem execAuxPowerRise_keeps (t : Nat) (s : State) (h : s.frozen.whole = true) : (execAuxPowerRise t s).Keeps s :=
  State.when_keeps_frozen (by simp [h])


/-! ### Functions of Machine/Boot -/

@[simp ↓] theorem State.startDmc_frozen (s : State) : (s.startDmc).frozen = s.frozen := by simp [State.startDmc]

@[simp ↓] theorem State.stopBoot_frozen (s : State) (detail : Nat) :
    (s.stopBoot detail).frozen = s.frozen := by simp [State.stopBoot]

@[simp ↓] theorem State.romVerify_frozen (s : State) : (s.romVerify).frozen = s.frozen := by
  unfold State.romVerify
  split <;> simp

theorem execBootRomVerify_keeps (t : Nat) (s : State) : (execBootRomVerify t s).Keeps s :=
  State.when_keeps_frozen (by simp)

theorem execMainRailsSequenced_keeps (t : Nat) (bad : Option Nat) (s : State) :
    (execMainRailsSequenced t bad s).Keeps s :=
  State.when_keeps_frozen (by split <;> simp)

theorem execPllLock_keeps (t : Nat) (one dead : List Nat) (s : State) : (execPllLock t one dead s).Keeps s :=
  State.when_keeps_frozen (by split <;> simp)

theorem execSpareMapApplied_keeps (t : Nat) (readable : MapCopies) (s : State) :
    (execSpareMapApplied t readable s).Keeps s :=
  State.when_keeps_frozen (by simp)

@[simp ↓] theorem State.orFailed_frozen (x : State × Option (Nat × Nat)) :
    (State.orFailed x).frozen = x.1.frozen := by
  unfold State.orFailed
  split <;> simp

theorem execStartUpSelfTest_keeps (t : Nat) (failed routers : List Nat) (banks : List (Nat × Nat))
    (slices : List (Nat × Bool × Nat)) (s : State) : (execStartUpSelfTest t failed routers banks slices s).Keeps s :=
  State.when_keeps_frozen (by dsimp only; simp)

@[simp ↓] theorem State.allMemory_frozen (s : State) : (s.allMemory).frozen = s.frozen := by simp [State.allMemory]

theorem execMemoryTraining_keeps (t : Nat) (failed : List Nat) (s : State) (h : s.frozen.whole = true) :
    (execMemoryTraining t failed s).Keeps s :=
  State.when_keeps_frozen <| by
    rw [State.setStage_frozen]
    refine (State.frozen_foldl_whole (fun s p hs => ?_) _ _ ?_).trans ?_
    · split
      · simp [hs]
      · split <;> simp [hs]
    · simp [h]
    · simp

theorem execOpticalBringUp_keeps (t : Nat) (failed : List (Nat × Nat)) (s : State) :
    (execOpticalBringUp t failed s).Keeps s :=
  State.when_keeps_frozen (by simp)

theorem execP4Exit_keeps (t : Nat) (s : State) : (execP4Exit t s).Keeps s :=
  State.when_keeps_frozen (by simp)


/-! ### Functions of Machine/Power -/

@[simp ↓] theorem State.showStretch_frozen (s : State) :
    (s.showStretch).frozen = s.frozen := by simp [State.showStretch]

@[simp ↓] theorem State.onPwr_frozen (s : State) (f : PwrSt → PwrSt) : (s.onPwr f).frozen = s.frozen := by rfl

@[simp ↓] theorem State.requestRun_frozen (s : State) : (s.requestRun).frozen = s.frozen := by
  dsimp only [State.requestRun]
  split <;> simp

@[simp ↓] theorem State.requestPower_frozen (s : State) (req : Nat) (h : s.frozen.whole = true) :
    (s.requestPower req).frozen = s.frozen := by
  unfold State.requestPower
  split <;> simp [h]

@[simp ↓] theorem State.pwrState_frozen (s : State) (a : RegAcc) (h : s.frozen.whole = true) :
    (s.pwrState a).frozen = s.frozen := by
  unfold State.pwrState
  split <;> simp [h]

theorem execPwrReqP0_keeps (t : Nat) (acc : RegAcc) (s : State) (h : s.frozen.whole = true) :
    (execPwrReqP0 t acc s).Keeps s :=
  State.access_keeps (by simp [h])

theorem execPwrReqP2_keeps (t : Nat) (acc : RegAcc) (s : State) (h : s.frozen.whole = true) :
    (execPwrReqP2 t acc s).Keeps s :=
  State.access_keeps (by simp [h])

theorem execPwrReqP3_keeps (t : Nat) (acc : RegAcc) (s : State) (h : s.frozen.whole = true) :
    (execPwrReqP3 t acc s).Keeps s :=
  State.access_keeps (by simp [h])

theorem execPwrReqP4_keeps (t : Nat) (acc : RegAcc) (s : State) (h : s.frozen.whole = true) :
    (execPwrReqP4 t acc s).Keeps s :=
  State.access_keeps (by simp [h])

theorem execPowerStateReturn_keeps (t : Nat) (s : State) : (execPowerStateReturn t s).Keeps s :=
  State.when_keeps_frozen (by simp)

@[simp ↓] theorem State.pwrCap_frozen (s : State) (a : RegAcc) : (s.pwrCap a).frozen = s.frozen := by
  unfold State.pwrCap
  split <;> simp

theorem execPwrCapWrite_keeps (t : Nat) (acc : RegAcc) (s : State) : (execPwrCapWrite t acc s).Keeps s :=
  State.access_keeps (by simp)

@[simp ↓] theorem State.setSensor_frozen (s : State) (i : Nat) (v : Int) :
    (s.setSensor i v).frozen = s.frozen := by simp [State.setSensor]

theorem execPowerMeasurement_keeps (t watts : Nat) (s : State) : (execPowerMeasurement t watts s).Keeps s :=
  State.when_keeps_frozen (by simp)

theorem execPowerManagerAdjust_keeps (t : Nat) (delta : Int) (s : State) :
    (execPowerManagerAdjust t delta s).Keeps s :=
  State.when_keeps_frozen (by simp)

@[simp ↓] theorem State.showHot_frozen (s : State) (deg : Int) :
    (s.showHot deg).frozen = s.frozen := by simp [State.showHot]

theorem execThermalThrottle_keeps (t : Nat) (deg : Int) (stretch : Nat) (s : State) :
    (execThermalThrottle t deg stretch s).Keeps s :=
  State.when_keeps_frozen (by dsimp only; repeat' split; all_goals simp)

theorem execThermalTrip_keeps (t : Nat) (deg : Int) (s : State) (h : s.frozen.whole = true) :
    (execThermalTrip t deg s).Keeps s :=
  State.when_keeps_frozen (by simp [h])

theorem execCoolantHigh_keeps (t : Nat) (deg : Int) (s : State) : (execCoolantHigh t deg s).Keeps s :=
  State.when_keeps_frozen (by simp)

@[simp ↓] theorem State.stopRails_frozen (s : State) (h : s.frozen.whole = true) :
    (s.stopRails).frozen = s.frozen := by simp [State.stopRails, h]

theorem execMainInputRange_keeps (t millivolts : Nat) (s : State) (h : s.frozen.whole = true) :
    (execMainInputRange t millivolts s).Keeps s :=
  State.when_keeps_frozen (by simp [h])

theorem execMainEnChange_keeps (t : Nat) (high : Bool) (s : State) (h : s.frozen.whole = true) :
    (execMainEnChange t high s).Keeps s :=
  State.when_keeps_frozen (by simp [h])


/-! ### Functions of Machine/Debug -/

@[simp ↓] theorem State.sayRefused_frozen (s : State) (why : DebugRefusal) (action : Nat) (src : Source) :
    (s.sayRefused why action src).frozen = s.frozen := by simp [State.sayRefused]

@[simp ↓] theorem State.askHalt_frozen (s : State) : (s.askHalt).frozen = s.frozen := by simp [State.askHalt]

@[simp ↓] theorem State.askSweep_frozen (s : State) : (s.askSweep).frozen = s.frozen := by simp [State.askSweep]

@[simp ↓] theorem State.askResume_frozen (s : State) : (s.askResume).frozen = s.frozen := by simp [State.askResume]

@[simp ↓] theorem State.debugAct_frozen (s : State) (action : Nat) (h : s.frozen.whole = true) :
    (s.debugAct action).frozen = s.frozen := by
  unfold State.debugAct
  split <;> simp [h]

@[simp ↓] theorem State.dbgBit_frozen (s : State) (a : RegAcc) (f : Field) (action : Nat)
    (h : s.frozen.whole = true) : (s.dbgBit a f action).frozen = s.frozen := by
  simp [State.dbgBit]
  split <;> simp [h]

@[simp ↓] theorem State.dbgCtl_frozen (s : State) (a : RegAcc) (h : s.frozen.whole = true) :
    (s.dbgCtl a).frozen = s.frozen := by
  unfold State.dbgCtl
  have h1 := State.dbgBit_frozen s a Fld.DBG_CTL_HALT 4 h
  have h2 := State.dbgBit_frozen _ a Fld.DBG_CTL_SWEEP 5 (h1 ▸ h)
  have h3 := State.dbgBit_frozen _ a Fld.DBG_CTL_RESUME 6 (h2 ▸ h1 ▸ h)
  rw [State.dbgBit_frozen _ _ _ _ (h3 ▸ h2 ▸ h1 ▸ h), h3, h2, h1]

theorem execDbgCtlHalt_keeps (t : Nat) (acc : RegAcc) (s : State) (h : s.frozen.whole = true) :
    (execDbgCtlHalt t acc s).Keeps s :=
  State.access_keeps (by simp [h])

theorem execDbgCtlSweep_keeps (t : Nat) (acc : RegAcc) (s : State) (h : s.frozen.whole = true) :
    (execDbgCtlSweep t acc s).Keeps s :=
  State.access_keeps (by simp [h])

theorem execDbgCtlResume_keeps (t : Nat) (acc : RegAcc) (s : State) (h : s.frozen.whole = true) :
    (execDbgCtlResume t acc s).Keeps s :=
  State.access_keeps (by simp [h])

theorem execDbgCtlEnd_keeps (t : Nat) (acc : RegAcc) (s : State) (h : s.frozen.whole = true) :
    (execDbgCtlEnd t acc s).Keeps s :=
  State.access_keeps (by simp [h])

@[simp ↓] theorem State.debugCtl_frozen (s : State) (action : Nat) (h : s.frozen.whole = true) :
    (s.debugCtl action).frozen = s.frozen := by
  unfold State.debugCtl
  split <;> simp [h]

theorem execDebugCtlEnd_keeps (t : Nat) (s : State) (h : s.frozen.whole = true) : (execDebugCtlEnd t s).Keeps s :=
  State.keazia_keeps (by simp [h])

theorem execDebugCtlHalt_keeps (t : Nat) (s : State) (h : s.frozen.whole = true) : (execDebugCtlHalt t s).Keeps s :=
  State.keazia_keeps (by simp [h])

theorem execDebugCtlSweep_keeps (t : Nat) (s : State) (h : s.frozen.whole = true) : (execDebugCtlSweep t s).Keeps s :=
  State.keazia_keeps (by simp [h])

theorem execDebugCtlResume_keeps (t : Nat) (s : State) (h : s.frozen.whole = true) :
    (execDebugCtlResume t s).Keeps s :=
  State.keazia_keeps (by simp [h])

@[simp ↓] theorem State.probeRefused_frozen (s : State) (o : Order) (w : DebugRefusal) :
    (s.probeRefused o w).frozen = s.frozen := by
  unfold State.probeRefused
  split <;> simp

@[simp ↓] theorem State.probeAct_frozen (s : State) (o : Order) (h : s.frozen.whole = true) :
    (s.probeAct o).frozen = s.frozen := by
  unfold State.probeAct
  split <;> simp [h]

theorem execProbeEnd_keeps (t seq : Nat) (s : State) (h : s.frozen.whole = true) : (execProbeEnd t seq s).Keeps s :=
  State.probeRow_keeps fun o => by simp [h]

theorem execProbeHalt_keeps (t seq : Nat) (s : State) (h : s.frozen.whole = true) : (execProbeHalt t seq s).Keeps s :=
  State.probeRow_keeps fun o => by simp [h]

theorem execProbeSweep_keeps (t seq : Nat) (s : State) (h : s.frozen.whole = true) :
    (execProbeSweep t seq s).Keeps s :=
  State.probeRow_keeps fun o => by simp [h]

theorem execProbeResume_keeps (t seq : Nat) (s : State) (h : s.frozen.whole = true) :
    (execProbeResume t seq s).Keeps s :=
  State.probeRow_keeps fun o => by simp [h]

@[simp ↓] theorem State.taintedWrite_frozen (s : State) (b : List Byte) :
    (s.taintedWrite b).frozen = s.frozen := by simp [State.taintedWrite]

@[simp ↓] theorem State.doStateWrite_frozen (s : State) (o : Order) (b : List Byte) :
    (s.doStateWrite o b).frozen = s.frozen := by
  unfold State.doStateWrite
  split <;> simp

theorem execStateWrite_keeps (t seq : Nat) (s : State) : (execStateWrite t seq s).Keeps s :=
  State.probeRow_keeps fun o => State.withBulk_frozen _ _ _ fun v d _ => by simp


/-! ### Functions of Machine/Security -/

@[simp ↓] theorem State.onSec_frozen (s : State) (f : SecSt → SecSt) : (s.onSec f).frozen = s.frozen := by rfl

@[simp ↓] theorem State.setNonce_frozen (s : State) (p : Port) (n : Option (List Byte)) :
    (s.setNonce p n).frozen = s.frozen := by simp [State.setNonce]

@[simp ↓] theorem State.scrapNonce_frozen (s : State) :
    (s.scrapNonce).2.frozen = s.frozen := by simp [State.scrapNonce]

theorem State.challenge_frozen {s s' : State} {p : Port} {n : List Byte} (h : s.challenge p = .issued n s') :
    s'.frozen = s.frozen := by
  dsimp only [State.challenge] at h
  split at h
  · cases h
    simp
  · split at h
    · cases h
    · split at h
      · cases h
        simp [State.takeWords_frozen ‹_›]
      · cases h

theorem execChallenge_keeps (t : Nat) (s : State) : (execChallenge t s).Keeps s :=
  State.keazia_keeps <| by
    split
    · simp [State.challenge_frozen ‹_›]
    · simp
    · simp

theorem execProbeChallenge_keeps (t seq : Nat) (s : State) : (execProbeChallenge t seq s).Keeps s :=
  State.probeRow_keeps fun o => by
    split
    · simp
    · split
      · simp [State.challenge_frozen ‹_›]
      · rfl
      · simp

@[simp ↓] theorem State.openSession_frozen (s : State) (p : Port) (level id : Nat) (src : Source)
    (h : s.frozen.whole = true) : (s.openSession p level id src).frozen = s.frozen := by simp [State.openSession, h]

@[simp ↓] theorem State.changeLifecycle_frozen (s : State) (dst : Nat) (src : Source) (h : s.frozen.whole = true) :
    (s.changeLifecycle dst src).frozen = s.frozen := by simp [State.changeLifecycle, h]

@[simp ↓] theorem State.changeKey_frozen (s : State) (b : List Byte) (src : Source) :
    (s.changeKey b src).frozen = s.frozen := by simp [State.changeKey]

@[simp ↓] theorem State.actOn_frozen (s : State) (p : Port) (b : List Byte) (src : Source)
    (h : s.frozen.whole = true) : (s.actOn p b src).frozen = s.frozen := by
  unfold State.actOn
  split <;> simp [h]

@[simp ↓] theorem State.checkToken_frozen (s : State) (p : Port) (b : List Byte) (seq : Nat) (src : Source) :
    (s.checkToken p b seq src).1.frozen = s.frozen := by
  dsimp only [State.checkToken]
  split <;> simp

theorem execTokenSubmit_keeps (t : Nat) (s : State) (h : s.frozen.whole = true) : (execTokenSubmit t s).Keeps s :=
  State.keazia_keeps (by dsimp only; split <;> simp [h])

theorem execProbeToken_keeps (t seq : Nat) (s : State) (h : s.frozen.whole = true) :
    (execProbeToken t seq s).Keeps s :=
  State.probeRow_keeps fun o => State.withBulk_frozen _ _ _ fun v d hv => by
    dsimp only
    split <;> simp [hv, h]

theorem execTokenPut_keeps (t off : Nat) (data : List Byte) (s : State) : (execTokenPut t off data s).Keeps s :=
  State.keazia_keeps (by simp)

@[simp ↓] theorem State.startQuote_frozen (s : State) (seq : Nat) (nonce : List Byte) :
    (s.startQuote seq nonce).frozen = s.frozen := by simp [State.startQuote]

theorem execQuote_keeps (t : Nat) (nonce : List Byte) (s : State) : (execQuote t nonce s).Keeps s :=
  State.keazia_keeps (by simp)

theorem execProbeQuote_keeps (t seq : Nat) (s : State) : (execProbeQuote t seq s).Keeps s :=
  State.probeRow_keeps fun o => State.withBulk_frozen _ _ _ fun v d _ => by simp

theorem execQuoteFormed_keeps (t : Nat) (s : State) : (execQuoteFormed t s).Keeps s :=
  State.when_keeps_frozen (by dsimp only; repeat' split; all_goals simp)

@[simp ↓] theorem State.chunk_frozen (s : State) (b : List Byte) (off : Nat) :
    (s.chunk b off).frozen = s.frozen := by simp [State.chunk]

theorem execQuoteRead_keeps (t off : Nat) (s : State) : (execQuoteRead t off s).Keeps s :=
  State.keazia_keeps (by simp)

theorem execCertRead_keeps (t off : Nat) (s : State) : (execCertRead t off s).Keeps s :=
  State.keazia_keeps (by simp)

theorem execKeyList_keeps (t slot : Nat) (s : State) : (execKeyList t slot s).Keeps s :=
  State.keazia_keeps <| by
    split
    · rfl
    · split
      · rfl
      · split <;> rfl


/-! ### Functions of Machine/Firmware -/

@[simp ↓] theorem State.writeFlash_frozen (s : State) (b : List Byte) :
    (s.writeFlash b).frozen = s.frozen := by simp [State.writeFlash]

@[simp ↓] theorem State.restartRom_frozen (s : State) : (s.restartRom).frozen = s.frozen := by simp [State.restartRom]

@[simp ↓] theorem State.recoverImage_frozen (s : State) (b : List Byte) (host : Bool) :
    (s.recoverImage b host).frozen = s.frozen := by
  unfold State.recoverImage
  split <;> simp

theorem execSecFwLoad_keeps (t : Nat) (acc : RegAcc) (s : State) : (execSecFwLoad t acc s).Keeps s :=
  State.access_keeps (by simp)

@[simp ↓] theorem State.refuseCtl_frozen (s : State) : (s.refuseCtl).frozen = s.frozen := by simp [State.refuseCtl]

theorem State.fwRow_keeps {s : State} {t : Nat} {states : List FwState} {f : State → State}
    (hf : (f (s.tick t)).frozen = (s.tick t).frozen) : (s.fwRow t states f).Keeps s :=
  State.when_keeps_frozen (by simp [hf])

@[simp ↓] theorem State.setFw_frozen (s : State) (x : FwState) :
    (s.setFw x).frozen = s.frozen := by simp [State.setFw]

theorem execQueryDeviceIdentifiers_keeps (t : Nat) (s : State) : (execQueryDeviceIdentifiers t s).Keeps s :=
  State.when_keeps_frozen (by simp)

theorem execGetFirmwareParameters_keeps (t : Nat) (s : State) : (execGetFirmwareParameters t s).Keeps s :=
  State.when_keeps_frozen (by simp)

theorem execRequestUpdate_keeps (t : Nat) (s : State) : (execRequestUpdate t s).Keeps s :=
  State.fwRow_keeps (by simp)

theorem execPassComponentTable_keeps (t : Nat) (s : State) : (execPassComponentTable t s).Keeps s :=
  State.fwRow_keeps (by simp)

theorem execUpdateComponent_keeps (t size : Nat) (s : State) : (execUpdateComponent t size s).Keeps s :=
  State.fwRow_keeps (by simp)

theorem execRequestFirmwareData_keeps (t off : Nat) (data : List Byte) (s : State) :
    (execRequestFirmwareData t off data s).Keeps s :=
  State.when_keeps_frozen (by simp)

theorem execTransferComplete_keeps (t : Nat) (s : State) : (execTransferComplete t s).Keeps s :=
  State.when_keeps_frozen (by simp)

theorem execVerifyComplete_keeps (t : Nat) (s : State) : (execVerifyComplete t s).Keeps s :=
  State.when_keeps_frozen (by split <;> simp)

theorem execApplyComplete_keeps (t : Nat) (s : State) : (execApplyComplete t s).Keeps s :=
  State.when_keeps_frozen (by simp)

theorem execActivateFirmware_keeps (t : Nat) (s : State) : (execActivateFirmware t s).Keeps s :=
  State.fwRow_keeps (by simp)

theorem execDmcRestartDone_keeps (t : Nat) (s : State) : (execDmcRestartDone t s).Keeps s :=
  State.when_keeps_frozen (by simp)

theorem execGetStatus_keeps (t : Nat) (s : State) : (execGetStatus t s).Keeps s :=
  State.when_keeps_frozen (by simp)

theorem execCancelUpdateComponent_keeps (t : Nat) (s : State) : (execCancelUpdateComponent t s).Keeps s :=
  State.fwRow_keeps (by simp)

theorem execCancelUpdate_keeps (t : Nat) (s : State) : (execCancelUpdate t s).Keeps s :=
  State.fwRow_keeps (by simp)


/-! ### Functions of Machine/Pldm -/

theorem execGetTid_keeps (t : Nat) (s : State) : (execGetTid t s).Keeps s :=
  State.pldm_keeps (by simp)

theorem execSetTid_keeps (t tid : Nat) (s : State) : (execSetTid t tid s).Keeps s :=
  State.pldm_keeps (by simp)

theorem execGetPldmVersion_keeps (t typ : Nat) (s : State) : (execGetPldmVersion t typ s).Keeps s :=
  State.pldm_keeps (by simp)

theorem execGetPldmTypes_keeps (t : Nat) (s : State) : (execGetPldmTypes t s).Keeps s :=
  State.pldm_keeps (by simp)

theorem execGetPldmCommands_keeps (t typ : Nat) (s : State) : (execGetPldmCommands t typ s).Keeps s :=
  State.pldm_keeps (by simp)

theorem execGetPdrRepositoryInfo_keeps (t : Nat) (s : State) : (execGetPdrRepositoryInfo t s).Keeps s :=
  State.pldm_keeps (by simp)

theorem execGetPdr_keeps (t handle : Nat) (s : State) : (execGetPdr t handle s).Keeps s :=
  State.pldm_keeps (by simp)

theorem execGetSensorReading_keeps (t sensor : Nat) (s : State) : (execGetSensorReading t sensor s).Keeps s :=
  State.pldm_keeps (by simp)

theorem execGetStateSensorReadings_keeps (t _sensor : Nat) (s : State) :
    (execGetStateSensorReadings t _sensor s).Keeps s :=
  State.pldm_keeps (by simp)

theorem execSetNumericEffecterValue_keeps (t effecter value : Nat) (s : State) :
    (execSetNumericEffecterValue t effecter value s).Keeps s :=
  State.pldm_keeps (by simp)

theorem execGetNumericEffecterValue_keeps (t effecter : Nat) (s : State) :
    (execGetNumericEffecterValue t effecter s).Keeps s :=
  State.pldm_keeps (by simp)

theorem execSetEventReceiver_keeps (t eid : Nat) (s : State) : (execSetEventReceiver t eid s).Keeps s :=
  State.pldm_keeps (by simp)

theorem execPollForPlatformEvent_keeps (t : Nat) (s : State) : (execPollForPlatformEvent t s).Keeps s :=
  State.pldm_keeps (by split <;> simp)


/-! ### Functions of Machine/Access -/

@[simp ↓] theorem State.readEffect_frozen (s : State) (p : Port) (r : Reg) :
    (s.readEffect p r).2.frozen = s.frozen := by
  unfold State.readEffect
  split <;> simp

@[simp ↓] theorem State.readAt_frozen (s : State) (p : Port) (off : Nat) :
    (s.readAt p off).2.frozen = s.frozen := by
  dsimp only [State.readAt]
  repeat' split
  all_goals simp

@[simp ↓] theorem State.msixWrite_frozen (s : State) (a : RegAcc) (off : Nat) :
    (s.msixWrite a off).frozen = s.frozen := by
  unfold State.msixWrite
  split <;> simp

@[simp ↓] theorem State.stickyClear_frozen (s : State) (a : RegAcc) : (s.stickyClear a).frozen = s.frozen := by
  unfold State.stickyClear
  split <;> simp

@[simp ↓] theorem State.spareWdog_frozen (s : State) (a : RegAcc) :
    (s.spareWdog a).frozen = s.frozen := by simp [State.spareWdog]

@[simp ↓] theorem State.secFw_frozen (s : State) (a : RegAcc) : (s.secFw a).frozen = s.frozen := by simp [State.secFw]

@[simp ↓] theorem State.writeReg_frozen (s : State) (a : RegAcc) (r : Reg) (h : s.frozen.whole = true) :
    (s.writeReg a r).frozen = s.frozen := by
  unfold State.writeReg
  split <;> simp [h]

@[simp ↓] theorem State.writeAt_frozen (s : State) (a : RegAcc) (off : Nat) (h : s.frozen.whole = true) :
    (s.writeAt a off).frozen = s.frozen := by
  simp [State.writeAt]
  split <;> simp [h]

theorem execRegisterWrite_keeps (t off : Nat) (acc : RegAcc) (s : State) (h : s.frozen.whole = true) :
    (execRegisterWrite t off acc s).Keeps s :=
  State.when_keeps_frozen (by simp [h])

@[simp ↓] theorem State.badAccess_frozen (s : State) (p : Port) (off : Nat) :
    (s.badAccess p off).frozen = s.frozen := by simp [State.badAccess]

theorem execBar0BadAccess_keeps (t : Nat) (port : Port) (write : Bool) (off : Nat) (s : State) :
    (execBar0BadAccess t port write off s).Keeps s :=
  State.when_keeps_frozen (by simp)

theorem execRegRead_keeps (t off : Nat) (s : State) : (execRegRead t off s).Keeps s :=
  State.when_keeps_frozen <| by
    split
    · split
      · simp
      · rfl
    · split
      · rfl
      · split
        · simp
        · split
          · simp
          · rfl

theorem execRegWrite_keeps (t off : Nat) (value : W64) (s : State) (h : s.frozen.whole = true) :
    (execRegWrite t off value s).Keeps s :=
  State.keazia_keeps <| by
    split
    · rfl
    · split
      · simp
      · split
        · simp [h]
        · rfl

theorem execSlotWrite_keeps (t slot off : Nat) (data : List Byte) (s : State) :
    (execSlotWrite t slot off data s).Keeps s :=
  State.keazia_keeps (by simp)

theorem execReceiptGet_keeps (t seq : Nat) (s : State) : (execReceiptGet t seq s).Keeps s :=
  State.keazia_keeps (by dsimp only; repeat' split; all_goals simp)

theorem execBar2Read_keeps (t addr size : Nat) (faults : List TileCheck) (s : State) (h : s.frozen.whole = true) :
    (execBar2Read t addr size faults s).Keeps s :=
  State.when_keeps_frozen <| by
    dsimp only
    split <;> simp
    all_goals
      refine State.frozen_foldl_via_whole Prod.fst (fun r q hs => ?_) _ _ ?_
      · exact State.verifyTiles_frozen _ _ _ _ hs
      · exact h

@[simp ↓] theorem State.dropBar2_frozen (s : State) : (s.dropBar2).frozen = s.frozen := by
  dsimp only [State.dropBar2]
  simp

@[simp ↓] theorem State.storePieces_frozen (s : State) (faults : List TileCheck) (data : List Byte)
    (pieces : List (Nat × Nat × Nat)) (h : s.frozen.whole = true) :
    (s.storePieces faults data pieces).frozen = s.frozen := by
  induction pieces generalizing s data with
  | nil => rfl
  | cons p rest ih =>
    obtain ⟨k, a, n⟩ := p
    rw [State.storePieces, ih _ _ (by simp [h]), State.putTiles_frozen _ _ _ _ _ h]

theorem execBar2Write_keeps (t addr : Nat) (data : WindowWrite) (s : State) (h : s.frozen.whole = true) :
    (execBar2Write t addr data s).Keeps s :=
  State.when_keeps_frozen <| by
    dsimp only
    split
    · rfl
    · split
      · simp
      · split
        · split <;> simp [h]
        · simp [h]


/-! ### Functions of Machine/Images -/

@[simp ↓] theorem State.verifyImage_frozen (s : State) (checks : List TileCheck) (h : s.frozen.whole = true) :
    (s.verifyImage checks).1.frozen = s.frozen := by
  induction checks generalizing s with
  | nil => rfl
  | cons x xs ih =>
    have hv := State.verifyTile_frozen s x.port x.tile false x.fault h
    unfold State.verifyImage
    split
    · exact hv
    · rw [ih _ (hv ▸ h), hv]

theorem execOrderAcceptance_keeps (t : Nat) (c : ImageTiles) (s : State) (h : s.frozen.whole = true) :
    (execOrderAcceptance t c s).Keeps s :=
  Result.fault_keeps <| State.when_keeps_frozen <| by
    split
    · next x _ =>
      have hx : (if x.checked then s.tick t else (s.tick t).early x).frozen = (s.tick t).frozen := by simp
      rw [State.afterChecks_frozen, hx]
      exact fun v hv => State.verifyImage_frozen v _ (by rw [hv, hx]; exact h)
    · rfl

theorem execPlanLoad_keeps (t : Nat) (c : ImageTiles) (s : State) (h : s.frozen.whole = true) :
    (execPlanLoad t c s).Keeps s :=
  State.orderRow_keeps fun o => by
    split
    · rfl
    · refine State.withBulk_frozen _ _ _ fun v d hv => ?_
      have hi := State.verifyImage_frozen v c.tiles (by rw [hv]; exact h)
      split
      · next heq =>
        rw [heq] at hi
        simp [← hi]
      · next heq =>
        rw [heq] at hi
        have hd := State.doPlan_frozen _ o d (by rw [hi, hv]; exact h)
        rw [State.settleIdle_frozen _ (by rw [hd, hi, hv]; exact h), hd, hi]

/-! ### Every command -/

/-- OPERATING_HOURS_TICK counts the hours and keeps the rest of the frozen part (R389). -/
theorem execOperatingHoursTick_frozen {t : Nat} {s u : State} (hu : execOperatingHoursTick t s = .next u) :
    s.now ≤ u.now ∧ u.frozen = { s.frozen with now := u.now, hours := u.frozen.hours } := by
  refine State.when_keeps (P := fun u => s.now ≤ u.now ∧
    u.frozen = { s.frozen with now := u.now, hours := u.frozen.hours }) (s.later_tick t) (fun _ => ?_) hu
  dsimp only
  generalize hv : ({ s.tick t with mram := _ } : State) = v
  have hf : v.summaries.frozen = v.frozen := State.summaries_frozen v
  have hn : v.summaries.now = v.now := congrArg Frozen.now hf
  rw [hf, hn, ← hv]
  exact ⟨s.now_le_tick t, rfl⟩

/-- Every command but the tick of the hours answers a later state of the same block. -/
theorem exec_keeps (c : Instr) (s : State) (h : s.frozen.whole = true) (hc : ∀ t, c ≠ .operatingHoursTick t) :
    Result.Keeps (exec c s) s :=
  match c, hc with
  | .intakeSlotWrite t slot off data, _ => execIntakeSlotWrite_keeps t slot off data s
  | .sealTimeout t slot, _ => execSealTimeout_keeps t slot s
  | .orderAcceptance t slot, _ => execOrderAcceptance_keeps t slot s h
  | .accepted t seq, _ => execAccepted_keeps t seq s
  | .receiptPost t seq, _ => execReceiptPost_keeps t seq s
  | .receiptConsumed t acc, _ => execReceiptConsumed_keeps t acc s
  | .intakeEnable t acc, _ => execIntakeEnable_keeps t acc s h
  | .intakeResume t acc, _ => execIntakeResume_keeps t acc s h
  | .forceOpen t acc, _ => execForceOpen_keeps t acc s h
  | .intakeConfigWrite t reg acc, _ => execIntakeConfigWrite_keeps t reg acc s
  | .durabilityPolicyWrite t acc, _ => execDurabilityPolicyWrite_keeps t acc s
  | .planLoad t seq, _ => execPlanLoad_keeps t seq s h
  | .dataBind t seq, _ => execDataBind_keeps t seq s h
  | .seedSet t seq, _ => execSeedSet_keeps t seq s
  | .run t seq, _ => execRun_keeps t seq s
  | .checkpoint t seq, _ => execCheckpoint_keeps t seq s
  | .restore t seq, _ => execRestore_keeps t seq s
  | .modeSet t seq, _ => execModeSet_keeps t seq s
  | .rowSample t seq, _ => execRowSample_keeps t seq s
  | .quiesce t seq, _ => execQuiesce_keeps t seq s
  | .probeChallenge t seq, _ => execProbeChallenge_keeps t seq s
  | .probeToken t seq, _ => execProbeToken_keeps t seq s h
  | .probeEnd t seq, _ => execProbeEnd_keeps t seq s h
  | .probeHalt t seq, _ => execProbeHalt_keeps t seq s h
  | .probeSweep t seq, _ => execProbeSweep_keeps t seq s h
  | .probeResume t seq, _ => execProbeResume_keeps t seq s h
  | .stateWrite t seq, _ => execStateWrite_keeps t seq s
  | .probeQuote t seq, _ => execProbeQuote_keeps t seq s
  | .markFrame t pairB bytes, _ => execMarkFrame_keeps t pairB bytes s
  | .markApply t, _ => execMarkApply_keeps t s
  | .phaseFrame t pairB bytes, _ => execPhaseFrame_keeps t pairB bytes s
  | .readyFrame t bytes, _ => execReadyFrame_keeps t bytes s
  | .waitFrame t pairB bytes, _ => execWaitFrame_keeps t pairB bytes s
  | .markGenerate t, _ => execMarkGenerate_keeps t s
  | .stepAdvance t acc, _ => execStepAdvance_keeps t acc s
  | .waitSend t, _ => execWaitSend_keeps t s
  | .barrierSlow t, _ => execBarrierSlow_keeps t s
  | .referenceLost t, _ => execReferenceLost_keeps t s
  | .campanileLossOfLight t, _ => execCampanileLossOfLight_keeps t s
  | .holdoverMark t, _ => execHoldoverMark_keeps t s
  | .downstreamDown t, _ => execDownstreamDown_keeps t s
  | .campanileFailover t outPort, _ => execCampanileFailover_keeps t outPort s
  | .stepRetrain t acc, _ => execStepRetrain_keeps t acc s
  | .echoReceived t fromUp pairB id, _ => execEchoReceived_keeps t fromUp pairB id s
  | .echoReturn t, _ => execEchoReturn_keeps t s
  | .stepConfigWrite t ctl acc, _ => execStepConfigWrite_keeps t ctl acc s
  | .stepStart t, _ => execStepStart_keeps t s
  | .phaseBegin t, _ => execPhaseBegin_keeps t s
  | .gather t node fault, _ => execGather_keeps t node fault s
  | .mac t node fault, _ => execMac_keeps t node fault s
  | .drain t node fault, _ => execDrain_keeps t node fault s
  | .update t node, _ => execUpdate_keeps t node s
  | .writeback t node, _ => execWriteback_keeps t node s
  | .reduce t node order, _ => execReduce_keeps t node order s
  | .langevin t node, _ => execLangevin_keeps t node s
  | .group t, _ => execGroup_keeps t s
  | .swap t, _ => execSwap_keeps t s
  | .anneal t moves, _ => execAnneal_keeps t moves s
  | .sync t node flag, _ => execSync_keeps t node flag s
  | .endEntry t node, _ => execEndEntry_keeps t node s
  | .slotEnd t, _ => execSlotEnd_keeps t s
  | .barrierRelease t, _ => execBarrierRelease_keeps t s
  | .coreWatchdog t barrier, _ => execCoreWatchdog_keeps t barrier s
  | .islandMonitor t site router, _ => execIslandMonitor_keeps t site router s h
  | .boundaryActions t found, _ => execBoundaryActions_keeps t found s h
  | .contextComplete t, _ => execContextComplete_keeps t s
  | .hopInject t hop site, _ => execHopInject_keeps t hop site s
  | .hopDelivery t hop parity, _ => execHopDelivery_keeps t hop parity s
  | .freeSlotPacket t id site targets flits, _ => execFreeSlotPacket_keeps t id site targets flits s
  | .creditReturn t site dir, _ => execCreditReturn_keeps t site dir s
  | .freeSlotAck t id target, _ => execFreeSlotAck_keeps t id target s
  | .mportRequest t port id write addr len data, _ => execMportRequest_keeps t port id write addr len data s
  | .mportAdmit t port faults, _ => execMportAdmit_keeps t port faults s h
  | .mportReadDelivery t port faults, _ => execMportReadDelivery_keeps t port faults s h
  | .mportWriteAck t port, _ => execMportWriteAck_keeps t port s
  | .mergeEntryClose t port, _ => execMergeEntryClose_keeps t port s
  | .scrubRead t port fault, _ => execScrubRead_keeps t port fault s h
  | .atomicAdd t port addr value faults, _ => execAtomicAdd_keeps t port addr value faults s h
  | .freeSlotRequest t port write addr len data faults, _ =>
    execFreeSlotRequest_keeps t port write addr len data faults s h
  | .cvuArm t acc, _ => execCvuArm_keeps t acc s
  | .journalFrameSend t port, _ => execJournalFrameSend_keeps t port s
  | .journalAck t port bytes, _ => execJournalAck_keeps t port bytes s
  | .journalCredit t port bytes, _ => execJournalCredit_keeps t port bytes s
  | .journalLinkUp t port, _ => execJournalLinkUp_keeps t port s
  | .trainReply t port bytes, _ => execTrainReply_keeps t port bytes s
  | .replay t port bytes, _ => execReplay_keeps t port bytes s h
  | .journalAckTimeout t port, _ => execJournalAckTimeout_keeps t port s
  | .journalLossOfLight t port, _ => execJournalLossOfLight_keeps t port s
  | .jrnlRetrain t acc, _ => execJrnlRetrain_keeps t acc s
  | .recovery t, _ => execRecovery_keeps t s h
  | .hostReadCompletion t seq slot data err, _ => execHostReadCompletion_keeps t seq slot data err s h
  | .bar2Read t addr size faults, _ => execBar2Read_keeps t addr size faults s h
  | .bar2Write t addr data, _ => execBar2Write_keeps t addr data s h
  | .bar0BadAccess t port write off, _ => execBar0BadAccess_keeps t port write off s
  | .registerWrite t off acc, _ => execRegisterWrite_keeps t off acc s h
  | .laneFailed t port lane, _ => execLaneFailed_keeps t port lane s
  | .hostLinkRecovered t, _ => execHostLinkRecovered_keeps t s
  | .laneRetrain t acc, _ => execLaneRetrain_keeps t acc s
  | .i3cDynamicAddress t legacy addr, _ => execI3cDynamicAddress_keeps t legacy addr s
  | .setEndpointId t eid, _ => execSetEndpointId_keeps t eid s
  | .getEndpointId t, _ => execGetEndpointId_keeps t s
  | .getMctpVersionSupport t, _ => execGetMctpVersionSupport_keeps t s
  | .getMessageTypeSupport t, _ => execGetMessageTypeSupport_keeps t s
  | .getVendorMessageSupport t, _ => execGetVendorMessageSupport_keeps t s
  | .regRead t off, _ => execRegRead_keeps t off s
  | .regWrite t off value, _ => execRegWrite_keeps t off value s h
  | .slotWrite t slot off data, _ => execSlotWrite_keeps t slot off data s
  | .receiptGet t seq, _ => execReceiptGet_keeps t seq s
  | .heartbeat t, _ => execHeartbeat_keeps t s
  | .mgmtWdogExpired t, _ => execMgmtWdogExpired_keeps t s
  | .mgmtWdogWrite t acc, _ => execMgmtWdogWrite_keeps t acc s
  | .mgmtStatRead t, _ => execMgmtStatRead_keeps t s
  | .challenge t, _ => execChallenge_keeps t s
  | .tokenPut t off data, _ => execTokenPut_keeps t off data s
  | .tokenSubmit t, _ => execTokenSubmit_keeps t s h
  | .quote t nonce, _ => execQuote_keeps t nonce s
  | .quoteFormed t, _ => execQuoteFormed_keeps t s
  | .quoteRead t off, _ => execQuoteRead_keeps t off s
  | .debugCtlEnd t, _ => execDebugCtlEnd_keeps t s h
  | .debugCtlHalt t, _ => execDebugCtlHalt_keeps t s h
  | .debugCtlSweep t, _ => execDebugCtlSweep_keeps t s h
  | .debugCtlResume t, _ => execDebugCtlResume_keeps t s h
  | .keyList t slot, _ => execKeyList_keeps t slot s
  | .certRead t off, _ => execCertRead_keeps t off s
  | .getTid t, _ => execGetTid_keeps t s
  | .setTid t tid, _ => execSetTid_keeps t tid s
  | .getPldmVersion t typ, _ => execGetPldmVersion_keeps t typ s
  | .getPldmTypes t, _ => execGetPldmTypes_keeps t s
  | .getPldmCommands t typ, _ => execGetPldmCommands_keeps t typ s
  | .getPdrRepositoryInfo t, _ => execGetPdrRepositoryInfo_keeps t s
  | .getPdr t handle, _ => execGetPdr_keeps t handle s
  | .getSensorReading t sensor, _ => execGetSensorReading_keeps t sensor s
  | .getStateSensorReadings t sensor, _ => execGetStateSensorReadings_keeps t sensor s
  | .setNumericEffecterValue t effecter value, _ => execSetNumericEffecterValue_keeps t effecter value s
  | .getNumericEffecterValue t effecter, _ => execGetNumericEffecterValue_keeps t effecter s
  | .setEventReceiver t eid, _ => execSetEventReceiver_keeps t eid s
  | .pollForPlatformEvent t, _ => execPollForPlatformEvent_keeps t s
  | .queryDeviceIdentifiers t, _ => execQueryDeviceIdentifiers_keeps t s
  | .getFirmwareParameters t, _ => execGetFirmwareParameters_keeps t s
  | .requestUpdate t, _ => execRequestUpdate_keeps t s
  | .passComponentTable t, _ => execPassComponentTable_keeps t s
  | .updateComponent t size, _ => execUpdateComponent_keeps t size s
  | .requestFirmwareData t off data, _ => execRequestFirmwareData_keeps t off data s
  | .transferComplete t, _ => execTransferComplete_keeps t s
  | .verifyComplete t, _ => execVerifyComplete_keeps t s
  | .applyComplete t, _ => execApplyComplete_keeps t s
  | .activateFirmware t, _ => execActivateFirmware_keeps t s
  | .dmcRestartDone t, _ => execDmcRestartDone_keeps t s
  | .getStatus t, _ => execGetStatus_keeps t s
  | .cancelUpdateComponent t, _ => execCancelUpdateComponent_keeps t s
  | .cancelUpdate t, _ => execCancelUpdate_keeps t s
  | .secFwLoad t acc, _ => execSecFwLoad_keeps t acc s
  | .dbgCtlHalt t acc, _ => execDbgCtlHalt_keeps t acc s h
  | .dbgCtlSweep t acc, _ => execDbgCtlSweep_keeps t acc s h
  | .dbgCtlResume t acc, _ => execDbgCtlResume_keeps t acc s h
  | .dbgCtlEnd t acc, _ => execDbgCtlEnd_keeps t acc s h
  | .oculusArm t acc, _ => execOculusArm_keeps t acc s
  | .digestStepRead t port, _ => execDigestStepRead_keeps t port s
  | .modeCtlWrite t lb acc, _ => execModeCtlWrite_keeps t lb acc s
  | .reQualify t acc, _ => execReQualify_keeps t acc s
  | .pwrReqP0 t acc, _ => execPwrReqP0_keeps t acc s h
  | .pwrReqP2 t acc, _ => execPwrReqP2_keeps t acc s h
  | .pwrReqP3 t acc, _ => execPwrReqP3_keeps t acc s h
  | .pwrReqP4 t acc, _ => execPwrReqP4_keeps t acc s h
  | .powerStateReturn t, _ => execPowerStateReturn_keeps t s
  | .p4Exit t, _ => execP4Exit_keeps t s
  | .pwrCapWrite t acc, _ => execPwrCapWrite_keeps t acc s
  | .powerMeasurement t watts, _ => execPowerMeasurement_keeps t watts s
  | .powerManagerAdjust t delta, _ => execPowerManagerAdjust_keeps t delta s
  | .thermalThrottle t deg stretch, _ => execThermalThrottle_keeps t deg stretch s
  | .thermalTrip t deg, _ => execThermalTrip_keeps t deg s h
  | .coolantHigh t deg, _ => execCoolantHigh_keeps t deg s
  | .mainInputRange t millivolts, _ => execMainInputRange_keeps t millivolts s h
  | .mainEnChange t high, _ => execMainEnChange_keeps t high s h
  | .auxPowerRise t, _ => execAuxPowerRise_keeps t s h
  | .bootRomVerify t, _ => execBootRomVerify_keeps t s
  | .mainRailsSequenced t bad, _ => execMainRailsSequenced_keeps t bad s
  | .pllLock t one dead, _ => execPllLock_keeps t one dead s
  | .spareMapApplied t readable, _ => execSpareMapApplied_keeps t readable s
  | .startUpSelfTest t failed routers banks slices, _ => execStartUpSelfTest_keeps t failed routers banks slices s
  | .memoryTraining t failed, _ => execMemoryTraining_keeps t failed s h
  | .opticalBringUp t failed, _ => execOpticalBringUp_keeps t failed s
  | .flr t, _ => execFlr_keeps t s h
  | .hotReset t lost, _ => execHotReset_keeps t lost s h
  | .warmRstN t, _ => execWarmRstN_keeps t s h
  | .devResetWarm t acc, _ => execDevResetWarm_keeps t acc s h
  | .devResetCold t acc, _ => execDevResetCold_keeps t acc s h
  | .noiseSample t src bit, _ => execNoiseSample_keeps t src bit s
  | .entropySettled t, _ => execEntropySettled_keeps t s
  | .conditionedBlock t raw, _ => execConditionedBlock_keeps t raw s
  | .expanderRequest t, _ => execExpanderRequest_keeps t s
  | .expanderReseed t, _ => execExpanderReseed_keeps t s
  | .trngWordRead t port, _ => execTrngWordRead_keeps t port s
  | .trngCtlWrite t acc, _ => execTrngCtlWrite_keeps t acc s
  | .belfryEvent t code payload src fail0 fail1, _ => execBelfryEvent_keeps t code payload src fail0 fail1 s
  | .operatingHoursTick t, hc => absurd rfl (hc t)
  | .belfryRefill t, _ => execBelfryRefill_keeps t s
  | .belfryFreezeSet t acc, _ => execBelfryFreezeSet_keeps t acc s
  | .belfryFreezeClear t acc, _ => execBelfryFreezeClear_keeps t acc s
  | .freezeExpired t, _ => execFreezeExpired_keeps t s
  | .belfryIndexWrite t acc, _ => execBelfryIndexWrite_keeps t acc s
  | .belfryCleared t, _ => execBelfryCleared_keeps t s
  | .intStatClear t acc, _ => execIntStatClear_keeps t acc s
  | .intEnableWrite t acc, _ => execIntEnableWrite_keeps t acc s
  | .intSet t acc, _ => execIntSet_keeps t acc s
  | .intModWrite t acc, _ => execIntModWrite_keeps t acc s
  | .receiptModerationTimer t, _ => execReceiptModerationTimer_keeps t s
  | .msixUnmask t ctl, _ => execMsixUnmask_keeps t ctl s
  | .auxPowerLoss t, _ => execAuxPowerLoss_keeps t s h
  | .campanileLinkUp t outPort pairB, _ => execCampanileLinkUp_keeps t outPort pairB s
  | .hostLinkUp t rate flit, _ => execHostLinkUp_keeps t rate flit s
  | .busMasterEnable t, _ => execBusMasterEnable_keeps t s
  | .pllSwitch t field, _ => execPllSwitch_keeps t field s
  | .regulatorSwitch t, _ => execRegulatorSwitch_keeps t s
  | .reQualificationDone t pass, _ => execReQualificationDone_keeps t pass s

/-- Every command, the tick of the hours with the others, leaves a whole block whole. -/
theorem exec_whole {c : Instr} {s u : State} (h : s.whole = true) (hu : exec c s = .next u) : u.whole = true := by
  by_cases hc : ∃ t, c = .operatingHoursTick t
  · obtain ⟨t, rfl⟩ := hc
    exact (congrArg Frozen.whole (execOperatingHoursTick_frozen hu).2).trans h
  · have hk := exec_keeps c s h (fun t e => hc ⟨t, e⟩) u hu
    exact (congrArg Frozen.whole hk.2).trans h

end Sys2Proof.Machine
end

section
/-! SUPPORT. The scope: a step runs the command at the front of its queue, and keeps the block whole. -/

namespace Sys2Proof.Machine

/-- Settles O4: a step is its command run on the state with the queue's rest, and every command keeps the frozen part
of the state, in which `State.whole` stands. -/
theorem stepKeepsWhole : Obligations.StepKeepsWhole := by
  intro s u hs hu
  cases hp : s.pending with
  | nil =>
    rw [step_idle hp] at hu
    cases hu
    exact hs
  | cons c rest =>
    have hx : exec c { s with pending := rest } = .next u := by rw [← hu, step, hp]
    exact exec_whole (s := { s with pending := rest }) hs hx

/-- Settles O1: the queue's two laws. -/
theorem stepRunsCommand : Obligations.StepRunsCommand := ⟨step_front, fun _ h => step_idle h⟩

/-- Settles O3: memory is empty at reset, and each list of units is made at its length. -/
theorem resetIsWhole : Obligations.ResetIsWhole :=
  (State.whole_iff _).mpr
    ⟨rfl, List.length_replicate, List.length_replicate, List.length_replicate, List.length_replicate⟩

end Sys2Proof.Machine
end

section
/-! SUPPORT. A write to the fields of a register (R11, R13, R418): what each field and each reserved bit holds after it. -/

namespace Sys2Proof.Machine

/-- Two fields share no bit. -/
def FieldSpec.apart (f g : FieldSpec) : Prop := f.lo + f.w ≤ g.lo ∨ g.lo + g.w ≤ f.lo

/-- No write clears a bit of a register that has no W1C field. -/
def Reg.noW1c (r : Reg) : Prop := ∀ f ∈ r.layout, f.acc ≠ .w1c

/-! ### The layouts -/

theorem Reg.mem_every (r : Reg) : r ∈ Reg.every := List.mem_of_getElem? (i := r.idx.val) (by cases r <;> rfl)

/-- The field tables of all registers are laid out in 64 bits, no two fields on one bit. -/
theorem Reg.layout_wf (r : Reg) : (∀ f ∈ r.layout, f.lo + f.w ≤ 64) ∧ r.layout.Pairwise FieldSpec.apart := by
  have h : ∀ r ∈ Reg.every, (∀ f ∈ r.layout, f.lo + f.w ≤ 64) ∧
      r.layout.Pairwise fun f g => f.lo + f.w ≤ g.lo ∨ g.lo + g.w ≤ f.lo := by decide +kernel
  exact h r r.mem_every

theorem foldl_w1cBits {l : List FieldSpec} (h : ∀ f ∈ l, f.acc ≠ .w1c) (m : Nat) :
    l.foldl (fun m f => if f.acc == .w1c then m ||| (2 ^ f.w - 1) * 2 ^ f.lo else m) m = m := by
  induction l with
  | nil => rfl
  | cons f l ih =>
    rw [List.forall_mem_cons] at h
    rw [List.foldl_cons, if_neg (by simpa using h.1), ih h.2]

theorem Reg.w1cBits_of_noW1c {r : Reg} (h : r.noW1c) : r.w1cBits = 0 := foldl_w1cBits h 0

/-! ### One field -/

/-- A write to one field leaves the bits outside it. -/
theorem testBit_writeField_outside {r : Reg} {a : RegAcc} {v : W64} {f : FieldSpec} {i : Nat} (h : f.lo + f.w ≤ 64)
    (hi : i < f.lo ∨ f.lo + f.w ≤ i) : (writeField r a v f).toNat.testBit i = v.toNat.testBit i := by
  have hn : ∀ n, (insertBits v f.lo f.w n).toNat.testBit i = v.toNat.testBit i := fun n => by
    rw [testBit_insertBits _ _ _ _ _ h, if_neg (by omega)]
  unfold writeField
  split
  · dsimp only
    split
    · exact hn _
    · rfl
  · exact hn _
  · rfl

theorem bitsOf_writeField_apart {r : Reg} {a : RegAcc} {v : W64} {f g : FieldSpec} (h : f.lo + f.w ≤ 64)
    (hfg : f.apart g) : bitsOf (writeField r a v f).toNat g.lo g.w = bitsOf v.toNat g.lo g.w := by
  apply Nat.eq_of_testBit_eq
  intro i
  rw [testBit_bitsOf, testBit_bitsOf]
  by_cases hi : i < g.w
  · have hfg : f.lo + f.w ≤ g.lo ∨ g.lo + g.w ≤ f.lo := hfg
    rw [testBit_writeField_outside h (by omega)]
  · simp [hi]

theorem bitsOf_writeField_self {r : Reg} {a : RegAcc} {v : W64} {f : FieldSpec} (h : f.lo + f.w ≤ 64)
    (hf : f.acc ≠ .w1c) : bitsOf (writeField r a v f).toNat f.lo f.w = fieldAfter r a f (bitsOf v.toNat f.lo f.w) := by
  unfold writeField fieldAfter
  split
  next hrw =>
    dsimp only
    by_cases hc : accCovers a f.lo f.w = true ∧ legalValue r f.lo (bitsOf (accBits a) f.lo f.w) = true
    · rw [if_pos (by simpa using hc), if_pos ⟨hrw, hc⟩, bitsOf_insertBits _ _ _ _ h,
        Nat.mod_eq_of_lt (bitsOf_lt _ _ _)]
    · rw [if_neg (by simpa using hc), if_neg (fun hx => hc hx.2)]
  next hw => exact absurd hw hf
  next hrw _ => rw [if_neg (fun hx => hrw hx.1)]

/-! ### All fields of a layout -/

theorem testBit_foldl_writeField_outside {r : Reg} {a : RegAcc} {l : List FieldSpec} {v : W64} {i : Nat}
    (h : ∀ f ∈ l, f.lo + f.w ≤ 64) (hi : ∀ f ∈ l, i < f.lo ∨ f.lo + f.w ≤ i) :
    (l.foldl (writeField r a) v).toNat.testBit i = v.toNat.testBit i := by
  induction l generalizing v with
  | nil => rfl
  | cons f l ih =>
    rw [List.forall_mem_cons] at h hi
    rw [List.foldl_cons, ih h.2 hi.2, testBit_writeField_outside h.1 hi.1]

theorem bitsOf_foldl_writeField_apart {r : Reg} {a : RegAcc} {l : List FieldSpec} {v : W64} {g : FieldSpec}
    (h : ∀ f ∈ l, f.lo + f.w ≤ 64) (hg : ∀ f ∈ l, g.apart f) :
    bitsOf (l.foldl (writeField r a) v).toNat g.lo g.w = bitsOf v.toNat g.lo g.w := by
  induction l generalizing v with
  | nil => rfl
  | cons f l ih =>
    rw [List.forall_mem_cons] at h hg
    rw [List.foldl_cons, ih h.2 hg.2, bitsOf_writeField_apart h.1 hg.1.symm]

theorem bitsOf_foldl_writeField {r : Reg} {a : RegAcc} {l : List FieldSpec} {v : W64} {g : FieldSpec}
    (h : ∀ f ∈ l, f.lo + f.w ≤ 64) (hp : l.Pairwise FieldSpec.apart) (hw : ∀ f ∈ l, f.acc ≠ .w1c) (hg : g ∈ l) :
    bitsOf (l.foldl (writeField r a) v).toNat g.lo g.w = fieldAfter r a g (bitsOf v.toNat g.lo g.w) := by
  induction l generalizing v with
  | nil => cases hg
  | cons f l ih =>
    rw [List.forall_mem_cons] at h hw
    rw [List.pairwise_cons] at hp
    rw [List.foldl_cons]
    cases hg with
    | head => rw [bitsOf_foldl_writeField_apart h.2 hp.1, bitsOf_writeField_self h.1 hw.1]
    | tail _ hg => rw [ih h.2 hp.2 hw.2 hg, bitsOf_writeField_apart h.1 (hp.1 _ hg)]

/-- Read-only fields take nothing from a write. -/
theorem foldl_writeField_of_ro {r : Reg} {a : RegAcc} {l : List FieldSpec} {v : W64} (h : ∀ f ∈ l, f.acc = .ro) :
    l.foldl (writeField r a) v = v := by
  induction l with
  | nil => rfl
  | cons f l ih =>
    rw [List.forall_mem_cons] at h
    rw [List.foldl_cons, writeField, h.1]
    exact ih h.2

/-! ### A register -/

theorem State.writeFields_eq_setReg (s : State) (r : Reg) (a : RegAcc) :
    s.writeFields r a = s.setReg r ((s.writeFields r a).reg r) := by
  rw [State.writeFields, State.reg_setReg]

theorem State.reg_writeFields {s : State} {r : Reg} {a : RegAcc} (h : r.noW1c) :
    (s.writeFields r a).reg r = r.layout.foldl (writeField r a) (s.reg r) := by
  simp [State.writeFields, Reg.w1cBits_of_noW1c h]

theorem State.reg_writeFields_ne {s : State} {r q : Reg} {a : RegAcc} (h : q ≠ r) :
    (s.writeFields r a).reg q = s.reg q := State.reg_setReg_ne s _ h

theorem State.fld_writeFields_ne {s : State} {f : Field} {r : Reg} {a : RegAcc} (h : f.reg ≠ r) :
    (s.writeFields r a).fld f = s.fld f := by
  rw [State.fld, State.reg_writeFields_ne h, State.fld]

theorem State.bitsOf_writeFields {s : State} {r : Reg} {a : RegAcc} (h : r.noW1c) {f : FieldSpec}
    (hf : f ∈ r.layout) : bitsOf ((s.writeFields r a).reg r).toNat f.lo f.w =
      fieldAfter r a f (bitsOf (s.reg r).toNat f.lo f.w) := by
  rw [State.reg_writeFields h]
  exact bitsOf_foldl_writeField r.layout_wf.1 r.layout_wf.2 h hf

/-- A write acts on the fields of its register and on nothing else. -/
theorem State.fieldsWritten_writeFields {s : State} {r : Reg} {a : RegAcc} (h : r.noW1c) :
    s.fieldsWritten (s.writeFields r a) r a := by
  refine ⟨s.writeFields_eq_setReg r a, fun f hf => State.bitsOf_writeFields h hf, fun i _ hi => ?_⟩
  rw [← BitVec.testBit_toNat, ← BitVec.testBit_toNat, State.reg_writeFields h]
  exact testBit_foldl_writeField_outside r.layout_wf.1 hi

/-- A write to a register whose fields are all read-only is ignored (R11). -/
theorem State.writeFields_of_ro {s : State} {r : Reg} {a : RegAcc} (h : ∀ f ∈ r.layout, f.acc = .ro) :
    s.writeFields r a = s := by
  have hr : (s.writeFields r a).reg r = s.reg r := by
    rw [State.reg_writeFields (fun f hf => by simp [h f hf]), foldl_writeField_of_ro h]
  rw [s.writeFields_eq_setReg, hr, State.setReg_self]

/-- An RW field that the access covers with a legal value holds that value. -/
theorem State.fld_writeFields {s : State} {f : Field} {a : RegAcc} {n : Nat} (h : f.reg.noW1c)
    (hf : ⟨f.lo, f.w, .rw⟩ ∈ f.reg.layout) (ha : accField a f = some n) (hl : legalValue f.reg f.lo n = true) :
    (s.writeFields f.reg a).fld f = n := by
  rw [accField, Option.ite_none_right_eq_some] at ha
  obtain ⟨hc, hn⟩ := ha
  cases hn
  exact (State.bitsOf_writeFields h hf).trans (if_pos ⟨rfl, hc, hl⟩)

end Sys2Proof.Machine
end

section
/-! SUPPORT. What an event may change: the interrupt causes, Belfry, the journal, the management alert and what left the
block. A state without these parts (`State.calm`, which keeps the causes, and `State.uneventful`, which does not) is the
same before and after. -/

namespace Sys2Proof.Machine

/-- What an event other than an interrupt cause cannot change: the registers, and the rest of the state. -/
def State.calm (s : State) : (Reg → W64) × State :=
  (fun r => if r ∈ eventRegs ∧ r ≠ .INT_STAT then 0 else s.reg r,
    { s with
      regs := Vector.replicate _ 0
      intr := { s.intr with pba := 0 }
      emitted := []
      mgmt := { s.mgmt with alertPending := false, events := [] }
      bel := { s.bel with
        buckets := [], full := 0, refillTick := 0, pending := [], dropped := 0, lostCounted := false, wrote := (0, 0) }
      mram := { s.mram with first0 := [], first1 := [], last0 := [], last1 := [], fseq := 0 }
      jrnl := { s.jrnl with frames := [], j0 := JPort.reset, j1 := JPort.reset, segFirst := 0, segBytes := 0 } })

/-- What no event can change. -/
def State.uneventful (s : State) : (Reg → W64) × State :=
  (fun r => if r = .INT_STAT then 0 else s.calm.1 r, { s.calm.2 with hwSets := [] })

/-! ### The parts -/

@[simp ↓] theorem State.calm_update_jrnl (s : State) (segFirst segBytes : Nat) (frames : List JFrame) (j0 j1 : JPort) :
    State.calm { s with jrnl := { s.jrnl with
      frames := frames, j0 := j0, j1 := j1, segFirst := segFirst, segBytes := segBytes } } = s.calm := by rfl

@[simp ↓] theorem State.calm_update_mram (s : State) (first0 first1 last0 last1 : List (List Byte)) :
    State.calm { s with mram := { s.mram with first0 := first0, first1 := first1, last0 := last0, last1 := last1 } } =
      s.calm := by rfl

@[simp ↓] theorem State.calm_update_mgmt (s : State) (alert : Bool) (events : List (List Byte)) :
    State.calm { s with mgmt := { s.mgmt with alertPending := alert, events := events } } = s.calm := by rfl

@[simp ↓] theorem State.calm_update_bel (s : State) (pending : List (List Byte)) (dropped : Nat) :
    State.calm { s with bel := { s.bel with pending := pending, dropped := dropped } } = s.calm := by rfl

theorem State.calm_setReg {s : State} {r : Reg} (v : W64) (h : r ∈ eventRegs) (hr : r ≠ .INT_STAT) :
    (s.setReg r v).calm = s.calm := by
  refine Prod.ext (funext fun q => ?_) rfl
  by_cases hq : q = r
  · subst hq
    simp [State.calm, h, hr]
  · simp [State.calm, State.reg_setReg_ne s v hq]

@[simp ↓] theorem State.calm_setFld {s : State} {f : Field} (n : Nat) (h : f.reg ∈ eventRegs)
    (hr : f.reg ≠ .INT_STAT) : (s.setFld f n).calm = s.calm := State.calm_setReg _ h hr

@[simp ↓] theorem State.calm_incFld {s : State} {f : Field} (h : f.reg ∈ eventRegs) (hr : f.reg ≠ .INT_STAT) :
    (s.incFld f).calm = s.calm := State.calm_setFld _ h hr

@[simp ↓] theorem State.calm_maxFld {s : State} {f : Field} (n : Nat) (h : f.reg ∈ eventRegs)
    (hr : f.reg ≠ .INT_STAT) : (s.maxFld f n).calm = s.calm := State.calm_setFld _ h hr

@[simp ↓] theorem State.calm_ite {c : Prop} [Decidable c] (a b : State) :
    (if c then a else b).calm = if c then a.calm else b.calm := by split <;> rfl

@[simp ↓] theorem State.calm_foldl {α : Type} {f : State → α → State} (h : ∀ s a, (f s a).calm = s.calm) (l : List α)
    (s : State) : (l.foldl f s).calm = s.calm := by
  induction l generalizing s with
  | nil => rfl
  | cons a l ih => rw [List.foldl_cons, ih, h]

/-! ### Messages and journal frames -/

@[simp ↓] theorem State.calm_emit (s : State) (e : Emission) : (s.emit e).calm = s.calm := by rfl

@[simp ↓] theorem State.calm_sendVector (s : State) (i : Nat) : (s.sendVector i).calm = s.calm := by
  unfold State.sendVector
  split
  · split
    · split
      · rw [State.calm_incFld (by decide) (by decide)]
        rfl
      · rw [State.calm_incFld (by decide) (by decide), State.calm_emit]
    · rfl
  · rfl

@[simp ↓] theorem State.calm_addFrameRaw (s : State) (typ : Nat) (lastPart : Bool) (orderSeq policy : Nat)
    (bs : List Byte) : (s.addFrameRaw typ lastPart orderSeq policy bs).calm = s.calm := by
  unfold State.addFrameRaw
  split
  · dsimp only
    rw [State.calm_setFld _ (by decide) (by decide)]
    rfl
  · rfl

@[simp ↓] theorem State.calm_newSegment (s : State) : s.newSegment.calm = s.calm := by
  dsimp only [State.newSegment]
  simp (disch := decide)

@[simp ↓] theorem State.calm_addFrame (s : State) (typ : Nat) (lastPart : Bool) (orderSeq policy : Nat)
    (bs : List Byte) : (s.addFrame typ lastPart orderSeq policy bs).calm = s.calm := by
  dsimp only [State.addFrame, State.showUsed]
  simp (disch := decide)

/-! ### Belfry -/

@[simp ↓] theorem State.calm_setBucket (s : State) (b : Bucket) : (s.setBucket b).calm = s.calm := by rfl

@[simp ↓] theorem State.calm_countWrote (s : State) : s.countWrote.calm = s.calm := by rfl

@[simp ↓] theorem State.calm_putCapture (s : State) (p : Port) (c : Capture) : (s.putCapture p c).calm = s.calm := by
  dsimp only [State.putCapture]
  cases p <;> simp (disch := decide) only [State.calm_setReg]

@[simp ↓] theorem State.calm_recapture (s : State) : s.recapture.calm = s.calm := by
  dsimp only [State.recapture]
  simp

@[simp ↓] theorem State.calm_storeRecord (s : State) (r : List Byte) : (s.storeRecord r).calm = s.calm := by
  dsimp only [State.storeRecord]
  simp (disch := decide)

@[simp ↓] theorem State.calm_writeRecord (s : State) (code : Nat) (r : List Byte) :
    (s.writeRecord code r).calm = s.calm := by
  dsimp only [State.writeRecord]
  simp (disch := decide)

@[simp ↓] theorem State.calm_refillAll (s : State) : s.refillAll.calm = s.calm := by rfl

@[simp ↓] theorem State.calm_summary (s : State) (code : Nat) : (s.summary code).calm = s.calm := by
  dsimp only [State.summary]
  simp

@[simp ↓] theorem State.calm_summaries (s : State) : s.summaries.calm = s.calm := by
  simp [State.summaries]

@[simp ↓] theorem State.calm_refillFirst (s : State) : s.refillFirst.calm = s.calm := by
  simp [State.refillFirst]

@[simp ↓] theorem State.calm_stampFrames (s : State) (n step phase : Nat) :
    (s.stampFrames n step phase).calm = s.calm := by rfl

/-! ### Interrupt causes and records -/

theorem State.uneventful_of_calm {s u : State} (h : u.calm = s.calm) : u.uneventful = s.uneventful := by
  rw [State.uneventful, State.uneventful, h]

@[simp ↓] theorem State.uneventful_noteHw_cause (s : State) (mask : Nat) :
    (s.noteHw .INT_STAT mask).uneventful = s.uneventful := by rfl

@[simp ↓] theorem State.uneventful_setFld_cause (s : State) (n : Nat) :
    (s.setFld Fld.INT_STAT_CAUSE n).uneventful = s.uneventful := by
  refine Prod.ext (funext fun q => ?_) rfl
  by_cases hq : q = .INT_STAT
  · simp [State.uneventful, hq]
  · have hc : q ≠ Fld.INT_STAT_CAUSE.reg := hq
    simp [State.uneventful, State.calm, hq, State.reg_setFld_ne s n hc]

@[simp ↓] theorem State.uneventful_setCause (s : State) (i : Nat) : (s.setCause i).uneventful = s.uneventful := by
  unfold State.setCause
  dsimp only
  split
  · simp
  · split
    · rw [State.uneventful_of_calm (State.calm_sendVector _ i)]
      simp
    · simp

/-- The causes that an event sets, once the refill of its tick has been made (R391, R424). -/
def State.recordCauses (s : State) (code : Nat) : State :=
  let s := s.refillFirst
  let s := if severity code != 0 && 1 ≤ code / 4096 && code / 4096 ≤ 10 && s.cUp then s.setCause (4 + code / 4096)
    else s
  if severity code == 2 && s.cUp then s.setCause 15 else s

/-- The rate limit of an event, and its record where one is due (R391, R392). -/
def State.limitRecord (s : State) (code payload : Nat) (src : Source) : State :=
  if code ∈ unlimitedCodes then s.writeRecord code (s.recordBytes code payload 0 false src)
  else
    let b := s.bucket code
    if b.tokens == 0 then s.setBucket { b with suppressed := b.suppressed + 1, lastTick := s.mram.hours }
    else
      (s.setBucket { b with tokens := b.tokens - 1, suppressed := 0 }).writeRecord code
        (s.recordBytes code payload b.suppressed false src)

theorem State.record_eq (s : State) (code payload : Nat) (src : Source) : s.record code payload src =
    if s.pwr.auxGood then (s.recordCauses code).limitRecord code payload src else s := by rfl

theorem State.calm_limitRecord (s : State) (code payload : Nat) (src : Source) :
    (s.limitRecord code payload src).calm = s.calm := by
  unfold State.limitRecord
  split
  · simp
  · dsimp only
    split <;> simp

theorem State.uneventful_recordCauses (s : State) (code : Nat) :
    (s.recordCauses code).uneventful = s.uneventful := by
  have hr : s.refillFirst.uneventful = s.uneventful := State.uneventful_of_calm s.calm_refillFirst
  have hs : ∀ (v : State) (c : Bool) (i : Nat), (if c then v.setCause i else v).uneventful = v.uneventful :=
    fun v c i => by split <;> simp
  rw [State.recordCauses, hs, hs, hr]

@[simp ↓] theorem State.uneventful_record (s : State) (code payload : Nat) (src : Source) :
    (s.record code payload src).uneventful = s.uneventful := by
  rw [State.record_eq]
  split
  · rw [State.uneventful_of_calm (State.calm_limitRecord ..), State.uneventful_recordCauses]
  · rfl

/-- A change noted and recorded is, but for its events, the change noted. -/
@[simp ↓] theorem State.uneventful_noteChange (s : State) (off value step phase : Nat) (src : Source) :
    (s.noteChange off value step phase src).uneventful = (s.noteValue off value step phase).uneventful := by
  rw [State.noteChange, State.uneventful_of_calm (State.calm_stampFrames ..), State.uneventful_record]

@[simp ↓] theorem State.uneventful_noteConfig (s : State) (r : Reg) (src : Source) :
    (s.noteConfig r src).uneventful = (s.noteOwn r).uneventful := State.uneventful_noteChange ..

/-! ### What follows from it -/

theorem State.reg_of_uneventful {s u : State} (h : u.uneventful = s.uneventful) {r : Reg} (hr : r ∉ eventRegs) :
    u.reg r = s.reg r := by
  have hi : r ≠ .INT_STAT := fun e => hr (by simp [e, eventRegs])
  simpa [State.uneventful, State.calm, hr, hi] using congrFun (congrArg Prod.fst h) r

theorem State.fld_of_uneventful {s u : State} (h : u.uneventful = s.uneventful) {f : Field}
    (hf : f.reg ∉ eventRegs) : u.fld f = s.fld f := by
  rw [State.fld, State.fld, State.reg_of_uneventful h hf]

theorem State.reg_intStat_of_calm {s u : State} (h : u.calm = s.calm) : u.reg .INT_STAT = s.reg .INT_STAT := by
  simpa [State.calm] using congrFun (congrArg Prod.fst h) .INT_STAT

/-- A state with the parts that events change taken from another. -/
def State.withEvents (s u : State) : State :=
  { s with
    regs := u.regs
    hwSets := u.hwSets
    intr := { s.intr with pba := u.intr.pba }
    emitted := u.emitted
    mgmt := { s.mgmt with alertPending := u.mgmt.alertPending, events := u.mgmt.events }
    bel := { s.bel with
      buckets := u.bel.buckets, full := u.bel.full, refillTick := u.bel.refillTick, pending := u.bel.pending
      dropped := u.bel.dropped, lostCounted := u.bel.lostCounted, wrote := u.bel.wrote }
    mram := { s.mram with
      first0 := u.mram.first0, first1 := u.mram.first1, last0 := u.mram.last0, last1 := u.mram.last1
      fseq := u.mram.fseq }
    jrnl := { s.jrnl with
      frames := u.jrnl.frames, j0 := u.jrnl.j0, j1 := u.jrnl.j1, segFirst := u.jrnl.segFirst
      segBytes := u.jrnl.segBytes, configs := u.jrnl.configs } }

theorem State.onlyEvents_iff {s u : State} {rs : List Reg} :
    State.onlyEvents s u rs ↔ State.keeps s u (eventRegs ++ rs) ∧ u = s.withEvents u := Iff.rfl

theorem State.onlyEvents_refl (s : State) (rs : List Reg) : State.onlyEvents s s rs := ⟨fun _ _ => rfl, rfl⟩

/-- A state that differs by events from one that differs from `s` by events and the registers `rs`. -/
theorem State.onlyEvents.of_uneventful {s v u : State} {rs : List Reg} (hv : State.onlyEvents s v rs)
    (hu : u.uneventful = v.uneventful) : State.onlyEvents s u rs := by
  obtain ⟨hk, he⟩ := State.onlyEvents_iff.mp hv
  refine State.onlyEvents_iff.mpr ⟨fun r hr => ?_, ?_⟩
  · rw [State.reg_of_uneventful hu fun h => hr (List.mem_append_left _ h), hk r hr]
  · calc u = u.uneventful.2.withEvents u := rfl
      _ = v.uneventful.2.withEvents u := by rw [hu]
      _ = v.withEvents u := rfl
      _ = (s.withEvents v).withEvents u := by rw [← he]
      _ = s.withEvents u := rfl

/-! ### Notes of configuration (R93) -/

@[simp] theorem State.fld_noteValue (s : State) (off value step phase : Nat) (f : Field) :
    (s.noteValue off value step phase).fld f = s.fld f := rfl

theorem State.onlyEvents_noteValue (s : State) (off value step phase : Nat) (rs : List Reg) :
    State.onlyEvents s (s.noteValue off value step phase) rs := ⟨fun _ _ => rfl, rfl⟩

/-- A write to a register and the note of its new value. -/
theorem State.onlyEvents_noteOwn_writeFields (s : State) (r : Reg) (a : RegAcc) :
    State.onlyEvents s ((s.writeFields r a).noteOwn r) [r] :=
  ⟨fun _ hq => State.reg_setReg_ne s _ fun e => hq (List.mem_append_right _ (List.mem_singleton.mpr e)), rfl⟩

theorem State.noted_of_uneventful {s u : State} {r : Reg} (hr : r ∉ eventRegs)
    (hu : u.uneventful = (s.noteOwn r).uneventful) : State.noted s u r := by
  have hc : u.jrnl.configs = (s.noteOwn r).jrnl.configs := congrArg (fun x => x.2.jrnl.configs) hu
  rw [State.noted, hc, State.reg_of_uneventful hu hr]
  rfl

theorem State.noted.congr {s u v : State} {r : Reg} (h : State.noted s u r) (hc : v.jrnl.configs = u.jrnl.configs)
    (hr : v.reg r = u.reg r) : State.noted s v r := by
  rw [State.noted, hc, hr]
  exact h

/-- A write to a register leaves the step and the phase of its note as they were. -/
theorem State.noted.of_writeFields {s u : State} {r : Reg} {a : RegAcc} (h : State.noted (s.writeFields r a) u r)
    (hn : r ≠ .STEP_NOW) (hp : r ≠ .STEP_PHASE) : State.noted s u r := by
  have hs : (s.writeFields r a).stepNow = s.stepNow := State.fld_writeFields_ne (Ne.symm hn)
  have hq : (s.writeFields r a).phi = s.phi := State.fld_writeFields_ne (Ne.symm hp)
  rw [State.noted, hs, hq] at h
  exact h

/-- What a write to a configuration register amounts to, when the write is noted and followed by events alone. -/
theorem State.configWritten_of_uneventful {s u : State} {r : Reg} {a : RegAcc} (hw : r.noW1c)
    (hr : r ∉ .STEP_NOW :: .STEP_PHASE :: eventRegs)
    (hu : u.uneventful = ((s.writeFields r a).noteOwn r).uneventful) : State.configWritten s u r a := by
  simp only [List.mem_cons, not_or] at hr
  obtain ⟨hn, hp, he⟩ := hr
  refine ⟨(s.onlyEvents_noteOwn_writeFields r a).of_uneventful hu,
    (State.noted_of_uneventful he hu).of_writeFields hn hp, fun f hf => ?_⟩
  rw [State.reg_of_uneventful hu he]
  exact State.bitsOf_writeFields hw hf

theorem State.configWritten_noteConfig {s : State} {r : Reg} {a : RegAcc} (hw : r.noW1c)
    (hr : r ∉ .STEP_NOW :: .STEP_PHASE :: eventRegs) (src : Source) :
    State.configWritten s ((s.writeFields r a).noteConfig r src) r a :=
  State.configWritten_of_uneventful hw hr (State.uneventful_noteConfig ..)

end Sys2Proof.Machine
end

section
/-! SUPPORT. Interrupt causes and the messages of vectors (R424, R425). -/

namespace Sys2Proof.Machine

/-- What is left of `a` without the bits of `b`. -/
theorem testBit_sub_and (a b i : Nat) : (a - (a &&& b)).testBit i = (a.testBit i && !b.testBit i) := by
  induction i generalizing a b with
  | zero =>
    have hle : a &&& b ≤ a := Nat.and_le_left
    have hm : (a &&& b) % 2 = 1 ↔ a % 2 = 1 ∧ b % 2 = 1 := Nat.and_mod_two_eq_one
    simp only [Nat.testBit_zero]
    grind
  | succ i ih =>
    have hle : a &&& b ≤ a := Nat.and_le_left
    have hm : (a &&& b) % 2 = 1 ↔ a % 2 = 1 ∧ b % 2 = 1 := Nat.and_mod_two_eq_one
    have hd : (a - (a &&& b)) / 2 = a / 2 - (a / 2 &&& b / 2) := by
      have := Nat.and_div_two (a := a) (b := b)
      omega
    rw [Nat.testBit_succ, hd, ih, Nat.testBit_succ, Nat.testBit_succ]

/-! ### Messages -/

/-- A state with the parts that a message changes taken from another. -/
def State.withMessages (s u : State) : State :=
  { s with regs := u.regs, intr := { s.intr with pba := u.intr.pba }, emitted := u.emitted }

/-- Messages have been sent or held, and nothing else. -/
def State.messaged (s u : State) : Prop := State.keeps s u [.INT_COUNT] ∧ u = s.withMessages u

theorem State.messaged_refl (s : State) : s.messaged s := ⟨fun _ _ => rfl, rfl⟩

theorem State.messaged.trans {s v u : State} (h : s.messaged v) (h' : v.messaged u) : s.messaged u := by
  obtain ⟨hk, he⟩ := h
  obtain ⟨hk', he'⟩ := h'
  refine ⟨fun r hr => (hk' r hr).trans (hk r hr), ?_⟩
  calc u = v.withMessages u := he'
    _ = (s.withMessages v).withMessages u := by rw [← he]
    _ = s.withMessages u := rfl

theorem State.messaged_incFld {s v : State} {f : Field} (hf : f.reg = .INT_COUNT) (h : s.messaged v) :
    s.messaged (v.incFld f) := by
  refine h.trans ⟨fun r hr => State.reg_setFld_ne v _ ?_, rfl⟩
  rw [hf]
  exact fun e => hr (List.mem_singleton.mpr e)

theorem State.messaged_sendVector (s : State) (i : Nat) : s.messaged (s.sendVector i) := by
  unfold State.sendVector
  split
  · split
    · split
      · exact State.messaged_incFld rfl ⟨fun _ _ => rfl, rfl⟩
      · exact State.messaged_incFld rfl ⟨fun _ _ => rfl, rfl⟩
    · exact s.messaged_refl
  · exact s.messaged_refl

theorem State.messaged_sendVectors (s : State) (set : Nat) : s.messaged (s.sendVectors set) := by
  unfold State.sendVectors
  induction List.range 16 generalizing s with
  | nil => exact s.messaged_refl
  | cons i l ih =>
    refine State.messaged.trans ?_ (ih _)
    dsimp only
    split
    · exact s.messaged_sendVector i
    · exact s.messaged_refl

theorem State.sendVectors_zero (s : State) : s.sendVectors 0 = s := by simp [State.sendVectors]

@[simp ↓] theorem State.calm_sendVectors (s : State) (set : Nat) : (s.sendVectors set).calm = s.calm :=
  State.calm_foldl (fun s i => by split <;> simp) _ s

/-- What a vector's message follows from: MSI-X Enable, the function mask, and the table. -/
theorem State.sendVector_control (s : State) (i : Nat) : (s.sendVector i).intr.enable = s.intr.enable ∧
    (s.sendVector i).intr.functionMask = s.intr.functionMask ∧ (s.sendVector i).intr.table = s.intr.table := by
  have h := s.calm_sendVector i
  exact ⟨congrArg (fun x => x.2.intr.enable) h, congrArg (fun x => x.2.intr.functionMask) h,
    congrArg (fun x => x.2.intr.table) h⟩

/-- What has left the block has left it. -/
theorem State.mem_emitted_sendVector {s : State} {x : Emission} (h : x ∈ s.emitted) (i : Nat) :
    x ∈ (s.sendVector i).emitted := by
  unfold State.sendVector
  split
  · split
    · split
      · exact h
      · exact List.mem_cons_of_mem _ h
    · exact h
  · exact h

/-- The message of an unmasked vector is sent. -/
theorem State.msix_mem_sendVector {s : State} {i : Nat} {e : Msix} (hen : s.intr.enable = true)
    (hfm : s.intr.functionMask = false) (ht : s.intr.table[i]? = some e) (hm : e.masked = false) :
    .msix i e.addr e.data ∈ (s.sendVector i).emitted := by
  simp [State.sendVector, hen, hfm, ht, hm]

theorem State.msix_mem_sendVectors {s : State} {set i : Nat} {e : Msix} (hi : i < 16) (hset : set.testBit i = true)
    (hen : s.intr.enable = true) (hfm : s.intr.functionMask = false) (ht : s.intr.table[i]? = some e)
    (hm : e.masked = false) : .msix i e.addr e.data ∈ (s.sendVectors set).emitted := by
  have hkeep : ∀ (l : List Nat) (v : State), .msix i e.addr e.data ∈ v.emitted →
      .msix i e.addr e.data ∈
        (l.foldl (fun s i => if set.testBit i then s.sendVector i else s) v).emitted := fun l => by
    induction l with
    | nil => exact fun v h => h
    | cons k l ih =>
      refine fun v h => ih _ ?_
      dsimp only
      split
      · exact State.mem_emitted_sendVector h k
      · exact h
  unfold State.sendVectors
  have hmem : i ∈ List.range 16 := List.mem_range.mpr hi
  revert hmem
  generalize List.range 16 = l
  intro hmem
  induction l generalizing s with
  | nil => cases hmem
  | cons k l ih =>
    rw [List.foldl_cons]
    cases hmem with
    | head =>
      rw [if_pos hset]
      exact hkeep l _ (State.msix_mem_sendVector hen hfm ht hm)
    | tail _ hmem =>
      split
      · obtain ⟨he, hf, hta⟩ := s.sendVector_control k
        exact ih (he.trans hen) (hf.trans hfm) ((congrArg (·[i]?) hta).trans ht) hmem
      · exact ih hen hfm ht hmem

/-! ### Causes -/

/-- A cause that is 1 stays 1 while others are set. -/
theorem State.cause_setCause {s : State} {i : Nat} (h : (s.fld Fld.INT_STAT_CAUSE).testBit i = true) (k : Nat) :
    ((s.setCause k).fld Fld.INT_STAT_CAUSE).testBit i = true := by
  have hi : i < 16 := by
    rw [State.fld, testBit_bitsOf] at h
    exact of_decide_eq_true (Bool.and_eq_true_iff.mp h).1
  unfold State.setCause
  dsimp only
  split
  · exact h
  · have hset : (((s.noteHw .INT_STAT (2 ^ k)).setFld Fld.INT_STAT_CAUSE
        ((s.noteHw .INT_STAT (2 ^ k)).fld Fld.INT_STAT_CAUSE ||| 2 ^ k)).fld Fld.INT_STAT_CAUSE).testBit i = true := by
      rw [State.fld_setFld _ _ _ (by decide), Nat.testBit_mod_two_pow, Nat.testBit_or]
      simp [show i < Fld.INT_STAT_CAUSE.w from hi, show ((s.noteHw .INT_STAT (2 ^ k)).fld Fld.INT_STAT_CAUSE).testBit i
        = true from h]
    split
    · rw [State.fld, show State.reg _ Fld.INT_STAT_CAUSE.reg = _ from
        State.reg_intStat_of_calm (State.calm_sendVector _ k)]
      exact hset
    · exact hset

theorem State.cause_of_calm {s u : State} (h : u.calm = s.calm) :
    u.fld Fld.INT_STAT_CAUSE = s.fld Fld.INT_STAT_CAUSE :=
  congrArg (fun v : W64 => bitsOf v.toNat 0 16) (State.reg_intStat_of_calm h)

/-- An event sets causes and clears none. -/
theorem State.cause_record {s : State} {i : Nat} (h : (s.fld Fld.INT_STAT_CAUSE).testBit i = true)
    (code payload : Nat) (src : Source) :
    ((s.record code payload src).fld Fld.INT_STAT_CAUSE).testBit i = true := by
  have hif : ∀ (v : State) (c : Bool) (k : Nat), (v.fld Fld.INT_STAT_CAUSE).testBit i = true →
      ((if c then v.setCause k else v).fld Fld.INT_STAT_CAUSE).testBit i = true := fun v c k hv => by
    split
    · exact State.cause_setCause hv k
    · exact hv
  rw [State.record_eq]
  split
  · rw [State.cause_of_calm (State.calm_limitRecord ..), State.recordCauses]
    apply hif
    apply hif
    rw [State.cause_of_calm s.calm_refillFirst]
    exact h
  · exact h

theorem State.cause_noteConfig {s : State} {i : Nat} (h : (s.fld Fld.INT_STAT_CAUSE).testBit i = true) (r : Reg)
    (src : Source) : ((s.noteConfig r src).fld Fld.INT_STAT_CAUSE).testBit i = true := by
  rw [State.noteConfig, State.noteChange, State.cause_of_calm (State.calm_stampFrames ..)]
  apply State.cause_record
  rw [State.fld_noteValue]
  exact h

/-! ### Writes to INT_STAT -/

/-- INT_STAT after a write: a cause written 1 is cleared unless hardware set it in this cycle (R11, R12). -/
theorem State.testBit_writeFields_intStat (s : State) (a : RegAcc) {i : Nat} (hi : i < 64) :
    ((s.writeFields .INT_STAT a).reg .INT_STAT).getLsbD i = ((s.reg .INT_STAT).getLsbD i &&
      !(decide (i < 16) && (accBits a).testBit i && !(s.hwMask .INT_STAT).testBit i)) := by
  have hl : Reg.INT_STAT.layout.foldl (writeField .INT_STAT a) (s.reg .INT_STAT) =
      insertBits (s.reg .INT_STAT) 0 16 (bitsOf (s.reg .INT_STAT).toNat 0 16 -
        (bitsOf (s.reg .INT_STAT).toNat 0 16 &&& bitsOf (accBits a) 0 16)) := rfl
  have hw : Reg.INT_STAT.w1cBits = 2 ^ 16 - 1 := rfl
  rw [State.writeFields, State.reg_setReg, hl, hw]
  rw [← BitVec.testBit_toNat, BitVec.toNat_or, Nat.testBit_or, testBit_insertBits _ _ _ _ _ (by decide),
    BitVec.toNat_and, Nat.testBit_and, BitVec.toNat_ofNat, Nat.testBit_mod_two_pow, Nat.testBit_and,
    Nat.testBit_two_pow_sub_one, testBit_sub_and, testBit_bitsOf, testBit_bitsOf, ← BitVec.testBit_toNat]
  by_cases h : i < 16
  · simp only [h, hi, decide_true, Bool.true_and, Nat.zero_le, Nat.zero_add, Nat.sub_zero, and_self, if_true,
      Bool.and_true]
    cases (s.reg .INT_STAT).toNat.testBit i <;> cases (accBits a).testBit i <;> simp
  · simp [h]

end Sys2Proof.Machine
end

section
/-! SUPPORT. A register access by its offset (R11, R418, R419, R421), and the writes that intake governs (R273, R291). -/

namespace Sys2Proof.Machine

/-! ### Offsets -/

theorem Reg.offset_assigned {r : Reg} (h : r ∈ Reg.all) : Reg.ofOffset r.offset = some r ∧ r.offset % 8 = 0 := by
  have ha : ∀ r ∈ Reg.all, Reg.ofOffset r.offset = some r ∧ r.offset % 8 = 0 := by decide +kernel
  exact ha r h

theorem execRegisterWrite_reached {t off : Nat} {a : RegAcc} {s : State} (h8 : off % 8 = 0)
    (hr : s.reachOff a.port off = true) : execRegisterWrite t off a s = .next ((s.tick t).writeAt a off) :=
  State.when_due (Bool.and_eq_true_iff.mpr ⟨beq_iff_eq.mpr h8, hr⟩)

theorem not_inOculus {off : Nat} (h : off < 0xD0000 ∨ 0xE0000 ≤ off) : inOculus off = false := by
  rw [inOculus]
  grind

theorem State.writeAt_reg {s : State} {a : RegAcc} {r : Reg} (h : r ∈ Reg.all)
    (ho : r.offset < 0xD0000 ∨ 0xE0000 ≤ r.offset) : s.writeAt a r.offset = s.writeReg a r := by
  simp [State.writeAt, not_inOculus ho, (Reg.offset_assigned h).1]

/-- A write to an offset of no register: the step-time block journals and records it, the others ignore it (R36,
R419). -/
theorem State.writeAt_unassigned {s : State} {a : RegAcc} {off : Nat} (h : Reg.ofOffset off = none)
    (hm : off < 0xC8000 ∨ 0xC8400 ≤ off) (ho : off < 0xD0000 ∨ 0xE0000 ≤ off) : s.writeAt a off =
      if inStepTime off then s.noteChange off 0 s.stepNow s.phi a.port.source else s := by
  have hx : (decide (0xC8000 ≤ off) && decide (off < 0xC8400)) = false := by grind
  simp [State.writeAt, not_inOculus ho, h, hx]

/-! ### Registers with no rule of their own -/

theorem State.writeReg_plain {s : State} {a : RegAcc} {r : Reg} (h : r ∈ plainRegs) :
    s.writeReg a r = s.writeFields (Reg.at a.port r) a := by
  simp only [plainRegs, List.mem_cons, List.not_mem_nil, or_false] at h
  rcases h with rfl | rfl | rfl | rfl | rfl | rfl | rfl | rfl | rfl <;> rfl

/-- Every register with a rule of its own has a field that is not read-only. -/
theorem State.writeReg_of_ro {s : State} {a : RegAcc} {r : Reg} (h : ∀ f ∈ r.layout, f.acc = .ro) :
    s.writeReg a r = if inStepTime r.offset then (s.writeFields (Reg.at a.port r) a).noteConfig r a.port.source
      else s.writeFields (Reg.at a.port r) a := by
  unfold State.writeReg
  split
  case h_38 => rfl
  all_goals exact absurd h (by decide)

/-- The management port's copy of a read-only register is read-only (R422). -/
theorem Reg.at_ro {r : Reg} (h : ∀ f ∈ r.layout, f.acc = .ro) (p : Port) : ∀ f ∈ (Reg.at p r).layout, f.acc = .ro := by
  have hr : ∀ r ∈ Reg.every, (∀ f ∈ r.layout, f.acc = .ro) → ∀ f ∈ (Reg.at .mgmt r).layout, f.acc = .ro := by
    decide +kernel
  cases p with
  | host => exact h
  | mgmt => exact hr r r.mem_every h

theorem State.writeReg_ro {s : State} {a : RegAcc} {r : Reg} (h : ∀ f ∈ r.layout, f.acc = .ro) :
    s.writeReg a r = if inStepTime r.offset then s.noteConfig r a.port.source else s := by
  rw [State.writeReg_of_ro h, State.writeFields_of_ro (Reg.at_ro h a.port)]

/-- No register that events change lies in the step-time block. -/
theorem not_mem_eventRegs_of_inStepTime {r : Reg} (h : inStepTime r.offset = true) : r ∉ eventRegs := by
  have he : ∀ r ∈ eventRegs, inStepTime r.offset = false := by decide
  exact fun hr => by simp [he r hr] at h

/-! ### INTAKE_STAT -/

/-- LOG_FULL shown after events: the slots' seal timers may stop or go on (R270). -/
theorem State.onlyEvents.showLog {s u : State} {rs : List Reg} (h : State.onlyEvents s u rs) :
    State.onlyEvents { s with intake := { s.intake with slots := u.showLog.intake.slots } } u.showLog
      (rs ++ [.INTAKE_STAT]) := by
  obtain ⟨hk, he⟩ := State.onlyEvents_iff.mp h
  have hk' : ∀ b, State.keeps s (u.setFlag Fld.INTAKE_STAT_LOG_FULL b) (eventRegs ++ (rs ++ [.INTAKE_STAT])) := by
    intro b r hr
    simp only [List.mem_append, List.mem_singleton, not_or] at hr
    obtain ⟨hn, hrs, hi⟩ := hr
    have hne : r ≠ Fld.INTAKE_STAT_LOG_FULL.reg := hi
    rw [State.setFlag, State.reg_setFld_ne u _ hne]
    exact hk r (by simp [hn, hrs])
  unfold State.showLog
  dsimp only
  split
  · exact State.onlyEvents_iff.mpr ⟨hk' _, by rw [he]; rfl⟩
  · exact State.onlyEvents_iff.mpr ⟨hk' _, by rw [he]; rfl⟩

theorem State.showLog_jrnl (s : State) : s.showLog.jrnl = s.jrnl := by
  unfold State.showLog
  dsimp only
  split <;> rfl

theorem State.reg_showLog {s : State} {r : Reg} (h : r ≠ .INTAKE_STAT) : s.showLog.reg r = s.reg r := by
  have hne : r ≠ Fld.INTAKE_STAT_LOG_FULL.reg := h
  unfold State.showLog
  dsimp only
  split
  · exact State.reg_setFld_ne s _ hne
  · exact State.reg_setFld_ne s _ hne

/-- What CHECK_POLICY shows of the durability policy, its event left out (R273, R274). -/
def State.showPolicy (s : State) : State :=
  let hold := s.policyShort && !s.flag Fld.DURABILITY_POLICY_ON_LOSS
  let degraded := s.policyShort && s.flag Fld.DURABILITY_POLICY_ON_LOSS
  (({ s with jrnl := { s.jrnl with short := s.policyShort } } : State).setFlag Fld.INTAKE_STAT_DUR_HOLD hold).setFlag
    Fld.INTAKE_STAT_DUR_DEGRADED degraded

theorem State.uneventful_checkPolicy (s : State) : s.checkPolicy.uneventful = s.showPolicy.uneventful := by
  unfold State.checkPolicy State.showPolicy
  cases hs : s.policyShort with
  | false => rfl
  | true =>
    dsimp only
    rw [if_pos rfl]
    cases s.flag Fld.DURABILITY_POLICY_ON_LOSS <;> cases s.jrnl.short <;> simp

theorem State.reg_showPolicy {s : State} {r : Reg} (h : r ≠ .INTAKE_STAT) : s.showPolicy.reg r = s.reg r := by
  have h1 : r ≠ Fld.INTAKE_STAT_DUR_HOLD.reg := h
  have h2 : r ≠ Fld.INTAKE_STAT_DUR_DEGRADED.reg := h
  dsimp only [State.showPolicy]
  rw [State.setFlag, State.reg_setFld_ne _ _ h2, State.setFlag, State.reg_setFld_ne _ _ h1]
  rfl

theorem State.onlyEvents.showPolicy {s u : State} {rs : List Reg} (h : State.onlyEvents s u rs) :
    State.onlyEvents { s with jrnl := { s.jrnl with short := u.showPolicy.jrnl.short } } u.showPolicy
      (rs ++ [.INTAKE_STAT]) := by
  obtain ⟨hk, he⟩ := State.onlyEvents_iff.mp h
  refine State.onlyEvents_iff.mpr ⟨fun r hr => ?_, by rw [he]; rfl⟩
  simp only [List.mem_append, List.mem_singleton, not_or] at hr
  obtain ⟨hn, hrs, hi⟩ := hr
  exact (State.reg_showPolicy hi).trans (hk r (by simp [hn, hrs]))

end Sys2Proof.Machine
end

section
/-! SUPPORT. The scope: register writes, interrupts and the configuration of intake. -/

namespace Sys2Proof.Machine

/-! ### Register accesses -/

theorem Reg.noW1c_at_plain {r : Reg} (h : r ∈ plainRegs) (p : Port) : (Reg.at p r).noW1c := by
  have hp : ∀ r ∈ plainRegs, (∀ f ∈ (Reg.at .host r).layout, f.acc ≠ .w1c) ∧
      ∀ f ∈ (Reg.at .mgmt r).layout, f.acc ≠ .w1c := by decide
  cases p with
  | host => exact (hp r h).1
  | mgmt => exact (hp r h).2

theorem plainRegs_place {r : Reg} (h : r ∈ plainRegs) : r ∈ Reg.all ∧ r.offset < 0xD0000 := by
  have hp : ∀ r ∈ plainRegs, r ∈ Reg.all ∧ r.offset < 0xD0000 := by decide
  exact hp r h

/-- Settles O7: a plain register's write is a write of the fields of the port's own copy, and HOST_WIN's is noted
besides. -/
theorem plainRegisterWrite : Obligations.PlainRegisterWrite := by
  refine ⟨fun r hr t a s hreach => ?_, fun t a s hreach => ?_⟩
  · obtain ⟨hall, hoff⟩ := plainRegs_place hr
    refine ⟨_, execRegisterWrite_reached (Reg.offset_assigned hall).2 hreach, ?_⟩
    rw [State.writeAt_reg hall (.inl hoff), State.writeReg_plain hr]
    exact State.fieldsWritten_writeFields (Reg.noW1c_at_plain hr a.port)
  · refine ⟨_, execRegisterWrite_reached (by decide) hreach, ?_⟩
    rw [State.writeAt_reg (by decide) (by decide)]
    exact State.configWritten_noteConfig (show ∀ f ∈ Reg.HOST_WIN.layout, f.acc ≠ .w1c by decide) (by decide) _

/-- What DEV_ACCESS shows of a bad access (R418). -/
theorem State.badAccess_fields (s : State) (p : Port) {off : Nat} (h : off < 2 ^ 26) :
    (s.fld Fld.DEV_ACCESS_BAD_ACCESSES < 2 ^ 32 - 1 →
      (s.badAccess p off).fld Fld.DEV_ACCESS_BAD_ACCESSES = s.fld Fld.DEV_ACCESS_BAD_ACCESSES + 1) ∧
    (s.badAccess p off).fld Fld.DEV_ACCESS_LAST_OFFSET = off := by
  have hp : ∀ (v : State) (n : Nat) (g : Field), g.reg = .DEV_ACCESS → g.lo + g.w ≤ 58 →
      (v.setFld Fld.DEV_ACCESS_LAST_PORT n).fld g = v.fld g := fun v n g hg hw =>
    State.fld_setFld_apart v n hg (by decide) (.inl hw)
  have hl : ∀ (v : State), (v.setFld Fld.DEV_ACCESS_LAST_OFFSET off).fld Fld.DEV_ACCESS_BAD_ACCESSES =
      v.fld Fld.DEV_ACCESS_BAD_ACCESSES := fun v => State.fld_setFld_apart v off rfl (by decide) (by decide)
  unfold State.badAccess State.setFlag State.incFld State.addFld
  refine ⟨fun hc => ?_, ?_⟩
  · rw [hp _ _ _ rfl (by decide), hl, State.fld_setFld _ _ _ (by decide), Nat.mod_eq_of_lt (satAdd_lt _ _ _), satAdd]
    exact Nat.min_eq_left (Nat.succ_le_of_lt hc)
  · rw [hp _ _ _ rfl (by decide), State.fld_setFld _ _ _ (by decide)]
    exact Nat.mod_eq_of_lt h

/-- Settles O8: read-only fields keep their values and unassigned offsets none; a bad access counts. -/
theorem ignoredAndBadAccesses : Obligations.IgnoredAndBadAccesses := by
  refine ⟨⟨fun r t a s hall hro ho hreach => ?_, fun off t a s hnone h8 hm ho hreach => ?_⟩,
    fun t p off s hoff hreach => ?_⟩
  · have hx := execRegisterWrite_reached (t := t) (Reg.offset_assigned hall).2 hreach
    rw [State.writeAt_reg hall ho, State.writeReg_ro hro] at hx
    refine ⟨fun hst => hx.trans (by rw [if_neg (by simp [hst])]), fun hst => ?_⟩
    rw [if_pos hst] at hx
    exact ⟨_, hx, (State.onlyEvents_noteValue ..).of_uneventful (State.uneventful_noteConfig ..),
      State.noted_of_uneventful (not_mem_eventRegs_of_inStepTime hst) (State.uneventful_noteConfig ..)⟩
  · have hx := execRegisterWrite_reached (t := t) h8 hreach
    rw [State.writeAt_unassigned hnone hm ho] at hx
    refine ⟨fun hst => hx.trans (by rw [if_neg (by simp [hst])]), fun hst => ?_⟩
    rw [if_pos hst] at hx
    exact ⟨_, hx, (State.onlyEvents_noteValue ..).of_uneventful (State.uneventful_noteChange ..)⟩
  · have hx : ∀ w, execBar0BadAccess t p w off s = .next
        (if w then (s.tick t).badAccess p off else ((s.tick t).badAccess p off).answer p 0) := fun w =>
      State.when_due (Bool.and_eq_true_iff.mpr ⟨decide_eq_true hoff, hreach⟩)
    obtain ⟨hcount, hlast⟩ := (s.tick t).badAccess_fields p hoff
    refine ⟨hx true, (hx false).trans ?_, hcount, hlast⟩
    cases p <;> rfl

/-! ### Interrupts -/

/-- A write to INT_STAT changes INT_STAT as its fields say, and sends messages (R11, R12, R425). -/
theorem State.intStatClear_messaged (s : State) (a : RegAcc) :
    (s.writeFields .INT_STAT a).messaged (s.intStatClear a) := State.messaged_sendVectors ..

theorem State.reg_intStatClear (s : State) (a : RegAcc) :
    (s.intStatClear a).reg .INT_STAT = (s.writeFields .INT_STAT a).reg .INT_STAT :=
  (s.intStatClear_messaged a).1 _ (by decide)

/-- With nothing set in the cycle, a write to INT_STAT sends no message. -/
theorem State.intStatClear_of_none_set {s : State} (a : RegAcc) (h : s.hwMask .INT_STAT = 0) :
    s.intStatClear a = s.setReg .INT_STAT ((s.intStatClear a).reg .INT_STAT) := by
  have hw : s.intStatClear a = s.writeFields .INT_STAT a := by simp [State.intStatClear, h, State.sendVectors_zero]
  rw [hw]
  exact s.writeFields_eq_setReg .INT_STAT a

theorem Reg.noW1c_intEnable : Reg.INT_ENABLE.noW1c :=
  show ∀ f ∈ Reg.INT_ENABLE.layout, f.acc ≠ .w1c by decide

/-- A write to INT_ENABLE is, but for its events, its fields written and noted. -/
theorem State.uneventful_intEnable (s : State) (a : RegAcc) :
    (s.intEnable a).uneventful = ((s.writeFields .INT_ENABLE a).noteOwn .INT_ENABLE).uneventful :=
  (State.uneventful_of_calm (State.calm_sendVectors ..)).trans (State.uneventful_noteConfig ..)

/-- ENABLE after events takes the bits that the access carries. -/
theorem State.fld_enable_of_uneventful {s u : State} {a : RegAcc} {n : Nat}
    (hu : u.uneventful = ((s.writeFields .INT_ENABLE a).noteOwn .INT_ENABLE).uneventful)
    (ha : accField a Fld.INT_ENABLE_ENABLE = some n) : u.fld Fld.INT_ENABLE_ENABLE = n := by
  rw [State.fld_of_uneventful hu (by decide), State.noteOwn, State.fld_noteValue]
  exact State.fld_writeFields (f := Fld.INT_ENABLE_ENABLE) Reg.noW1c_intEnable (by decide) ha rfl

/-- The message of a vector newly enabled over a cause is sent (R425). -/
theorem State.msix_mem_intEnable {s : State} {a : RegAcc} {n i : Nat} {e : Msix}
    (ha : accField a Fld.INT_ENABLE_ENABLE = some n) (hi : i < 16) (hn : n.testBit i = true)
    (hold : (s.fld Fld.INT_ENABLE_ENABLE).testBit i = false) (hc : (s.fld Fld.INT_STAT_CAUSE).testBit i = true)
    (hen : s.intr.enable = true) (ht : s.intr.table[i]? = some e) (hm : e.masked = false)
    (hfm : s.intr.functionMask = false) : .msix i e.addr e.data ∈ (s.intEnable a).emitted := by
  have hq := State.uneventful_noteConfig (s.writeFields .INT_ENABLE a) .INT_ENABLE a.port.source
  have hnew : ((s.writeFields .INT_ENABLE a).noteConfig .INT_ENABLE a.port.source).fld Fld.INT_ENABLE_ENABLE = n :=
    State.fld_enable_of_uneventful hq ha
  have hcause : (((s.writeFields .INT_ENABLE a).noteConfig .INT_ENABLE a.port.source).fld
      Fld.INT_STAT_CAUSE).testBit i = true := by
    apply State.cause_noteConfig
    rw [State.fld_writeFields_ne (by decide)]
    exact hc
  refine State.msix_mem_sendVectors hi ?_ ((congrArg (fun x => x.2.intr.enable) hq).trans hen)
    ((congrArg (fun x => x.2.intr.functionMask) hq).trans hfm)
    ((congrArg (fun x => x.2.intr.table[i]?) hq).trans ht) hm
  rw [Nat.testBit_and, testBit_sub_and, hnew, hcause, hn, hold]
  rfl

/-- Settles O10: INT_STAT's fields clear what is written 1 and not set in the cycle; INT_ENABLE's message goes out for
each bit newly enabled over a cause. -/
theorem intStatAndEnable : Obligations.IntStatAndEnable := by
  refine ⟨fun t a s hreach => ?_, fun t n a s hreach ha => ?_⟩
  · have hx : exec (.intStatClear t a) s = .next ((s.tick t).intStatClear a) := 
      State.access_reached (f := fun s => s.intStatClear a) hreach
    obtain ⟨hk, he⟩ := (s.tick t).intStatClear_messaged a
    refine ⟨_, hx, fun r hr => ?_, he, fun i hi => ?_, (s.tick t).intStatClear_of_none_set a⟩
    · simp only [List.mem_cons, List.not_mem_nil, or_false, not_or] at hr
      exact (hk r (by simp [hr.2])).trans (State.reg_writeFields_ne hr.1)
    · rw [State.reg_intStatClear]
      exact (s.tick t).testBit_writeFields_intStat a hi
  · have hx : exec (.intEnableWrite t a) s = .next ((s.tick t).intEnable a) := 
      State.access_reached (f := fun s => s.intEnable a) hreach
    have hq := (s.tick t).uneventful_intEnable a
    obtain ⟨hev, hnoted, _⟩ := State.configWritten_of_uneventful Reg.noW1c_intEnable (by decide) hq
    exact ⟨_, hx, State.fld_enable_of_uneventful hq ha, hev, hnoted,
      fun i e hi hn hold hc hen ht hm hfm => State.msix_mem_intEnable ha hi hn hold hc hen ht hm hfm⟩

/-- The row of the moderation timer, where receipts are unreleased and the timer runs (R426). -/
theorem execReceiptModerationTimer_running {t c : Nat} {s : State} (hup : s.cUp = true) (hu : s.intr.u ≠ 0)
    (htimer : s.intr.timer = some c) (hm : s.intr.modTime ≠ 0) : execReceiptModerationTimer t s =
      .next (if c + s.intr.modTime ≤ max s.now t then
        ({ s.tick t with intr := { s.intr with releasedAt := some (c + s.intr.modTime) } } : State).releaseReceipts
      else s.tick t) := by
  have he : (s.tick t).modExpiry = some (c + s.intr.modTime) := by simp [State.modExpiry, htimer, hm]
  have hn : (s.tick t).now = max s.now t := rfl
  have hu' : ((s.tick t).intr.u != 0) = true := bne_iff_ne.mpr hu
  simp only [execReceiptModerationTimer, State.when_next, he, hn, hu', State.cUp_tick, hup, Bool.true_and,
    decide_eq_true_eq]
  rfl

/-- Settles O12: INT_MOD's write is a configuration write that leaves the timer; the timer releases at its expiry. -/
theorem receiptModeration : Obligations.ReceiptModeration := by
  refine ⟨fun t a s hreach => ?_, fun t c s hup hu htimer hm => ⟨fun hdue => ?_, fun hearly => ?_⟩⟩
  · have hx : exec (.intModWrite t a) s = .next ((s.tick t).intMod a) :=
      State.access_reached (f := fun s => s.intMod a) hreach
    have hq := State.uneventful_noteConfig ((s.tick t).writeFields .INT_MOD a) .INT_MOD a.port.source
    exact ⟨_, hx, State.configWritten_noteConfig (show ∀ f ∈ Reg.INT_MOD.layout, f.acc ≠ .w1c by decide) (by decide) _,
      congrArg (fun x => x.2.intr.u) hq, congrArg (fun x => x.2.intr.timer) hq,
      congrArg (fun x => x.2.intr.modCount) hq, congrArg (fun x => x.2.intr.modTime) hq⟩
  · have hx := execReceiptModerationTimer_running (t := t) hup hu htimer hm
    rw [if_pos hdue] at hx
    exact hx
  · have hx := execReceiptModerationTimer_running (t := t) hup hu htimer hm
    rw [if_neg (by omega)] at hx
    exact hx

/-! ### Intake -/

/-- A write to a configuration register of intake that comes while it may not change is refused (R291). -/
theorem State.intakeConfig_refused {s : State} {r : Reg} (a : RegAcc) (h : s.intakeOn = true ∨
    (r = .INTAKE_NEXT_SEQ ∧ ∃ o ∈ s.intake.orders, o.phase ≠ .journaled)) :
    s.intakeConfig r a = s.record 0x100E (r.offset % 65536) a.port.source := by
  refine if_pos (Bool.or_eq_true_iff.mpr (h.imp_right fun ⟨hr, o, ho, hp⟩ => ?_))
  rw [hr]
  exact List.any_eq_true.mpr ⟨o, ho, bne_iff_ne.mpr hp⟩

/-- A write to a configuration register of intake that is taken: its fields are written and noted, and LOG_FULL
follows (R270, R291). -/
theorem State.intakeConfig_taken {s : State} {r : Reg} (a : RegAcc) (hoff : s.intakeOn = false)
    (h : ∀ o ∈ s.intake.orders, o.phase = .journaled) :
    s.intakeConfig r a = ((s.writeFields r a).noteConfig r a.port.source).showLog := by
  have ho : s.intake.orders.any (·.accepted) = false :=
    List.any_eq_false.mpr fun o ho => by simp [Order.accepted, h o ho]
  rw [State.intakeConfig, hoff, ho]
  simp

/-- What a write that is taken amounts to, for a register whose fields nothing else of the write touches. -/
theorem State.intakeConfig_written {s : State} {r : Reg} {a : RegAcc} (hw : r.noW1c)
    (hr : r ∉ .STEP_NOW :: .STEP_PHASE :: eventRegs) (hi : r ≠ .INTAKE_STAT) :
    let u := ((s.writeFields r a).noteConfig r a.port.source).showLog
    State.onlyEvents { s with intake := { s.intake with slots := u.intake.slots } } u [r, .INTAKE_STAT] ∧
      State.noted s u r ∧
      ∀ f ∈ r.layout, bitsOf (u.reg r).toNat f.lo f.w = fieldAfter r a f (bitsOf (s.reg r).toNat f.lo f.w) := by
  obtain ⟨hev, hnoted, hfields⟩ := State.configWritten_noteConfig (s := s) (a := a) hw hr a.port.source
  refine ⟨hev.showLog, hnoted.congr (by rw [State.showLog_jrnl]) (State.reg_showLog hi), fun f hf => ?_⟩
  rw [State.reg_showLog hi]
  exact hfields f hf

/-- The register that an INTAKE_CONFIG_WRITE names. -/
def intakeRegister : IntakeReg → Reg
  | .nextSeq => .INTAKE_NEXT_SEQ
  | .base => .RECEIPT_BASE
  | .size => .RECEIPT_SIZE

theorem intakeRegister_plain (which : IntakeReg) : (intakeRegister which).noW1c ∧
    intakeRegister which ∉ .STEP_NOW :: .STEP_PHASE :: eventRegs ∧ intakeRegister which ≠ .INTAKE_STAT := by
  have h : (∀ f ∈ (intakeRegister which).layout, f.acc ≠ .w1c) ∧
      intakeRegister which ∉ .STEP_NOW :: .STEP_PHASE :: eventRegs ∧ intakeRegister which ≠ .INTAKE_STAT := by
    cases which <;> decide
  exact h

theorem execIntakeConfigWrite_reached {which : IntakeReg} {t : Nat} {a : RegAcc} {s : State}
    (h : s.reach a.port (intakeRegister which) = true) :
    execIntakeConfigWrite t which a s = .next ((s.tick t).intakeConfig (intakeRegister which) a) :=
  State.access_reached (f := fun s => s.intakeConfig (intakeRegister which) a) h

theorem Reg.noW1c_durabilityPolicy : Reg.DURABILITY_POLICY.noW1c :=
  show ∀ f ∈ Reg.DURABILITY_POLICY.layout, f.acc ≠ .w1c by decide

/-- A policy noted, and then shown with events: what the write of it amounts to (R273, R274). -/
theorem State.policy_shown {s x u : State} (hx : State.onlyEvents s x [.DURABILITY_POLICY])
    (hn : State.noted s x .DURABILITY_POLICY) (hu : u.uneventful = x.showPolicy.uneventful) :
    State.noted s u .DURABILITY_POLICY ∧
    State.onlyEvents { s with jrnl := { s.jrnl with short := u.jrnl.short } } u [.DURABILITY_POLICY, .INTAKE_STAT] ∧
    u.fld Fld.DURABILITY_POLICY_POLICY = x.fld Fld.DURABILITY_POLICY_POLICY := by
  have hr : u.reg .DURABILITY_POLICY = x.reg .DURABILITY_POLICY :=
    (State.reg_of_uneventful hu (by decide)).trans (State.reg_showPolicy (by decide))
  have hs : u.jrnl.short = x.showPolicy.jrnl.short := congrArg (fun v => v.2.jrnl.short) hu
  refine ⟨hn.congr (congrArg (fun v => v.2.jrnl.configs) hu) hr, ?_, congrArg (fun v : W64 => bitsOf v.toNat 0 2) hr⟩
  rw [hs]
  exact hx.showPolicy.of_uneventful hu

/-- The policy put back and noted, which is what a refused write of it does first. -/
def State.policyKept (s : State) (a : RegAcc) : State :=
  ((s.writeFields .DURABILITY_POLICY a).setFld Fld.DURABILITY_POLICY_POLICY s.policyNow).noteOwn .DURABILITY_POLICY

theorem State.policyKept_effect (s : State) (a : RegAcc) :
    State.onlyEvents s (s.policyKept a) [.DURABILITY_POLICY] ∧
    State.noted s (s.policyKept a) .DURABILITY_POLICY ∧
    (s.policyKept a).fld Fld.DURABILITY_POLICY_POLICY = s.policyNow := by
  have hfld : ∀ f : Field, f.reg ≠ .DURABILITY_POLICY → ((s.writeFields .DURABILITY_POLICY a).setFld
      Fld.DURABILITY_POLICY_POLICY s.policyNow).fld f = s.fld f := fun f hf => by
    rw [State.fld_setFld_ne _ _ (show f.reg ≠ Fld.DURABILITY_POLICY_POLICY.reg from hf), State.fld_writeFields_ne hf]
  refine ⟨⟨fun r hr => ?_, rfl⟩, ?_, ?_⟩
  · have hne : r ≠ .DURABILITY_POLICY := fun e => hr (List.mem_append_right _ (List.mem_singleton.mpr e))
    exact (State.reg_setFld_ne _ _ hne).trans (State.reg_writeFields_ne hne)
  · have hs := hfld Fld.STEP_NOW_STEP (by decide)
    have hp := hfld Fld.STEP_PHASE_PHASE (by decide)
    rw [State.noted, State.stepNow, State.phi, ← hs, ← hp]
    rfl
  · rw [State.policyKept, State.noteOwn, State.fld_noteValue, State.fld_setFld _ _ _ (by decide)]
    exact Nat.mod_eq_of_lt (bitsOf_lt _ _ _)

/-- The two branches of a write of POLICY: without option J, ONE and BOTH are refused (R273). -/
theorem State.policyWrite_eq {s : State} {a : RegAcc} {n : Nat}
    (ha : accField a Fld.DURABILITY_POLICY_POLICY = some n) (hn : n < 3) : s.policyWrite a =
      if s.optJ = false ∧ n ≠ 0 then ((s.policyKept a).checkPolicy).record 0x100B 0 a.port.source
      else ((s.writeFields .DURABILITY_POLICY a).noteConfig .DURABILITY_POLICY a.port.source).checkPolicy := by
  have hj : (s.writeFields .DURABILITY_POLICY a).optJ = s.optJ := by
    rw [State.optJ, State.optJ, State.flag, State.flag, State.fld_writeFields_ne (by decide)]
  have hc : (!s.optJ && (n == 1 || n == 2)) = true ↔ s.optJ = false ∧ n ≠ 0 := by
    simp only [Bool.and_eq_true, Bool.not_eq_true', Bool.or_eq_true, beq_iff_eq]
    exact and_congr_right fun _ => by omega
  simp only [State.policyWrite, ha, Option.getD_some, hj, hc]
  rfl

/-- Settles O37: the two outcomes of an intake configuration write, and of a write of the durability policy. -/
theorem intakeConfiguration : Obligations.IntakeConfiguration := by
  refine ⟨fun which t a s => ?_, fun t n a s hreach ha hn => ?_⟩
  · show s.reach a.port (intakeRegister which) = true → _
    intro hreach
    have hx := execIntakeConfigWrite_reached (t := t) hreach
    obtain ⟨hw, hout, hi⟩ := intakeRegister_plain which
    refine ⟨fun h => ?_, fun hoff h => ⟨_, ?_, State.intakeConfig_written hw hout hi⟩⟩
    · exact hx.trans (congrArg _ (State.intakeConfig_refused a (h.imp_right fun ⟨he, ho⟩ => ⟨by rw [he]; rfl, ho⟩)))
    · exact hx.trans (congrArg _ (State.intakeConfig_taken a hoff h))
  · have hx : exec (.durabilityPolicyWrite t a) s = .next ((s.tick t).policyWrite a) :=
      State.access_reached (f := fun s => s.policyWrite a) hreach
    have hj : (s.tick t).optJ = s.optJ := rfl
    rw [State.policyWrite_eq ha hn, hj] at hx
    by_cases hc : s.optJ = false ∧ n ≠ 0
    · obtain ⟨hev, hnoted, hfld⟩ := (s.tick t).policyKept_effect a
      obtain ⟨hnoted', hev', hfld'⟩ := State.policy_shown hev hnoted
        ((State.uneventful_record _ 0x100B 0 a.port.source).trans (State.uneventful_checkPolicy _))
      refine ⟨_, hx.trans (by rw [if_pos hc]), hnoted', hev', ?_, fun _ _ => ⟨_, rfl⟩⟩
      rw [if_pos hc, hfld', hfld]
      rfl
    · obtain ⟨hev, hnoted, _⟩ := State.configWritten_noteConfig (s := s.tick t) (a := a) Reg.noW1c_durabilityPolicy
        (by decide) a.port.source
      obtain ⟨hnoted', hev', hfld'⟩ := State.policy_shown hev hnoted (State.uneventful_checkPolicy _)
      refine ⟨_, hx.trans (by rw [if_neg hc]), hnoted', hev', ?_, fun hj h0 => absurd ⟨hj, h0⟩ hc⟩
      rw [if_neg hc, hfld', State.fld_of_uneventful (State.uneventful_noteConfig ..) (by decide), State.noteOwn,
        State.fld_noteValue]
      exact State.fld_writeFields (f := Fld.DURABILITY_POLICY_POLICY) Reg.noW1c_durabilityPolicy (by decide) ha
        (bne_iff_ne.mpr (by omega))

end Sys2Proof.Machine
end

section
/-! SUPPORT. The scope: the power-up sequence, whose stage 6 engages a spare pair on a journal port that is not fitted. -/

namespace Sys2Proof.Machine

/-- Stage 6 with option J absent, where the spare pair of a journal port carries lane 0 all the same. -/
def strayRole : State :=
  { (State.reset.setFld Fld.DEV_BOOT_STAGE 6).setFlag Fld.DEV_GRADE_OPT_J false with
    pwr := { PwrSt.reset with rails := true }
    ports := { PortSt.reset with lanes := [⟨1, 4, 0, false, 0, 0, 0, 0, 0⟩] } }

/-- Its bring-up counts that spare pair as engaged (R327, R292). -/
theorem opticalBringUp_strayRole : ∃ u, exec (.opticalBringUp 0 []) strayRole = .next u ∧
    u.fld Fld.SPARE_UNITS_OPT_LANES = 1 ∧ strayRole.fld Fld.SPARE_UNITS_OPT_LANES = 0 :=
  ⟨_, rfl, by decide +kernel, by decide +kernel⟩

/-- Refutes O47: with the entropy start still to end, the end of stage 6 is said to change no register. The statement
bounds the roles of no lane, and OPTICAL_BRING_UP gives a role to the pairs of fitted ports alone; so a spare pair of an
unfitted journal port that stands with a role other than 31 is engaged, which counts it in SPARE_UNITS. (Reset gives
every pair role 31.) -/
theorem not_bootSequence : ¬ Obligations.BootSequence := by
  intro h
  obtain ⟨u, hu, hone, hzero⟩ := opticalBringUp_strayRole
  obtain ⟨-, -, -, -, -, -, hstage6⟩ := h 0 strayRole rfl (by decide +kernel) rfl
  obtain ⟨hwaits, -⟩ := hstage6 (by decide +kernel) rfl rfl (by decide)
  obtain ⟨v, hv, -, -, -, hregs⟩ := hwaits rfl
  cases hu.symm.trans hv
  have hsame : u.fld Fld.SPARE_UNITS_OPT_LANES = strayRole.fld Fld.SPARE_UNITS_OPT_LANES := by
    rw [State.fld, State.fld, State.reg, State.reg, hregs]
  rw [hone, hzero] at hsame
  exact absurd hsame (by decide)

end Sys2Proof.Machine
end

section
/-! SUPPORT. What a step shows of itself: its index, phase, lag and overrun, the run it belongs to, its digest, and the
chain states it starts from. Faults being settled, reports, spares, modes and journal frames leave all of it alone. -/

namespace Sys2Proof.Machine

/-- The fields that show where a run and its step stand. -/
def stepFields : List Field :=
  [Fld.STEP_NOW_STEP, Fld.STEP_PHASE_PHASE, Fld.STEP_PHASE_LAG, Fld.STEP_STAT_OVERRUN, Fld.DEV_STAT_RUNNING,
    Fld.RUN_NEXT_STEP_STEP, Fld.SPARE_UNITS_HBM_REPAIRS, Fld.PWR_STATE_PENDING]

/-- Two fields of registers share no bit. -/
def Field.apart (f g : Field) : Bool := g.reg != f.reg || decide (g.lo + g.w ≤ f.lo) || decide (f.lo + f.w ≤ g.lo)

/-- A field that shares no bit with those of a step. -/
def Field.offStep (f : Field) : Bool := decide (f.lo + f.w ≤ 64) && stepFields.all f.apart

/-- What a step shows of itself. -/
structure StepView where
  now : Nat
  shows : Field → Nat
  run : Option RunSt
  stepOn : Bool
  startedAt : Nat
  phaseAt : Nat
  applied : List (Mark × Option Nat)
  recovering : Option ResetKind
  rerunTo : Option Nat
  closed : Bool
  digestStep : Nat
  digest : Nat
  data : PlanData
  chain : ChainSt
  shadow : ChainSt
  throughput : Bool
  orders : List Order

def State.stepView (s : State) : StepView where
  now := s.now
  shows f := if f ∈ stepFields then s.fld f else 0
  run := s.stept.run
  stepOn := s.stept.stepOn
  startedAt := s.stept.startedAt
  phaseAt := s.stept.phaseAt
  applied := s.stept.applied
  recovering := s.boot.recovering
  rerunTo := s.dig.rerunTo
  closed := s.dig.valid
  digestStep := s.dig.step
  digest := s.dig.value
  data := s.plan.data
  chain := s.ex.chain
  shadow := s.ex.shadow
  throughput := s.slog.throughput
  orders := s.intake.orders

/-! ### Registers -/

theorem State.stepView_congr {s u : State} (hf : ∀ f ∈ stepFields, u.fld f = s.fld f)
    (hr : ({ u with regs := s.regs } : State).stepView = s.stepView) : u.stepView = s.stepView := by
  have hshows : u.stepView.shows = s.stepView.shows := funext fun f => by
    dsimp only [State.stepView]
    split
    · exact hf f ‹_›
    · rfl
  calc u.stepView = { ({ u with regs := s.regs } : State).stepView with shows := u.stepView.shows } := rfl
    _ = s.stepView := by rw [hr, hshows]

theorem State.fld_setFld_of_apart (s : State) {f g : Field} (n : Nat) (hw : f.lo + f.w ≤ 64) (h : f.apart g = true) :
    (s.setFld f n).fld g = s.fld g := by
  simp only [Field.apart, Bool.or_eq_true, bne_iff_ne, decide_eq_true_eq] at h
  by_cases hr : g.reg = f.reg
  · exact s.fld_setFld_apart n hr hw (by tauto)
  · exact s.fld_setFld_ne n hr

/-- A field apart from those of a step may change. -/
@[simp ↓] theorem State.stepView_setFld (s : State) {f : Field} (n : Nat) (h : f.offStep = true) :
    (s.setFld f n).stepView = s.stepView := by
  rw [Field.offStep, Bool.and_eq_true, decide_eq_true_eq, List.all_eq_true] at h
  exact State.stepView_congr (fun g hg => s.fld_setFld_of_apart n h.1 (h.2 g hg)) rfl

@[simp ↓] theorem State.stepView_setReg (s : State) {r : Reg} (v : W64) (h : ∀ f ∈ stepFields, f.reg ≠ r) :
    (s.setReg r v).stepView = s.stepView :=
  State.stepView_congr (fun g hg => by rw [State.fld, State.reg_setReg_ne s v (h g hg), State.fld]) rfl

/-- A view in which a field is given a value. -/
def StepView.put (v : StepView) (f : Field) (n : Nat) : StepView :=
  { v with shows := Function.update v.shows f (n % 2 ^ f.w) }

theorem StepView.shows_put (v : StepView) (f : Field) (n : Nat) : (v.put f n).shows f = n % 2 ^ f.w :=
  Function.update_self ..

theorem StepView.shows_put_ne (v : StepView) {f g : Field} (n : Nat) (h : g ≠ f) : (v.put f n).shows g = v.shows g :=
  Function.update_of_ne h ..

/-- A field of a step is given a value. -/
theorem State.stepView_setFld_self (s : State) {f : Field} (n : Nat) (hf : f ∈ stepFields) :
    (s.setFld f n).stepView = s.stepView.put f n := by
  have hwide : ∀ f ∈ stepFields, f.lo + f.w ≤ 64 := by decide
  have hapart : ∀ f ∈ stepFields, ∀ g ∈ stepFields, g ≠ f → f.apart g = true := by decide
  have hshows : (s.setFld f n).stepView.shows = (s.stepView.put f n).shows := funext fun g => by
    by_cases hg : g = f
    · subst hg
      rw [StepView.shows_put]
      exact (if_pos hf).trans (s.fld_setFld _ _ (hwide g hf))
    · rw [StepView.shows_put_ne _ _ hg]
      by_cases hm : g ∈ stepFields
      · exact (if_pos hm).trans ((s.fld_setFld_of_apart n (hwide f hf) (hapart f hf g hm hg)).trans (if_pos hm).symm)
      · exact (if_neg hm).trans (if_neg hm).symm
  calc (s.setFld f n).stepView = { s.stepView with shows := (s.setFld f n).stepView.shows } := rfl
    _ = s.stepView.put f n := by rw [hshows]; rfl

@[simp ↓] theorem State.stepView_setFlag (s : State) {f : Field} (b : Bool) (h : f.offStep = true) :
    (s.setFlag f b).stepView = s.stepView := s.stepView_setFld _ h

@[simp ↓] theorem State.stepView_incFld (s : State) {f : Field} (h : f.offStep = true) :
    (s.incFld f).stepView = s.stepView := s.stepView_setFld _ h

@[simp ↓] theorem State.stepView_maxFld (s : State) {f : Field} (n : Nat) (h : f.offStep = true) :
    (s.maxFld f n).stepView = s.stepView := s.stepView_setFld _ h

@[simp ↓] theorem State.stepView_hwSet (s : State) {f : Field} (h : f.offStep = true) :
    (s.hwSet f).stepView = s.stepView := s.stepView_setFld _ h

@[simp ↓] theorem State.stepView_hwClear (s : State) {f : Field} (h : f.offStep = true) :
    (s.hwClear f).stepView = s.stepView := by
  unfold State.hwClear
  split
  · rfl
  · exact s.stepView_setFld _ h

/-- What a field of a step holds is read from its view. -/
theorem State.fld_eq_shows (s : State) {f : Field} (h : f ∈ stepFields) : s.fld f = s.stepView.shows f :=
  (if_pos h).symm

/-! ### Events -/

/-- Events leave a step alone. -/
theorem State.stepView_of_uneventful {s u : State} (h : u.uneventful = s.uneventful) : u.stepView = s.stepView := by
  have hout : ∀ f ∈ stepFields, f.reg ∉ eventRegs := by decide
  refine State.stepView_congr (fun f hf => State.fld_of_uneventful h (hout f hf)) ?_
  exact (congrArg (fun x => ({ x.2 with regs := s.regs } : State).stepView) h)

@[simp ↓] theorem State.stepView_record (s : State) (code payload : Nat) (src : Source) :
    (s.record code payload src).stepView = s.stepView := State.stepView_of_uneventful (s.uneventful_record ..)

@[simp ↓] theorem State.stepView_setCause (s : State) (i : Nat) : (s.setCause i).stepView = s.stepView :=
  State.stepView_of_uneventful (s.uneventful_setCause i)

@[simp ↓] theorem State.stepView_addFrame (s : State) (typ : Nat) (lastPart : Bool) (orderSeq policy : Nat)
    (bs : List Byte) : (s.addFrame typ lastPart orderSeq policy bs).stepView = s.stepView :=
  State.stepView_of_uneventful (State.uneventful_of_calm (State.calm_addFrame ..))

@[simp ↓] theorem State.stepView_noteChange (s : State) (off value step phase : Nat) (src : Source) :
    (s.noteChange off value step phase src).stepView = s.stepView :=
  State.stepView_of_uneventful (s := s.noteValue off value step phase) (s.uneventful_noteChange ..)

/-! ### Parts of the state -/

@[simp ↓] theorem State.stepView_update (s : State) (mram : Mram) (jrnl : JrnlSt) (bel : BelfrySt) (sec : SecSt)
    (ports : PortSt) (sites : List SiteSt) (spare : SpareSt) (mesh : MeshSt) (mports : List MPort) (ocu : OcuSt)
    (emitted : List Emission) (hwSets swSets : List (Nat × Reg × Nat)) :
    State.stepView { s with
      mram := mram, jrnl := jrnl, bel := bel, sec := sec, ports := ports, sites := sites, spare := spare, mesh := mesh
      mports := mports, ocu := ocu, emitted := emitted, hwSets := hwSets, swSets := swSets } = s.stepView := by rfl

theorem State.stepView_onStep (s : State) (f : StepT → StepT) : (s.onStep f).stepView = { s.stepView with
    run := (f s.stept).run, stepOn := (f s.stept).stepOn, startedAt := (f s.stept).startedAt
    phaseAt := (f s.stept).phaseAt, applied := (f s.stept).applied } := by rfl

theorem State.stepView_onEx (s : State) (f : Exec → Exec) : (s.onEx f).stepView = { s.stepView with
    chain := (f s.ex).chain, shadow := (f s.ex).shadow } := by rfl

theorem State.stepView_onLog (s : State) (f : StepLog → StepLog) : (s.onLog f).stepView =
    { s.stepView with throughput := (f s.slog).throughput } := by rfl

@[simp ↓] theorem State.stepView_onIntake (s : State) (f : IntakeSt → IntakeSt) : (s.onIntake f).stepView =
    { s.stepView with orders := (f s.intake).orders } := by rfl

@[simp ↓] theorem State.stepView_update_dig (s : State) (flags rollCount : Nat) (sinceDue : Bool)
    (mode lb : Option Bool) :
    State.stepView { s with dig := { s.dig with
      flags := flags, sinceDue := sinceDue, heldMode := mode, heldLb := lb, rollCount := rollCount } } =
      s.stepView := by rfl

@[simp ↓] theorem State.stepView_ite {c : Prop} [Decidable c] (a b : State) :
    (if c then a else b).stepView = if c then a.stepView else b.stepView := by split <;> rfl

@[simp ↓] theorem State.stepView_foldl {α : Type} {f : State → α → State}
    (h : ∀ s a, (f s a).stepView = s.stepView) (l : List α) (s : State) : (l.foldl f s).stepView = s.stepView := by
  induction l generalizing s with
  | nil => rfl
  | cons a l ih => rw [List.foldl_cons, ih, h]

end Sys2Proof.Machine
end

section
/-! SUPPORT. Spares, modes, held writes and reports leave a step alone; its digest closes over its chain state. -/

namespace Sys2Proof.Machine

@[simp ↓] theorem State.stepView_onSite (s : State) (i : Nat) (f : SiteSt → SiteSt) :
    (s.onSite i f).stepView = s.stepView := by rfl

@[simp ↓] theorem State.stepView_onSpare (s : State) (f : SpareSt → SpareSt) :
    (s.onSpare f).stepView = s.stepView := by rfl

@[simp ↓] theorem State.stepView_onMaps (s : State) (f : FieldMap → FieldMap) :
    (s.onMaps f).stepView = s.stepView := by rfl

@[simp ↓] theorem State.stepView_emit (s : State) (e : Emission) : (s.emit e).stepView = s.stepView := by rfl

/-! ### Sites and spares -/

@[simp ↓] theorem State.stepView_noteAlloc (s : State) : s.noteAlloc.stepView = s.stepView := by
  dsimp only [State.noteAlloc]
  simp (disch := decide)

@[simp ↓] theorem State.stepView_reallocHops (s : State) : s.reallocHops.stepView = s.stepView := by
  simp [State.reallocHops, State.trialHops]

@[simp ↓] theorem State.stepView_engage (s : State) (node from_ site : Nat) :
    (s.engage node from_ site).stepView = s.stepView := by
  simp (disch := decide) [State.engage, State.moveCore]

@[simp ↓] theorem State.stepView_endLantern (s : State) : s.endLantern.stepView = s.stepView := by
  refine State.stepView_foldl (fun s i => ?_) _ _
  split
  · split
    · split <;> simp
    · rfl
  · rfl

@[simp ↓] theorem State.stepView_selftestFor (s : State) (step : Nat) :
    (s.selftestFor step).stepView = s.stepView := by
  unfold State.selftestFor State.moveOut
  split
  · rfl
  · split <;> simp

@[simp ↓] theorem State.stepView_dropSelftest (s : State) : s.dropSelftest.stepView = s.stepView := by
  unfold State.dropSelftest
  split <;> simp

@[simp ↓] theorem State.stepView_checkLow (s : State) (m u : Nat) : (s.checkLow m u).stepView = s.stepView := by
  simp [State.checkLow]

@[simp ↓] theorem State.stepView_showSpares (s : State) : s.showSpares.stepView = s.stepView := by
  simp (disch := decide) [State.showSpares]

@[simp ↓] theorem State.stepView_remap (s : State) (n : Nat) : (s.remap n).stepView = s.stepView := by rfl

@[simp ↓] theorem State.stepView_mapShape (s : State) : s.mapShape.stepView = s.stepView := by
  simp (disch := decide) [State.mapShape]

@[simp ↓] theorem State.stepView_showShape (s : State) : s.showShape.stepView = s.stepView := by
  simp (disch := decide) [State.showShape]

@[simp ↓] theorem State.stepView_applyRequal (s : State) : s.applyRequal.stepView = s.stepView := by
  simp [State.applyRequal]

@[simp ↓] theorem State.stepView_requalNow (s : State) : s.requalNow.stepView = s.stepView := by
  unfold State.requalNow State.beginRequal
  split <;> simp (disch := decide)

/-! ### Modes and held writes -/

@[simp ↓] theorem State.stepView_homeParcels (s : State) : s.homeParcels.stepView = s.stepView := by rfl

@[simp ↓] theorem State.stepView_setMode (s : State) (mode lb : Option Bool) (src : Source) :
    (s.setMode mode lb src).stepView = s.stepView := by
  have hsince : ∀ (v : State) (k : Nat), State.stepView { v.setFld Fld.MODE_SINCE_STEP k with
      dig := { v.dig with sinceDue := true } } = v.stepView := fun v k =>
    (rfl : _ = (v.setFld Fld.MODE_SINCE_STEP k).stepView).trans (v.stepView_setFld k (by decide))
  dsimp only [State.setMode]
  simp (disch := decide) [↓hsince]

@[simp ↓] theorem State.stepView_heldMode (s : State) : s.heldMode.stepView = s.stepView := by
  unfold State.heldMode
  split
  · rfl
  · dsimp only
    simp (disch := decide)

@[simp ↓] theorem State.stepView_heldWrites (s : State) : s.heldWrites.stepView = s.stepView := by rfl

@[simp ↓] theorem State.stepView_setShadow (s : State) :
    s.setShadow.stepView = { s.stepView with shadow := s.ex.chain } := by rfl

theorem State.stepView_applyHeld (s : State) : s.applyHeld.stepView =
    { s.stepView with shadow := s.ex.chain, rerunTo := none } := by
  have hheld : s.heldMode.heldWrites.requalNow.stepView = s.stepView := by simp
  have hchain : s.heldMode.heldWrites.requalNow.ex.chain = s.ex.chain := congrArg StepView.chain hheld
  calc s.applyHeld.stepView = { s.heldMode.heldWrites.requalNow.setShadow.stepView with rerunTo := none } := rfl
    _ = _ := by rw [State.stepView_setShadow, hheld, hchain]

/-! ### Reports -/

@[simp ↓] theorem State.stepView_setUncovered (s : State) (step : Nat) :
    (s.setUncovered step).stepView = s.stepView := by
  simp (disch := decide) [State.setUncovered]

@[simp ↓] theorem State.stepView_reportTraffic (s : State) : s.reportTraffic.stepView = s.stepView := by
  have hlog : ∀ v : State, State.stepView { v.onLog fun l => { l with corrected := [], ghosts := [] } with
      sec := { v.sec with refusedStep := 0 }, ports := { v.ports with bar2Drops := 0 } } = v.stepView := fun _ => rfl
  exact (hlog _).trans (by simp)

@[simp ↓] theorem State.stepView_reportStep (s : State) : s.reportStep.stepView = s.stepView := by
  dsimp only [State.reportStep]
  rw [State.stepView_reportTraffic]
  cases s.slog.nonfinite <;> cases s.slog.fieldNan <;> cases s.slog.saturated <;> simp

@[simp ↓] theorem State.stepView_countStep (s : State) : s.countStep.stepView = s.stepView := by
  simp (disch := decide) [State.countStep]

@[simp ↓] theorem State.stepView_ocuMissed (s : State) : s.ocuMissed.stepView = s.stepView := by
  simp (disch := decide) [State.ocuMissed]

/-- The digest of a step is that of the chain state it leaves (R250, R252). -/
theorem State.stepView_closeDigest (s : State) : s.closeDigest.stepView = { s.stepView with
    closed := true, digestStep := s.stepNow, digest := s.plan.data.digest s.ex.chain } := by
  have hu : (if s.slog.throughput || s.slog.tainted then s.setUncovered s.stepNow else s).stepView = s.stepView := by
    simp
  generalize hv : (if s.slog.throughput || s.slog.tainted then s.setUncovered s.stepNow else s) = v at hu
  have hd : v.stateDigest = s.plan.data.digest s.ex.chain := congrArg (fun x => x.data.digest x.chain) hu
  rw [State.closeDigest]
  dsimp only
  rw [hv, State.stepView_setCause, hd]
  calc _ = { (State.addFrame v 3 true 0 v.policyNow _).stepView with
        closed := true, digestStep := s.stepNow, digest := s.plan.data.digest s.ex.chain } := rfl
    _ = _ := by rw [State.stepView_addFrame, hu]

theorem State.stepView_closeStep (s : State) : s.closeStep.stepView = { s.stepView with
    closed := true, digestStep := s.stepNow, digest := s.plan.data.digest s.ex.chain } := by
  simp [State.closeStep, State.stepView_closeDigest]

end Sys2Proof.Machine
end

section
/-! SUPPORT. The end of a step and of its run (R45, R56, R266), seen in the view of a step. -/

namespace Sys2Proof.Machine

/-! ### Halts and what is sent upstream -/

@[simp ↓] theorem State.stepView_haltNow (s : State) : s.haltNow.stepView = s.stepView := by
  simp (disch := decide) [State.haltNow]

@[simp ↓] theorem State.stepView_trySendReady (s : State) : s.trySendReady.stepView = s.stepView := by
  unfold State.trySendReady
  split
  · split <;> rfl
  · rfl

@[simp ↓] theorem State.stepView_holdNow (s : State) : s.holdNow.stepView = s.stepView := by
  dsimp only [State.holdNow]
  split
  · rw [State.stepView_record, State.stepView_setFlag _ _ (by decide)]
    rfl
  · rfl

@[simp ↓] theorem State.stepView_measureHop (s : State) : s.measureHop.stepView = s.stepView := by
  have hecho : ∀ (v : State) (b up : Bool), (v.sendEchoes b up).stepView = v.stepView := fun v b up => by
    simp [State.sendEchoes]
  dsimp only [State.measureHop]
  rw [State.stepView_onStep, ← hecho s false s.stept.inA.up, ← hecho (s.sendEchoes false s.stept.inA.up) true]
  rfl

/-! ### The end of a run -/

theorem State.stepView_clearHoldover (s : State) : s.clearHoldover.stepView =
    { s.stepView with applied := s.stept.applied.filter fun p => !p.1.holdover } := by
  dsimp only [State.clearHoldover]
  rw [State.stepView_onStep, State.stepView_setFld _ _ (by decide), State.stepView_setFlag _ _ (by decide),
    State.stepView_setFlag _ _ (by decide)]
  rfl

theorem State.stepView_endRunTime (s : State) :
    s.endRunTime.stepView = { s.stepView with run := none, applied := [] } := by
  have hgen : ∃ l, (if s.inHoldover || s.holds then s.clearHoldover
      else s.onStep fun x => { x with gen := none }).stepView = { s.stepView with applied := l } := by
    split
    · exact ⟨_, s.stepView_clearHoldover⟩
    · exact ⟨s.stept.applied, rfl⟩
  obtain ⟨l, hgen⟩ := hgen
  have hretrain : ∀ v : State, (if v.stept.retrain then v.measureHop else v).stepView = v.stepView := fun v => by simp
  rw [State.endRunTime]
  dsimp only
  rw [hretrain, State.stepView_onStep]
  generalize hv : State.setFlag _ Fld.STEP_STAT_BARRIER_WAIT false = v
  have hview : v.stepView = { s.stepView with applied := l } := by
    rw [← hv, State.stepView_setFlag _ _ (by decide), hgen]
  calc _ = { v.stepView with run := none, applied := [] } := rfl
    _ = _ := by rw [hview]

theorem State.stepView_complete (s : State) (o : Order) (code payload : Nat) :
    ∃ os, (s.complete o code payload).stepView = { s.stepView with orders := os } := by
  unfold State.complete State.finishAs State.dropFetches State.onOrder
  dsimp only
  rw [State.stepView_onIntake, State.stepView_onIntake, State.stepView_addFrame]
  exact ⟨_, rfl⟩

/-- What follows the completion of a run's order (R39, R56, R266): step time stops, and held writes act. -/
def State.stopRun (s : State) (next : Nat) : State :=
  let s := ((s.setFld Fld.RUN_NEXT_STEP_STEP next).endRunTime.setFlag Fld.DEV_STAT_RUNNING false).onStep fun x =>
    { x with stepOn := false }
  let s := s.onEx fun x => { x with sweepOn := false, stepEnded := false }
  let s := (s.onSpare fun x => { x with damage := [] }).onLog fun l => { l with rerun := false, abandoned := false }
  s.dropSelftest.heldMode.heldWrites.requalNow

theorem State.endRun_eq (s : State) (code payload next : Nat) : s.endRun code payload next =
    ((s.stept.run.bind fun r => s.order r.seq).elim s fun o => s.complete o code payload).stopRun next := by
  unfold State.endRun
  cases s.stept.run.bind fun r => s.order r.seq <;> rfl

/-- The view after a run: RUN_NEXT_STEP shows the step to come, and no run is in progress. -/
def StepView.stopped (v : StepView) (next : Nat) : StepView :=
  { (v.put Fld.RUN_NEXT_STEP_STEP next).put Fld.DEV_STAT_RUNNING false.toNat with
    run := none, stepOn := false, applied := [] }

theorem StepView.shows_stopped (v : StepView) (next : Nat) : (v.stopped next).shows =
    ((v.put Fld.RUN_NEXT_STEP_STEP next).put Fld.DEV_STAT_RUNNING false.toNat).shows := by rfl

theorem State.stepView_stopRun (s : State) (next : Nat) : (s.stopRun next).stepView = s.stepView.stopped next := by
  have htail : ∀ v : State, v.dropSelftest.heldMode.heldWrites.requalNow.stepView = v.stepView := fun v => by simp
  rw [State.stopRun, htail, State.stepView_onLog, State.stepView_onSpare, State.stepView_onEx, State.stepView_onStep]
  generalize hv : State.setFlag _ Fld.DEV_STAT_RUNNING false = v
  have hview : v.stepView = StepView.put { s.stepView.put Fld.RUN_NEXT_STEP_STEP next with run := none, applied := [] }
      Fld.DEV_STAT_RUNNING false.toNat := by
    rw [← hv, State.setFlag, State.stepView_setFld_self _ _ (by decide), State.stepView_endRunTime,
      State.stepView_setFld_self _ _ (by decide)]
  calc _ = { v.stepView with stepOn := false } := rfl
    _ = _ := by rw [hview]; rfl

theorem State.stepView_endRun (s : State) (code payload next : Nat) : ∃ os,
    (s.endRun code payload next).stepView = { s.stepView.stopped next with orders := os } := by
  rw [State.endRun_eq, State.stepView_stopRun]
  cases s.stept.run.bind fun r => s.order r.seq with
  | none => exact ⟨_, rfl⟩
  | some o =>
    obtain ⟨os, hos⟩ := s.stepView_complete o code payload
    exact ⟨os, by rw [Option.elim_some, hos]; rfl⟩

/-! ### The end of a step -/

/-- A step that has ended, before its run is looked at. -/
def State.stepOver (s : State) (cause : Nat) : State :=
  let k := s.stepNow
  let s := (s.onStep fun x => { x with
    stepOn := false, lateCause := cause
    run := x.run.map fun r => { r with b := s.now } }).onEx fun x => { x with stepEnded := false }
  if s.dig.rollCount != 0 && s.dig.rollStep ≤ k then { s with dig := { s.dig with rollCount := 0 } } else s

theorem State.stepView_stepOver (s : State) (cause : Nat) : (s.stepOver cause).stepView =
    { s.stepView with stepOn := false, run := s.stept.run.map fun r => { r with b := s.now } } := by
  dsimp only [State.stepOver]
  split <;> rfl

theorem State.stepView_endStep (s : State) (cause : Nat) :
    (s.endStep cause).stepView = (if (s.stepOver cause).lastStep ≤ s.stepNow then
      (s.stepOver cause).endRun 0 (s.stepOver cause).lastStep ((s.stepOver cause).lastStep + 1)
      else s.stepOver cause).stepView := by
  have hready : ∀ (v : State) (k : Nat), ((if v.flag Fld.DBG_STAT_HALT_PENDING then v.haltNow else v).onStep fun x =>
      { x with readyDue := some k }).trySendReady.holdNow.stepView = v.stepView := fun v k => by
    rw [State.stepView_holdNow, State.stepView_trySendReady, State.stepView_onStep]
    generalize hw : (if v.flag Fld.DBG_STAT_HALT_PENDING then v.haltNow else v) = w
    calc _ = w.stepView := rfl
      _ = v.stepView := by simp [← hw]
  exact hready _ _

/-- A step that is not the last of its run leaves the run at its boundary (R45). -/
theorem State.stepView_endStep_of_lt {s : State} {r : RunSt} (hrun : s.stept.run = some r) (h : s.stepNow < r.last)
    (cause : Nat) : (s.endStep cause).stepView =
      { s.stepView with stepOn := false, run := some { r with b := s.now } } := by
  have hv := s.stepView_stepOver cause
  rw [hrun, Option.map_some] at hv
  have hlast : (s.stepOver cause).lastStep = r.last :=
    congrArg (fun v => (v.run.map (·.last)).getD 0) hv
  rw [State.stepView_endStep, hlast, if_neg (by omega), hv]

/-- The last step of a run ends it (R266). -/
theorem State.stepView_endStep_of_le {s : State} {r : RunSt} (hrun : s.stept.run = some r) (h : r.last ≤ s.stepNow)
    (cause : Nat) : ∃ os, (s.endStep cause).stepView = { s.stepView.stopped (r.last + 1) with orders := os } := by
  have hv := s.stepView_stepOver cause
  rw [hrun, Option.map_some] at hv
  have hlast : (s.stepOver cause).lastStep = r.last :=
    congrArg (fun v => (v.run.map (·.last)).getD 0) hv
  obtain ⟨os, hos⟩ := (s.stepOver cause).stepView_endRun 0 r.last (r.last + 1)
  exact ⟨os, by rw [State.stepView_endStep, hlast, if_pos h, hos, hv]; rfl⟩

/-- With no power request pending and no recovery in progress, a step's end is all there is to leaving it. -/
theorem State.stepView_leaveStep {s : State} {cause : Nat}
    (hpend : (s.endStep cause).flag Fld.PWR_STATE_PENDING = false)
    (hrec : (s.endStep cause).boot.recovering = none) :
    (s.leaveStep cause).stepView = (s.endStep cause).stepView := by
  have hb : (s.endStep cause).powerBoundary = s.endStep cause := by
    rw [State.powerBoundary, hpend]
    rfl
  have hr : (s.endStep cause).showSpares.boot.recovering = none :=
    (congrArg StepView.recovering (State.stepView_showSpares _)).trans hrec
  rw [State.leaveStep, hb]
  simp only [hr]
  simp

end Sys2Proof.Machine
end

section
/-! SUPPORT. The actions of a boundary at which nothing failed and no order takes effect (R28, R292). -/

namespace Sys2Proof.Machine

/-! ### Action 1: repairs, and faults to be settled -/

/-- Repairs are counted, and the rest of the step is as it was. -/
theorem State.stepView_countRepairs (l : List Nat) (s : State) :
    (l.foldl (fun s _ => (s.incFld Fld.SPARE_UNITS_HBM_REPAIRS).recordSpared 5 0) s).stepView =
      s.stepView.put Fld.SPARE_UNITS_HBM_REPAIRS
        (satAdd Fld.SPARE_UNITS_HBM_REPAIRS.w (s.fld Fld.SPARE_UNITS_HBM_REPAIRS) l.length) := by
  induction l generalizing s with
  | nil =>
    have hlt : s.fld Fld.SPARE_UNITS_HBM_REPAIRS < 2 ^ Fld.SPARE_UNITS_HBM_REPAIRS.w := bitsOf_lt _ _ _
    have h0 : satAdd Fld.SPARE_UNITS_HBM_REPAIRS.w (s.fld Fld.SPARE_UNITS_HBM_REPAIRS) 0 =
        s.stepView.shows Fld.SPARE_UNITS_HBM_REPAIRS := by
      rw [← State.fld_eq_shows _ (by decide), satAdd]
      omega
    rw [List.foldl_nil, List.length_nil, StepView.put, Nat.mod_eq_of_lt (satAdd_lt _ _ _), h0,
      Function.update_eq_self]
  | cons n l ih =>
    have hv : ((s.incFld Fld.SPARE_UNITS_HBM_REPAIRS).recordSpared 5 0).stepView =
        s.stepView.put Fld.SPARE_UNITS_HBM_REPAIRS
          (satAdd Fld.SPARE_UNITS_HBM_REPAIRS.w (s.fld Fld.SPARE_UNITS_HBM_REPAIRS) 1) := by
      rw [State.recordSpared, State.stepView_record, State.incFld, State.addFld,
        State.stepView_setFld_self _ _ (by decide)]
    have hsum : satAdd Fld.SPARE_UNITS_HBM_REPAIRS.w
        (satAdd Fld.SPARE_UNITS_HBM_REPAIRS.w (s.fld Fld.SPARE_UNITS_HBM_REPAIRS) 1) l.length =
        satAdd Fld.SPARE_UNITS_HBM_REPAIRS.w (s.fld Fld.SPARE_UNITS_HBM_REPAIRS) (l.length + 1) := by
      unfold satAdd
      omega
    rw [List.foldl_cons, ih, State.fld_eq_shows _ (by decide), hv, StepView.shows_put,
      Nat.mod_eq_of_lt (satAdd_lt _ _ _), List.length_cons, ← hsum]
    simp [StepView.put]

/-- What repairs leave of the log of the step and of the spares. -/
theorem State.countRepairs_rest (l : List Nat) (s : State) :
    let u := l.foldl (fun s _ => (s.incFld Fld.SPARE_UNITS_HBM_REPAIRS).recordSpared 5 0) s
    u.slog = s.slog ∧ u.spare = s.spare := by
  induction l generalizing s with
  | nil => exact ⟨rfl, rfl⟩
  | cons n l ih =>
    have hu := (s.incFld Fld.SPARE_UNITS_HBM_REPAIRS).uneventful_record 0x6010
      ((Config.unitKind 5).toNat + 0 * 65536) .die
    obtain ⟨hslog, hspare⟩ := ih ((s.incFld Fld.SPARE_UNITS_HBM_REPAIRS).recordSpared 5 0)
    exact ⟨hslog.trans (congrArg (fun x => x.2.slog) hu), hspare.trans (congrArg (fun x => x.2.spare) hu)⟩

theorem State.selftestResult_passed {s : State} {ok : Bool} (h : ok = true ∨ s.spare.selftest = none) :
    (s.selftestResult ok).2 = none ∧ (s.selftestResult ok).1.slog = s.slog ∧
    (s.selftestResult ok).1.spare.damage = s.spare.damage ∧
    (s.selftestResult ok).1.stepView = s.stepView := by
  unfold State.selftestResult State.dropSelftest
  cases hs : s.spare.selftest with
  | none => exact ⟨rfl, rfl, rfl, rfl⟩
  | some i =>
    obtain rfl : ok = true := h.resolve_right (by simp [hs])
    exact ⟨rfl, rfl, rfl, rfl⟩

/-- A step in which nothing failed stands (R28 action 1). -/
theorem State.settle_clean {s : State} {ok : Bool} (h : ok = true ∨ s.spare.selftest = none)
    (hrerun : s.slog.rerun = false) (hdamage : s.spare.damage = []) (hto : s.dig.rerunTo = none) :
    ∃ v : State, s.settle ok = (v, true) ∧ v.stepView = s.stepView := by
  obtain ⟨hfailed, hslog, hdam, hview⟩ := State.selftestResult_passed h
  have hin : (s.selftestResult ok).1.inRerun = false := by
    have : (s.selftestResult ok).1.dig.rerunTo = none := (congrArg StepView.rerunTo hview).trans hto
    rw [State.inRerun, this]
  refine ⟨(s.selftestResult ok).1.afterSettled, ?_, ?_⟩
  · simp [State.settle, hfailed, hslog, hdam, hrerun, hdamage, hin]
  · rw [← hview]
    simp [State.afterSettled]

/-! ### Action 3: orders -/

/-- Orders whose effect does not fall at a boundary are left as they are there. -/
theorem State.applyOrders_of_none {s : State} (h : ∀ o ∈ s.intake.orders, o.op ∉ [2, 3, 5, 7]) :
    s.applyOrders = s := by
  have hone : ∀ seq, s.applyAtBoundary seq = s := fun seq => by
    unfold State.applyAtBoundary
    cases ho : s.order seq with
    | none => rfl
    | some o =>
      have hop := h o (List.mem_of_find?_eq_some ho)
      simp only [List.mem_cons, List.not_mem_nil, or_false, not_or] at hop
      obtain ⟨h2, h3, h5, h7⟩ := hop
      simp only [Option.map_some]
      split
      · exact absurd (Option.some.inj ‹_›) h2
      · exact absurd (Option.some.inj ‹_›) h3
      · exact absurd (Option.some.inj ‹_›) h5
      · exact absurd (Option.some.inj ‹_›) h7
      · rfl
  unfold State.applyOrders
  induction sortNats (s.intake.orders.map (·.seq)) with
  | nil => rfl
  | cons q l ih => rw [List.foldl_cons, hone, ih]

/-- A step that stands is closed, its held writes act, and it is left (R28). -/
theorem State.finishStep_quiet {s : State} (ho : ∀ o ∈ s.intake.orders, o.op ∉ [2, 3, 5, 7]) :
    ∃ cause v, s.finishStep = State.leaveStep v cause ∧ v.stepView = { s.stepView with
      closed := true, digestStep := s.stepNow, digest := s.plan.data.digest s.ex.chain
      shadow := s.ex.chain, rerunTo := none } := by
  have hc := s.stepView_closeStep
  have horders : s.closeStep.intake.orders = s.intake.orders := congrArg StepView.orders hc
  have hchain : s.closeStep.ex.chain = s.ex.chain := congrArg StepView.chain hc
  have hq : s.closeStep.applyOrders = s.closeStep := State.applyOrders_of_none (by rw [horders]; exact ho)
  refine ⟨_, _, rfl, ?_⟩
  rw [hq, State.stepView_applyHeld, hc, hchain]

end Sys2Proof.Machine
end

section
/-! SUPPORT. A step that ends with nothing to settle: BOUNDARY_ACTIONS closes it and leaves it (R28, R252, R266). -/

namespace Sys2Proof.Machine

/-! ### BOUNDARY_ACTIONS -/

theorem State.fld_of_stepView {s : State} {v : StepView} (h : s.stepView = v) {f : Field} (hf : f ∈ stepFields) :
    s.fld f = v.shows f := by rw [State.fld_eq_shows _ hf, h]

/-- Whether its run goes on or not, the end of a step leaves its digest, and its fields but those of the run. -/
theorem State.endStep_keeps {s : State} {r : RunSt} (hrun : s.stept.run = some r) (cause : Nat) :
    ∃ run applied orders shows', (s.endStep cause).stepView = { s.stepView with
        stepOn := false, run := run, applied := applied, orders := orders, shows := shows' } ∧
      ∀ f, f ≠ Fld.RUN_NEXT_STEP_STEP → f ≠ Fld.DEV_STAT_RUNNING → shows' f = s.stepView.shows f := by
  rcases Nat.lt_or_ge s.stepNow r.last with h | h
  · exact ⟨_, _, _, _, State.stepView_endStep_of_lt hrun h cause, fun _ _ _ => rfl⟩
  · obtain ⟨os, hv⟩ := State.stepView_endStep_of_le hrun h cause
    exact ⟨_, _, _, _, hv, fun f hn hr => by
      rw [StepView.shows_stopped, StepView.shows_put_ne _ _ hr, StepView.shows_put_ne _ _ hn]⟩

/-- A state in which BOUNDARY_ACTIONS finds a step that has ended with nothing to settle: write-back and FLUSH are over,
no fault, halt or power request waits, and no order takes effect. -/
structure State.QuietEnd (s : State) (ok : Bool) : Prop where
  up : s.cUp = true
  on : s.stept.stepOn = true
  loaded : s.dig.reload = 0
  passed : ok = true ∨ s.spare.selftest = none
  ended : s.ex.stepEnded = true
  flushed : s.flushDone = true
  awake : s.halted = false
  first : s.slog.rerun = false
  sound : s.spare.damage = []
  forward : s.dig.rerunTo = none
  settled : s.boot.recovering = none
  powered : s.flag Fld.PWR_STATE_PENDING = false
  orders : ∀ o ∈ s.intake.orders, o.op ∉ [2, 3, 5, 7]

theorem State.QuietEnd.due {s : State} {ok : Bool} (h : s.QuietEnd ok) (t : Nat) : (s.tick t).boundaryDue = true := by
  have hflush : (s.tick t).flushDone = s.flushDone := rfl
  have hhalt : (s.tick t).halted = s.halted := rfl
  simp [State.boundaryDue, hflush, hhalt, h.up, h.on, h.loaded, h.ended, h.flushed, h.awake, h.first, h.sound]

/-- Such a step is closed and left (R28), with the repairs of the boundary counted (R292). -/
theorem State.QuietEnd.exec_boundaryActions {s : State} {ok : Bool} (h : s.QuietEnd ok) (t : Nat) (hbm : List Nat) :
    ∃ cause v, exec (.boundaryActions t ⟨ok, hbm⟩) s = .next (State.leaveStep v cause) ∧ v.stepView =
      { s.stepView.put Fld.SPARE_UNITS_HBM_REPAIRS
          (satAdd Fld.SPARE_UNITS_HBM_REPAIRS.w (s.fld Fld.SPARE_UNITS_HBM_REPAIRS)
            (hbm.filter fun n => n < 8 && s.portUsable (2 * n)).length) with
        now := max s.now t, closed := true, digestStep := s.stepNow, digest := s.plan.data.digest s.ex.chain
        shadow := s.ex.chain } := by
  have hrep : ((s.tick t).repairStacks hbm).stepView = _ := State.stepView_countRepairs _ _
  obtain ⟨hslog, hspare⟩ : ((s.tick t).repairStacks hbm).slog = s.slog ∧
      ((s.tick t).repairStacks hbm).spare = s.spare :=
    State.countRepairs_rest _ _
  obtain ⟨x, hx, hxview⟩ := State.settle_clean (s := (s.tick t).repairStacks hbm) (ok := ok)
    (by rw [hspare]; exact h.passed) (by rw [hslog]; exact h.first) (by rw [hspare]; exact h.sound)
    ((congrArg StepView.rerunTo hrep).trans h.forward)
  rw [hrep] at hxview
  have hin : x.inRerun = false := by
    rw [State.inRerun, show x.dig.rerunTo = none from (congrArg StepView.rerunTo hxview).trans h.forward]
  obtain ⟨cause, v, hv, hview⟩ := State.finishStep_quiet (s := x) (by
    rw [show x.intake.orders = s.intake.orders from congrArg StepView.orders hxview]
    exact h.orders)
  refine ⟨cause, v, ?_, ?_⟩
  · show execBoundaryActions t ⟨ok, hbm⟩ s = _
    rw [execBoundaryActions, State.when_due (h.due t)]
    dsimp only
    rw [hx]
    simp [hin, hv]
  · have hstep : x.stepNow = s.stepNow := by
      rw [State.stepNow, State.fld_of_stepView hxview (by decide), State.stepNow, State.fld_eq_shows s (by decide)]
      exact StepView.shows_put_ne _ _ (by decide)
    have hdata : x.plan.data = s.plan.data := congrArg StepView.data hxview
    have hchain : x.ex.chain = s.ex.chain := congrArg StepView.chain hxview
    have hto : s.stepView.rerunTo = none := h.forward
    rw [hview, hxview, hstep, hdata, hchain, ← hto]
    rfl

/-- BOUNDARY_ACTIONS with a step that ends so: its digest is closed over the chain state, and its run goes on or is
over (R28, R45, R252, R266). -/
theorem State.QuietEnd.boundary {s : State} {ok : Bool} (h : s.QuietEnd ok) {r : RunSt} (hrun : s.stept.run = some r)
    (hlast : r.last + 1 < 2 ^ 64) (t : Nat) (hbm : List Nat) :
    ∃ u, exec (.boundaryActions t ⟨ok, hbm⟩) s = .next u ∧ u.stept.stepOn = false ∧ u.dig.valid = true ∧
      u.dig.step = s.stepNow ∧ u.dig.value = s.plan.data.digest s.ex.chain ∧
      u.fld Fld.SPARE_UNITS_HBM_REPAIRS = satAdd Fld.SPARE_UNITS_HBM_REPAIRS.w (s.fld Fld.SPARE_UNITS_HBM_REPAIRS)
        (hbm.filter fun n => n < 8 && s.portUsable (2 * n)).length ∧
      (s.stepNow < r.last → u.stept.run = some { r with b := max s.now t }) ∧
      (r.last ≤ s.stepNow → u.stept.run = none ∧ u.running = false ∧
        u.fld Fld.RUN_NEXT_STEP_STEP = r.last + 1) := by
  obtain ⟨cause, v, hx, hview⟩ := h.exec_boundaryActions t hbm
  have hvrun : v.stept.run = some r := (congrArg StepView.run hview).trans hrun
  have hvnow : v.now = max s.now t := congrArg StepView.now hview
  have hshows : ∀ f ∈ stepFields, f ≠ Fld.SPARE_UNITS_HBM_REPAIRS → v.fld f = s.fld f := fun f hf hne => by
    rw [State.fld_of_stepView hview hf, State.fld_eq_shows s hf]
    exact StepView.shows_put_ne _ _ hne
  have hvstep : v.stepNow = s.stepNow := hshows _ (by decide) (by decide)
  obtain ⟨run, applied, orders, shows', hend, hkept⟩ := State.endStep_keeps hvrun cause
  have hkeeps : ∀ f ∈ stepFields, f ≠ Fld.RUN_NEXT_STEP_STEP → f ≠ Fld.DEV_STAT_RUNNING →
      (v.endStep cause).fld f = v.fld f := fun f hf hn hr => by
    rw [State.fld_of_stepView hend hf, State.fld_eq_shows v hf]
    exact hkept f hn hr
  have hpend : (v.endStep cause).flag Fld.PWR_STATE_PENDING = false := by
    rw [State.flag, hkeeps _ (by decide) (by decide) (by decide), hshows _ (by decide) (by decide)]
    exact h.powered
  have hrec : (v.endStep cause).boot.recovering = none :=
    (congrArg StepView.recovering hend).trans ((congrArg StepView.recovering hview).trans h.settled)
  have hleave := State.stepView_leaveStep hpend hrec
  have hu := hleave.trans hend
  refine ⟨_, hx, congrArg StepView.stepOn hu, (congrArg StepView.closed hu).trans (congrArg StepView.closed hview),
    (congrArg StepView.digestStep hu).trans (congrArg StepView.digestStep hview),
    (congrArg StepView.digest hu).trans (congrArg StepView.digest hview), ?_, fun hlt => ?_, fun hle => ?_⟩
  · rw [State.fld_of_stepView hleave (by decide), ← State.fld_eq_shows _ (by decide),
      hkeeps _ (by decide) (by decide) (by decide), State.fld_of_stepView hview (by decide)]
    dsimp only
    rw [StepView.shows_put, Nat.mod_eq_of_lt (satAdd_lt _ _ _)]
  · have hgo := State.stepView_endStep_of_lt hvrun (by omega) cause
    rw [hvnow] at hgo
    exact congrArg StepView.run (hleave.trans hgo)
  · obtain ⟨os, hover⟩ := State.stepView_endStep_of_le hvrun (by omega) cause
    have hu' := hleave.trans hover
    refine ⟨congrArg StepView.run hu', ?_, ?_⟩
    · rw [State.running, State.flag, State.fld_of_stepView hu' (by decide)]
      rw [StepView.shows_stopped, StepView.shows_put]
      rfl
    · rw [State.fld_of_stepView hu' (by decide)]
      rw [StepView.shows_stopped, StepView.shows_put_ne _ _ (by decide), StepView.shows_put]
      exact Nat.mod_eq_of_lt hlast

end Sys2Proof.Machine
end

section
/-! SUPPORT. The end of a context's transfer (R286): the copies it leaves, and the order that asked for it. -/

namespace Sys2Proof.Machine

/-- What the end of a transfer is about: the transfers under way, the copies of the latest context, and its
registers. -/
structure CopyView where
  transfers : List Transfer
  hbm : Option (List Byte)
  lp : Option (List Byte)
  fseq : Nat
  binds : List Bind
  perFseq : Nat
  stat : W64
  last : W64

def State.copyView (s : State) : CopyView :=
  ⟨s.jrnl.transfers, s.jrnl.ctxHbm, s.jrnl.ctxLp, s.jrnl.ctxFseq, s.jrnl.ctxBinds, s.jrnl.perFseq, s.reg .CKPT_STAT,
    s.reg .CKPT_LAST⟩

/-! ### What leaves the copies alone -/

theorem State.copyView_of_uneventful {s u : State} (h : u.uneventful = s.uneventful) : u.copyView = s.copyView := by
  have hstat : u.reg .CKPT_STAT = s.reg .CKPT_STAT := State.reg_of_uneventful h (by decide)
  have hlast : u.reg .CKPT_LAST = s.reg .CKPT_LAST := State.reg_of_uneventful h (by decide)
  calc u.copyView = { u.uneventful.2.copyView with stat := u.reg .CKPT_STAT, last := u.reg .CKPT_LAST } := rfl
    _ = s.copyView := by
      rw [h, hstat, hlast]
      rfl

@[simp ↓] theorem State.copyView_setReg (s : State) {r : Reg} (v : W64) (h : r ∉ [Reg.CKPT_STAT, .CKPT_LAST]) :
    (s.setReg r v).copyView = s.copyView := by
  simp only [List.mem_cons, List.not_mem_nil, or_false, not_or] at h
  rw [State.copyView, State.reg_setReg_ne s v (Ne.symm h.1), State.reg_setReg_ne s v (Ne.symm h.2)]
  rfl

@[simp ↓] theorem State.copyView_setFlag (s : State) {f : Field} (b : Bool)
    (h : f.reg ∉ [Reg.CKPT_STAT, .CKPT_LAST]) : (s.setFlag f b).copyView = s.copyView := s.copyView_setReg _ h

@[simp ↓] theorem State.copyView_record (s : State) (code payload : Nat) (src : Source) :
    (s.record code payload src).copyView = s.copyView := State.copyView_of_uneventful (s.uneventful_record ..)

@[simp ↓] theorem State.copyView_addFrame (s : State) (typ : Nat) (lastPart : Bool) (orderSeq policy : Nat)
    (bs : List Byte) : (s.addFrame typ lastPart orderSeq policy bs).copyView = s.copyView :=
  State.copyView_of_uneventful (State.uneventful_of_calm (State.calm_addFrame ..))

@[simp ↓] theorem State.copyView_onIntake (s : State) (f : IntakeSt → IntakeSt) :
    (s.onIntake f).copyView = s.copyView := by rfl

@[simp ↓] theorem State.copyView_ite {c : Prop} [Decidable c] (a b : State) :
    (if c then a else b).copyView = if c then a.copyView else b.copyView := by split <;> rfl

@[simp ↓] theorem State.copyView_foldl {α : Type} {f : State → α → State}
    (h : ∀ s a, (f s a).copyView = s.copyView) (l : List α) (s : State) : (l.foldl f s).copyView = s.copyView := by
  induction l generalizing s with
  | nil => rfl
  | cons a l ih => rw [List.foldl_cons, ih, h]

@[simp ↓] theorem State.copyView_openSweep (s : State) : s.openSweep.copyView = s.copyView := by
  unfold State.openSweep
  split <;> rfl

@[simp ↓] theorem State.copyView_closeSession (s : State) (reason : Nat) :
    (s.closeSession reason).copyView = s.copyView := by
  dsimp only [State.closeSession, State.resumeCores]
  simp (disch := decide)

@[simp ↓] theorem State.copyView_endCheckpoint (s : State) (o : Order) (b : List Byte) :
    (s.endCheckpoint o b).copyView = s.copyView := by
  dsimp only [State.endCheckpoint, State.complete, State.finishAs, State.onOrder, State.dropFetches]
  simp

@[simp ↓] theorem State.copyView_formReleases (s : State) : s.formReleases.copyView = s.copyView := by
  dsimp only [State.formReleases, State.onOrder]
  simp

/-! ### The copies after a transfer -/

/-- The copies and the CKPT registers, before the segment that a periodic, pause or suspend context opens. -/
def State.putCopies (s : State) (x : Transfer) : State :=
  let s : State := { s with jrnl := { s.jrnl with
    transfers := s.jrnl.transfers.erase x
    ctxHbm := some x.bytes, ctxLp := some x.bytes, ctxFseq := x.capFseq, ctxParts := x.parts, ctxBinds := x.binds
    ctxMark := x.mark
    perFseq := if x.kind == 2 then s.jrnl.perFseq else x.capFseq } }
  let s := (s.setFlag Fld.CKPT_STAT_VALID true).setFld Fld.CKPT_LAST_NEXT_STEP x.next
  s.setFlag Fld.CKPT_STAT_IN_PROGRESS (!s.jrnl.transfers.isEmpty)

theorem State.uneventful_endTransfer (s : State) (x : Transfer) :
    (s.endTransfer x).uneventful = (s.putCopies x).uneventful := by
  have hseg : ∀ v : State, (if x.kind == 2 then v else v.newSegment).showUsed.uneventful = v.uneventful := fun v =>
    State.uneventful_of_calm (by
      rw [State.showUsed, State.calm_setFld _ (by decide) (by decide)]
      split <;> simp)
  exact hseg _

/-- The CHECKPOINT order that asked for a context completes with it. -/
def State.endAsker (s : State) (x : Transfer) : State :=
  if x.kind == 2 then
    match s.order x.seq with
    | some o => if o.phase == .executing then s.endCheckpoint o x.bytes else s
    | none => s
  else s

theorem State.contextDone_eq (s : State) (x : Transfer) : s.contextDone x =
    (if x.kind == 1 && ((s.endTransfer x).endAsker x).power == 3 && ((s.endTransfer x).endAsker x).dbgLevel == 2 then
      ((s.endTransfer x).endAsker x).closeSession 4 else (s.endTransfer x).endAsker x).formReleases := by rfl

@[simp ↓] theorem State.copyView_endAsker (s : State) (x : Transfer) : (s.endAsker x).copyView = s.copyView := by
  unfold State.endAsker
  split
  · split
    · simp
    · rfl
  · rfl

theorem State.copyView_contextDone (s : State) (x : Transfer) :
    (s.contextDone x).copyView = (s.putCopies x).copyView := by
  rw [State.contextDone_eq, ← State.copyView_of_uneventful (s.uneventful_endTransfer x)]
  simp

/-- A transfer alone leaves its context in both memories, and CKPT_LAST shows its step (R286). -/
theorem State.contextDone_copies {s : State} {x : Transfer} (hone : s.jrnl.transfers = [x]) (hnext : x.next < 2 ^ 64) :
    let u := s.contextDone x
    u.jrnl.transfers = [] ∧ u.jrnl.ctxHbm = some x.bytes ∧ u.jrnl.ctxLp = some x.bytes ∧
      u.jrnl.ctxFseq = x.capFseq ∧ u.jrnl.ctxBinds = x.binds ∧ u.flag Fld.CKPT_STAT_VALID = true ∧
      u.flag Fld.CKPT_STAT_IN_PROGRESS = false ∧ u.fld Fld.CKPT_LAST_NEXT_STEP = x.next ∧
      (x.kind ≠ 2 → u.jrnl.perFseq = x.capFseq) := by
  have hv := s.copyView_contextDone x
  have hnone : s.jrnl.transfers.erase x = [] := by simp [hone]
  have hflag : ∀ f : Field, f.reg = .CKPT_STAT → (s.contextDone x).flag f = (s.putCopies x).flag f := fun f hf => by
    rw [State.flag, State.flag, State.fld, State.fld, hf]
    exact congrArg (fun v => bitsOf v.stat.toNat f.lo f.w == 1) hv
  refine ⟨(congrArg CopyView.transfers hv).trans hnone, congrArg CopyView.hbm hv, congrArg CopyView.lp hv,
    congrArg CopyView.fseq hv, congrArg CopyView.binds hv, ?_, ?_, ?_, fun hk => ?_⟩
  · rw [hflag _ rfl, State.putCopies]
    dsimp only
    rw [State.flag, State.setFlag, State.fld_setFld_of_apart _ _ (by decide) (by decide),
      State.fld_setFld_ne _ _ (by decide), State.setFlag, State.fld_setFld _ _ _ (by decide)]
    rfl
  · rw [hflag _ rfl, State.putCopies]
    dsimp only
    rw [State.flag, State.setFlag, State.fld_setFld _ _ _ (by decide), State.setFld_jrnl, State.setFlag_jrnl, hnone]
    rfl
  · have hlast : (s.putCopies x).fld Fld.CKPT_LAST_NEXT_STEP = x.next := by
      rw [State.putCopies]
      dsimp only
      rw [State.setFlag, State.fld_setFld_ne _ _ (by decide), State.fld_setFld _ _ _ (by decide)]
      exact Nat.mod_eq_of_lt hnext
    exact (congrArg (fun v : CopyView => bitsOf v.last.toNat 0 64) hv).trans hlast
  · exact (congrArg CopyView.perFseq hv).trans (if_neg (by simpa using hk))

/-! ### The order that asked for it -/

theorem State.order_onOrder (s : State) (q n : Nat) {f : Order → Order} (hf : ∀ o, (f o).seq = o.seq) :
    (s.onOrder q f).order n = (s.order n).map fun o => if o.seq = q then f o else o := by
  have hseq : ∀ o : Order, (if (o.seq == q) = true then f o else o).seq = o.seq := fun o => by
    split
    · exact hf o
    · rfl
  simp only [State.order, State.onOrder_orders]
  induction s.intake.orders with
  | nil => rfl
  | cons o l ih =>
    rw [List.map_cons, List.find?_cons, List.find?_cons, hseq]
    cases o.seq == n with
    | true => simp
    | false => exact ih

theorem State.order_onOrder_self {s : State} {o : Order} {f : Order → Order} (hf : ∀ o, (f o).seq = o.seq)
    (h : s.order o.seq = some o) : (s.onOrder o.seq f).order o.seq = some (f o) := by
  rw [State.order_onOrder _ _ _ hf, h, Option.map_some, if_pos rfl]

/-- An order that has ended stays so while the orders are what they were. -/
theorem State.finished_of_orders {s u : State} {o : Order} {kind code payload : Nat}
    (h : s.finished o kind code payload) (ho : u.intake.orders = s.intake.orders) :
    u.finished o kind code payload := by
  obtain ⟨x, r, n, hx, hrest⟩ := h
  refine ⟨x, r, n, ?_, hrest⟩
  rw [State.order, ho]
  exact hx

theorem State.orders_addFrame (s : State) (typ : Nat) (lastPart : Bool) (orderSeq policy : Nat) (bs : List Byte) :
    (s.addFrame typ lastPart orderSeq policy bs).intake.orders = s.intake.orders :=
  congrArg (fun x => x.2.intake.orders)
    (State.uneventful_of_calm (State.calm_addFrame s typ lastPart orderSeq policy bs))

/-- An order ends with the receipt given (R269). -/
theorem State.finished_finishAs {s : State} {o : Order} (h : s.order o.seq = some o) (kind code payload : Nat)
    (eff : Bool) : (s.finishAs o kind code payload eff).finished o kind code payload := by
  have horder : ∀ bs : List Byte, ((s.addFrame 2 true o.seq o.policy bs).dropFetches o.seq).order o.seq = some o :=
    fun bs => by
      rw [State.order, show ((s.addFrame 2 true o.seq o.policy bs).dropFetches o.seq).intake.orders =
        s.intake.orders from s.orders_addFrame ..]
      exact h
  unfold State.finishAs
  dsimp only
  exact ⟨_, s.receiptOf o.seq kind code payload o.op true, _,
    State.order_onOrder_self (fun _ => by rfl) (horder _), rfl, rfl, rfl, rfl, rfl, rfl, rfl, rfl, rfl⟩

/-- Noting that an order's host data are released leaves what it ended with (R272). -/
theorem State.finished_onOrder_rel {s : State} {o : Order} {kind code payload : Nat}
    (h : s.finished o kind code payload) (q : Nat) (rel : Option (Receipt × Nat)) :
    (s.onOrder q fun x => { x with rel := rel }).finished o kind code payload := by
  obtain ⟨x, r, n, hx, hphase, hraw, hfinal, hposted, hrest⟩ := h
  have hx' := State.order_onOrder s q o.seq (f := fun x => { x with rel := rel }) (fun _ => rfl)
  rw [hx, Option.map_some] at hx'
  split at hx'
  · exact ⟨_, r, n, hx', hphase, hraw, hfinal, hposted, hrest⟩
  · exact ⟨_, r, n, hx', hphase, hraw, hfinal, hposted, hrest⟩

/-- Releases leave an order that has ended as it is (R272). -/
theorem State.finished_formReleases {s : State} {o : Order} {kind code payload : Nat}
    (h : s.finished o kind code payload) : s.formReleases.finished o kind code payload := by
  unfold State.formReleases
  generalize s.intake.orders = l
  induction l generalizing s with
  | nil => exact h
  | cons x l ih =>
    rw [List.foldl_cons]
    refine ih ?_
    split
    · exact State.finished_onOrder_rel (State.finished_of_orders h (s.orders_addFrame ..)) _ _
    · exact h

/-- A CHECKPOINT that is executing completes with its context, with 0x1019 when the host's buffer is short (R286). -/
theorem State.contextDone_asker {s : State} {x : Transfer} {o : Order} (hk : x.kind = 2)
    (ho : s.order x.seq = some o) (hphase : o.phase = .executing) :
    let short := fieldAt o.body 0 8 ≠ 0 ∧ fieldAt o.body 8 8 < x.bytes.length
    (short → (s.contextDone x).finished o 2 0x1019 x.bytes.length) ∧
    (¬short → (s.contextDone x).finished o 2 0 (fieldAt x.bytes 208 8)) := by
  have hseq : o.seq = x.seq := by simpa using List.find?_some ho
  have horder : (s.endTransfer x).order x.seq = some o := by
    have horders : (s.endTransfer x).intake.orders = s.intake.orders :=
      congrArg (fun v => v.2.intake.orders) (s.uneventful_endTransfer x)
    rw [State.order, horders]
    exact ho
  have hdone : s.contextDone x = ((s.endTransfer x).endCheckpoint o x.bytes).formReleases := by
    rw [State.contextDone_eq, State.endAsker, horder]
    simp [hk, hphase]
  have hends : ∀ code payload, (((s.endTransfer x).complete o code payload).formReleases).finished o 2 code payload :=
    fun code payload => State.finished_formReleases (State.finished_finishAs (by rw [hseq, horder]) ..)
  rw [hdone, State.endCheckpoint]
  refine ⟨fun hshort => ?_, fun hfits => ?_⟩
  · rw [if_pos (by simpa using hshort)]
    exact hends _ _
  · rw [if_neg (by simpa using hfits)]
    exact hends _ _

/-! ### When a transfer is over -/

theorem State.transferDone_iff {s : State} {x : Transfer} : s.transferDone x = true ↔
    x.left = [] ∧ (∀ n ∈ x.parts, s.durable n x.policy = true) ∧
      (x.kind = 0 → s.windowOpen wCheckpoint = true) := by
  simp [State.transferDone, and_assoc, or_iff_not_imp_left]

theorem execContextComplete_done {t : Nat} {x : Transfer} {s : State} (hup : s.cUp = true)
    (hone : s.jrnl.transfers = [x]) (h : s.transferDone x = true) :
    exec (.contextComplete t) s = .next ((s.tick t).contextDone x) := by
  have hx : (s.tick t).transferDone x = true := h
  show execContextComplete t s = _
  rw [execContextComplete, State.when_due (by simp [hup, hone, hx])]
  simp [hone, hx]

theorem execContextComplete_under_way {t : Nat} {x : Transfer} {s : State} (hone : s.jrnl.transfers = [x])
    (h : s.transferDone x = false) : exec (.contextComplete t) s = .next (s.tick t) := by
  have hx : (s.tick t).transferDone x = false := h
  show execContextComplete t s = _
  rw [execContextComplete, State.when_not_due (by simp [hone, hx])]

end Sys2Proof.Machine
end

section
/-! SUPPORT. A phase that begins (R43, R44), and the first sweep of a step, leave of a step all but its phase alone. -/

namespace Sys2Proof.Machine

@[simp ↓] theorem State.stepView_sayWidened (s : State) : s.sayWidened.stepView = s.stepView := by
  have hsaid : ∀ (v : State) (keys : List Nat) (k : Nat),
      State.stepView { v with stept := { v.stept with widened := keys, widenedFor := k } } = v.stepView :=
    fun _ _ _ => rfl
  dsimp only [State.sayWidened]
  simp [↓hsaid]

@[simp ↓] theorem State.stepView_startAligned (s : State) : s.startAligned.stepView = s.stepView := by rfl

@[simp ↓] theorem State.stepView_openSweep (s : State) : s.openSweep.stepView = s.stepView := by
  unfold State.openSweep
  split <;> rfl

theorem State.stepView_formParts (s : State) (x : Transfer) (ps : List (Bool × List Byte)) :
    (s.formParts x ps).1.stepView = s.stepView := by
  induction ps generalizing s x with
  | nil => rfl
  | cons p ps ih =>
    rw [State.formParts]
    split
    · rfl
    · rw [ih, State.stepView_addFrame]

@[simp ↓] theorem State.stepView_pumpPeriodic (s : State) : s.pumpPeriodic.stepView = s.stepView := by
  unfold State.pumpPeriodic
  split
  · split
    · exact s.stepView_formParts _ _
    · rfl
  · rfl

@[simp ↓] theorem State.stepView_noteFlush (s : State) : s.noteFlush.stepView = s.stepView := by
  unfold State.noteFlush
  split <;> rfl

@[simp ↓] theorem State.stepView_atPhase (s : State) : s.atPhase.stepView = s.stepView := by
  simp [State.atPhase]

/-! ### PHASE_BEGIN -/

theorem State.stepView_oneMorePhase (s : State) : s.oneMorePhase.stepView =
    { s.stepView.put Fld.STEP_PHASE_PHASE (s.phi + 1) with phaseAt := s.now } := by
  rw [State.oneMorePhase, State.stepView_ite, State.stepView_emit, ite_self, State.stepView_atPhase,
    State.stepView_sayWidened, State.stepView_onStep, State.stepView_setFld_self _ _ (by decide)]
  rfl

/-- The phase after the one in progress begins by interpolation: within the segment, and when phases are left (R43). -/
theorem State.nextPhaseAt_eq_some {s : State} {an : Anchor} (han : s.stept.anchor = some an) (hseg : an.m ≤ s.phi + 1)
    (hend : s.phi + 1 < an.m + 2 ^ an.k) (hleft : s.phi + 1 < s.phases) :
    s.nextPhaseAt = some (an.t + (s.phi + 1 - an.m) * an.len / 2 ^ an.k) := by
  simp [State.nextPhaseAt, han, hseg, hend, hleft]

theorem execPhaseBegin_due {t c : Nat} {s : State} (hup : s.cUp = true) (hnext : s.nextPhaseAt = some c)
    (h : c ≤ max s.now t) : exec (.phaseBegin t) s = .next (s.tick t).oneMorePhase := by
  have hc : (s.tick t).nextPhaseAt = some c := hnext
  show execPhaseBegin t s = _
  rw [execPhaseBegin, State.when_due (by simp [hup, hc, h])]

theorem execPhaseBegin_early {t c : Nat} {s : State} (hnext : s.nextPhaseAt = some c) (h : max s.now t < c) :
    exec (.phaseBegin t) s = .next (s.tick t) := by
  have hc : (s.tick t).nextPhaseAt = some c := hnext
  show execPhaseBegin t s = _
  rw [execPhaseBegin, State.when_not_due (by simp [hc, max_lt_iff.mp h])]

/-- A phase that begins is the next, now; the step and its chain state stay. -/
theorem State.oneMorePhase_begins {s : State} (h : s.phi + 1 < 65536) :
    s.oneMorePhase.phi = s.phi + 1 ∧ s.oneMorePhase.stept.phaseAt = s.now ∧ s.oneMorePhase.stepNow = s.stepNow ∧
      s.oneMorePhase.ex.chain = s.ex.chain := by
  have hv := s.stepView_oneMorePhase
  refine ⟨?_, congrArg StepView.phaseAt hv, ?_, congrArg StepView.chain hv⟩
  · rw [State.phi, State.fld_of_stepView hv (by decide)]
    dsimp only
    rw [StepView.shows_put]
    exact Nat.mod_eq_of_lt h
  · rw [State.stepNow, State.fld_of_stepView hv (by decide), State.stepNow, State.fld_eq_shows s (by decide)]
    dsimp only
    rw [StepView.shows_put_ne _ _ (by decide)]

end Sys2Proof.Machine
end

section
/-! SUPPORT. The start of a step on its mark (R45, R47): its clock, its first sweep, and what comes
before them. -/

namespace Sys2Proof.Machine

/-! ### Before the clock -/

/-- What the start of a step does before its clock: the shadow, the periodic context and MODE_SINCE. -/
def State.enterStep (s : State) (n : Nat) : State :=
  let s := s.setShadow
  let s := if (s.windowsOf wCheckpoint n).isEmpty then s else s.periodic n
  if s.dig.sinceDue then { (s.setFld Fld.MODE_SINCE_STEP n) with dig := { s.dig with sinceDue := false } } else s

/-- A step entered runs from its mark: its clock, its first sweep and its first phase. -/
def State.runFrom (s : State) (n : Nat) (a : Option Nat) (hold : Bool) : State :=
  ((s.startClock n a hold).firstGo.beginStep (s.flag Fld.MODE_STAT_MODE) false).sayWidened.atPhase

theorem State.startStep_eq (s : State) (n : Nat) (a : Option Nat) (hold : Bool) : s.startStep n a hold =
    (let u := (s.enterStep n).runFrom n a hold
    if u.stept.applied.isEmpty then u else u.beginPhasesTo (u.phases - 1)) := by
  rw [State.startStep, State.runFrom, State.enterStep]

/-- With no mark of a later step applied, no phase is caught up on. -/
theorem State.startStep_of_last {s u : State} {n : Nat} {a : Option Nat} {hold : Bool}
    (hu : (s.enterStep n).runFrom n a hold = u) (h : u.stept.applied = []) : s.startStep n a hold = u := by
  rw [State.startStep_eq, hu]
  dsimp only
  rw [h]
  rfl

@[simp ↓] theorem State.stepView_periodic (s : State) (next : Nat) : (s.periodic next).stepView = s.stepView := by
  have hput : ∀ (v : State) (x : Transfer), (v.putTransfer x).stepView = v.stepView := fun v x => by
    rw [State.putTransfer]
    dsimp only
    rw [State.stepView_setFlag _ _ (by decide)]
    rfl
  simp (disch := decide) [State.periodic, hput]

theorem State.stepView_enterStep (s : State) (n : Nat) :
    (s.enterStep n).stepView = { s.stepView with shadow := s.ex.chain } := by
  have hsince : ∀ v : State, State.stepView { v.setFld Fld.MODE_SINCE_STEP n with
      dig := { v.dig with sinceDue := false } } = v.stepView := fun v =>
    (rfl : _ = (v.setFld Fld.MODE_SINCE_STEP n).stepView).trans (v.stepView_setFld n (by decide))
  dsimp only [State.enterStep]
  simp [↓hsince]

/-- The mode in effect does not change as a step is entered. -/
theorem State.mode_enterStep (s : State) (n : Nat) :
    (s.enterStep n).flag Fld.MODE_STAT_MODE = s.flag Fld.MODE_STAT_MODE := by
  have hper : ∀ v : State, (v.periodic n).flag Fld.MODE_STAT_MODE = v.flag Fld.MODE_STAT_MODE := fun v => by
    unfold State.periodic
    refine congrArg (· == 1) ?_
    split
    · exact State.fld_setFld_ne _ _ (by decide)
    · exact (State.fld_of_uneventful (State.uneventful_record ..) (by decide)).trans
        (State.fld_setFld_ne _ _ (by decide))
  have hsince : ∀ v : State, (if v.dig.sinceDue then
      { v.setFld Fld.MODE_SINCE_STEP n with dig := { v.dig with sinceDue := false } } else v).flag
        Fld.MODE_STAT_MODE = v.flag Fld.MODE_STAT_MODE := fun v => by
    split
    · exact congrArg (· == 1) (v.fld_setFld_ne n (by decide))
    · rfl
  rw [State.enterStep]
  dsimp only
  rw [hsince]
  split
  · rfl
  · exact hper _

/-! ### The clock -/

@[simp ↓] theorem State.stepView_startPhases (s : State) (n : Nat) (m : Mark) (startAt : Nat) (first : Bool) :
    (s.startPhases n m startAt first).stepView = s.stepView := by
  dsimp only [State.startPhases]
  rw [State.stepView_onStep, State.stepView_setFld _ _ (by decide)]
  rfl

theorem State.stepView_startLag (s : State) (lag cause : Nat) : (s.startLag lag cause).stepView =
    (s.stepView.put Fld.STEP_PHASE_LAG lag).put Fld.STEP_STAT_OVERRUN (lag != 0).toNat := by
  rw [State.startLag, State.stepView_ite, State.stepView_record, State.stepView_maxFld _ _ (by decide),
    State.stepView_incFld _ (by decide), ite_self, State.setFlag, State.stepView_setFld_self _ _ (by decide),
    State.stepView_setFld_self _ _ (by decide)]

@[simp ↓] theorem State.stepView_startHeld (s : State) (hold : Bool) : (s.startHeld hold).stepView = s.stepView := by
  have hinc := s.stepView_incFld (f := Fld.STEP_HOLDOVER_USED) (by decide)
  unfold State.startHeld
  split
  · dsimp only
    split
    · rw [State.stepView_onStep, hinc]
      rfl
    · exact hinc
  · rfl

/-! ### The sweep -/

@[simp ↓] theorem State.stepView_firstGo (s : State) : s.firstGo.stepView = s.stepView := by rfl

theorem State.stepView_beginStep (s : State) (throughput reexec : Bool) :
    (s.beginStep throughput reexec).stepView = { s.stepView with throughput := throughput } := by
  rw [State.beginStep]
  dsimp only
  rw [State.stepView_openSweep]
  cases throughput <;> rfl

@[simp ↓] theorem State.stepView_haltFirst (s : State) : s.haltFirst.stepView = s.stepView := by
  unfold State.haltFirst
  split
  · exact (State.stepView_haltNow _).trans rfl
  · rfl

/-! ### On its mark -/

/-- The view of a step of a run that starts at `at_` with a lag, and with no mark of a later step applied. -/
def StepView.started (v : StepView) (r : RunSt) (at_ lag : Nat) : StepView :=
  let v := ((((v.put Fld.STEP_NOW_STEP r.next).put Fld.STEP_PHASE_PHASE 0).put Fld.STEP_PHASE_LAG lag).put
    Fld.STEP_STAT_OVERRUN (lag != 0).toNat).put Fld.DEV_STAT_RUNNING true.toNat
  { v with
    stepOn := true, startedAt := at_, phaseAt := at_, applied := []
    run := some { r with next := r.next + 1, started := true } }

theorem StepView.shows_started (v : StepView) (r : RunSt) (at_ lag : Nat) : (v.started r at_ lag).shows =
    (((((v.put Fld.STEP_NOW_STEP r.next).put Fld.STEP_PHASE_PHASE 0).put Fld.STEP_PHASE_LAG lag).put
      Fld.STEP_STAT_OVERRUN (lag != 0).toNat).put Fld.DEV_STAT_RUNNING true.toNat).shows := by rfl

/-- The lag of a step that starts at `at_` on a mark applied at `a` (R47). -/
def lagOf (a at_ : Nat) : Nat := min (at_ - a) 0xFFFFFFFF

theorem lagOf_ne_zero {a at_ : Nat} : lagOf a at_ ≠ 0 ↔ a < at_ := by
  unfold lagOf
  omega

/-- The view of a step that starts on a mark applied at `a`, at the later of it and the boundary before (R45). -/
def StepView.startedOn (v : StepView) (r : RunSt) (a : Nat) : StepView :=
  v.started r (max a r.b) (lagOf a (max a r.b))

/-- The one mark applied is that of the next step of the run. -/
structure State.OnMark (s : State) (r : RunSt) (m : Mark) (a : Nat) : Prop where
  run : s.stept.run = some r
  applied : s.stept.applied = [(m, some a)]
  step : m.step = r.next

theorem State.OnMark.startMark {s : State} {r : RunSt} {m : Mark} {a : Nat} (h : s.OnMark r m a) :
    s.startMark r.next = some (m, some a) := by
  simp [State.startMark, h.applied, h.step]

theorem State.OnMark.stepView_startClock {s : State} {r : RunSt} {m : Mark} {a : Nat} (h : s.OnMark r m a)
    (hold : Bool) : (s.startClock r.next (some a) hold).stepView = s.stepView.startedOn r a := by
  have hstale : ∀ (l : List (Mark × Option Nat)) (v : State),
      (l.foldl (fun s p => s.record 0x2005 p.1.step) v).stepView = v.stepView := fun l v => by simp
  have hb : (s.stept.run.map fun x => x.b).getD 0 = r.b := by rw [h.run]; rfl
  have hlater : (s.stept.applied.filter fun p => decide (r.next < p.1.step)) = [] := by simp [h.applied, h.step]
  rw [State.startClock, hb, h.startMark, State.stepView_onStep, Option.getD_some, StepView.startedOn, lagOf]
  generalize min (max a r.b - a) 0xFFFFFFFF = lag
  generalize hv : List.foldl _ _ _ = v
  have hview : v.stepView = ((((s.stepView.put Fld.STEP_NOW_STEP r.next).put Fld.STEP_PHASE_PHASE 0).put
      Fld.STEP_PHASE_LAG lag).put Fld.STEP_STAT_OVERRUN (lag != 0).toNat).put Fld.DEV_STAT_RUNNING true.toNat := by
    rw [← hv, hstale, State.setFlag, State.stepView_setFld_self _ _ (by decide), State.stepView_startHeld,
      State.stepView_startLag]
    dsimp only [Option.map_some]
    rw [State.stepView_startPhases, State.stepView_setFld_self _ _ (by decide),
      State.stepView_setFld_self _ _ (by decide)]
  have hrun : v.stept.run = some r := (congrArg StepView.run hview).trans h.run
  have happlied : v.stept.applied = s.stept.applied := congrArg StepView.applied hview
  rw [hrun, happlied, hlater, hview]
  rfl

/-- A step that runs from its mark is started, in the mode in effect. -/
theorem State.OnMark.stepView_runFrom {s : State} {r : RunSt} {m : Mark} {a : Nat} (h : s.OnMark r m a) (hold : Bool) :
    (s.runFrom r.next (some a) hold).stepView =
      { s.stepView.startedOn r a with throughput := s.flag Fld.MODE_STAT_MODE } := by
  rw [State.runFrom, State.stepView_atPhase, State.stepView_sayWidened, State.stepView_beginStep,
    State.stepView_firstGo, h.stepView_startClock]

/-- STEP_START's effect on the step: it is started, its shadow is the state that enters it, and its mode that in effect
(R43, R45, R47, R286). -/
theorem State.OnMark.stepView_startStep {s : State} {r : RunSt} {m : Mark} {a : Nat} (h : s.OnMark r m a)
    (hold : Bool) : (s.startStep r.next (some a) hold).stepView = { s.stepView.startedOn r a with
      shadow := s.ex.chain, throughput := s.flag Fld.MODE_STAT_MODE } := by
  have henter := s.stepView_enterStep r.next
  have hmark : (s.enterStep r.next).OnMark r m a :=
    ⟨(congrArg StepView.run henter).trans h.run, (congrArg StepView.applied henter).trans h.applied, h.step⟩
  have hrun := hmark.stepView_runFrom hold
  rw [henter, State.mode_enterStep] at hrun
  generalize hu : (s.enterStep r.next).runFrom r.next (some a) hold = u at hrun
  rw [State.startStep_of_last hu (congrArg StepView.applied hrun), hrun]
  rfl

/-! ### STEP_START -/

/-- The device may start the next step of its run when its mark and its boundary have passed: no step is in progress,
and nothing holds it (R45). -/
structure State.MayStart (s : State) (r : RunSt) (m : Mark) (a : Nat) : Prop extends s.OnMark r m a where
  up : s.cUp = true
  between : s.stept.stepOn = false
  left : r.next ≤ r.last
  awake : s.halted = false
  free : s.holds = false
  powered : s.power < 2
  settled : s.boot.recovering = none
  forward : s.dig.rerunTo = none

theorem State.MayStart.dueStart {s : State} {r : RunSt} {m : Mark} {a : Nat} (h : s.MayStart r m a) :
    s.dueStart = if max a r.b ≤ s.now then some (r.next, some a, m.holdover) else none := by
  have hfree : s.flag Fld.STEP_STAT_HELD = false := h.free
  have hready : (s.stept.stepOn || decide (r.last < r.next) || s.halted || s.flag Fld.STEP_STAT_HELD ||
      decide (2 ≤ s.power)) = false := by
    simp [h.between, h.left, h.awake, hfree, h.powered]
  simp [State.dueStart, h.run, hready, h.startMark]

theorem State.MayStart.tick {s : State} {r : RunSt} {m : Mark} {a : Nat} (h : s.MayStart r m a) (t : Nat) :
    (s.tick t).MayStart r m a :=
  ⟨⟨h.run, h.applied, h.step⟩, h.up, h.between, h.left, h.awake, h.free, h.powered, h.settled, h.forward⟩

theorem State.MayStart.exec_early {s : State} {r : RunSt} {m : Mark} {a t : Nat} (h : s.MayStart r m a)
    (ht : max s.now t < max a r.b) : exec (.stepStart t) s = .next (s.tick t) := by
  have hnow : (s.tick t).now = max s.now t := rfl
  have hdue : (s.tick t).dueStart = none := by rw [(h.tick t).dueStart, hnow, if_neg (by omega)]
  show execStepStart t s = _
  rw [execStepStart, State.when_not_due (by simp [hdue])]

theorem State.MayStart.exec_stepView {s : State} {r : RunSt} {m : Mark} {a t : Nat} (h : s.MayStart r m a)
    (ht : max a r.b ≤ max s.now t) : ∃ u, exec (.stepStart t) s = .next u ∧ u.stepView =
      { (s.tick t).stepView.startedOn r a with
        shadow := s.ex.chain, throughput := s.flag Fld.MODE_STAT_MODE } := by
  have hnow : (s.tick t).now = max s.now t := rfl
  have hdue : (s.tick t).dueStart = some (r.next, some a, m.holdover) := by
    rw [(h.tick t).dueStart, hnow, if_pos ht]
  have hx : exec (.stepStart t) s = .next (
      if ((s.tick t).stept.run.map (!·.started)).getD false then
        ((s.tick t).startStep r.next (some a) m.holdover).haltFirst
      else (s.tick t).startStep r.next (some a) m.holdover) := by
    have hguard : ((s.tick t).cUp && (s.tick t).dueStart.isSome && (s.tick t).boot.recovering.isNone &&
        (s.tick t).dig.rerunTo.isNone) = true := by
      simp [hdue, h.up, h.settled, h.forward]
    show execStepStart t s = _
    rw [execStepStart, State.when_due hguard]
    dsimp only
    rw [hdue]
  refine ⟨_, hx, ?_⟩
  rw [State.stepView_ite, State.stepView_haltFirst, ite_self, (h.tick t).stepView_startStep]
  rfl

/-- What STEP_START shows of a step that it starts. -/
theorem State.MayStart.exec_due {s : State} {r : RunSt} {m : Mark} {a t : Nat} (h : s.MayStart r m a)
    (hnext : r.next < 2 ^ 64) (ht : max a r.b ≤ max s.now t) :
    ∃ u, exec (.stepStart t) s = .next u ∧ u.stepNow = r.next ∧ u.phi = 0 ∧
      u.fld Fld.STEP_PHASE_LAG = min (max a r.b - a) 0xFFFFFFFF ∧
      (u.flag Fld.STEP_STAT_OVERRUN = true ↔ a < max a r.b) ∧ u.running = true ∧ u.stept.stepOn = true ∧
      u.stept.startedAt = max a r.b ∧ u.stept.applied = [] ∧
      u.stept.run = some { r with next := r.next + 1, started := true } ∧
      u.slog.throughput = s.flag Fld.MODE_STAT_MODE ∧ u.ex.chain = s.ex.chain ∧ u.ex.shadow = s.ex.chain := by
  obtain ⟨u, hx, hv⟩ := h.exec_stepView ht
  have hfld : ∀ f ∈ stepFields, u.fld f = ((s.tick t).stepView.startedOn r a).shows f :=
    fun f hf => State.fld_of_stepView hv hf
  have hlag : lagOf a (max a r.b) < 2 ^ 32 := Nat.lt_of_le_of_lt (Nat.min_le_right ..) (by decide)
  simp only [StepView.startedOn, StepView.shows_started] at hfld
  refine ⟨u, hx, ?_, ?_, ?_, ?_, ?_, congrArg StepView.stepOn hv, congrArg StepView.startedAt hv,
    congrArg StepView.applied hv, congrArg StepView.run hv, congrArg StepView.throughput hv,
    congrArg StepView.chain hv, congrArg StepView.shadow hv⟩
  · rw [State.stepNow, hfld _ (by decide)]
    simp (disch := decide) only [StepView.shows_put_ne, StepView.shows_put]
    exact Nat.mod_eq_of_lt hnext
  · rw [State.phi, hfld _ (by decide)]
    simp (disch := decide) only [StepView.shows_put_ne, StepView.shows_put]
    exact Nat.zero_mod _
  · rw [hfld _ (by decide)]
    simp (disch := decide) only [StepView.shows_put_ne, StepView.shows_put]
    exact Nat.mod_eq_of_lt hlag
  · rw [State.flag, hfld _ (by decide)]
    simp (disch := decide) only [StepView.shows_put_ne, StepView.shows_put]
    have hflag : ∀ b : Bool, (b.toNat % 2 ^ Fld.STEP_STAT_OVERRUN.w == 1) = b := by decide
    rw [hflag, bne_iff_ne, lagOf_ne_zero]
  · rw [State.running, State.flag, hfld _ (by decide), StepView.shows_put]
    rfl

end Sys2Proof.Machine
end

section
/-! SUPPORT. The scope: steps, boundaries and contexts (R28, R43, R45, R47, R252, R266, R286). -/

namespace Sys2Proof.Machine

theorem execBoundaryActions_between {t : Nat} {x : AtBoundary} {s : State} (h : s.stept.stepOn = false) :
    exec (.boundaryActions t x) s = .next (s.tick t) := by
  show execBoundaryActions t x s = _
  rw [execBoundaryActions, State.when_not_due (by simp [State.boundaryDue, h])]

/-- Settles O55: what a step shows is followed through each function that its start, a phase and its boundary run, and a
context's copies through the end of its transfer. -/
theorem stepsAndBoundaries : Obligations.StepsAndBoundaries := by
  unfold Obligations.StepsAndBoundaries
  refine ⟨?start, ?phase, ?boundary, ?context⟩
  case start =>
    intro t a m r s hup hrec hrerun hrun hbetween hleft hnext hawake hfree hpower happlied hstep
    have hmay : s.MayStart r m a :=
      ⟨⟨hrun, happlied, hstep⟩, hup, hbetween, hleft, hawake, hfree, hpower, hrec, hrerun⟩
    exact ⟨hmay.exec_due hnext, hmay.exec_early⟩
  case phase =>
    intro t an s hup han p due hp hseg hend hleft
    have hnext : s.nextPhaseAt = some due := State.nextPhaseAt_eq_some han hseg hend hleft
    exact ⟨fun hdue => ⟨_, execPhaseBegin_due hup hnext hdue, (s.tick t).oneMorePhase_begins hp⟩,
      execPhaseBegin_early hnext⟩
  case boundary =>
    intro t ok hbm r s hup hrun hlast
    refine ⟨?_, execBoundaryActions_between⟩
    intro hon hloaded hpassed _ hended hflushed hawake hfirst hsound hforward hsettled hpowered horders
    have hquiet : s.QuietEnd ok := ⟨hup, hon, hloaded, hpassed, hended, hflushed, hawake, hfirst, hsound,
      hforward, hsettled, hpowered, horders⟩
    obtain ⟨u, hx, hoff, hvalid, hdstep, hdigest, hrepairs, hgo, hover⟩ := hquiet.boundary hrun hlast t hbm
    refine ⟨u, hx, hoff, hvalid, hdstep, hdigest, fun hall => ?_, hgo, hover⟩
    rw [hrepairs, List.filter_eq_self.mpr fun n hn => by simpa using hall n hn]
  case context =>
    intro t x s hup hone hnext done
    have hdone : s.transferDone x = true ↔ done := State.transferDone_iff
    refine ⟨fun h => ?_, fun h => execContextComplete_under_way hone (Bool.eq_false_iff.mpr (mt hdone.mp h))⟩
    obtain ⟨hnone, hhbm, hlp, hfseq, hbinds, hvalid, hprogress, hshown, hper⟩ :=
      State.contextDone_copies (s := s.tick t) hone hnext
    exact ⟨_, execContextComplete_done hup hone (hdone.mpr h), hnone, hhbm, hlp, hfseq, hbinds, hvalid, hprogress,
      hshown, hper, fun o hk ho hphase => State.contextDone_asker hk ho hphase⟩

end Sys2Proof.Machine
end

section
/-! SUPPORT. What a field reads after a write to another field and after an event, where `State.fld` alone says it for one
write: flags, counters and records. -/

namespace Sys2Proof.Machine

/-! ### Fields and flags -/

theorem State.flag_setFld_of_apart (s : State) {f g : Field} (n : Nat) (hw : f.lo + f.w ≤ 64) (h : f.apart g = true) :
    (s.setFld f n).flag g = s.flag g := by
  rw [State.flag, State.fld_setFld_of_apart s n hw h, State.flag]

theorem State.fld_setFlag_of_apart (s : State) {f g : Field} (b : Bool) (hw : f.lo + f.w ≤ 64) (h : f.apart g = true) :
    (s.setFlag f b).fld g = s.fld g := State.fld_setFld_of_apart s _ hw h

theorem State.flag_setFlag_of_apart (s : State) {f g : Field} (b : Bool) (hw : f.lo + f.w ≤ 64)
    (h : f.apart g = true) : (s.setFlag f b).flag g = s.flag g := State.flag_setFld_of_apart s _ hw h

theorem State.fld_incFld_of_apart (s : State) {f g : Field} (hw : f.lo + f.w ≤ 64) (h : f.apart g = true) :
    (s.incFld f).fld g = s.fld g := State.fld_setFld_of_apart s _ hw h

/-- A one-bit field reads back as what was written. -/
theorem State.flag_setFlag (s : State) {f : Field} (b : Bool) (hw : f.lo + 1 ≤ 64) (h : f.w = 1) :
    (s.setFlag f b).flag f = b := by
  rw [State.flag, State.setFlag, State.fld_setFld _ _ _ (h ▸ hw), h]
  cases b <;> rfl

/-- A counter that is counted up. -/
theorem State.fld_incFld (s : State) {f : Field} (hw : f.lo + f.w ≤ 64) :
    (s.incFld f).fld f = satAdd f.w (s.fld f) 1 := by
  rw [State.incFld, State.addFld, State.fld_setFld _ _ _ hw, Nat.mod_eq_of_lt (satAdd_lt ..)]

/-- A value that fits its field reads back whole. -/
theorem State.fld_setFld_of_lt (s : State) {f : Field} {n : Nat} (hw : f.lo + f.w ≤ 64) (h : n < 2 ^ f.w) :
    (s.setFld f n).fld f = n := by
  rw [State.fld_setFld _ _ _ hw, Nat.mod_eq_of_lt h]

theorem State.fld_lt (s : State) (f : Field) : s.fld f < 2 ^ f.w := bitsOf_lt ..

/-! ### Events -/

@[simp] theorem State.record_stept (s : State) (code payload : Nat) (src : Source) :
    (s.record code payload src).stept = s.stept := congrArg (fun x => x.2.stept) (s.uneventful_record code payload src)

@[simp] theorem State.record_now (s : State) (code payload : Nat) (src : Source) :
    (s.record code payload src).now = s.now := congrArg (fun x => x.2.now) (s.uneventful_record code payload src)

theorem State.fld_record (s : State) (code payload : Nat) (src : Source) {f : Field} (h : f.reg ∉ eventRegs) :
    (s.record code payload src).fld f = s.fld f := State.fld_of_uneventful (s.uneventful_record ..) h

theorem State.flag_record (s : State) (code payload : Nat) (src : Source) {f : Field} (h : f.reg ∉ eventRegs) :
    (s.record code payload src).flag f = s.flag f := by
  rw [State.flag, State.fld_record s code payload src h, State.flag]

/-! ### Registers that stay -/

theorem State.keeps_refl (s : State) (rs : List Reg) : State.keeps s s rs := fun _ _ => rfl

theorem State.keeps.trans {s v u : State} {rs : List Reg} (h : State.keeps s v rs) (h' : State.keeps v u rs) :
    State.keeps s u rs := fun r hr => (h' r hr).trans (h r hr)

theorem State.keeps_setFld (s : State) {f : Field} {rs : List Reg} (n : Nat) (h : f.reg ∈ rs) :
    State.keeps s (s.setFld f n) rs := fun _ hr => State.reg_setFld_ne s n fun e => hr (e ▸ h)

theorem State.keeps_setFlag (s : State) {f : Field} {rs : List Reg} (b : Bool) (h : f.reg ∈ rs) :
    State.keeps s (s.setFlag f b) rs := State.keeps_setFld s _ h

theorem State.keeps_incFld (s : State) {f : Field} {rs : List Reg} (h : f.reg ∈ rs) :
    State.keeps s (s.incFld f) rs := State.keeps_setFld s _ h

end Sys2Proof.Machine
end

section
/-! SUPPORT. The scope: the heartbeat timer, MGMT_WDOG and MGMT_STAT (R335, R337, R344, R420). -/

namespace Sys2Proof.Machine

/-! ### HEARTBEAT -/

/-- A HEARTBEAT comes in the tick of expiry, before a loss. -/
def State.beatAtLimit (s : State) : Bool :=
  s.fld Fld.MGMT_WDOG_PERIOD != 0 && s.hbTicks == s.fld Fld.MGMT_WDOG_PERIOD && !s.flag Fld.MGMT_STAT_BMC_LOST

/-- A HEARTBEAT, its answer left out. -/
def State.beat (s : State) : State :=
  ((if s.beatAtLimit then s.incFld Fld.MGMT_AT_LIMIT_HEARTBEAT else s).setFlag Fld.MGMT_STAT_BMC_LOST false).onMgmt
    fun m => { m with hbStart := s.now }

theorem execHeartbeat_up {t : Nat} {s : State} (h : s.mctpUp = true) (hd : s.dmcUp = true) :
    exec (.heartbeat t) s = .next ((s.tick t).beat.emit (.mgmtReply 0 [])) := by
  show execHeartbeat t s = _
  rw [execHeartbeat, State.keazia_up h hd, State.beat]
  unfold State.beatAtLimit
  dsimp only
  split <;> rfl

theorem State.beatAtLimit_iff {s : State} : s.beatAtLimit = true ↔ s.fld Fld.MGMT_WDOG_PERIOD ≠ 0 ∧
    s.hbTicks = s.fld Fld.MGMT_WDOG_PERIOD ∧ s.flag Fld.MGMT_STAT_BMC_LOST = false := by
  simp [State.beatAtLimit, and_assoc]

theorem State.beat_lost (s : State) : s.beat.flag Fld.MGMT_STAT_BMC_LOST = false :=
  State.flag_setFlag _ false (by decide) rfl

theorem State.beat_atLimit (s : State) : s.beat.fld Fld.MGMT_AT_LIMIT_HEARTBEAT =
    if s.beatAtLimit then satAdd Fld.MGMT_AT_LIMIT_HEARTBEAT.w (s.fld Fld.MGMT_AT_LIMIT_HEARTBEAT) 1
    else s.fld Fld.MGMT_AT_LIMIT_HEARTBEAT := by
  rw [State.beat, State.onMgmt_fld, State.fld_setFlag_of_apart _ _ (by decide) (by decide)]
  split
  · exact State.fld_incFld _ (by decide)
  · rfl

theorem State.beat_keeps (s : State) : State.keeps s s.beat [.MGMT_STAT, .MGMT_AT_LIMIT] := by
  refine State.keeps.trans (v := if s.beatAtLimit then s.incFld Fld.MGMT_AT_LIMIT_HEARTBEAT else s) ?_
    (State.keeps_setFlag _ _ (by decide))
  split
  · exact State.keeps_incFld s (by decide)
  · exact State.keeps_refl s _

theorem State.beat_rest (s : State) :
    s.beat = { s with regs := s.beat.regs, mgmt := { s.mgmt with hbStart := s.now } } := by
  unfold State.beat
  split <;> rfl

/-! ### The expiry, and writes to MGMT_WDOG -/

theorem execMgmtWdogExpired_armed {t : Nat} {s : State} (haux : s.pwr.auxGood = true)
    (hper : s.fld Fld.MGMT_WDOG_PERIOD ≠ 0) (hlost : s.flag Fld.MGMT_STAT_BMC_LOST = false) :
    exec (.mgmtWdogExpired t) s = .next (if s.fld Fld.MGMT_WDOG_PERIOD < (s.tick t).hbTicks then
      (((s.tick t).setFlag Fld.MGMT_STAT_BMC_LOST true).onMgmt fun m => { m with alertPending := true }).record
        0x7020 0 .dmc else s.tick t) := by
  show execMgmtWdogExpired t s = _
  by_cases hover : s.fld Fld.MGMT_WDOG_PERIOD < (s.tick t).hbTicks
  · rw [execMgmtWdogExpired, State.when_due (by simp [haux, hper, hlost, hover]), if_pos hover]
  · rw [execMgmtWdogExpired, State.when_not_due (by simp [hover]), if_neg hover]

theorem execMgmtWdogWrite_reached {t : Nat} {a : RegAcc} {s : State} (h : s.reach a.port .MGMT_WDOG = true) :
    exec (.mgmtWdogWrite t a) s = .next ((s.tick t).mgmtWdog a) := by
  show execMgmtWdogWrite t a s = _
  rw [execMgmtWdogWrite, State.access_reached h]

/-- A write to MGMT_WDOG: the register follows the access, and the timer starts in the cycle of the write. -/
theorem State.configWritten_mgmtWdog (s : State) (a : RegAcc) :
    State.configWritten { s with mgmt := { s.mgmt with hbStart := s.now } } (s.mgmtWdog a) .MGMT_WDOG a := by
  have hw : Reg.MGMT_WDOG.noW1c := by
    show ∀ f ∈ Reg.MGMT_WDOG.layout, f.acc ≠ .w1c
    decide
  obtain ⟨hevents, hnoted, hfields⟩ :=
    State.configWritten_noteConfig (s := s) (a := a) hw (by decide) a.port.source
  obtain ⟨hkeeps, hrest⟩ := State.onlyEvents_iff.mp hevents
  exact ⟨State.onlyEvents_iff.mpr ⟨hkeeps, congrArg (fun v => v.onMgmt fun m => { m with hbStart := s.now }) hrest⟩,
    hnoted, hfields⟩

/-! ### MGMT_STAT -/

/-- One bit inserted in a register: it is there, and the others are as they were. -/
theorem getLsbD_insertBits_one (v : W64) (b : Bool) (lo i : Nat) (h : lo + 1 ≤ 64) :
    (insertBits v lo 1 b.toNat).getLsbD i = if i = lo then b else v.getLsbD i := by
  rw [← BitVec.testBit_toNat, ← BitVec.testBit_toNat, testBit_insertBits _ _ _ _ _ h]
  by_cases hi : i = lo
  · subst hi
    cases b <;> simp
  · rw [if_neg (by omega), if_neg hi]

theorem State.getLsbD_mgmtStat (s : State) (i : Nat) : s.mgmtStat.getLsbD i =
    if i = 3 then s.present else if i = 2 then s.alertAsserted else (s.reg .MGMT_STAT).getLsbD i := by
  rw [State.mgmtStat, getLsbD_insertBits_one _ _ _ _ (by decide), getLsbD_insertBits_one _ _ _ _ (by decide)]

theorem execMgmtStatRead_up {t : Nat} {s : State} (h : s.mctpUp = true) (hd : s.dmcUp = true) :
    exec (.mgmtStatRead t) s = .next
      (({ s.tick t with mgmt := { s.mgmt with alertPending := false } } : State).emit
        (.mgmtReply 0 (natLe (s.tick t).mgmtStat.toNat 8))) := by
  show execMgmtStatRead t s = _
  exact State.keazia_up h hd

/-- Settles O21: each row is its effect on the state of its cycle, and the read shows the pins over the register. -/
theorem heartbeatAndAlert : Obligations.HeartbeatAndAlert := by
  unfold Obligations.HeartbeatAndAlert
  refine ⟨⟨?beat, ?expiry, ?write⟩, ?read⟩
  case beat =>
    intro t s h hd
    refine ⟨_, execHeartbeat_up h hd, (s.tick t).beat_lost, (s.tick t).beat_keeps, ?_, ?_⟩
    · rw [State.emit_fld, State.beat_atLimit]
      exact if_congr State.beatAtLimit_iff rfl rfl
    · exact congrArg (fun v => v.emit (.mgmtReply 0 [])) (s.tick t).beat_rest
  case expiry => exact fun t s haux hper hlost => execMgmtWdogExpired_armed haux hper hlost
  case write =>
    intro t a s hreach
    exact ⟨_, execMgmtWdogWrite_reached hreach, (s.tick t).configWritten_mgmtWdog a⟩
  case read =>
    intro t s h hd
    refine ⟨(s.tick t).mgmtStat, execMgmtStatRead_up h hd, State.getLsbD_mgmtStat _ 3, State.getLsbD_mgmtStat _ 2,
      fun i _ h2 h3 => ?_⟩
    rw [State.getLsbD_mgmtStat, if_neg h3, if_neg h2, State.reg_tick]

end Sys2Proof.Machine
end

section
/-! SUPPORT. What an event leaves of a journal port: its state, and all of a port that is not UP, on whose queue no frame is
put (R274, R281). -/

namespace Sys2Proof.Machine

/-- The state of a journal port and, unless it is UP, all that is hidden of it. -/
def State.idlePort (s : State) (port : Nat) : Nat × Option JPort :=
  (s.fld (jState port), if s.fld (jState port) = 3 then none else some (s.jport port))

/-- A field that shares no bit with the state of a journal port. -/
def Field.offPorts (f : Field) : Bool :=
  decide (f.lo + f.w ≤ 64) && f.apart Fld.JRNL_STAT_J0_STATE && f.apart Fld.JRNL_STAT_J1_STATE

/-! ### The parts -/

theorem State.fld_jState_setFld (s : State) {f : Field} (n port : Nat) (h : f.offPorts = true) :
    (s.setFld f n).fld (jState port) = s.fld (jState port) := by
  rw [Field.offPorts, Bool.and_eq_true, Bool.and_eq_true, decide_eq_true_eq] at h
  obtain ⟨⟨hw, h0⟩, h1⟩ := h
  rw [jState]
  split
  · exact s.fld_setFld_of_apart n hw h0
  · exact s.fld_setFld_of_apart n hw h1

theorem State.idlePort_congr {s u : State} {port : Nat} (hs : u.fld (jState port) = s.fld (jState port))
    (hp : s.fld (jState port) ≠ 3 → u.jport port = s.jport port) : u.idlePort port = s.idlePort port := by
  rw [State.idlePort, State.idlePort, hs]
  split
  · rfl
  · rw [hp ‹_›]

@[simp ↓] theorem State.idlePort_setFld (s : State) {f : Field} (n port : Nat) (h : f.offPorts = true) :
    (s.setFld f n).idlePort port = s.idlePort port :=
  State.idlePort_congr (s.fld_jState_setFld n port h) fun _ => rfl

@[simp ↓] theorem State.idlePort_setFlag (s : State) {f : Field} (b : Bool) (port : Nat) (h : f.offPorts = true) :
    (s.setFlag f b).idlePort port = s.idlePort port := s.idlePort_setFld _ port h

@[simp ↓] theorem State.idlePort_incFld (s : State) {f : Field} (port : Nat) (h : f.offPorts = true) :
    (s.incFld f).idlePort port = s.idlePort port := s.idlePort_setFld _ port h

@[simp ↓] theorem State.idlePort_maxFld (s : State) {f : Field} (n port : Nat) (h : f.offPorts = true) :
    (s.maxFld f n).idlePort port = s.idlePort port := s.idlePort_setFld _ port h

@[simp ↓] theorem State.idlePort_setReg (s : State) {r : Reg} (v : W64) (port : Nat) (h : r ≠ .JRNL_STAT) :
    (s.setReg r v).idlePort port = s.idlePort port := by
  refine State.idlePort_congr ?_ fun _ => rfl
  have hr : (jState port).reg ≠ r := by
    rw [jState]
    split <;> exact Ne.symm h
  rw [State.fld, State.reg_setReg_ne s v hr, State.fld]

@[simp ↓] theorem State.idlePort_update (s : State) (mram : Mram) (intr : IntrSt) (bel : BelfrySt) (mgmt : MgmtSt)
    (emitted : List Emission) (hwSets : List (Nat × Reg × Nat)) (port : Nat) :
    State.idlePort { s with
      mram := mram, intr := intr, bel := bel, mgmt := mgmt, emitted := emitted, hwSets := hwSets } port =
      s.idlePort port := by rfl

@[simp ↓] theorem State.idlePort_update_jrnl (s : State) (segFirst segBytes : Nat) (short : Bool) (port : Nat) :
    State.idlePort { s with jrnl := { s.jrnl with segFirst := segFirst, segBytes := segBytes, short := short } } port =
      s.idlePort port := by rfl

@[simp ↓] theorem State.idlePort_ite {c : Prop} [Decidable c] (a b : State) (port : Nat) :
    (if c then a else b).idlePort port = if c then a.idlePort port else b.idlePort port := by split <;> rfl

@[simp ↓] theorem State.idlePort_foldl {α : Type} {f : State → α → State} {port : Nat}
    (h : ∀ s a, (f s a).idlePort port = s.idlePort port) (l : List α) (s : State) :
    (l.foldl f s).idlePort port = s.idlePort port := by
  induction l generalizing s with
  | nil => rfl
  | cons a l ih => rw [List.foldl_cons, ih, h]

/-! ### Messages and journal frames -/

@[simp ↓] theorem State.idlePort_emit (s : State) (e : Emission) (port : Nat) :
    (s.emit e).idlePort port = s.idlePort port := by rfl

@[simp ↓] theorem State.idlePort_sendVector (s : State) (i port : Nat) :
    (s.sendVector i).idlePort port = s.idlePort port := by
  unfold State.sendVector
  split
  · split
    · simp (disch := decide)
    · rfl
  · rfl

@[simp ↓] theorem State.idlePort_setCause (s : State) (i port : Nat) :
    (s.setCause i).idlePort port = s.idlePort port := by
  have hnote : ∀ v : State, (v.noteHw .INT_STAT (2 ^ i)).idlePort port = v.idlePort port := fun _ => rfl
  dsimp only [State.setCause]
  simp (disch := decide) [↓hnote]

/-- A new frame waits at the ports that are UP alone. -/
@[simp ↓] theorem State.idlePort_addFrameRaw (s : State) (typ : Nat) (lastPart : Bool) (orderSeq policy : Nat)
    (bs : List Byte) (port : Nat) :
    (s.addFrameRaw typ lastPart orderSeq policy bs).idlePort port = s.idlePort port := by
  unfold State.addFrameRaw
  split
  · dsimp only
    rw [State.idlePort_setFld _ _ _ (by decide)]
    refine State.idlePort_congr rfl fun hdown => ?_
    unfold State.jport
    unfold jState at hdown
    split
    next h0 =>
      rw [if_pos h0] at hdown
      simp [JPort.push, hdown]
    next h0 =>
      rw [if_neg h0] at hdown
      simp [JPort.push, hdown]
  · rfl

@[simp ↓] theorem State.idlePort_newSegment (s : State) (port : Nat) :
    s.newSegment.idlePort port = s.idlePort port := by
  have hseg : ∀ (v : State) (n : Nat), State.idlePort { v with jrnl := { v.jrnl with segFirst := n, segBytes := 0 } }
      port = v.idlePort port := fun _ _ => rfl
  dsimp only [State.newSegment]
  simp (disch := decide) [↓hseg]

@[simp ↓] theorem State.idlePort_showUsed (s : State) (port : Nat) : s.showUsed.idlePort port = s.idlePort port :=
  State.idlePort_setFld s _ port (by decide)

@[simp ↓] theorem State.idlePort_addFrame (s : State) (typ : Nat) (lastPart : Bool) (orderSeq policy : Nat)
    (bs : List Byte) (port : Nat) :
    (s.addFrame typ lastPart orderSeq policy bs).idlePort port = s.idlePort port := by
  dsimp only [State.addFrame]
  simp

/-! ### Belfry -/

@[simp ↓] theorem State.idlePort_setBucket (s : State) (b : Bucket) (port : Nat) :
    (s.setBucket b).idlePort port = s.idlePort port := by rfl

@[simp ↓] theorem State.idlePort_putCapture (s : State) (p : Port) (c : Capture) (port : Nat) :
    (s.putCapture p c).idlePort port = s.idlePort port := by
  dsimp only [State.putCapture]
  cases p <;> simp (disch := decide) only [State.idlePort_setReg]

@[simp ↓] theorem State.idlePort_recapture (s : State) (port : Nat) : s.recapture.idlePort port = s.idlePort port := by
  dsimp only [State.recapture]
  simp

@[simp ↓] theorem State.idlePort_countWrote (s : State) (port : Nat) :
    s.countWrote.idlePort port = s.idlePort port := by rfl

@[simp ↓] theorem State.idlePort_storeRecord (s : State) (r : List Byte) (port : Nat) :
    (s.storeRecord r).idlePort port = s.idlePort port := by
  have hmram : ∀ (v : State) (m : Mram), State.idlePort { v with mram := m } port = v.idlePort port := fun _ _ => rfl
  dsimp only [State.storeRecord]
  simp (disch := decide) [↓hmram]

@[simp ↓] theorem State.idlePort_writeRecord (s : State) (code : Nat) (r : List Byte) (port : Nat) :
    (s.writeRecord code r).idlePort port = s.idlePort port := by
  have hbel : ∀ (v : State) (b : BelfrySt), State.idlePort { v with bel := b } port = v.idlePort port :=
    fun _ _ => rfl
  have hmgmt : ∀ (v : State) (m : MgmtSt), State.idlePort { v with mgmt := m } port = v.idlePort port :=
    fun _ _ => rfl
  dsimp only [State.writeRecord]
  simp (disch := decide) [↓hbel, ↓hmgmt]

@[simp ↓] theorem State.idlePort_summary (s : State) (code port : Nat) :
    (s.summary code).idlePort port = s.idlePort port := by
  dsimp only [State.summary]
  simp

@[simp ↓] theorem State.idlePort_refillFirst (s : State) (port : Nat) :
    s.refillFirst.idlePort port = s.idlePort port := by
  have hall : s.refillAll.idlePort port = s.idlePort port := rfl
  simp [State.refillFirst, State.summaries, hall]

@[simp ↓] theorem State.idlePort_record (s : State) (code payload : Nat) (src : Source) (port : Nat) :
    (s.record code payload src).idlePort port = s.idlePort port := by
  dsimp only [State.record]
  simp

/-! ### The durability policy -/

@[simp ↓] theorem State.idlePort_checkPolicy (s : State) (port : Nat) :
    s.checkPolicy.idlePort port = s.idlePort port := by
  have hshort : ∀ (v : State) (b : Bool), State.idlePort { v with jrnl := { v.jrnl with short := b } } port =
      v.idlePort port := fun _ _ => rfl
  dsimp only [State.checkPolicy]
  simp (disch := decide) [↓hshort]

theorem State.idlePort_of_down {s : State} {port st : Nat} (h : s.fld (jState port) = st) (hst : st ≠ 3) :
    s.idlePort port = (st, some (s.jport port)) := by
  rw [State.idlePort, h, if_neg hst]

/-- A port that is not UP is read from its view. -/
theorem State.jport_of_idlePort {s : State} {port st : Nat} {p : JPort} (h : s.idlePort port = (st, some p)) :
    s.jport port = p ∧ s.fld (jState port) = st := by
  rw [State.idlePort, Prod.mk.injEq] at h
  obtain ⟨hst, hp⟩ := h
  split at hp
  · cases hp
  · exact ⟨Option.some.inj hp, hst⟩

end Sys2Proof.Machine
end

section
/-! SUPPORT. The scope: acknowledgement on a journal port, its timeout and the loss of light (R57, R273, R280, R283). -/

namespace Sys2Proof.Machine

/-! ### Bytes -/

theorem leNat_lt (l : List Byte) : leNat l < 256 ^ l.length := by
  induction l with
  | nil => exact Nat.one_pos
  | cons b l ih =>
    have hb : b.toNat < 256 := b.isLt
    rw [leNat, List.length_cons, Nat.pow_succ]
    omega

theorem fieldAt_lt (bs : List Byte) (off len : Nat) : fieldAt bs off len < 256 ^ len :=
  (leNat_lt _).trans_le (Nat.pow_le_pow_right (by decide) (List.length_take_le _ _))

/-! ### Ports -/

theorem State.jport_onPort (s : State) (port : Nat) (f : JPort → JPort) :
    (s.onPort port f).jport port = f (s.jport port) := by
  unfold State.jport State.onPort
  split <;> rfl

theorem State.jport_onPort_other (s : State) {port : Nat} (f : JPort → JPort) (h : port < 2) :
    (s.onPort port f).jport (1 - port) = s.jport (1 - port) := by
  unfold State.jport State.onPort
  obtain rfl | rfl : port = 0 ∨ port = 1 := by omega
  all_goals rfl

/-- The fields of a journal port lie apart. -/
theorem jport_fields (port : Nat) : (jState port).lo + (jState port).w ≤ 64 ∧ (jState port).w = 2 ∧
    (jAcked port).lo + (jAcked port).w ≤ 64 ∧ (jAcked port).w = 64 ∧ (jAtLimit port).offPorts = true ∧
    (jAcked port).offPorts = true ∧ (jAtLimit port).reg ≠ .DURABILITY_POLICY ∧
    (jAcked port).reg ≠ .DURABILITY_POLICY ∧ (jAcked port).reg ≠ .INTAKE_STAT ∧ (jAcked port).reg ≠ .JRNL_STAT := by
  unfold jState jAcked jAtLimit
  split <;> decide

/-! ### Frames that come back -/

theorem State.checkReturn_good {s : State} {port typ : Nat} {b : List Byte} (h : wireOk b = true)
    (ht : fieldAt b 3 1 = typ) : s.checkReturn port typ b = none := by
  simp [State.checkReturn, h, ht]

theorem State.checkReturn_bad {s : State} {port typ : Nat} {b : List Byte} (h : wireOk b = false) :
    s.checkReturn port typ b = some (s.record 0x1018 (port + fieldAt b 3 1 * 256)) := by
  simp [State.checkReturn, h]

/-- A good ACK on an UP port. -/
def State.takeAck (s : State) (port n : Nat) : State :=
  let s := s.onPort port fun p => { p with ackAt := some s.now }
  if s.fld (jAcked port) < n then s.advanceAck port n else s

section
variable {t port : Nat} {s : State} (hport : port < 2) (hup : s.cUp = true) (hst : s.fld (jState port) = 3)
include hport hup hst

theorem execJournalAck_good {b : List Byte} (h : wireOk b = true) (ht : fieldAt b 3 1 = 0x10) :
    exec (.journalAck t port b) s = .next ((s.tick t).takeAck port (fieldAt b 64 8)) := by
  show execJournalAck t port b s = _
  rw [execJournalAck, if_neg (by omega), State.when_due (by simp [hup, hst]), State.checkReturn_good h ht]
  rfl

theorem execJournalAck_bad {b : List Byte} (h : wireOk b = false) :
    exec (.journalAck t port b) s = .next ((s.tick t).record 0x1018 (port + fieldAt b 3 1 * 256)) := by
  show execJournalAck t port b s = _
  rw [execJournalAck, if_neg (by omega), State.when_due (by simp [hup, hst]), State.checkReturn_bad h]

end

/-! ### ACKED advances -/

/-- A port whose partner has acknowledged up to `n`. -/
def JPort.ackedTo (p : JPort) (n now : Nat) : JPort := { p with
  unacked := p.unacked.filter fun u => decide (n < u.1)
  queue := p.queue.filter fun q => decide (n < q.1)
  advanced := now
  expiries := 0
  resync := if p.resync.any (· ≤ n) then none else p.resync }

/-- ACKED advances to `n`, the policy not yet looked at. -/
def State.ackedTo (s : State) (port n : Nat) : State :=
  (s.setFld (jAcked port) n).onPort port fun p => p.ackedTo n s.now

/-- An ACK in the cycle of expiry is counted, and ACKED advances. -/
theorem State.advanceAck_eq (s : State) (port n : Nat) : ∃ v, (v = s ∨ v = s.incFld (jAtLimit port)) ∧
    s.advanceAck port n = (v.ackedTo port n).checkPolicy.showUsed := by
  unfold State.advanceAck State.ackedTo JPort.ackedTo
  cases (s.jport port).timerFrom with
  | none => exact ⟨s, .inl rfl, rfl⟩
  | some c =>
    dsimp only
    split
    · exact ⟨_, .inr rfl, rfl⟩
    · exact ⟨_, .inl rfl, rfl⟩

theorem State.jport_ackedTo (s : State) (port n : Nat) :
    (s.ackedTo port n).jport port = (s.jport port).ackedTo n s.now := State.jport_onPort ..

theorem State.jport_ackedTo_other (s : State) {port : Nat} (n : Nat) (h : port < 2) :
    (s.ackedTo port n).jport (1 - port) = s.jport (1 - port) := State.jport_onPort_other _ _ h

/-- An acknowledgement leaves a port that counts as up so. -/
theorem State.portUp_ackedTo {s : State} {port k : Nat} (n : Nat) (hport : port < 2) (hk : k < 2)
    (h : s.portUp k = true) : (s.ackedTo port n).portUp k = true := by
  obtain ⟨-, -, -, -, -, hoff, -⟩ := jport_fields port
  rw [State.portUp, Bool.and_eq_true, beq_iff_eq, Option.isNone_iff_eq_none] at h ⊢
  obtain ⟨hst, hres⟩ := h
  refine ⟨(s.fld_jState_setFld n k hoff).trans hst, ?_⟩
  by_cases he : k = port
  · subst he
    rw [State.jport_ackedTo, JPort.ackedTo]
    simp [hres]
  · rw [show k = 1 - port by omega, State.jport_ackedTo_other s n hport, ← show k = 1 - port by omega]
    exact hres

/-- A policy that enough ports meet is met by more. -/
theorem State.policyShort_of_portUp {s u : State} (hp : u.policyNow = s.policyNow)
    (h : ∀ k < 2, s.portUp k = true → u.portUp k = true) (hs : s.policyShort = false) : u.policyShort = false := by
  have hmono : ∀ {a b : Bool}, (a = true → b = true) → a.toNat ≤ b.toNat := fun {a b} hab => by
    cases a
    · exact Nat.zero_le _
    · rw [hab rfl]
  have h0 := hmono (h 0 (by decide))
  have h1 := hmono (h 1 (by decide))
  rw [State.policyShort, decide_eq_false_iff_not, State.portsUp] at hs ⊢
  omega

theorem State.policyShort_ackedTo {s : State} {port : Nat} (n : Nat) (hport : port < 2)
    (h : s.policyShort = false) : (s.ackedTo port n).policyShort = false := by
  obtain ⟨-, -, -, -, -, -, -, hreg, -⟩ := jport_fields port
  exact State.policyShort_of_portUp (s.fld_setFld_ne n (Ne.symm hreg)) (fun k hk => State.portUp_ackedTo n hport hk) h

/-- A policy that is not short ends its episode, with no event. -/
theorem State.checkPolicy_met {s : State} (h : s.policyShort = false) : s.checkPolicy =
    ((({ s with jrnl := { s.jrnl with short := false } } : State).setFlag Fld.INTAKE_STAT_DUR_HOLD false).setFlag
      Fld.INTAKE_STAT_DUR_DEGRADED false) := by
  rw [State.checkPolicy, h]
  rfl

/-- After an acknowledgement the policy and LOCAL_USED are shown, and ports and ACKED are left. -/
theorem State.advanceAck_shown {s : State} (port : Nat) (hshort : s.policyShort = false) :
    (∀ k, s.checkPolicy.showUsed.jport k = s.jport k) ∧
      s.checkPolicy.showUsed.fld (jAcked port) = s.fld (jAcked port) := by
  obtain ⟨-, -, -, -, -, -, -, -, hstat, hjrnl⟩ := jport_fields port
  rw [State.checkPolicy_met hshort, State.showUsed]
  refine ⟨fun k => ?_, ?_⟩
  · rw [State.jport, State.setFld_jrnl, State.setFlag_jrnl, State.setFlag_jrnl, State.jport]
  · rw [State.fld_setFld_ne _ _ hjrnl, State.setFlag, State.fld_setFld_ne _ _ hstat, State.setFlag,
      State.fld_setFld_ne _ _ hstat]
    rfl

/-- ACKED advances on a port, under a policy that is not short: the port has what it covers no longer, and the other
stays. -/
theorem State.advanceAck_spec {s : State} {port n : Nat} (hport : port < 2) (hn : n < 2 ^ 64)
    (hshort : s.policyShort = false) : (s.advanceAck port n).fld (jAcked port) = n ∧
      (s.advanceAck port n).jport port = (s.jport port).ackedTo n s.now ∧
      (s.advanceAck port n).jport (1 - port) = s.jport (1 - port) := by
  obtain ⟨-, -, hlo, hw, hlim, -, hdur, -⟩ := jport_fields port
  obtain ⟨v, hv, he⟩ := s.advanceAck_eq port n
  have hsame : v.policyShort = false ∧ v.jrnl = s.jrnl ∧ v.now = s.now := by
    rcases hv with rfl | rfl
    · exact ⟨hshort, rfl, rfl⟩
    · refine ⟨State.policyShort_of_portUp (s.fld_setFld_ne _ (Ne.symm hdur)) (fun k _ hk => ?_) hshort, rfl, rfl⟩
      rw [State.portUp, State.incFld, State.addFld, s.fld_jState_setFld _ k hlim]
      exact hk
  obtain ⟨hmet, hj, hnow⟩ := hsame
  have hjport : ∀ k, v.jport k = s.jport k := fun k => by rw [State.jport, hj, State.jport]
  obtain ⟨hports, hfld⟩ := State.advanceAck_shown port (State.policyShort_ackedTo n hport hmet)
  refine ⟨?_, ?_, ?_⟩
  · rw [he, hfld, State.ackedTo, State.onPort_fld]
    exact State.fld_setFld_of_lt v hlo (by rw [hw]; exact hn)
  · rw [he, hports, State.jport_ackedTo, hjport, hnow]
  · rw [he, hports, State.jport_ackedTo_other v n hport, hjport]

/-! ### A port goes DOWN -/

/-- A port with nothing sent or to send, and no credit. -/
def JPort.emptied (p : JPort) : JPort :=
  { p with queue := [], unacked := [], expiries := 0, credit := 0, used := 0 }

theorem State.portDown_eq (s : State) (port : Nat) : s.portDown port =
    ((s.onPort port JPort.emptied).setFld (jState port) 1).checkPolicy.record 0x1012 port := by rfl

/-- A port that goes DOWN is empty and stays so through the events that this makes. -/
theorem State.portDown_spec (s : State) (port : Nat) :
    ((s.portDown port).jport port).queue = [] ∧ ((s.portDown port).jport port).unacked = [] ∧
      (s.portDown port).fld (jState port) = 1 ∧ ∃ v, s.portDown port = State.record v 0x1012 port := by
  obtain ⟨hlo, hw, -⟩ := jport_fields port
  let v := (s.onPort port JPort.emptied).setFld (jState port) 1
  have hst : v.fld (jState port) = 1 := State.fld_setFld_of_lt _ hlo (by rw [hw]; decide)
  have hview : (s.portDown port).idlePort port = (1, some (v.jport port)) := by
    rw [State.portDown_eq, State.idlePort_record, State.idlePort_checkPolicy]
    exact State.idlePort_of_down hst (by decide)
  obtain ⟨hp, hdown⟩ := State.jport_of_idlePort hview
  have hempty : v.jport port = (s.jport port).emptied := s.jport_onPort ..
  rw [hp, hempty]
  exact ⟨rfl, rfl, hdown, _, rfl⟩

/-! ### ACK_TIMEOUT and the loss of light -/

/-- The frames that a port has sent and not seen acknowledged go to the head of its queue (R283). -/
def JPort.resend (p : JPort) : JPort := { p with
  queue := p.unacked.map (fun f => (f.1, true)) ++ p.queue, unacked := [], expiries := p.expiries + 1 }

/-- The expiry of ACK_TIMEOUT on a port: DOWN at the RETRIES-th, else its frames again. -/
def State.expireAck (s : State) (port : Nat) : State :=
  if s.fld Fld.JRNL_CTL_RETRIES ≤ (s.jport port).expiries + 1 then s.portDown port else s.onPort port JPort.resend

theorem State.expireAck_again {s : State} {port : Nat}
    (h : (s.jport port).expiries + 1 < s.fld Fld.JRNL_CTL_RETRIES) :
    s.expireAck port = s.onPort port JPort.resend := if_neg (Nat.not_le.mpr h)

theorem State.expireAck_last {s : State} {port : Nat}
    (h : s.fld Fld.JRNL_CTL_RETRIES ≤ (s.jport port).expiries + 1) : s.expireAck port = s.portDown port := if_pos h

section
variable {t port n c : Nat} {rest : List (Nat × Nat)} {s : State} (hport : port < 2)
include hport

theorem execJournalAckTimeout_over (hup : s.cUp = true) (hst : s.fld (jState port) = 3)
    (hsent : (s.jport port).unacked = (n, c) :: rest)
    (hover : (s.tick t).past (max c (s.jport port).advanced + s.fld Fld.JRNL_CTL_ACK_TIMEOUT) = true) :
    exec (.journalAckTimeout t port) s = .next ((s.tick t).expireAck port) := by
  have hfrom : ((s.tick t).jport port).timerFrom = some (max c (s.jport port).advanced) := by
    rw [show (s.tick t).jport port = s.jport port from rfl, JPort.timerFrom, hsent]
  show execJournalAckTimeout t port s = _
  rw [execJournalAckTimeout, if_neg (by omega), State.when_due (by simp [hup, hst, hfrom, hover])]
  rfl

theorem execJournalAckTimeout_early (hsent : (s.jport port).unacked = (n, c) :: rest)
    (hover : (s.tick t).past (max c (s.jport port).advanced + s.fld Fld.JRNL_CTL_ACK_TIMEOUT) = false) :
    exec (.journalAckTimeout t port) s = .next (s.tick t) := by
  have hfrom : ((s.tick t).jport port).timerFrom = some (max c (s.jport port).advanced) := by
    rw [show (s.tick t).jport port = s.jport port from rfl, JPort.timerFrom, hsent]
  show execJournalAckTimeout t port s = _
  rw [execJournalAckTimeout, if_neg (by omega), State.when_not_due (by simp [hfrom, hover])]

/-- A loss of light takes an UP port DOWN, in its cycle or in the one after it. -/
theorem execJournalLossOfLight_up (hup : s.cUp = true) (hst : s.fld (jState port) = 3) :
    ∃ v, exec (.journalLossOfLight t port) s = .next (State.portDown v port) := by
  show ∃ v, execJournalLossOfLight t port s = _
  rw [execJournalLossOfLight, if_neg (by omega), State.when_due (by simp [hup, hst])]
  exact ⟨_, rfl⟩

end

theorem State.onPort_rest (s : State) (port : Nat) (f : JPort → JPort) : s.onPort port f = { s with
    jrnl := { s.jrnl with j0 := (s.onPort port f).jrnl.j0, j1 := (s.onPort port f).jrnl.j1 } } := by
  unfold State.onPort
  split <;> rfl

/-- Settles O39: under a policy that is not short an ACK touches its own port alone, and a port that is DOWN takes no
frame of the events that this makes. -/
theorem journalAcknowledgement : Obligations.JournalAcknowledgement := by
  unfold Obligations.JournalAcknowledgement
  intro t port s hport hup hst p down
  refine ⟨fun b hok htyp => ⟨?advance, ?old⟩, fun b => execJournalAck_bad hport hup hst, fun n c rest hsent =>
    ⟨?resend, ?retries, execJournalAckTimeout_early hport hsent⟩, ?light⟩
  case advance =>
    intro hnew hmet
    let v := (s.tick t).onPort port fun q => { q with ackAt := some (max s.now t) }
    have hv : v.policyShort = false := by
      refine State.policyShort_of_portUp (s := s) rfl (fun k hk hpu => ?_) hmet
      have hres : (v.jport k).resync = (s.jport k).resync := by
        by_cases he : k = port
        · rw [he, State.jport_onPort]
          rfl
        · rw [show k = 1 - port by omega, State.jport_onPort_other _ _ hport]
          rfl
      rw [State.portUp, hres]
      exact hpu
    obtain ⟨hacked, hself, hother⟩ := State.advanceAck_spec (n := fieldAt b 64 8) hport (fieldAt_lt b 64 8) hv
    have hvp : v.jport port = { p with ackAt := some (max s.now t) } := State.jport_onPort ..
    refine ⟨v.advanceAck port (fieldAt b 64 8), ?_, hacked, ?_, ?_, ?_,
      hother.trans (State.jport_onPort_other _ _ hport)⟩
    · rw [execJournalAck_good hport hup hst hok htyp, State.takeAck]
      exact congrArg Host.Outcome.next (if_pos hnew)
    · rw [hself]
      rfl
    · rw [hself, hvp]
      rfl
    · rw [hself, hvp]
      rfl
  case old =>
    intro hold
    rw [execJournalAck_good hport hup hst hok htyp, State.takeAck]
    exact congrArg Host.Outcome.next (if_neg (Nat.not_lt.mpr hold))
  case resend =>
    intro hover hleft
    rw [execJournalAckTimeout_over hport hup hst hsent hover]
    exact ⟨_, congrArg _ (State.expireAck_again (s := s.tick t) hleft), State.jport_onPort .., State.onPort_rest ..⟩
  case retries =>
    intro hover hlast
    rw [execJournalAckTimeout_over hport hup hst hsent hover]
    exact ⟨_, congrArg _ (State.expireAck_last (s := s.tick t) hlast), (s.tick t).portDown_spec port⟩
  case light =>
    obtain ⟨v, hv⟩ := execJournalLossOfLight_up (t := t) hport hup hst
    exact ⟨_, hv, v.portDown_spec port⟩

end Sys2Proof.Machine
end

section
/-! SUPPORT. What a phase that begins and an event leave of step time: all its hidden state but the cycle of the phase and
the widened windows already said, and every register but STEP_PHASE and those of events (R43, R44, R48). -/

namespace Sys2Proof.Machine

/-- The registers that a phase or an event may change. -/
def phaseRegs : List Reg := .STEP_PHASE :: eventRegs

def State.clockView (s : State) : (Reg → W64) × Nat × StepT :=
  (fun r => if r ∈ phaseRegs then 0 else s.reg r, s.now,
    { s.stept with phaseAt := 0, widened := [], widenedFor := 0 })

/-! ### What is read from it -/

theorem State.reg_of_clockView {s u : State} (h : u.clockView = s.clockView) {r : Reg} (hr : r ∉ phaseRegs) :
    u.reg r = s.reg r := by
  simpa [State.clockView, hr] using congrFun (congrArg Prod.fst h) r

theorem State.fld_of_clockView {s u : State} (h : u.clockView = s.clockView) {f : Field} (hf : f.reg ∉ phaseRegs) :
    u.fld f = s.fld f := by
  rw [State.fld, State.reg_of_clockView h hf, State.fld]

theorem State.clockView_congr {s u : State} (hr : ∀ r ∉ phaseRegs, u.reg r = s.reg r) (hn : u.now = s.now)
    (hs : u.stept = s.stept) : u.clockView = s.clockView := by
  rw [State.clockView, State.clockView, hn, hs]
  refine Prod.ext (funext fun r => ?_) rfl
  dsimp only
  split
  · rfl
  · exact hr r ‹_›

/-! ### The parts -/

theorem State.clockView_of_uneventful {s u : State} (h : u.uneventful = s.uneventful) : u.clockView = s.clockView :=
  State.clockView_congr (fun _ hr => State.reg_of_uneventful h fun he => hr (List.mem_cons_of_mem _ he))
    (congrArg (fun x => x.2.now) h) (congrArg (fun x => x.2.stept) h)

@[simp ↓] theorem State.clockView_record (s : State) (code payload : Nat) (src : Source) :
    (s.record code payload src).clockView = s.clockView := State.clockView_of_uneventful (s.uneventful_record ..)

@[simp ↓] theorem State.clockView_addFrame (s : State) (typ : Nat) (lastPart : Bool) (orderSeq policy : Nat)
    (bs : List Byte) : (s.addFrame typ lastPart orderSeq policy bs).clockView = s.clockView :=
  State.clockView_of_uneventful (State.uneventful_of_calm (State.calm_addFrame ..))

@[simp ↓] theorem State.clockView_emit (s : State) (e : Emission) : (s.emit e).clockView = s.clockView := by rfl

@[simp ↓] theorem State.clockView_ite {c : Prop} [Decidable c] (a b : State) :
    (if c then a else b).clockView = if c then a.clockView else b.clockView := by split <;> rfl

@[simp ↓] theorem State.clockView_foldl {α : Type} {f : State → α → State}
    (h : ∀ s a, (f s a).clockView = s.clockView) (l : List α) (s : State) : (l.foldl f s).clockView = s.clockView := by
  induction l generalizing s with
  | nil => rfl
  | cons a l ih => rw [List.foldl_cons, ih, h]

/-! ### A phase -/

@[simp ↓] theorem State.clockView_sayWidened (s : State) : s.sayWidened.clockView = s.clockView := by
  have hsaid : ∀ (v : State) (keys : List Nat) (k : Nat),
      State.clockView { v with stept := { v.stept with widened := keys, widenedFor := k } } = v.clockView :=
    fun _ _ _ => rfl
  dsimp only [State.sayWidened]
  simp [↓hsaid]

theorem State.clockView_formParts (s : State) (x : Transfer) (ps : List (Bool × List Byte)) :
    (s.formParts x ps).1.clockView = s.clockView := by
  induction ps generalizing s x with
  | nil => rfl
  | cons p ps ih =>
    rw [State.formParts]
    split
    · rfl
    · rw [ih, State.clockView_addFrame]

@[simp ↓] theorem State.clockView_pumpPeriodic (s : State) : s.pumpPeriodic.clockView = s.clockView := by
  unfold State.pumpPeriodic
  split
  · split
    · exact s.clockView_formParts _ _
    · rfl
  · rfl

@[simp ↓] theorem State.clockView_noteFlush (s : State) : s.noteFlush.clockView = s.clockView := by
  unfold State.noteFlush
  split <;> rfl

@[simp ↓] theorem State.clockView_startAligned (s : State) : s.startAligned.clockView = s.clockView := by rfl

@[simp ↓] theorem State.clockView_atPhase (s : State) : s.atPhase.clockView = s.clockView := by
  simp [State.atPhase]

@[simp ↓] theorem State.clockView_oneMorePhase (s : State) : s.oneMorePhase.clockView = s.clockView := by
  rw [State.oneMorePhase, State.clockView_ite, State.clockView_emit, ite_self, State.clockView_atPhase,
    State.clockView_sayWidened]
  have hshown : (s.setFld Fld.STEP_PHASE_PHASE (s.phi + 1)).clockView = s.clockView :=
    State.clockView_congr (fun r hr => s.reg_setFld_ne _ fun e => hr (e ▸ by decide)) rfl rfl
  exact hshown

@[simp ↓] theorem State.clockView_beginPhasesTo (s : State) (p : Nat) :
    (s.beginPhasesTo p).clockView = s.clockView := State.clockView_foldl (fun v _ => v.clockView_oneMorePhase) _ s

/-- Phases begin one by one (R44). -/
theorem State.phi_foldl_oneMorePhase (s : State) (n : Nat) (h : s.phi + n < 65536) :
    ((List.range n).foldl (fun s _ => s.oneMorePhase) s).phi = s.phi + n := by
  induction n with
  | zero => rfl
  | succ n ih =>
    rw [List.range_succ, List.foldl_append, List.foldl_cons, List.foldl_nil]
    have hphi := ih (by omega)
    rw [(State.oneMorePhase_begins (by omega)).1, hphi, Nat.add_assoc]

theorem State.phi_beginPhasesTo (s : State) {p : Nat} (h : p < 65536) : (s.beginPhasesTo p).phi = max s.phi p := by
  have hphi : s.phi < 65536 := s.fld_lt Fld.STEP_PHASE_PHASE
  rw [State.beginPhasesTo, State.phi_foldl_oneMorePhase s _ (by omega)]
  omega

end Sys2Proof.Machine
end

section
/-! SUPPORT. A mark that is applied (R43 to R46, R50, R53, R54): its compensation shown, then its effect. -/

namespace Sys2Proof.Machine

/-! ### The compensation shown -/

/-- The compensation of a mark, and the lock on what a link brings (R53). -/
def State.showMark (s : State) (m : Mark) : State :=
  let s := (s.setFld Fld.STEP_SKEW_COMP_ACC_DELAY (min m.acc 0xFFFF)).setFld Fld.STEP_SKEW_COMP_APPLIED (m.dTotal - m.acc)
  if m.fromLink then s.setFlag Fld.STEP_STAT_LOCKED true else s

theorem State.applyMark_eq (s : State) (m : Mark) : s.applyMark m =
    if m.isPhase then (s.showMark m).applyPhaseMark m else (s.showMark m).applyStepMark m := by rfl

theorem State.showMark_rest (s : State) (m : Mark) : s.showMark m = { s with regs := (s.showMark m).regs } := by
  unfold State.showMark
  split <;> rfl

@[simp] theorem State.showMark_stept (s : State) (m : Mark) : (s.showMark m).stept = s.stept := by
  rw [State.showMark_rest]

@[simp] theorem State.showMark_now (s : State) (m : Mark) : (s.showMark m).now = s.now := by
  rw [State.showMark_rest]

theorem State.showMark_acc (s : State) (m : Mark) :
    (s.showMark m).fld Fld.STEP_SKEW_COMP_ACC_DELAY = min m.acc 0xFFFF := by
  have hshown : ((s.setFld Fld.STEP_SKEW_COMP_ACC_DELAY (min m.acc 0xFFFF)).setFld Fld.STEP_SKEW_COMP_APPLIED
      (m.dTotal - m.acc)).fld Fld.STEP_SKEW_COMP_ACC_DELAY = min m.acc 0xFFFF := by
    rw [State.fld_setFld_of_apart _ _ (by decide) (by decide)]
    exact State.fld_setFld_of_lt s (by decide) (Nat.lt_succ_of_le (Nat.min_le_right ..))
  unfold State.showMark
  split
  · rw [State.fld_setFlag_of_apart _ _ (by decide) (by decide), hshown]
  · exact hshown

theorem State.showMark_locked (s : State) {m : Mark} (h : m.fromLink = true) :
    (s.showMark m).flag Fld.STEP_STAT_LOCKED = true := by
  rw [State.showMark]
  rw [if_pos h]
  exact State.flag_setFlag _ true (by decide) rfl

theorem State.keeps_showMark (s : State) (m : Mark) :
    State.keeps s (s.showMark m) [.STEP_SKEW_COMP, .STEP_STAT] := by
  have hcomp : State.keeps s ((s.setFld Fld.STEP_SKEW_COMP_ACC_DELAY (min m.acc 0xFFFF)).setFld
      Fld.STEP_SKEW_COMP_APPLIED (m.dTotal - m.acc)) [.STEP_SKEW_COMP, .STEP_STAT] :=
    (State.keeps_setFld s _ (by decide)).trans (State.keeps_setFld _ _ (by decide))
  unfold State.showMark
  split
  · exact hcomp.trans (State.keeps_setFlag _ _ (by decide))
  · exact hcomp

/-- A mark that the device itself makes shows no lock. -/
theorem State.keeps_showMark_own (s : State) {m : Mark} (h : m.fromLink = false) :
    State.keeps s (s.showMark m) [.STEP_SKEW_COMP] := by
  rw [State.showMark]
  rw [if_neg (by simp [h])]
  exact (State.keeps_setFld s _ (by decide)).trans (State.keeps_setFld _ _ (by decide))

/-! ### Step marks -/

theorem State.applyStepMark_stale {s : State} {m : Mark} {n : Nat} (hn : s.nextStep = some n) (h : m.step < n) :
    s.applyStepMark m = s.record 0x2005 m.step := by
  rw [State.applyStepMark, hn]
  simp [h]

/-- The phases of the step in progress that have not begun begin with the mark of a later step (R44). -/
def State.catchUp (s : State) (m : Mark) : State :=
  if s.stept.anchor.isSome && s.stepNow < m.step then s.beginPhasesTo (s.phases - 1) else s

/-- A step mark becomes the mark in use. -/
def State.useMark (s : State) (m : Mark) : State := s.onStep fun x => { x with
  current := some m, prevMark := x.lastMark, lastMark := some (s.now, markPos m.step 0 m.phasesLog2) }

/-- A mark in use waits to start steps, with its cycle while fewer than 256 wait (R45, R47). -/
def State.queueMark (s : State) (m : Mark) (now : Nat) : State := s.onStep fun x => { x with
  applied := x.applied ++ [(m, if x.applied.length < 256 then some now else none)] }

theorem State.applyStepMark_fresh {s : State} {m : Mark} (h : s.nextStep.all (fun n => decide (n ≤ m.step)) = true) :
    s.applyStepMark m = let v := (s.catchUp m).useMark m
      if v.runOn then (v.armWatch m.period).queueMark m v.now else v.answerIdle m := by
  have hfresh : (s.nextStep.any fun n => decide (m.step < n)) = false := by
    cases hn : s.nextStep with
    | none => rfl
    | some n =>
      rw [hn, Option.all_some, decide_eq_true_eq] at h
      simpa using h
  rw [State.applyStepMark, hfresh]
  rfl

theorem State.catchUp_of_between {s : State} (m : Mark) (h : s.stept.anchor = none) : s.catchUp m = s := by
  rw [State.catchUp, h]
  rfl

theorem State.clockView_catchUp (s : State) (m : Mark) : (s.catchUp m).clockView = s.clockView := by
  rw [State.catchUp, State.clockView_ite, State.clockView_beginPhasesTo, ite_self]

/-- The watchdog's arming moves the predicted instant alone (R54). -/
theorem State.armWatch_eq (s : State) (hint : Nat) : s.armWatch hint =
    s.onStep fun x => { x with predicted := (s.armWatch hint).stept.predicted } := by
  unfold State.armWatch
  split
  · split <;> rfl
  · rfl

theorem State.answerIdle_rest (s : State) (m : Mark) :
    s.answerIdle m = { s with emitted := (s.answerIdle m).emitted } := by
  unfold State.answerIdle
  split <;> rfl

/-- Step time once a step mark that is not stale has been applied. -/
def StepT.withMark (x : StepT) (m : Mark) (now : Nat) (predicted : Option Nat) : StepT := { x with
  current := some m, prevMark := x.lastMark, lastMark := some (now, markPos m.step 0 m.phasesLog2)
  predicted := predicted
  applied := x.applied ++ if x.run.isSome then [(m, if x.applied.length < 256 then some now else none)] else [] }

theorem State.stept_applyStepMark {s : State} {m : Mark}
    (h : s.nextStep.all (fun n => decide (n ≤ m.step)) = true) :
    (s.applyStepMark m).stept =
      (s.catchUp m).stept.withMark m (s.catchUp m).now (s.applyStepMark m).stept.predicted := by
  rw [State.applyStepMark_fresh h]
  dsimp only
  generalize s.catchUp m = v
  have hrun : (v.useMark m).runOn = v.stept.run.isSome := rfl
  unfold StepT.withMark
  split
  next hon =>
    rw [if_pos (hrun ▸ hon), State.armWatch_eq]
    rfl
  next hoff =>
    rw [if_neg (hrun ▸ hoff), List.append_nil, State.answerIdle_rest]
    rfl

/-- A step mark that is not stale, in the view of step time. -/
theorem State.clockView_applyStepMark {s : State} {m : Mark}
    (h : s.nextStep.all (fun n => decide (n ≤ m.step)) = true) : (s.applyStepMark m).clockView =
      (s.clockView.1, s.now, s.clockView.2.2.withMark m s.now (s.applyStepMark m).stept.predicted) := by
  have hv := s.clockView_catchUp m
  have hnow : (s.catchUp m).now = s.now := congrArg (fun x => x.2.1) hv
  have hrest : (s.applyStepMark m).regs = (s.catchUp m).regs ∧ (s.applyStepMark m).now = (s.catchUp m).now := by
    rw [State.applyStepMark_fresh h]
    dsimp only
    split
    · rw [State.armWatch_eq]
      exact ⟨rfl, rfl⟩
    · rw [State.answerIdle_rest]
      exact ⟨rfl, rfl⟩
  have hregs : (s.applyStepMark m).clockView.1 = (s.catchUp m).clockView.1 := by
    unfold State.clockView State.reg
    rw [hrest.1]
  have hsame : (s.catchUp m).clockView.1 = s.clockView.1 := congrArg Prod.fst hv
  refine Prod.ext (hregs.trans hsame) (Prod.ext (hrest.2.trans hnow) ?_)
  calc (s.applyStepMark m).clockView.2.2
      = (s.catchUp m).clockView.2.2.withMark m s.now (s.applyStepMark m).stept.predicted := by
        rw [State.clockView, State.stept_applyStepMark h, hnow]
        rfl
    _ = _ := by rw [hv]

/-- With no step in progress a mark that a run can use waits, and nothing but step time changes. -/
theorem State.applyStepMark_waits {s : State} {m : Mark} {r : RunSt} (hrun : s.stept.run = some r)
    (han : s.stept.anchor = none) (h : r.next ≤ m.step) : s.applyStepMark m =
      { s with stept := s.stept.withMark m s.now (s.applyStepMark m).stept.predicted } := by
  have hfresh : s.nextStep.all (fun n => decide (n ≤ m.step)) = true := by
    rw [State.nextStep, hrun]
    simpa using h
  have hst := State.stept_applyStepMark hfresh
  rw [State.catchUp_of_between m han] at hst
  have hrest : s.applyStepMark m = { s with stept := (s.applyStepMark m).stept } := by
    have hon : (s.useMark m).runOn = true := by
      show s.stept.run.isSome = true
      rw [hrun]
      rfl
    rw [State.applyStepMark_fresh hfresh, State.catchUp_of_between m han]
    dsimp only
    rw [if_pos hon, State.armWatch_eq]
    rfl
  rw [← hst]
  exact hrest

/-! ### Phase marks -/

/-- Distances between marks, and the segment that a phase mark of the step in progress begins (R43, R44). -/
def State.anchorMark (s : State) (m : Mark) : State :=
  let s := s.onStep fun x => { x with
    prevMark := x.lastMark
    lastMark := some (s.now - s.fld Fld.STEP_PHASE_LAG, markPos m.step m.phase m.phasesLog2) }
  s.onStep fun x => { x with anchor := some ⟨m.phase, s.now, m.strideLog2, s.segment m⟩ }

theorem State.applyPhaseMark_eq (s : State) (m : Mark) : s.applyPhaseMark m =
    if s.stept.anchor.isSome && m.step == s.stepNow then (s.anchorMark m).beginPhasesTo m.phase else s := by rfl

/-- A phase mark leaves the marks that wait, and every register but STEP_PHASE and those of events. -/
theorem State.applyPhaseMark_keeps (s : State) (m : Mark) : (s.applyPhaseMark m).stept.marks = s.stept.marks ∧
    (s.applyPhaseMark m).stept.applied = s.stept.applied ∧
    ∀ f : Field, f.reg ∉ phaseRegs → (s.applyPhaseMark m).fld f = s.fld f := by
  rw [State.applyPhaseMark_eq]
  split
  · have hv := (s.anchorMark m).clockView_beginPhasesTo m.phase
    exact ⟨congrArg (fun x => x.2.2.marks) hv, congrArg (fun x => x.2.2.applied) hv,
      fun f hf => State.fld_of_clockView hv hf⟩
  · exact ⟨rfl, rfl, fun _ _ => rfl⟩

/-- A phase mark of the step in progress begins its phase, from which interpolation goes on. -/
theorem State.applyPhaseMark_begins {s : State} {m : Mark} (han : s.stept.anchor.isSome = true)
    (hstep : m.step = s.stepNow) (hphase : m.phase < 65536) : (s.applyPhaseMark m).phi = max s.phi m.phase ∧
      (s.applyPhaseMark m).stept.anchor.map (·.m) = some m.phase := by
  have hv := (s.anchorMark m).clockView_beginPhasesTo m.phase
  have hanchor : (s.anchorMark m).stept.anchor.map (·.m) = some m.phase := rfl
  rw [State.applyPhaseMark_eq, if_pos (by simp [han, hstep])]
  refine ⟨(s.anchorMark m).phi_beginPhasesTo hphase, ?_⟩
  rw [← hanchor]
  exact congrArg (fun x => x.2.2.anchor.map (·.m)) hv

end Sys2Proof.Machine
end

section
/-! SUPPORT. Frames of the Campanile link (R40, R329): one that counts is checked, and is recorded or taken. -/

namespace Sys2Proof.Machine

/-! ### Checks -/

/-- A frame of a TYPE is recorded when it is bad, and has its effect when it is not. -/
def State.receive (s : State) (typ : Nat) (b : List Byte) (f : State → State) : State := (s.checkFrame typ b).getD (f s)

section
variable {s : State} {typ : Nat} {b : List Byte} (f : State → State)

theorem State.receive_of_bad_crc (h : frameCrcOk typ b = false) :
    s.receive typ b f = s.record 0x2006 (fieldAt b 0 1 + 256) := by
  simp [State.receive, State.checkFrame, h]

theorem State.receive_of_bad_fields (h : frameCrcOk typ b = true) (hf : frameFieldsOk typ b = false) :
    s.receive typ b f = s.record 0x2006 (fieldAt b 0 1) := by
  simp [State.receive, State.checkFrame, h, hf]

theorem State.receive_good (h : frameCrcOk typ b = true ∧ frameFieldsOk typ b = true) : s.receive typ b f = f s := by
  simp [State.receive, State.checkFrame, h]

end

/-- A good frame is remembered, so that one of the other pair that repeats it is dropped (R329). -/
def State.noteFrame (s : State) (b : List Byte) : State := s.onStep fun x => { x with recent := [(b, s.now)] }

/-- A WAIT frame that is not stale goes out, and the predicted instant moves (R52). -/
def State.takeWait (s : State) (b : List Byte) : State :=
  if s.runOn && s.nextStep != some (fieldAt b 4 8) then s.record 0x2005 (fieldAt b 4 8)
  else
    let s := if s.driveOut && !s.inHoldover then s.emit (.campOut b) else s
    if s.stept.predicted.isSome && s.stepSrc == 0 then s.onStep fun x => { x with predicted := some (s.now + 65536) }
    else s

/-- A READY frame comes in the limit cycle of the barrier that waits for it (R57). -/
def State.readyAtLimit (s : State) (step : Nat) : Bool :=
  s.stept.waitSince.any fun w => s.meets (w + s.stept.effMargin) && decide (s.awaited ≤ step)

/-- A READY frame is noted, and READY due upstream may follow (R50). -/
def State.takeReady (s : State) (b : List Byte) : State :=
  ((if s.readyAtLimit (fieldAt b 4 8) then s.incFld Fld.STEP_AT_LIMIT_BARRIER else s).onStep fun x => { x with
    ready := some (fieldAt b 4 8), maxAcc := max x.maxAcc (fieldAt b 2 2), downWait := true }).trySendReady

/-! ### The rows -/

section
variable {t : Nat} {p : Bool} {b : List Byte} {s : State}

theorem execFrames_not_in (h : (s.tick t).inFrame p b = false) : exec (.markFrame t p b) s = .next (s.tick t) ∧
    exec (.phaseFrame t p b) s = .next (s.tick t) ∧ exec (.waitFrame t p b) s = .next (s.tick t) := by
  have hout : ∀ f, s.when t (fun s => s.cUp && s.inFrame p b) f = .next (s.tick t) := fun f =>
    State.when_not_due (by rw [h, Bool.and_false])
  refine ⟨?_, ?_, ?_⟩
  · show execMarkFrame t p b s = _
    exact hout _
  · show execPhaseFrame t p b s = _
    exact hout _
  · show execWaitFrame t p b s = _
    exact hout _

variable (hup : s.cUp = true)
include hup

theorem execReadyFrame_up : exec (.readyFrame t b) s = .next ((s.tick t).receive 3 b fun v => v.takeReady b) := by
  show execReadyFrame t b s = _
  rw [execReadyFrame, State.when_due (by simpa using hup)]
  cases hc : (s.tick t).checkFrame 3 b with
  | some u => rw [State.receive, hc]; rfl
  | none =>
    rw [State.receive, hc, State.takeReady, State.readyAtLimit]
    dsimp only
    cases (s.tick t).stept.waitSince <;> rfl

variable (hin : (s.tick t).inFrame p b = true)
include hin

theorem execMarkFrame_in : exec (.markFrame t p b) s = .next ((s.tick t).receive 1 b fun v =>
    if v.stepSrc == 0 then (v.noteFrame b).takeMark b else v.noteFrame b) := by
  show execMarkFrame t p b s = _
  rw [execMarkFrame, State.when_due (by simp [hup, hin])]
  cases hc : (s.tick t).checkFrame 1 b <;> rw [State.receive, hc] <;> rfl

theorem execPhaseFrame_in : exec (.phaseFrame t p b) s = .next ((s.tick t).receive 2 b fun v =>
    if v.stepSrc == 0 then (v.noteFrame b).takePhase b else v.noteFrame b) := by
  show execPhaseFrame t p b s = _
  rw [execPhaseFrame, State.when_due (by simp [hup, hin])]
  cases hc : (s.tick t).checkFrame 2 b <;> rw [State.receive, hc] <;> rfl

theorem execWaitFrame_in : exec (.waitFrame t p b) s =
    .next ((s.tick t).receive 4 b fun v => (v.noteFrame b).takeWait b) := by
  show execWaitFrame t p b s = _
  rw [execWaitFrame, State.when_due (by simp [hup, hin])]
  cases hc : (s.tick t).checkFrame 4 b <;> rw [State.receive, hc] <;> rfl

end

end Sys2Proof.Machine
end

section
/-! SUPPORT. A MARK frame that is taken (R40, R46, R53, R54, R56): it goes out, may end holdover, is measured and kept. -/

namespace Sys2Proof.Machine

/-! ### Holdover, the cycle and step time -/

/-- Whether a device holds over or holds, the cycle, and its step time. -/
def State.holdView (s : State) : Bool × Bool × Nat × StepT := (s.inHoldover, s.holds, s.now, s.stept)

theorem State.holdView_setFld (s : State) {f : Field} (n : Nat) (h : f.reg ≠ .STEP_STAT) :
    (s.setFld f n).holdView = s.holdView := by
  have hf : ∀ g : Field, g.reg = .STEP_STAT → (s.setFld f n).flag g = s.flag g := fun g hg => by
    rw [State.flag, s.fld_setFld_ne n (by rw [hg]; exact Ne.symm h), State.flag]
  rw [State.holdView, State.inHoldover, State.holds, hf _ rfl, hf _ rfl]
  rfl

@[simp] theorem State.holdView_record (s : State) (code payload : Nat) (src : Source) :
    (s.record code payload src).holdView = s.holdView := by
  rw [State.holdView, State.inHoldover, State.holds, State.flag_record _ _ _ _ (by decide),
    State.flag_record _ _ _ _ (by decide), State.record_now, State.record_stept]
  rfl

/-! ### The end of holdover -/

/-- A MARK that arrives now ends holdover or hold (R56, R58). -/
def State.endsHoldover (s : State) (late : Bool) : Bool :=
  (s.inHoldover || s.holds) && !late && s.stept.lossAt != some s.now

/-- Step time after holdover: marks that it made start no further step. -/
def StepT.resumed (x : StepT) : StepT := { x with
  gen := none, genStopped := false, endHold := false, lossAt := none, lastMark := none, prevMark := none
  marks := x.marks.filter fun m => !m.holdover
  applied := x.applied.filter fun p => !p.1.holdover }

theorem State.holdView_clearHoldover (s : State) :
    s.clearHoldover.holdView = (false, false, s.now, s.stept.resumed) := by
  have hflags : s.clearHoldover.inHoldover = false ∧ s.clearHoldover.holds = false := by
    constructor
    · rw [State.inHoldover, State.clearHoldover]
      rw [State.onStep_flag, State.flag_setFld_of_apart _ _ (by decide) (by decide),
        State.flag_setFlag_of_apart _ _ (by decide) (by decide), State.flag_setFlag _ _ (by decide) rfl]
    · rw [State.holds, State.clearHoldover]
      rw [State.onStep_flag, State.flag_setFld_of_apart _ _ (by decide) (by decide),
        State.flag_setFlag _ _ (by decide) rfl]
  rw [State.holdView, hflags.1, hflags.2]
  rfl

theorem State.resume_outside {s : State} (step : Nat) (late : Bool) (hh : s.inHoldover = false)
    (hd : s.holds = false) : s.resume step late = s := by
  simp [State.resume, hh, hd]

/-- What a MARK leaves of holdover (R56). -/
theorem State.holdView_resume (s : State) (step : Nat) (late : Bool) : ∃ g, (s.resume step late).holdView =
    if s.endsHoldover late then (false, false, s.now, s.stept.resumed)
    else (s.inHoldover, s.holds, s.now, { s.stept with genStopped := g }) := by
  unfold State.resume
  split
  next hstays =>
    have hno : s.endsHoldover late = false := by
      revert hstays
      unfold State.endsHoldover
      cases s.inHoldover || s.holds <;> cases hl : s.stept.lossAt == some s.now <;> simp [bne, hl]
    rw [hno]
    exact ⟨s.stept.genStopped, rfl⟩
  next hholds =>
    cases late with
    | true =>
      rw [State.endsHoldover, Bool.not_true, Bool.and_false, Bool.false_and]
      exact ⟨true, rfl⟩
    | false =>
      have hyes : s.endsHoldover false = true := by
        revert hholds
        unfold State.endsHoldover
        cases s.inHoldover || s.holds <;> cases hl : s.stept.lossAt == some s.now <;> simp [bne, hl]
      rw [hyes]
      exact ⟨false, (State.holdView_record ..).trans s.holdView_clearHoldover⟩

/-! ### The instant -/

/-- The step period that a MARK gives: measured from the MARK before it, when that had a lower index (R54). -/
def State.periodBy (s : State) (m : Nat) : Option Nat := match s.stept.instant with
  | some (m0, c0) => if m0 < m then some ((s.now - c0) / (m - m0)) else s.stept.period
  | none => s.stept.period

/-- A MARK in the limit cycle of the watchdog is counted (R57). -/
def State.countMark (s : State) : State :=
  if (s.stept.predicted.any fun p => s.meets (p + s.stept.effMargin)) && !s.inHoldover && !s.holds then
    s.incFld Fld.STEP_AT_LIMIT_MARK
  else s

/-- Step time with the instant of a MARK. -/
def StepT.withInstant (x : StepT) (m now hint : Nat) (per : Option Nat) : StepT := { x with
  instant := some (m, now), period := per, predicted := x.predicted.map fun _ => now + per.getD hint }

theorem State.markInstant_eq (s : State) (m hint : Nat) :
    s.markInstant m hint = s.countMark.onStep fun x => x.withInstant m s.now hint (s.periodBy m) := by
  unfold State.markInstant State.countMark State.periodBy
  cases hp : s.stept.predicted with
  | none => rfl
  | some p =>
    rw [Option.any_some]
    dsimp only
    split <;> rfl

theorem State.holdView_countMark (s : State) : s.countMark.holdView = s.holdView := by
  unfold State.countMark
  split
  · exact State.holdView_setFld s _ (by decide)
  · rfl

theorem State.holdView_markInstant (s : State) (m hint : Nat) : (s.markInstant m hint).holdView =
    (s.inHoldover, s.holds, s.now, s.stept.withInstant m s.now hint (s.periodBy m)) := by
  have hview := s.holdView_countMark
  rw [State.markInstant_eq]
  calc _ = (s.countMark.holdView.1, s.countMark.holdView.2.1, s.countMark.holdView.2.2.1,
        s.countMark.holdView.2.2.2.withInstant m s.now hint (s.periodBy m)) := rfl
    _ = _ := by rw [hview]; rfl

/-! ### The whole -/

/-- A MARK is below the next step to start (R46). -/
def State.lateStep (s : State) (step : Nat) : Bool := s.nextStep.any fun n => decide (step < n)

/-- A MARK goes out with its delay accumulated, where marks are driven out (R40, R53). -/
def State.forwardMark (s : State) (b : List Byte) : State :=
  if s.driveOut then s.emit (.campOut (markFrame (fieldAt b 1 1) (fieldAt b 2 1) (fieldAt b 3 1) (fieldAt b 4 8)
    (fieldAt b 12 8) (fieldAt b 20 2) (s.accOf (fieldAt b 22 2)))) else s

/-- A MARK that is not stale is measured, and its excess of delay recorded (R53, R54). -/
def State.measureMark (s : State) (b : List Byte) (late : Bool) (acc : Nat) : State :=
  let s := if late then s else s.markInstant (fieldAt b 4 8) (fieldAt b 12 5)
  if !late && fieldAt b 20 2 < acc then s.record 0x200C (acc % 65536 + fieldAt b 20 2 * 65536) else s

/-- The mark that a MARK frame brings, applied when its compensation has passed (R53). -/
def markOf (b : List Byte) (acc now : Nat) : Mark := ⟨false, fieldAt b 4 8, 0, fieldAt b 2 1, fieldAt b 3 1,
  fieldAt b 12 5, acc, fieldAt b 20 2, false, now + (fieldAt b 20 2 - acc), true⟩

theorem State.forwardMark_rest (s : State) (b : List Byte) :
    s.forwardMark b = { s with emitted := (s.forwardMark b).emitted } := by
  unfold State.forwardMark
  split <;> rfl

/-- Step time once a MARK has been kept. -/
def StepT.withFrame (x : StepT) (step : Nat) (m : Mark) : StepT :=
  { x with latest := some step, marks := x.marks ++ [m] }

/-- The latest mark received (R60). -/
def State.noteLatest (s : State) (step : Nat) : State := s.onStep fun x => { x with latest := some step }

/-- A MARK that has gone out ends holdover or does not, is measured and is kept. -/
def State.keepMark (s : State) (b : List Byte) (late : Bool) (acc : Nat) : State :=
  let v := ((s.resume (fieldAt b 4 8) late).noteLatest (fieldAt b 4 8)).measureMark b late acc
  v.onStep fun x => { x with marks := x.marks ++ [markOf b acc v.now] }

theorem State.takeMark_eq (s : State) (b : List Byte) :
    s.takeMark b = (s.forwardMark b).keepMark b (s.lateStep (fieldAt b 4 8)) (s.accOf (fieldAt b 22 2)) := by
  have hlate : (match (s.forwardMark b).nextStep with | some n => decide (fieldAt b 4 8 < n) | none => false) =
      s.lateStep (fieldAt b 4 8) := by
    rw [State.forwardMark_rest, State.lateStep]
    unfold State.nextStep
    cases s.stept.run <;> rfl
  calc s.takeMark b = (s.forwardMark b).keepMark b
        (match (s.forwardMark b).nextStep with | some n => decide (fieldAt b 4 8 < n) | none => false)
        (s.accOf (fieldAt b 22 2)) := rfl
    _ = _ := by rw [hlate]

theorem State.holdView_measureMark (s : State) (b : List Byte) (late : Bool) (acc : Nat) :
    (s.measureMark b late acc).holdView = (s.inHoldover, s.holds, s.now, if late then s.stept
      else s.stept.withInstant (fieldAt b 4 8) s.now (fieldAt b 12 5) (s.periodBy (fieldAt b 4 8))) := by
  have hsaid : ∀ (c : Bool) (v : State) (n : Nat), (if c then v.record 0x200C n else v).holdView = v.holdView :=
    fun c v n => by
      split
      · exact v.holdView_record ..
      · rfl
  rw [State.measureMark, hsaid]
  cases late
  · exact s.holdView_markInstant ..
  · rfl

/-- Step time once a MARK has been taken, with what holdover and the measured period leave open. -/
def State.marked (s : State) (b : List Byte) (late : Bool) (acc : Nat) (g : Bool) (per : Option Nat) : StepT :=
  let x := if s.endsHoldover late then s.stept.resumed else { s.stept with genStopped := g }
  (if late then x else x.withInstant (fieldAt b 4 8) s.now (fieldAt b 12 5) per).withFrame (fieldAt b 4 8)
    (markOf b acc s.now)

theorem State.holdView_keepMark (s : State) (b : List Byte) (late : Bool) (acc : Nat) : ∃ g per,
    (s.keepMark b late acc).holdView = (s.inHoldover && !s.endsHoldover late, s.holds && !s.endsHoldover late, s.now,
      s.marked b late acc g per) := by
  obtain ⟨g, hres⟩ := s.holdView_resume (fieldAt b 4 8) late
  generalize hr : s.resume (fieldAt b 4 8) late = r at hres
  let w := r.noteLatest (fieldAt b 4 8)
  have hm := w.holdView_measureMark b late acc
  refine ⟨g, w.periodBy (fieldAt b 4 8), ?_⟩
  rw [State.keepMark, hr]
  generalize w.periodBy (fieldAt b 4 8) = per at hm
  calc _ = (let v := (w.measureMark b late acc).holdView
        (v.1, v.2.1, v.2.2.1, ({ v.2.2.2 with marks := v.2.2.2.marks ++ [markOf b acc v.2.2.1] } : StepT))) := rfl
    _ = (let v := r.holdView
        (v.1, v.2.1, v.2.2.1, (if late then v.2.2.2 else v.2.2.2.withInstant (fieldAt b 4 8) v.2.2.1
          (fieldAt b 12 5) per).withFrame (fieldAt b 4 8) (markOf b acc v.2.2.1))) := by
      rw [hm]
      cases late <;> rfl
    _ = _ := by
      rw [hres, State.marked]
      cases s.endsHoldover late
      · rw [Bool.not_false, Bool.and_true, Bool.and_true]
        rfl
      · rw [Bool.not_true, Bool.and_false, Bool.and_false]
        rfl

/-- Holdover, the cycle and step time once a MARK has been taken. -/
theorem State.holdView_takeMark (s : State) (b : List Byte) : ∃ g per,
    let late := s.lateStep (fieldAt b 4 8)
    (s.takeMark b).holdView = (s.inHoldover && !s.endsHoldover late, s.holds && !s.endsHoldover late, s.now,
      s.marked b late (s.accOf (fieldAt b 22 2)) g per) := by
  obtain ⟨g, per, h⟩ := (s.forwardMark b).holdView_keepMark b (s.lateStep (fieldAt b 4 8)) (s.accOf (fieldAt b 22 2))
  refine ⟨g, per, ?_⟩
  rw [State.takeMark_eq, h, State.forwardMark_rest]
  rfl

theorem State.marked_spec (s : State) (b : List Byte) (late : Bool) (acc : Nat) (g : Bool) (per : Option Nat) :
    let x := s.marked b late acc g per
    x.latest = some (fieldAt b 4 8) ∧
      x.instant = (if late then s.stept.instant else some (fieldAt b 4 8, s.now)) ∧
      x.marks = (if s.endsHoldover late then s.stept.marks.filter (!·.holdover) else s.stept.marks) ++
        [markOf b acc s.now] ∧
      x.applied = (if s.endsHoldover late then s.stept.applied.filter (!·.1.holdover) else s.stept.applied) ∧
      x.run = s.stept.run := by
  unfold State.marked
  cases late
  · cases s.endsHoldover false <;> exact ⟨rfl, rfl, rfl, rfl, rfl⟩
  · cases s.endsHoldover true <;> exact ⟨rfl, rfl, rfl, rfl, rfl⟩

/-- A good MARK is kept whatever holdover does with it (R40, R56). -/
theorem State.takeMark_kept (s : State) (b : List Byte) :
    let step := fieldAt b 4 8
    let late := s.lateStep step
    let ends := s.endsHoldover late
    let u := s.takeMark b
    u.stept.latest = some step ∧ u.stept.instant = (if late then s.stept.instant else some (step, s.now)) ∧
      u.stept.marks = (if ends then s.stept.marks.filter (!·.holdover) else s.stept.marks) ++
        [markOf b (s.accOf (fieldAt b 22 2)) s.now] ∧
      u.stept.applied = (if ends then s.stept.applied.filter (!·.1.holdover) else s.stept.applied) ∧
      u.inHoldover = (s.inHoldover && !ends) ∧ u.holds = (s.holds && !ends) ∧ u.runOn = s.runOn := by
  intro step late ends u
  obtain ⟨g, per, hv⟩ := s.holdView_takeMark b
  have hx : u.stept = s.marked b late (s.accOf (fieldAt b 22 2)) g per := congrArg (fun v => v.2.2.2) hv
  obtain ⟨hlatest, hinstant, hmarks, happlied, hrun⟩ := s.marked_spec b late (s.accOf (fieldAt b 22 2)) g per
  rw [State.runOn, State.runOn, hx]
  exact ⟨hlatest, hinstant, hmarks, happlied, congrArg (fun v => v.1) hv, congrArg (fun v => v.2.1) hv,
    congrArg Option.isSome hrun⟩

/-- The MARK that starts no measurement of a watchdog: with none predicted, it is noted alone. -/
theorem State.markInstant_unwatched {s : State} (m hint : Nat) (h : s.stept.predicted = none) :
    s.markInstant m hint = s.onStep fun x => { x with instant := some (m, s.now), period := s.periodBy m } := by
  have hcount : s.countMark = s := by
    rw [State.countMark, h]
    rfl
  rw [State.markInstant_eq, hcount]
  calc _ = ({ s with stept := { s.stept with
        instant := some (m, s.now), period := s.periodBy m
        predicted := s.stept.predicted.map fun _ => s.now + (s.periodBy m).getD hint } } : State) := rfl
    _ = ({ s with stept := { s.stept with
        instant := some (m, s.now), period := s.periodBy m, predicted := s.stept.predicted } } : State) := by
      rw [h, Option.map_none]
    _ = _ := rfl

/-- Out of holdover a MARK that nothing waits for and whose delay is within its D_TOTAL is noted and kept. -/
theorem State.keepMark_idle {s : State} {b : List Byte} {acc : Nat} (hh : s.inHoldover = false)
    (hd : s.holds = false) (hp : s.stept.predicted = none) (hacc : acc ≤ fieldAt b 20 2) :
    s.keepMark b false acc = { s with stept := { s.stept with
      latest := some (fieldAt b 4 8), instant := some (fieldAt b 4 8, s.now), period := s.periodBy (fieldAt b 4 8)
      marks := s.stept.marks ++ [markOf b acc s.now] } } := by
  have hmeasure : ∀ v : State, v.stept.predicted = none → v.measureMark b false acc = v.onStep fun x => { x with
      instant := some (fieldAt b 4 8, v.now), period := v.periodBy (fieldAt b 4 8) } := fun v hv => by
    have hfits : (!false && decide (fieldAt b 20 2 < acc)) = false := by simpa using hacc
    rw [State.measureMark, hfits]
    exact State.markInstant_unwatched _ _ hv
  rw [State.keepMark, State.resume_outside _ _ hh hd, hmeasure (s.noteLatest _) hp]
  rfl

/-- With no run and no holdover a MARK goes out and is kept, and its instant and the period are noted. -/
theorem State.takeMark_idle {s : State} {b : List Byte} (hrun : s.stept.run = none) (hh : s.inHoldover = false)
    (hd : s.holds = false) (hp : s.stept.predicted = none) (hacc : s.accOf (fieldAt b 22 2) ≤ fieldAt b 20 2) :
    s.takeMark b = { s with
      emitted := (s.forwardMark b).emitted
      stept := { s.stept with
        latest := some (fieldAt b 4 8), instant := some (fieldAt b 4 8, s.now), period := s.periodBy (fieldAt b 4 8)
        marks := s.stept.marks ++ [markOf b (s.accOf (fieldAt b 22 2)) s.now] } } := by
  have hlate : s.lateStep (fieldAt b 4 8) = false := by
    rw [State.lateStep, State.nextStep, hrun]
    rfl
  rw [State.takeMark_eq, hlate, State.forwardMark_rest]
  exact State.keepMark_idle (s := { s with emitted := (s.forwardMark b).emitted }) hh hd hp hacc

end Sys2Proof.Machine
end

section
/-! SUPPORT. PHASE, WAIT and READY frames that are taken, and a mark that is due (R41, R45, R50, R52, R53). -/

namespace Sys2Proof.Machine

/-! ### PHASE frames -/

/-- A PHASE frame goes out with its delay accumulated, where marks are driven out (R40, R53). -/
def State.forwardPhase (s : State) (b : List Byte) : State :=
  if s.driveOut then s.emit (.campOut (phaseFrame (fieldAt b 2 2) (fieldAt b 4 4) (s.accOf (fieldAt b 8 2)))) else s

/-- The phase mark that a PHASE frame brings to a step that began on `c`, lagged as the step is (R45, R53). -/
def State.phaseMarkOf (s : State) (c : Mark) (b : List Byte) : Mark := { c with
  isPhase := true, phase := fieldAt b 2 2, step := s.stepNow, acc := s.accOf (fieldAt b 8 2), fromLink := true
  applyAt := s.now + (c.dTotal - s.accOf (fieldAt b 8 2)) + s.fld Fld.STEP_PHASE_LAG }

theorem State.takePhase_stale {s : State} {b : List Byte}
    (h : s.stept.anchor = none ∨ fieldAt b 4 4 ≠ s.stepNow % 2 ^ 32) :
    s.takePhase b = s.record 0x2005 (fieldAt b 4 4) := by
  unfold State.takePhase
  dsimp only
  split
  next a c ha _ =>
    have hne : fieldAt b 4 4 ≠ s.stepNow % 2 ^ 32 := h.resolve_left (by rw [ha]; simp)
    rw [if_pos (bne_iff_ne.mpr hne)]
  next => rfl

section
variable {s : State} {b : List Byte} {a : Anchor} {c : Mark} (ha : s.stept.anchor = some a)
  (hc : s.stept.stepMark = some c) (hstep : fieldAt b 4 4 = s.stepNow % 2 ^ 32)
include ha hc hstep

theorem State.takePhase_none (h : s.phaseInStep c (fieldAt b 2 2) = false) :
    s.takePhase b = s.record 0x2006 2 := by
  rw [State.takePhase, ha, hc]
  dsimp only
  rw [if_neg (by rw [hstep]; simp), h]
  rfl

/-- A good PHASE of the step in progress goes out and is kept; its excess of delay is recorded. -/
theorem State.takePhase_kept (h : s.phaseInStep c (fieldAt b 2 2) = true) : s.takePhase b =
    (if c.dTotal < s.accOf (fieldAt b 8 2) then
      (s.forwardPhase b).record 0x200C (s.accOf (fieldAt b 8 2) % 65536 + c.dTotal * 65536)
    else s.forwardPhase b).onStep fun x => { x with marks := x.marks ++ [s.phaseMarkOf c b] } := by
  have hkept : ∀ v : State, v.now = s.now → v.stepNow = s.stepNow →
      v.fld Fld.STEP_PHASE_LAG = s.fld Fld.STEP_PHASE_LAG → ({ c with
        isPhase := true, phase := fieldAt b 2 2, step := v.stepNow, acc := s.accOf (fieldAt b 8 2), fromLink := true
        applyAt := v.now + (c.dTotal - s.accOf (fieldAt b 8 2)) + v.fld Fld.STEP_PHASE_LAG } : Mark) =
      s.phaseMarkOf c b := fun v hn hs hl => by rw [hn, hs, hl]; rfl
  have hsame : (s.forwardPhase b).now = s.now ∧ (s.forwardPhase b).stepNow = s.stepNow ∧
      (s.forwardPhase b).fld Fld.STEP_PHASE_LAG = s.fld Fld.STEP_PHASE_LAG := by
    unfold State.forwardPhase
    split <;> exact ⟨rfl, rfl, rfl⟩
  obtain ⟨hn, hs, hl⟩ := hsame
  rw [State.takePhase, ha, hc]
  dsimp only
  rw [if_neg (by rw [hstep]; simp), h, Bool.not_true, if_neg Bool.false_ne_true]
  split
  next =>
    rw [← hkept ((s.forwardPhase b).record 0x200C (s.accOf (fieldAt b 8 2) % 65536 + c.dTotal * 65536))
      ((State.record_now ..).trans hn) ((State.fld_record _ _ _ _ (by decide)).trans hs)
      ((State.fld_record _ _ _ _ (by decide)).trans hl)]
    rfl
  next =>
    rw [← hkept (s.forwardPhase b) hn hs hl]
    rfl

end

theorem State.forwardPhase_rest (s : State) (b : List Byte) :
    s.forwardPhase b = { s with emitted := (s.forwardPhase b).emitted } := by
  unfold State.forwardPhase
  split <;> rfl

/-- A good PHASE whose delay is within D_TOTAL goes out and is kept, and that is all. -/
theorem State.takePhase_within {s : State} {b : List Byte} {a : Anchor} {c : Mark} (ha : s.stept.anchor = some a)
    (hc : s.stept.stepMark = some c) (hstep : fieldAt b 4 4 = s.stepNow % 2 ^ 32)
    (h : s.phaseInStep c (fieldAt b 2 2) = true) (hacc : s.accOf (fieldAt b 8 2) ≤ c.dTotal) :
    s.takePhase b = { s with
      emitted := (s.forwardPhase b).emitted
      stept := { s.stept with marks := s.stept.marks ++ [s.phaseMarkOf c b] } } := by
  rw [State.takePhase_kept ha hc hstep h, if_neg (Nat.not_lt.mpr hacc), State.forwardPhase_rest]
  rfl

/-- A PHASE that is kept joins the marks that wait, whether its delay is within D_TOTAL or not. -/
theorem State.takePhase_marks {s : State} {b : List Byte} {a : Anchor} {c : Mark} (ha : s.stept.anchor = some a)
    (hc : s.stept.stepMark = some c) (hstep : fieldAt b 4 4 = s.stepNow % 2 ^ 32)
    (h : s.phaseInStep c (fieldAt b 2 2) = true) :
    (s.takePhase b).stept.marks = s.stept.marks ++ [s.phaseMarkOf c b] := by
  have hsent : (s.forwardPhase b).stept = s.stept := by rw [State.forwardPhase_rest]
  rw [State.takePhase_kept ha hc hstep h]
  split
  · rw [State.onStep_stept, State.record_stept, hsent]
  · rw [State.onStep_stept, hsent]

/-! ### WAIT frames -/

/-- A WAIT for another step than the next of a run is stale (R52). -/
theorem State.takeWait_stale {s : State} {b : List Byte} (hrun : s.stept.run.isSome = true)
    (h : s.nextStep ≠ some (fieldAt b 4 8)) : s.takeWait b = s.record 0x2005 (fieldAt b 4 8) :=
  if_pos (Bool.and_eq_true_iff.mpr ⟨hrun, bne_iff_ne.mpr h⟩)

/-- A WAIT that is not stale goes out outside holdover, and holds off the watchdog of a device that follows. -/
theorem State.takeWait_fresh {s : State} {b : List Byte}
    (h : s.stept.run = none ∨ s.nextStep = some (fieldAt b 4 8)) : s.takeWait b =
      let out := if s.driveOut = true ∧ s.inHoldover = false then .campOut b :: s.emitted else s.emitted
      if s.stept.predicted.isSome = true ∧ s.stepSrc = 0 then
        { s with emitted := out, stept := { s.stept with predicted := some (s.now + 65536) } }
      else { s with emitted := out } := by
  have hfresh : (s.runOn && s.nextStep != some (fieldAt b 4 8)) = false := by
    rcases h with hr | hn
    · rw [State.runOn, hr]
      rfl
    · rw [hn]
      simp
  have hsent : (if s.driveOut && !s.inHoldover then s.emit (.campOut b) else s) = { s with
      emitted := if s.driveOut = true ∧ s.inHoldover = false then .campOut b :: s.emitted else s.emitted } := by
    cases s.driveOut <;> cases s.inHoldover <;> rfl
  rw [State.takeWait, hfresh, if_neg Bool.false_ne_true, hsent]
  refine if_congr ?_ rfl rfl
  exact Bool.and_eq_true_iff.trans (and_congr_right fun _ => beq_iff_eq)

/-! ### A mark that is due -/

theorem execMarkApply_due {t : Nat} {m : Mark} {ms : List Mark} {s : State} (hup : s.cUp = true)
    (h : dueMark (max s.now t) s.stept.marks = some (m, ms)) :
    exec (.markApply t) s = .next (((s.tick t).onStep fun x => { x with marks := ms }).applyMark m) := by
  have hdue : dueMark (s.tick t).now (s.tick t).stept.marks = some (m, ms) := h
  show execMarkApply t s = _
  rw [execMarkApply, State.when_due (by simp [hup, h]), hdue]

section
variable {s : State} {m : Mark}

theorem State.applyMark_step (h : m.isPhase = false) : s.applyMark m = (s.showMark m).applyStepMark m := by
  rw [State.applyMark_eq, h]
  rfl

theorem State.applyMark_phase (h : m.isPhase = true) : s.applyMark m = (s.showMark m).applyPhaseMark m := by
  rw [State.applyMark_eq, h]
  rfl

/-- A stale step mark is recorded, and starts nothing (R46). -/
theorem State.applyMark_stale {r : RunSt} (h : m.isPhase = false) (hrun : s.stept.run = some r)
    (hstale : m.step < r.next) : s.applyMark m = (s.showMark m).record 0x2005 m.step := by
  have hnext : (s.showMark m).nextStep = some r.next := by
    rw [State.nextStep, State.showMark_stept, hrun]
    rfl
  rw [State.applyMark_step h, State.applyStepMark_stale hnext hstale]

/-- With no step in progress a mark that a run can use waits to start its step (R45). -/
theorem State.applyMark_waits {r : RunSt} (h : m.isPhase = false) (hrun : s.stept.run = some r)
    (han : s.stept.anchor = none) (hnext : r.next ≤ m.step) : s.applyMark m = { s with
      regs := (s.showMark m).regs
      stept := s.stept.withMark m s.now (s.applyMark m).stept.predicted } := by
  have hw := State.applyStepMark_waits (s := s.showMark m) (m := m) (by rw [State.showMark_stept, hrun])
    (by rw [State.showMark_stept, han]) hnext
  rw [State.showMark_stept, State.showMark_now, ← State.applyMark_step h, State.showMark_rest] at hw
  exact hw

/-- A step mark that is not stale becomes the mark in use, whatever is in progress. -/
theorem State.clockView_applyMark (h : m.isPhase = false)
    (hnext : s.nextStep.all (fun n => decide (n ≤ m.step)) = true) : (s.applyMark m).clockView =
      ((s.showMark m).clockView.1, s.now, s.clockView.2.2.withMark m s.now (s.applyMark m).stept.predicted) := by
  have hfresh : (s.showMark m).nextStep.all (fun n => decide (n ≤ m.step)) = true := by
    rw [State.nextStep, State.showMark_stept]
    exact hnext
  rw [State.applyMark_step h, State.clockView_applyStepMark hfresh, State.showMark_now, State.clockView,
    State.showMark_stept]
  rfl

/-- Beyond its compensation such a mark changes no register but STEP_PHASE and those of events. -/
theorem State.fld_applyMark (h : m.isPhase = false)
    (hnext : s.nextStep.all (fun n => decide (n ≤ m.step)) = true) {f : Field} (hf : f.reg ∉ phaseRegs) :
    (s.applyMark m).fld f = (s.showMark m).fld f := by
  have hr := congrFun (congrArg Prod.fst (State.clockView_applyMark h hnext)) f.reg
  simp only [State.clockView, hf, if_false] at hr
  rw [State.fld, hr, State.fld]

end

theorem State.fld_showMark (s : State) (m : Mark) {f : Field} (hf : f.reg ∉ [Reg.STEP_SKEW_COMP, .STEP_STAT]) :
    (s.showMark m).fld f = s.fld f := by
  rw [State.fld, s.keeps_showMark m _ hf, State.fld]

/-- A phase mark leaves the marks that wait; one of the step in progress begins its phase (R44). -/
theorem State.applyMark_phase_spec {s : State} {m : Mark} (h : m.isPhase = true) :
    (s.applyMark m).stept.marks = s.stept.marks ∧ (s.applyMark m).stept.applied = s.stept.applied ∧
      (s.applyMark m).fld Fld.STEP_SKEW_COMP_ACC_DELAY = min m.acc 0xFFFF ∧
      (s.stept.anchor.isSome = true → m.step = s.stepNow → m.phase < 65536 →
        (s.applyMark m).phi = max s.phi m.phase ∧ (s.applyMark m).stept.anchor.map (·.m) = some m.phase) := by
  have hx := s.showMark_stept m
  have hstep : (s.showMark m).stepNow = s.stepNow := s.fld_showMark m (by decide)
  have hphi : (s.showMark m).phi = s.phi := s.fld_showMark m (by decide)
  obtain ⟨hmarks, happlied, hfields⟩ := (s.showMark m).applyPhaseMark_keeps m
  rw [State.applyMark_phase h]
  refine ⟨hmarks.trans (by rw [hx]), happlied.trans (by rw [hx]), (hfields _ (by decide)).trans (s.showMark_acc m),
    fun han hs hphase => ?_⟩
  rw [← hphi]
  exact State.applyPhaseMark_begins (by rw [hx]; exact han) (hs.trans hstep.symm) hphase

end Sys2Proof.Machine
end

section
/-! SUPPORT. The scope: frames of the Campanile link and the application of marks (R35, R40, R41, R46, R50, R52, R53, R56). -/

namespace Sys2Proof.Machine

section
variable {t : Nat} {p : Bool} {b : List Byte} {s : State} (hup : s.cUp = true)
  (hin : (s.tick t).inFrame p b = true)
include hup hin

/-- A good frame is only noted while the device does not follow marks (R35). -/
theorem execMarkFrame_noted (hg : frameCrcOk 1 b = true ∧ frameFieldsOk 1 b = true) (h : s.stepSrc ≠ 0) :
    exec (.markFrame t p b) s = .next ((s.tick t).noteFrame b) := by
  rw [execMarkFrame_in hup hin, State.receive_good _ hg]
  exact congrArg Host.Outcome.next (if_neg (mt beq_iff_eq.mp h))

theorem execMarkFrame_taken (hg : frameCrcOk 1 b = true ∧ frameFieldsOk 1 b = true) (h : s.stepSrc = 0) :
    exec (.markFrame t p b) s = .next (((s.tick t).noteFrame b).takeMark b) := by
  rw [execMarkFrame_in hup hin, State.receive_good _ hg]
  exact congrArg Host.Outcome.next (if_pos (beq_iff_eq.mpr h))

theorem execPhaseFrame_noted (hg : frameCrcOk 2 b = true ∧ frameFieldsOk 2 b = true) (h : s.stepSrc ≠ 0) :
    exec (.phaseFrame t p b) s = .next ((s.tick t).noteFrame b) := by
  rw [execPhaseFrame_in hup hin, State.receive_good _ hg]
  exact congrArg Host.Outcome.next (if_neg (mt beq_iff_eq.mp h))

theorem execPhaseFrame_taken (hg : frameCrcOk 2 b = true ∧ frameFieldsOk 2 b = true) (h : s.stepSrc = 0) :
    exec (.phaseFrame t p b) s = .next (((s.tick t).noteFrame b).takePhase b) := by
  rw [execPhaseFrame_in hup hin, State.receive_good _ hg]
  exact congrArg Host.Outcome.next (if_pos (beq_iff_eq.mpr h))

theorem execWaitFrame_taken (hg : frameCrcOk 4 b = true ∧ frameFieldsOk 4 b = true) :
    exec (.waitFrame t p b) s = .next (((s.tick t).noteFrame b).takeWait b) := by
  rw [execWaitFrame_in hup hin, State.receive_good _ hg]

/-- Whatever a frame is, a bad one is recorded for what is wrong with it (R40, R59). -/
theorem execFrames_checked : ∀ x ∈ [(1, Instr.markFrame t p b), (2, .phaseFrame t p b), (3, .readyFrame t b),
    (4, .waitFrame t p b)], ∃ f, exec x.2 s = .next ((s.tick t).receive x.1 b f) := by
  simp only [List.forall_mem_cons, List.not_mem_nil, false_implies, implies_true, and_true]
  exact ⟨⟨_, execMarkFrame_in hup hin⟩, ⟨_, execPhaseFrame_in hup hin⟩, ⟨_, execReadyFrame_up hup⟩,
    ⟨_, execWaitFrame_in hup hin⟩⟩

end

theorem State.forwardMark_emitted (s : State) (b : List Byte) : (s.forwardMark b).emitted =
    if s.driveOut then .campOut (markFrame (fieldAt b 1 1) (fieldAt b 2 1) (fieldAt b 3 1) (fieldAt b 4 8)
      (fieldAt b 12 8) (fieldAt b 20 2) (s.accOf (fieldAt b 22 2))) :: s.emitted else s.emitted := by
  unfold State.forwardMark
  split <;> rfl

theorem State.forwardPhase_emitted (s : State) (b : List Byte) : (s.forwardPhase b).emitted =
    if s.driveOut then .campOut (phaseFrame (fieldAt b 2 2) (fieldAt b 4 4) (s.accOf (fieldAt b 8 2))) :: s.emitted
    else s.emitted := by
  unfold State.forwardPhase
  split <;> rfl

theorem StepT.applied_withMark {x : StepT} {r : RunSt} (h : x.run = some r) (m : Mark) (now : Nat) (q : Option Nat) :
    (x.withMark m now q).applied = x.applied ++ [(m, if x.applied.length < 256 then some now else none)] := by
  rw [StepT.withMark, h]
  rfl

/-- Settles O42: a frame is received or dropped; one that is taken, and a mark that is due, are followed through what each
of their parts leaves of step time. -/
theorem campanileFrames : Obligations.CampanileFrames := by
  unfold Obligations.CampanileFrames
  intro t p b s hup now v noted good
  refine ⟨execFrames_not_in, fun hin => ⟨?bad, execMarkFrame_noted hup hin, ?markIdle, execPhaseFrame_noted hup hin,
    ?phaseStale, ?phaseKept, ?waitStale, ?waitFresh⟩, ?ready, ?stepMark, ?phaseMark, ?mark, ?phase, ?current⟩
  case bad =>
    intro x hx
    obtain ⟨f, hf⟩ := execFrames_checked hup hin x hx
    exact ⟨fun hcrc => by rw [hf, State.receive_of_bad_crc f hcrc],
      fun hcrc hfields => by rw [hf, State.receive_of_bad_fields f hcrc hfields]⟩
  case markIdle =>
    intro hg hsel hrun hh hd hp hacc
    refine ⟨_, (execMarkFrame_taken hup hin hg hsel).trans (congrArg _ (State.takeMark_idle hrun hh hd hp hacc)),
      rfl, rfl, rfl, State.forwardMark_emitted .., rfl⟩
  case phaseStale =>
    intro hg hsel hstale
    exact (execPhaseFrame_taken hup hin hg hsel).trans
      (congrArg _ (State.takePhase_stale (s := (s.tick t).noteFrame b) hstale))
  case phaseKept =>
    intro a c hg hsel ha hc hstep hphase hacc
    have hkept := State.takePhase_within (s := (s.tick t).noteFrame b) ha hc hstep hphase hacc
    exact ⟨_, (execPhaseFrame_taken hup hin hg hsel).trans (congrArg _ hkept), rfl, State.forwardPhase_emitted .., rfl⟩
  case waitStale =>
    intro hg hrun hstale
    exact (execWaitFrame_taken hup hin hg).trans
      (congrArg _ (State.takeWait_stale (s := (s.tick t).noteFrame b) hrun hstale))
  case waitFresh =>
    intro hg hfresh
    exact (execWaitFrame_taken hup hin hg).trans
      (congrArg _ (State.takeWait_fresh (s := (s.tick t).noteFrame b) hfresh))
  case ready =>
    intro hg counts w
    have hstept : ∀ (c : Bool) (f : StepT → StepT), (if c then v.incFld Fld.STEP_AT_LIMIT_BARRIER else v).onStep f =
        { (if c then v.incFld Fld.STEP_AT_LIMIT_BARRIER else v) with stept := f s.stept } := fun c f => by
      cases c <;> rfl
    rw [execReadyFrame_up hup, State.receive_good _ hg]
    exact congrArg (fun x : State => Host.Outcome.next x.trySendReady) (hstept counts _)
  case stepMark =>
    intro m ms r hdue hkind hrun han
    refine ⟨fun hstale => ?_, fun hnext => ?_⟩
    · refine ⟨_, (execMarkApply_due hup hdue).trans (congrArg _ (State.applyMark_stale hkind hrun hstale)), ?_, ?_⟩
      · rw [State.showMark_stept]
        rfl
      · rw [State.showMark_stept]
        rfl
    · let x := v.onStep fun y => { y with marks := ms }
      have hw := State.applyMark_waits (s := x) hkind hrun han hnext
      exact ⟨_, (execMarkApply_due hup hdue).trans (congrArg _ hw), rfl,
        StepT.applied_withMark hrun m now (x.applyMark m).stept.predicted, rfl, State.showMark_locked _,
        State.showMark_acc .., State.keeps_showMark _ m, rfl⟩
  case phaseMark =>
    intro m ms hdue hkind
    exact ⟨_, execMarkApply_due hup hdue, State.applyMark_phase_spec hkind⟩
  case mark =>
    intro hin hg hsel step acc late ends
    exact ⟨_, execMarkFrame_taken hup hin hg hsel, State.takeMark_kept ..⟩
  case phase =>
    intro a c hin hg hsel ha hc hstep
    refine ⟨fun hnone => ?_, fun hphase => ?_⟩
    · rw [execPhaseFrame_taken hup hin hg hsel]
      exact congrArg _ (State.takePhase_none ha hc hstep hnone)
    · exact ⟨_, execPhaseFrame_taken hup hin hg hsel, State.takePhase_marks ha hc hstep hphase⟩
  case current =>
    intro m ms hdue hkind hnext
    let x := v.onStep fun y => { y with marks := ms }
    have hv := State.clockView_applyMark (s := x) hkind hnext
    have hfields := fun f => State.fld_applyMark (s := x) hkind hnext (f := f)
    exact ⟨_, execMarkApply_due hup hdue, congrArg (fun y => y.2.2.marks) hv, congrArg (fun y => y.2.2.current) hv,
      congrArg (fun y => y.2.2.applied) hv, (hfields _ (by decide)).trans (x.showMark_acc m),
      (hfields Fld.STEP_NOW_STEP (by decide)).trans (x.fld_showMark m (by decide))⟩

end Sys2Proof.Machine
end

section
/-! SUPPORT. Marks that the device originates (R38, R39, R42, R51): when one is due, what its credit costs, and what making
it leaves of step time. -/

namespace Sys2Proof.Machine

/-! ### The mark -/

/-- D_TOTAL of a mark made now: none where marks are not driven out, and for the first of a run the largest MAX_ACC
received (log 23). -/
def State.ownDelay (s : State) : Nat :=
  if !s.driveOut then 0 else if s.stept.gen.isNone then s.stept.maxAcc else s.stept.dTotal

/-- The mark that the device makes of a step now (R39, R53). -/
def State.ownMark (s : State) (step : Nat) : Mark :=
  ⟨false, step, 0, s.fld Fld.STEP_CTL_PHASES_LOG2, s.fld Fld.STEP_CTL_PHASES_LOG2, s.fld Fld.STEP_CTL_PERIOD, 0,
    s.ownDelay, false, s.now + s.ownDelay, false⟩

/-- The mark as it goes out (R42). -/
def State.ownFrame (s : State) (step : Nat) : Emission := .campOut (markFrame (s.barrierPolicy.toNat * 2)
  (s.fld Fld.STEP_CTL_PHASES_LOG2) (strideFor (s.fld Fld.STEP_CTL_PERIOD) (s.fld Fld.STEP_CTL_PHASES_LOG2)
    (s.fld Fld.STEP_CTL_STRIDE_LOG2)) step (s.fld Fld.STEP_CTL_PERIOD) s.ownDelay 0)

/-- Generation has come to a step, and the barrier waits no longer. -/
def State.generated (s : State) (step : Nat) : State := (s.onStep fun x => { x with
  dTotal := s.ownDelay, latest := some step
  gen := some (step, s.now), waitSince := none, waitsSent := 0, slowSaid := false }).setFlag Fld.STEP_STAT_BARRIER_WAIT
    false

/-- One credit is taken where HOST_ADVANCE is the source (R38). -/
def State.takeCredit (s : State) : State :=
  if s.stepSrc == 2 then s.setFld Fld.STEP_STAT_ADV_CREDIT (s.fld Fld.STEP_STAT_ADV_CREDIT - 1) else s

theorem State.generated_src (s : State) (step : Nat) : (s.generated step).driveOut = s.driveOut ∧
    (s.generated step).barrierPolicy = s.barrierPolicy :=
  ⟨State.flag_setFlag_of_apart _ _ (by decide) (by decide), State.flag_setFlag_of_apart _ _ (by decide) (by decide)⟩

/-- The mark made goes out and waits for its compensation, or is applied at once (R39, R53). -/
theorem State.makeMark_eq (s : State) (step : Nat) : s.makeMark step = if s.driveOut then
      ((s.generated step).emit (s.ownFrame step)).onStep fun x => { x with marks := x.marks ++ [s.ownMark step] }
    else (s.generated step).applyMark (s.ownMark step) := by
  obtain ⟨hdrive, hbarrier⟩ := s.generated_src step
  have hmade : s.makeMark step = if (s.generated step).driveOut then
        ((s.generated step).emit (.campOut (markFrame ((s.generated step).barrierPolicy.toNat * 2)
          (s.fld Fld.STEP_CTL_PHASES_LOG2) (if s.driveOut then strideFor (s.fld Fld.STEP_CTL_PERIOD)
            (s.fld Fld.STEP_CTL_PHASES_LOG2) (s.fld Fld.STEP_CTL_STRIDE_LOG2) else s.fld Fld.STEP_CTL_PHASES_LOG2)
          step (s.fld Fld.STEP_CTL_PERIOD) s.ownDelay 0))).onStep fun x =>
            { x with marks := x.marks ++ [s.ownMark step] }
      else (s.generated step).applyMark (s.ownMark step) := rfl
  rw [hmade, hdrive, hbarrier]
  split <;> rfl

theorem State.makeMark_driven {s : State} (step : Nat) (h : s.driveOut = true) : s.makeMark step =
    ((s.generated step).emit (s.ownFrame step)).onStep fun x => { x with marks := x.marks ++ [s.ownMark step] } := by
  rw [State.makeMark_eq, if_pos h]

theorem State.makeMark_own {s : State} (step : Nat) (h : s.driveOut = false) :
    s.makeMark step = (s.generated step).applyMark (s.ownMark step) := by
  rw [State.makeMark_eq, if_neg (by simp [h])]

/-! ### What it leaves -/

theorem State.keeps_generated (s : State) (step : Nat) : State.keeps s (s.generated step) [.STEP_STAT] :=
  State.keeps_setFlag (s.onStep _) _ (by decide)

theorem State.generated_wait (s : State) (step : Nat) :
    (s.generated step).flag Fld.STEP_STAT_BARRIER_WAIT = false := State.flag_setFlag _ false (by decide) rfl

theorem State.generated_credit (s : State) (step : Nat) :
    (s.generated step).fld Fld.STEP_STAT_ADV_CREDIT = s.fld Fld.STEP_STAT_ADV_CREDIT :=
  State.fld_setFlag_of_apart _ _ (by decide) (by decide)

/-- A mark that the device makes itself leaves generation and STEP_STAT alone when it is applied. -/
theorem State.applyMark_own_keeps {s : State} {m : Mark} (hkind : m.isPhase = false) (hown : m.fromLink = false) :
    (s.applyMark m).stept.gen = s.stept.gen ∧ (s.applyMark m).stept.latest = s.stept.latest ∧
      (s.applyMark m).stept.waitSince = s.stept.waitSince ∧
      ∀ f : Field, f.reg = .STEP_STAT → (s.applyMark m).fld f = s.fld f := by
  have hshown : ∀ f : Field, f.reg = .STEP_STAT → (s.showMark m).fld f = s.fld f := fun f hf => by
    rw [State.fld, s.keeps_showMark_own hown f.reg (by rw [hf]; decide), State.fld]
  cases hfresh : s.nextStep.all (fun n => decide (n ≤ m.step)) with
  | true =>
    have hv := State.clockView_applyMark hkind hfresh
    exact ⟨congrArg (fun x => x.2.2.gen) hv, congrArg (fun x => x.2.2.latest) hv,
      congrArg (fun x => x.2.2.waitSince) hv,
      fun f hf => (State.fld_applyMark hkind hfresh (by rw [hf]; decide)).trans (hshown f hf)⟩
  | false =>
    cases hrun : s.stept.run with
    | none =>
      rw [State.nextStep, hrun] at hfresh
      cases hfresh
    | some r =>
      rw [State.nextStep, hrun, Option.map_some, Option.all_some, decide_eq_false_iff_not, Nat.not_le] at hfresh
      have hx : ((s.showMark m).record 0x2005 m.step).stept = s.stept :=
        (State.record_stept ..).trans (s.showMark_stept m)
      rw [State.applyMark_stale hkind hrun hfresh, hx]
      exact ⟨rfl, rfl, rfl,
        fun f hf => (State.fld_record _ _ _ _ (by rw [hf]; decide)).trans (hshown f hf)⟩

/-! ### The credit -/

theorem State.takeCredit_rest (s : State) : s.takeCredit = { s with regs := s.takeCredit.regs } := by
  unfold State.takeCredit
  split <;> rfl

theorem State.keeps_takeCredit (s : State) : State.keeps s s.takeCredit [.STEP_STAT] := by
  unfold State.takeCredit
  split
  · exact State.keeps_setFld s _ (by decide)
  · exact State.keeps_refl s _

theorem State.fld_takeCredit (s : State) {f : Field} (h : f.reg ≠ .STEP_STAT) : s.takeCredit.fld f = s.fld f := by
  rw [State.fld, s.keeps_takeCredit _ (by simpa using h), State.fld]

theorem State.takeCredit_credit (s : State) : s.takeCredit.fld Fld.STEP_STAT_ADV_CREDIT =
    if s.stepSrc = 2 then s.fld Fld.STEP_STAT_ADV_CREDIT - 1 else s.fld Fld.STEP_STAT_ADV_CREDIT := by
  unfold State.takeCredit
  split
  next h =>
    rw [if_pos (beq_iff_eq.mp h)]
    exact State.fld_setFld_of_lt s (by decide) ((Nat.sub_le ..).trans_lt (s.fld_lt _))
  next h => rw [if_neg (mt beq_iff_eq.mpr h)]

/-- The mark that is made does not depend on the credit taken for it. -/
theorem State.takeCredit_own (s : State) (step : Nat) : s.takeCredit.ownMark step = s.ownMark step ∧
    s.takeCredit.ownFrame step = s.ownFrame step ∧ s.takeCredit.driveOut = s.driveOut := by
  have hx : s.takeCredit.stept = s.stept := by rw [State.takeCredit_rest]
  have hn : s.takeCredit.now = s.now := by rw [State.takeCredit_rest]
  have hdrive : s.takeCredit.driveOut = s.driveOut :=
    congrArg (· == 1) (s.fld_takeCredit (f := Fld.STEP_SRC_DRIVE_OUT) (by decide))
  have hbarrier : s.takeCredit.barrierPolicy = s.barrierPolicy :=
    congrArg (· == 1) (s.fld_takeCredit (f := Fld.STEP_SRC_BARRIER) (by decide))
  have hctl : s.takeCredit.fld Fld.STEP_CTL_PERIOD = s.fld Fld.STEP_CTL_PERIOD ∧
      s.takeCredit.fld Fld.STEP_CTL_PHASES_LOG2 = s.fld Fld.STEP_CTL_PHASES_LOG2 ∧
      s.takeCredit.fld Fld.STEP_CTL_STRIDE_LOG2 = s.fld Fld.STEP_CTL_STRIDE_LOG2 :=
    ⟨s.fld_takeCredit (by decide), s.fld_takeCredit (by decide), s.fld_takeCredit (by decide)⟩
  obtain ⟨hper, hpl, hstride⟩ := hctl
  have hdelay : s.takeCredit.ownDelay = s.ownDelay := by rw [State.ownDelay, State.ownDelay, hdrive, hx]
  rw [State.ownMark, State.ownMark, State.ownFrame, State.ownFrame, hdelay, hper, hpl, hstride, hbarrier, hn]
  exact ⟨rfl, rfl, hdrive⟩

/-! ### MARK_GENERATE -/

section
variable {t step point : Nat} {s : State} (hup : s.cUp = true) (hrec : s.boot.recovering = none)
  (hdue : (s.tick t).dueGeneration = some (step, point))
include hup hrec hdue

theorem execMarkGenerate_free (h : (s.tick t).barrierHolds step = false) :
    exec (.markGenerate t) s = .next ((s.tick t).takeCredit.makeMark step) := by
  show execMarkGenerate t s = _
  rw [execMarkGenerate, State.when_due (by simp [hup, hrec, hdue]), hdue]
  dsimp only
  rw [h]
  rfl

/-- The barrier holds a mark back, and its wait begins (R51). -/
theorem execMarkGenerate_held (h : (s.tick t).barrierHolds step = true) (hw : s.stept.waitSince = none) :
    exec (.markGenerate t) s = .next (((s.tick t).setFlag Fld.STEP_STAT_BARRIER_WAIT true).onStep fun x =>
      { x with waitSince := some point, waitsSent := 0, slowSaid := false }) := by
  show execMarkGenerate t s = _
  rw [execMarkGenerate, State.when_due (by simp [hup, hrec, hdue]), hdue]
  dsimp only
  rw [if_pos h, State.tick_stept, hw]

end

theorem execMarkGenerate_idle {t : Nat} {s : State} (h : (s.tick t).dueGeneration = none) :
    exec (.markGenerate t) s = .next (s.tick t) := by
  show execMarkGenerate t s = _
  rw [execMarkGenerate, State.when_not_due (by simp [h])]

/-! ### The first mark of a run -/

/-- A run whose boundary has ended and for which nothing has been generated (R38, R39). -/
structure State.FirstDue (s : State) (r : RunSt) : Prop where
  run : s.stept.run = some r
  gen : s.stept.gen = none
  boundary : r.b ≤ s.now
  next : r.next ≤ r.first
  between : s.stept.anchor = none

theorem State.FirstDue.dueGeneration {s : State} {r : RunSt} (h : s.FirstDue r)
    (hsrc : s.stepSrc = 1 ∨ (s.stepSrc = 2 ∧ s.fld Fld.STEP_STAT_ADV_CREDIT ≠ 0)) :
    ∃ point, s.dueGeneration = some (r.first, point) := by
  obtain ⟨hrun, hgen, hb, -, -⟩ := h
  rcases hsrc with h1 | ⟨h2, hcredit⟩
  · exact ⟨r.b, by simp [State.dueGeneration, hrun, hgen, hb, h1]⟩
  · exact ⟨s.now, by simp [State.dueGeneration, hrun, hgen, hb, h2, hcredit]⟩

theorem State.FirstDue.no_credit {s : State} {r : RunSt} (h : s.FirstDue r) (hsrc : s.stepSrc = 2)
    (hcredit : s.fld Fld.STEP_STAT_ADV_CREDIT = 0) : s.dueGeneration = none := by
  simp [State.dueGeneration, h.run, h.gen, hsrc, hcredit]

theorem State.FirstDue.unheld {s : State} {r : RunSt} (h : s.FirstDue r) : s.barrierHolds r.first = false := by
  simp [State.barrierHolds, h.gen]

theorem State.FirstDue.takeCredit {s : State} {r : RunSt} (h : s.FirstDue r) : s.takeCredit.FirstDue r := by
  rw [State.takeCredit_rest]
  obtain ⟨hrun, hgen, hb, hnext, han⟩ := h
  exact ⟨hrun, hgen, hb, hnext, han⟩

/-- The first mark of a run that is not driven out waits at once to start its step. -/
theorem State.FirstDue.makeMark_own {s : State} {r : RunSt} (h : s.FirstDue r) (hdrive : s.driveOut = false) :
    s.makeMark r.first = { s with
      regs := ((s.generated r.first).showMark (s.ownMark r.first)).regs
      stept := (s.generated r.first).stept.withMark (s.ownMark r.first) s.now (s.makeMark r.first).stept.predicted } := by
  have hw := State.applyMark_waits (s := s.generated r.first) (m := s.ownMark r.first) rfl h.run h.between h.next
  rw [← State.makeMark_own _ hdrive] at hw
  exact hw

end Sys2Proof.Machine
end

section
/-! SUPPORT. Writes to the step-time block: what STEP_SRC and STEP_CTL hold after one, and the credit of STEP_ADVANCE (R36 to
R38, R42, R93). -/

namespace Sys2Proof.Machine

/-! ### A register given a value that is noted -/

/-- A register of the block given a value, noted and followed by events alone. -/
theorem State.noted_setReg {s u : State} {r : Reg} {v : W64} (hr : r ∉ .STEP_NOW :: .STEP_PHASE :: eventRegs)
    (hu : u.uneventful = ((s.setReg r v).noteOwn r).uneventful) :
    u.reg r = v ∧ State.onlyEvents s u [r] ∧ State.noted s u r := by
  simp only [List.mem_cons, not_or] at hr
  obtain ⟨hn, hp, he⟩ := hr
  have hreg : u.reg r = v := (State.reg_of_uneventful hu he).trans (s.reg_setReg r v)
  have hset : State.onlyEvents s ((s.setReg r v).noteOwn r) [r] :=
    ⟨fun _ hq => s.reg_setReg_ne _ fun e => hq (List.mem_append_right _ (List.mem_singleton.mpr e)), rfl⟩
  refine ⟨hreg, hset.of_uneventful hu, ?_⟩
  have hnoted := State.noted_of_uneventful he hu
  have hs : (s.setReg r v).stepNow = s.stepNow := by
    rw [State.stepNow, State.fld, s.reg_setReg_ne v (show Fld.STEP_NOW_STEP.reg ≠ r from Ne.symm hn)]
    rfl
  have hq : (s.setReg r v).phi = s.phi := by
    rw [State.phi, State.fld, s.reg_setReg_ne v (show Fld.STEP_PHASE_PHASE.reg ≠ r from Ne.symm hp)]
    rfl
  rw [State.noted, hs, hq] at hnoted
  exact hnoted

/-! ### STEP_SRC and STEP_CTL -/

/-- The value that a register takes from an access, whatever its fields allow. -/
def State.merged (s : State) (r : Reg) (a : RegAcc) : W64 := r.layout.foldl (fun v f =>
  if accCovers a f.lo f.w then insertBits v f.lo f.w (bitsOf (accBits a) f.lo f.w) else v) (s.reg r)

/-- Fields of a layout, written one after another, hold what was written. -/
theorem bitsOf_foldl_insertBits (n : Nat) {l : List FieldSpec} {g : FieldSpec} (h : ∀ f ∈ l, f.lo + f.w ≤ 64)
    (hp : l.Pairwise FieldSpec.apart) (hg : g ∈ l) (v : W64) :
    bitsOf (l.foldl (fun v f => insertBits v f.lo f.w (bitsOf n f.lo f.w)) v).toNat g.lo g.w = bitsOf n g.lo g.w := by
  have hkept : ∀ (l : List FieldSpec) (v : W64), (∀ f ∈ l, f.lo + f.w ≤ 64) → (∀ f ∈ l, g.apart f) →
      bitsOf (l.foldl (fun v f => insertBits v f.lo f.w (bitsOf n f.lo f.w)) v).toNat g.lo g.w =
        bitsOf v.toNat g.lo g.w := fun l => by
    induction l with
    | nil => exact fun _ _ _ => rfl
    | cons f l ih =>
      intro v h hapart
      rw [List.forall_mem_cons] at h hapart
      rw [List.foldl_cons, ih _ h.2 hapart.2, bitsOf_insertBits_apart _ _ _ _ _ _ h.1 hapart.1]
  induction l generalizing v with
  | nil => cases hg
  | cons f l ih =>
    rw [List.forall_mem_cons] at h
    rw [List.pairwise_cons] at hp
    rw [List.foldl_cons]
    cases hg with
    | head => rw [hkept l _ h.2 hp.1, bitsOf_insertBits _ _ _ _ h.1, Nat.mod_eq_of_lt (bitsOf_lt ..)]
    | tail _ hg => exact ih h.2 hp.2 hg _

/-- A whole access gives every field of a register its bits. -/
theorem State.bitsOf_merged {s : State} {r : Reg} {a : RegAcc} (ha : a.half = .whole) {g : FieldSpec}
    (hg : g ∈ r.layout) : bitsOf (s.merged r a).toNat g.lo g.w = bitsOf a.value.toNat g.lo g.w := by
  have hm : s.merged r a =
      r.layout.foldl (fun v f => insertBits v f.lo f.w (bitsOf a.value.toNat f.lo f.w)) (s.reg r) := by
    simp [State.merged, accCovers, accBits, ha]
  rw [hm]
  exact bitsOf_foldl_insertBits _ r.layout_wf.1 r.layout_wf.2 hg _

/-- A value is one that a register of the block may take (R37, R42). -/
def stepConfigOk (r : Reg) (v : Nat) : Bool :=
  if r == .STEP_SRC then bitsOf v 0 2 != 3
  else 8 ≤ bitsOf v 40 5 && bitsOf v 40 5 ≤ 16 && periodOk (bitsOf v 0 40) (bitsOf v 40 5)

section
variable {s : State} {r : Reg} {a : RegAcc}

theorem State.stepConfig_running (h : s.running = true) :
    s.stepConfig r a = (s.noteOwn r).record 0x2008 (r.offset % 65536 + 65536) a.port.source := if_pos h

variable (h : s.running = false)
include h

/-- A write while no step runs: refused whole when it is not legal, else taken but for a DRIVE_OUT that cannot be served. -/
theorem State.stepConfig_idle : s.stepConfig r a =
    let v := (s.merged r a).toNat
    let refuse := r == .STEP_SRC && !s.optC && v.testBit 4
    let u := (s.setReg r (BitVec.ofNat 64 (if refuse then v - 16 else v))).noteConfig r a.port.source
    if !stepConfigOk r v then (s.noteOwn r).record 0x2008 (r.offset % 65536) a.port.source
    else if refuse then u.record 0x2009 0 a.port.source else u := by
  rw [State.stepConfig, h]
  rfl

theorem State.stepConfig_illegal (hok : stepConfigOk r (s.merged r a).toNat = false) :
    s.stepConfig r a = (s.noteOwn r).record 0x2008 (r.offset % 65536) a.port.source := by
  rw [State.stepConfig_idle h]
  dsimp only
  rw [hok]
  rfl

/-- A legal value that option C serves is written and noted. -/
theorem State.stepConfig_legal (hok : stepConfigOk r (s.merged r a).toNat = true)
    (hfit : (r == .STEP_SRC && !s.optC && (s.merged r a).toNat.testBit 4) = false) :
    s.stepConfig r a = (s.setReg r (s.merged r a)).noteConfig r a.port.source := by
  rw [State.stepConfig_idle h]
  dsimp only
  rw [hok, hfit]
  simp

/-- A DRIVE_OUT that option C cannot serve stays 0, which is recorded (R37). -/
theorem State.stepConfig_refused (hok : stepConfigOk r (s.merged r a).toNat = true)
    (hfit : (r == .STEP_SRC && !s.optC && (s.merged r a).toNat.testBit 4) = true) : s.stepConfig r a =
      ((s.setReg r (BitVec.ofNat 64 ((s.merged r a).toNat - 16))).noteConfig r a.port.source).record 0x2009 0
        a.port.source := by
  rw [State.stepConfig_idle h]
  dsimp only
  rw [hok, hfit]
  rfl

end

/-- STEP_CTL after a legal write of the whole register (R42). -/
theorem State.stepConfig_ctl {s : State} {a : RegAcc} (h : s.running = false) (ha : a.half = .whole)
    (hok : stepConfigOk .STEP_CTL a.value.toNat = true) :
    let u := s.stepConfig .STEP_CTL a
    u.fld Fld.STEP_CTL_PERIOD = bitsOf a.value.toNat 0 40 ∧ u.fld Fld.STEP_CTL_PHASES_LOG2 = bitsOf a.value.toNat 40 5 ∧
      u.fld Fld.STEP_CTL_STRIDE_LOG2 = bitsOf a.value.toNat 48 5 ∧ State.onlyEvents s u [.STEP_CTL] ∧
      State.noted s u .STEP_CTL := by
  have hper : bitsOf (s.merged .STEP_CTL a).toNat 0 40 = bitsOf a.value.toNat 0 40 :=
    State.bitsOf_merged (g := ⟨0, 40, .rw⟩) ha (by decide)
  have hpl : bitsOf (s.merged .STEP_CTL a).toNat 40 5 = bitsOf a.value.toNat 40 5 :=
    State.bitsOf_merged (g := ⟨40, 5, .rw⟩) ha (by decide)
  have hstride : bitsOf (s.merged .STEP_CTL a).toNat 48 5 = bitsOf a.value.toNat 48 5 :=
    State.bitsOf_merged (g := ⟨48, 5, .rw⟩) ha (by decide)
  have hlegal : stepConfigOk .STEP_CTL (s.merged .STEP_CTL a).toNat = true := by
    rw [← hok, stepConfigOk, stepConfigOk, hper, hpl]
    rfl
  intro u
  have hu : u.uneventful = ((s.setReg .STEP_CTL (s.merged .STEP_CTL a)).noteOwn .STEP_CTL).uneventful := by
    rw [show u = _ from State.stepConfig_legal h hlegal rfl, State.uneventful_noteConfig]
  obtain ⟨hreg, hevents, hnoted⟩ := State.noted_setReg (by decide) hu
  refine ⟨?_, ?_, ?_, hevents, hnoted⟩
  · rw [State.fld, show u.reg Fld.STEP_CTL_PERIOD.reg = _ from hreg]
    exact hper
  · rw [State.fld, show u.reg Fld.STEP_CTL_PHASES_LOG2.reg = _ from hreg]
    exact hpl
  · rw [State.fld, show u.reg Fld.STEP_CTL_STRIDE_LOG2.reg = _ from hreg]
    exact hstride

/-- Taking DRIVE_OUT off a value of STEP_SRC leaves its SEL. -/
theorem bitsOf_sub_drive {n : Nat} (h : bitsOf n 4 1 = 1) (hn : n < 2 ^ 64) :
    bitsOf (BitVec.ofNat 64 (n - 16)).toNat 0 2 = bitsOf n 0 2 ∧ bitsOf (BitVec.ofNat 64 (n - 16)).toNat 4 1 = 0 := by
  rw [BitVec.toNat_ofNat, Nat.mod_eq_of_lt ((Nat.sub_le ..).trans_lt hn)]
  simp only [bitsOf, Nat.reducePow] at h ⊢
  omega

/-- STEP_SRC after a legal write of the whole register (R37). -/
theorem State.stepConfig_src {s : State} {a : RegAcc} (h : s.running = false) (ha : a.half = .whole)
    (hsel : bitsOf a.value.toNat 0 2 ≠ 3) :
    let u := s.stepConfig .STEP_SRC a
    u.stepSrc = bitsOf a.value.toNat 0 2 ∧ u.driveOut = (s.optC && a.value.toNat.testBit 4) ∧
      State.onlyEvents s u [.STEP_SRC] ∧ State.noted s u .STEP_SRC ∧
      (s.optC = false → a.value.toNat.testBit 4 = true → ∃ w, u = State.record w 0x2009 0 a.port.source) := by
  have hbits : bitsOf (s.merged .STEP_SRC a).toNat 0 2 = bitsOf a.value.toNat 0 2 :=
    State.bitsOf_merged (g := ⟨0, 2, .rw⟩) ha (by decide)
  have hdrive : bitsOf (s.merged .STEP_SRC a).toNat 4 1 = bitsOf a.value.toNat 4 1 :=
    State.bitsOf_merged (g := ⟨4, 1, .rw⟩) ha (by decide)
  have hbit : ∀ n : Nat, n.testBit 4 = (bitsOf n 4 1 == 1) := fun n => by
    have hb := testBit_bitsOf n 4 1 0
    rw [Nat.add_zero] at hb
    have hlt := bitsOf_lt n 4 1
    interval_cases hn : bitsOf n 4 1
    · simpa using hb.symm
    · simpa using hb.symm
  have hsame : (s.merged .STEP_SRC a).toNat.testBit 4 = a.value.toNat.testBit 4 := by rw [hbit, hbit, hdrive]
  have hlegal : stepConfigOk .STEP_SRC (s.merged .STEP_SRC a).toNat = true := by
    rw [stepConfigOk, hbits]
    simpa using hsel
  intro u
  cases hfit : (Reg.STEP_SRC == .STEP_SRC && !s.optC && (s.merged .STEP_SRC a).toNat.testBit 4) with
  | false =>
    have hx : u = _ := State.stepConfig_legal h hlegal hfit
    have hu : u.uneventful = ((s.setReg .STEP_SRC (s.merged .STEP_SRC a)).noteOwn .STEP_SRC).uneventful := by
      rw [hx, State.uneventful_noteConfig]
    obtain ⟨hreg, hevents, hnoted⟩ := State.noted_setReg (by decide) hu
    have hserved : a.value.toNat.testBit 4 = (s.optC && a.value.toNat.testBit 4) := by
      rw [hsame] at hfit
      revert hfit
      cases s.optC <;> simp
    refine ⟨?_, ?_, hevents, hnoted, fun hc hv => ?_⟩
    · rw [State.stepSrc, State.fld, show u.reg Fld.STEP_SRC_SEL.reg = _ from hreg]
      exact hbits
    · rw [State.driveOut, State.flag, State.fld, show u.reg Fld.STEP_SRC_DRIVE_OUT.reg = _ from hreg, ← hserved, ← hsame,
        hbit]
      rfl
    · rw [hserved, hc] at hv
      cases hv
  | true =>
    have hx : u = _ := State.stepConfig_refused h hlegal hfit
    have hu : u.uneventful = ((s.setReg .STEP_SRC (BitVec.ofNat 64 ((s.merged .STEP_SRC a).toNat - 16))).noteOwn
        .STEP_SRC).uneventful := by
      rw [hx, State.uneventful_record, State.uneventful_noteConfig]
    obtain ⟨hreg, hevents, hnoted⟩ := State.noted_setReg (by decide) hu
    simp only [Bool.and_eq_true, Bool.not_eq_true'] at hfit
    obtain ⟨⟨-, hc⟩, hset⟩ := hfit
    have hone : bitsOf (s.merged .STEP_SRC a).toNat 4 1 = 1 := by simpa [hbit] using hset
    obtain ⟨hsel', hdrive'⟩ := bitsOf_sub_drive hone (s.merged .STEP_SRC a).isLt
    refine ⟨?_, ?_, hevents, hnoted, fun _ _ => ⟨_, hx⟩⟩
    · rw [State.stepSrc, State.fld, show u.reg Fld.STEP_SRC_SEL.reg = _ from hreg, ← hbits]
      exact hsel'
    · rw [State.driveOut, State.flag, State.fld, show u.reg Fld.STEP_SRC_DRIVE_OUT.reg = _ from hreg, hc, Bool.false_and]
      exact congrArg (· == 1) hdrive'

end Sys2Proof.Machine
end

section
/-! SUPPORT. The credit that STEP_ADVANCE adds, the wait of the barrier, and writes to the configuration of step time (R37,
R38, R42, R51, R52). -/

namespace Sys2Proof.Machine

/-! ### STEP_ADVANCE -/

/-- The credit after `n` more, saturating (R38). -/
def State.bank (s : State) (n : Nat) : State :=
  s.setFld Fld.STEP_STAT_ADV_CREDIT (min (s.fld Fld.STEP_STAT_ADV_CREDIT + n) 0xFFFFFFFF)

/-- `n` credits more, and ADV_SAT where they saturate. -/
def State.addCredit (s : State) (n : Nat) : State :=
  if 0xFFFFFFFF < s.fld Fld.STEP_STAT_ADV_CREDIT + n then (s.bank n).hwSet Fld.STEP_STAT_ADV_SAT else s.bank n

theorem execStepAdvance_reached {t n : Nat} {a : RegAcc} {s : State} (h : s.reach a.port .STEP_ADVANCE = true)
    (hn : accField a Fld.STEP_ADVANCE_COUNT = some n) : exec (.stepAdvance t a) s = .next
      (((s.tick t).addCredit n).noteChange Reg.STEP_ADVANCE.offset n ((s.tick t).bank n).stepNow ((s.tick t).bank n).phi
        a.port.source) := by
  show execStepAdvance t a s = _
  rw [execStepAdvance, State.access_reached h, State.stepAdvance, hn]
  rfl

theorem State.fld_hwSet_of_apart (s : State) {f g : Field} (hw : f.lo + f.w ≤ 64) (h : f.apart g = true) :
    (s.hwSet f).fld g = s.fld g := State.fld_setFlag_of_apart s true hw h

theorem State.flag_hwSet (s : State) {f : Field} (hw : f.lo + 1 ≤ 64) (h : f.w = 1) : (s.hwSet f).flag f = true :=
  State.flag_setFlag s true hw h

theorem State.keeps_hwSet (s : State) {f : Field} {rs : List Reg} (h : f.reg ∈ rs) : State.keeps s (s.hwSet f) rs :=
  State.keeps_setFlag s true h

theorem State.setFld_rest (s : State) (f : Field) (n : Nat) :
    s.setFld f n = { s with regs := (s.setFld f n).regs } := rfl

theorem State.hwSet_rest (s : State) (f : Field) :
    s.hwSet f = { s with regs := (s.hwSet f).regs, hwSets := (s.hwSet f).hwSets } := rfl

theorem State.keeps_addCredit (s : State) (n : Nat) : State.keeps s (s.addCredit n) [.STEP_STAT] := by
  have hbank : State.keeps s (s.bank n) [.STEP_STAT] := State.keeps_setFld s _ (by decide)
  unfold State.addCredit
  split
  · exact hbank.trans (State.keeps_hwSet _ (by decide))
  · exact hbank

theorem State.addCredit_rest (s : State) (n : Nat) :
    s.addCredit n = { s with regs := (s.addCredit n).regs, hwSets := (s.addCredit n).hwSets } := by
  have hbank : s.bank n = { s with regs := (s.bank n).regs } := State.setFld_rest ..
  unfold State.addCredit
  split
  · calc (s.bank n).hwSet Fld.STEP_STAT_ADV_SAT = _ := State.hwSet_rest ..
      _ = _ := by rw [hbank]
  · exact hbank

/-- Credits that are added and noted. -/
theorem State.onlyEvents_addCredit (s : State) (n off value step phase : Nat) :
    State.onlyEvents s ((s.addCredit n).noteValue off value step phase) [.STEP_STAT] := by
  refine ⟨fun r hr => s.keeps_addCredit n r fun h => hr (List.mem_append_right _ h), ?_⟩
  rw [State.addCredit_rest]
  rfl

theorem State.addCredit_credit (s : State) (n : Nat) :
    (s.addCredit n).fld Fld.STEP_STAT_ADV_CREDIT = min (s.fld Fld.STEP_STAT_ADV_CREDIT + n) 0xFFFFFFFF := by
  have hbank : (s.bank n).fld Fld.STEP_STAT_ADV_CREDIT = min (s.fld Fld.STEP_STAT_ADV_CREDIT + n) 0xFFFFFFFF :=
    State.fld_setFld_of_lt s (by decide) (Nat.lt_succ_of_le (Nat.min_le_right ..))
  unfold State.addCredit
  split
  · rw [State.fld_hwSet_of_apart _ (by decide) (by decide), hbank]
  · exact hbank

theorem State.addCredit_sat (s : State) (n : Nat) : (s.addCredit n).flag Fld.STEP_STAT_ADV_SAT =
    (s.flag Fld.STEP_STAT_ADV_SAT || decide (0xFFFFFFFF < s.fld Fld.STEP_STAT_ADV_CREDIT + n)) := by
  unfold State.addCredit
  split
  next h => rw [decide_eq_true h, Bool.or_true, State.flag_hwSet _ (by decide) rfl]
  next h =>
    rw [decide_eq_false h, Bool.or_false, State.bank, State.flag_setFld_of_apart s _ (by decide) (by decide)]

/-- STEP_ADVANCE adds its COUNT and is noted (R38, R93). -/
theorem execStepAdvance_credit {t n : Nat} {a : RegAcc} {s : State} (h : s.reach a.port .STEP_ADVANCE = true)
    (hn : accField a Fld.STEP_ADVANCE_COUNT = some n) : ∃ u, exec (.stepAdvance t a) s = .next u ∧
      u.uneventful = (((s.tick t).addCredit n).noteValue Reg.STEP_ADVANCE.offset n s.stepNow s.phi).uneventful := by
  have hkept : ∀ f : Field, f.reg ≠ .STEP_STAT → ((s.tick t).bank n).fld f = s.fld f := fun f hf => by
    rw [State.fld, State.bank, State.reg_setFld_ne _ _ hf, State.reg_tick, State.fld]
  refine ⟨_, execStepAdvance_reached h hn, ?_⟩
  rw [State.uneventful_noteChange, State.stepNow, State.phi, hkept _ (by decide), hkept _ (by decide), State.stepNow,
    State.phi]

/-! ### The barrier's wait -/

section
variable {t w n : Nat} {s : State} (hup : s.cUp = true) (hw : s.stept.waitSince = some w)
include hup hw

theorem execWaitSend_due (hh : s.inHoldover = false) (h : w + 65536 * (s.stept.waitsSent + 1) ≤ max s.now t)
    (hn : s.awaited = n) :
    exec (.waitSend t) s = .next (({ s.tick t with stept := { s.stept with
      waitsSent := s.stept.waitsSent + 1 } }).emit (.campOut (waitFrame n))) := by
  show execWaitSend t s = _
  have hh' : (s.tick t).inHoldover = false := hh
  rw [← hn, execWaitSend, State.when_due (by simp [hup, hw, hh', h])]
  rfl

theorem execBarrierSlow_due (hs : s.stept.slowSaid = false) (h : (s.tick t).past (w + s.stept.effMargin) = true)
    (hn : s.awaited = n) :
    exec (.barrierSlow t) s =
      .next (({ s.tick t with stept := { s.stept with slowSaid := true } }).record 0x200A n) := by
  show execBarrierSlow t s = _
  rw [← hn, execBarrierSlow, State.when_due (by simp [hup, hw, hs, h])]
  rfl

omit hup in
theorem execBarrierSlow_early (h : (s.tick t).past (w + s.stept.effMargin) = false) :
    exec (.barrierSlow t) s = .next (s.tick t) := by
  show execBarrierSlow t s = _
  rw [execBarrierSlow, State.when_not_due (by simp [hw, h])]

end

/-! ### Writes to STEP_SRC and STEP_CTL -/

theorem execStepConfigWrite_reached {t : Nat} {ctl : Bool} {a : RegAcc} {s : State}
    (h : s.reach a.port (if ctl then Reg.STEP_CTL else .STEP_SRC) = true) :
    exec (.stepConfigWrite t ctl a) s = .next ((s.tick t).stepConfig (if ctl then Reg.STEP_CTL else .STEP_SRC) a) := by
  show execStepConfigWrite t ctl a s = _
  rw [execStepConfigWrite, State.access_reached h]

theorem stepConfigOk_ctl (v : Nat) : stepConfigOk .STEP_CTL v = true ↔
    8 ≤ bitsOf v 40 5 ∧ bitsOf v 40 5 ≤ 16 ∧ 4096 ≤ bitsOf v 0 40 ∧ 4 * 2 ^ bitsOf v 40 5 ≤ bitsOf v 0 40 := by
  simp [stepConfigOk, periodOk, and_assoc]

theorem stepConfigOk_src (v : Nat) : stepConfigOk .STEP_SRC v = true ↔ bitsOf v 0 2 ≠ 3 := by
  simp [stepConfigOk]

/-- What a whole access leaves in a register is legal exactly when its value is. -/
theorem State.stepConfigOk_merged {s : State} {r : Reg} {a : RegAcc} (ha : a.half = .whole)
    (hr : r = .STEP_CTL ∨ r = .STEP_SRC) : stepConfigOk r (s.merged r a).toNat = stepConfigOk r a.value.toNat := by
  rcases hr with rfl | rfl
  · rw [stepConfigOk, stepConfigOk, State.bitsOf_merged (g := ⟨0, 40, .rw⟩) ha (by decide),
      State.bitsOf_merged (g := ⟨40, 5, .rw⟩) ha (by decide)]
    rfl
  · rw [stepConfigOk, stepConfigOk, State.bitsOf_merged (g := ⟨0, 2, .rw⟩) ha (by decide)]
    rfl

/-! ### A mark generated -/

/-- What generating a mark leaves of generation, of the credit, and of the registers (R38, R39, R51). -/
theorem State.makeMark_generates (s : State) (step : Nat) : (s.makeMark step).stept.gen = some (step, s.now) ∧
    (s.makeMark step).stept.latest = some step ∧ (s.makeMark step).stept.waitSince = none ∧
    ∀ f : Field, f.reg = .STEP_STAT → (s.makeMark step).fld f = (s.generated step).fld f := by
  cases hdrive : s.driveOut with
  | true =>
    rw [State.makeMark_driven _ hdrive]
    exact ⟨rfl, rfl, rfl, fun _ _ => rfl⟩
  | false =>
    rw [State.makeMark_own _ hdrive]
    exact State.applyMark_own_keeps rfl rfl

/-- The same of the mark that takes its credit first. -/
theorem State.makeMark_credited (s : State) (step : Nat) : (s.takeCredit.makeMark step).stept.gen = some (step, s.now) ∧
    (s.takeCredit.makeMark step).stept.latest = some step ∧ (s.takeCredit.makeMark step).stept.waitSince = none ∧
    (s.takeCredit.makeMark step).flag Fld.STEP_STAT_BARRIER_WAIT = false ∧
    (s.takeCredit.makeMark step).fld Fld.STEP_STAT_ADV_CREDIT =
      if s.stepSrc = 2 then s.fld Fld.STEP_STAT_ADV_CREDIT - 1 else s.fld Fld.STEP_STAT_ADV_CREDIT := by
  obtain ⟨hgen, hlatest, hwait, hstat⟩ := s.takeCredit.makeMark_generates step
  refine ⟨?_, hlatest, hwait, ?_, ?_⟩
  · rw [hgen, State.takeCredit_rest]
  · rw [State.flag, hstat _ rfl]
    exact s.takeCredit.generated_wait step
  · rw [hstat _ rfl, State.generated_credit, State.takeCredit_credit]

/-- A first mark that is driven out waits for its compensation and changes nothing else. -/
theorem State.makeMark_credited_driven {s : State} (step : Nat) (h : s.driveOut = true) :
    (s.takeCredit.makeMark step).stept.marks = s.stept.marks ++ [s.ownMark step] ∧
      (s.takeCredit.makeMark step).stept.applied = s.stept.applied ∧
      (s.takeCredit.makeMark step).emitted = s.ownFrame step :: s.emitted ∧
      s.takeCredit.makeMark step = { s with
        regs := (s.takeCredit.makeMark step).regs, stept := (s.takeCredit.makeMark step).stept
        emitted := (s.takeCredit.makeMark step).emitted } ∧
      State.keeps s (s.takeCredit.makeMark step) [.STEP_STAT, .STEP_SKEW_COMP] := by
  obtain ⟨hmark, hframe, hdrive⟩ := s.takeCredit_own step
  rw [State.makeMark_driven _ (hdrive.trans h), hmark, hframe]
  have hkeeps : State.keeps s (s.takeCredit.generated step) [.STEP_STAT, .STEP_SKEW_COMP] := fun r hr => by
    have hst : r ∉ [Reg.STEP_STAT] := fun he => hr (List.mem_append_left [Reg.STEP_SKEW_COMP] he)
    rw [s.takeCredit.keeps_generated step r hst, s.keeps_takeCredit r hst]
  have hrest := s.takeCredit_rest
  refine ⟨?_, ?_, ?_, ?_, hkeeps⟩
  · rw [hrest]; rfl
  · rw [hrest]; rfl
  · rw [hrest]; rfl
  · rw [hrest]; rfl

theorem State.rest_of_eq {s v u : State} {q q' : Vector W64 Reg.count} {x : StepT} (hv : v = { s with regs := q })
    (hu : u = { v with regs := q', stept := x }) : u = { s with regs := u.regs, stept := u.stept } := by
  subst hv hu
  rfl

/-- A first mark that is not driven out is applied at once: it waits to start its step. -/
theorem State.FirstDue.makeMark_credited_own {s : State} {r : RunSt} (h : s.FirstDue r) (hdrive : s.driveOut = false) :
    (s.takeCredit.makeMark r.first).stept.applied =
        s.stept.applied ++ [(s.ownMark r.first, if s.stept.applied.length < 256 then some s.now else none)] ∧
      s.takeCredit.makeMark r.first = { s with
        regs := (s.takeCredit.makeMark r.first).regs, stept := (s.takeCredit.makeMark r.first).stept } ∧
      State.keeps s (s.takeCredit.makeMark r.first) [.STEP_STAT, .STEP_SKEW_COMP] := by
  obtain ⟨hmark, -, hdrive'⟩ := s.takeCredit_own r.first
  have hmade := h.takeCredit.makeMark_own (hdrive'.trans hdrive)
  have hrest := s.takeCredit_rest
  have hkeeps : State.keeps s (s.takeCredit.makeMark r.first) [.STEP_STAT, .STEP_SKEW_COMP] := fun q hq => by
    have hst : q ∉ [Reg.STEP_STAT] := fun he => hq (List.mem_append_left [Reg.STEP_SKEW_COMP] he)
    have hcomp : q ∉ [Reg.STEP_SKEW_COMP] := fun he => hq (List.mem_append_right [Reg.STEP_STAT] he)
    have hshown : (s.takeCredit.makeMark r.first).reg q = _ := congrArg (fun v => v.reg q) hmade
    exact hshown.trans ((((s.takeCredit.generated r.first).keeps_showMark_own rfl q hcomp).trans
      (s.takeCredit.keeps_generated r.first q hst)).trans (s.keeps_takeCredit q hst))
  refine ⟨(congrArg (fun v => v.stept.applied) hmade).trans ?_, State.rest_of_eq s.takeCredit_rest hmade, hkeeps⟩
  · refine (StepT.applied_withMark h.takeCredit.run _ _
      (s.takeCredit.makeMark r.first).stept.predicted).trans ?_
    rw [hmark, hrest]

end Sys2Proof.Machine
end

section
/-! SUPPORT. The sources of marks, together. -/

namespace Sys2Proof.Machine

/-- Settles O43: a mark is made by `makeMark` after its credit is taken, and a write of configuration is taken whole or
refused whole. -/
theorem markSources : Obligations.MarkSources := by
  unfold Obligations.MarkSources
  refine ⟨?advance, ?first, ?barrier, ?due, ?config⟩
  case advance =>
    intro t n a s h hn c
    obtain ⟨u, hu, hview⟩ := execStepAdvance_credit (t := t) h hn
    refine ⟨u, hu, ?_, ?_, ((s.tick t).onlyEvents_addCredit n ..).of_uneventful hview, ?_⟩
    · rw [State.fld_of_uneventful hview (by decide), State.fld_noteValue]
      exact (s.tick t).addCredit_credit n
    · rw [State.flag, State.fld_of_uneventful hview (by decide), State.fld_noteValue]
      exact (s.tick t).addCredit_sat n
    · exact (congrArg (fun x => x.2.jrnl.configs) hview).trans (by rw [State.addCredit_rest])
  case first =>
    intro t r s hup hrec hrun hgen hb hnext han
    have hfirst : (s.tick t).FirstDue r := ⟨hrun, hgen, hb, hnext, han⟩
    refine ⟨fun hsrc => ?_, fun hsrc hcredit => execMarkGenerate_idle (hfirst.no_credit hsrc hcredit)⟩
    obtain ⟨point, hdue⟩ := hfirst.dueGeneration hsrc
    obtain ⟨hg, hl, -, -, hcredit⟩ := (s.tick t).makeMark_credited r.first
    have hcredit1 : s.stepSrc = 1 → ¬ s.stepSrc = 2 := by omega
    refine ⟨_, execMarkGenerate_free hup hrec hdue hfirst.unheld, hg, hl, fun h2 => hcredit.trans (if_pos h2),
      fun h1 => hcredit.trans (if_neg (hcredit1 h1)), ?_⟩
    cases hdrive : s.driveOut with
    | true =>
      obtain ⟨hmarks, happlied, hemitted, hrest, hkeeps⟩ :=
        State.makeMark_credited_driven (s := s.tick t) r.first hdrive
      have hdelay : (s.tick t).ownDelay = s.stept.maxAcc := by
        have hd : (s.tick t).driveOut = true := hdrive
        simp [State.ownDelay, hd, hgen]
      rw [State.ownMark, hdelay] at hmarks
      rw [State.ownFrame, hdelay] at hemitted
      exact ⟨hkeeps, hmarks, happlied, hemitted, hrest⟩
    | false =>
      obtain ⟨happlied, hrest, hkeeps⟩ := hfirst.makeMark_credited_own hdrive
      have hdelay : (s.tick t).ownDelay = 0 := by
        have hd : (s.tick t).driveOut = false := hdrive
        simp [State.ownDelay, hd]
      rw [State.ownMark, hdelay] at happlied
      exact ⟨hkeeps, happlied, hrest⟩
  case barrier =>
    intro t w s hup hw
    have hnext : s.awaited = s.stept.gen.elim 0 fun g => g.1 + 1 := by
      unfold State.awaited
      cases s.stept.gen <;> rfl
    refine ⟨fun hh h => execWaitSend_due hup hw hh h (hnext.trans ?_),
      fun hs h => execBarrierSlow_due hup hw hs h (hnext.trans ?_), execBarrierSlow_early hw⟩ <;>
    · cases s.stept.gen <;> rfl
  case due =>
    intro t step point s hup hrec hdue
    refine ⟨fun hh hw => ⟨_, execMarkGenerate_held hup hrec hdue hh hw, rfl, State.flag_setFlag _ true (by decide) rfl⟩,
      fun hh => ?_⟩
    obtain ⟨hg, hl, hw, hf, hcredit⟩ := (s.tick t).makeMark_credited step
    refine ⟨_, execMarkGenerate_free hup hrec hdue hh, hg, hl, hw, hf, hcredit, fun hd =>
      ⟨(s.tick t).ownMark step, ?_, rfl, rfl, rfl⟩⟩
    exact (State.makeMark_credited_driven (s := s.tick t) step hd).1
  case config =>
    intro t a s ha v
    have hlegal := fun r hr => (s.tick t).stepConfigOk_merged (r := r) ha hr
    refine ⟨?running, ?ctl, ?src⟩
    case running =>
      intro ctl r h hrun
      rw [execStepConfigWrite_reached h]
      exact congrArg _ (State.stepConfig_running (s := s.tick t) hrun)
    case ctl =>
      intro h hrun legal
      refine ⟨fun hok => ⟨_, execStepConfigWrite_reached h,
        State.stepConfig_ctl (s := s.tick t) hrun ha ((stepConfigOk_ctl _).mpr hok)⟩, fun hok => ?_⟩
      have hbad : stepConfigOk .STEP_CTL v = false := by rwa [← Bool.not_eq_true, stepConfigOk_ctl]
      rw [execStepConfigWrite_reached h]
      exact congrArg _ (State.stepConfig_illegal hrun ((hlegal _ (.inl rfl)).trans hbad))
    case src =>
      intro h hrun
      refine ⟨fun hok => ⟨_, execStepConfigWrite_reached h, State.stepConfig_src (s := s.tick t) hrun ha hok⟩,
        fun hok => ?_⟩
      have hbad : stepConfigOk .STEP_SRC v = false := by rwa [← Bool.not_eq_true, stepConfigOk_src, not_not]
      rw [execStepConfigWrite_reached h]
      exact congrArg _ (State.stepConfig_illegal hrun ((hlegal _ (.inr rfl)).trans hbad))

end Sys2Proof.Machine
end

section
/-! SUPPORT. Loss of the reference: holdover entered, and the marks it makes (R54, R55). -/

namespace Sys2Proof.Machine

/-! ### Holdover entered -/

/-- What the loss of the reference shows: HOLDOVER, ENTRIES, LOCKED and the record. -/
def State.loseReference (s : State) (light : Bool) : State :=
  (((s.setFlag Fld.STEP_STAT_HOLDOVER true).incFld Fld.STEP_HOLDOVER_ENTRIES).setFlag Fld.STEP_STAT_LOCKED false).record
    0x2002 light.toNat

/-- Step time once holdover generates marks from a step and its instant. -/
def StepT.holding (x : StepT) (gen : Nat × Nat) : StepT :=
  { x with gen := some gen, genStopped := false, endHold := x.effLimit == 0 }

/-- Where generation starts: at the last mark's instant, the first mark falling no earlier than now. -/
def State.holdFrom (s : State) : Nat × Nat :=
  ((s.stept.instant.getD (0, s.now)).1, max ((s.stept.instant.getD (0, s.now)).2 + s.heldPeriod) s.now - s.heldPeriod)

theorem State.enterHoldover_eq (s : State) (light : Bool) : s.enterHoldover light =
    ((s.loseReference light).onStep fun x => x.holding (s.loseReference light).holdFrom).holdNow := by rfl

/-- What the loss leaves of the fields that are no event's. -/
theorem State.fld_loseReference (s : State) (light : Bool) {f : Field} (h : f.reg ∉ eventRegs) :
    (s.loseReference light).fld f = (((s.setFlag Fld.STEP_STAT_HOLDOVER true).incFld
      Fld.STEP_HOLDOVER_ENTRIES).setFlag Fld.STEP_STAT_LOCKED false).fld f := State.fld_record _ _ _ _ h

theorem State.loseReference_stept (s : State) (light : Bool) : (s.loseReference light).stept = s.stept :=
  State.record_stept ..

theorem State.loseReference_inHoldover (s : State) (light : Bool) : (s.loseReference light).inHoldover = true := by
  rw [State.inHoldover, State.flag, s.fld_loseReference light (by decide),
    State.fld_setFlag_of_apart _ _ (by decide) (by decide), State.fld_incFld_of_apart _ (by decide) (by decide)]
  exact State.flag_setFlag s true (by decide) rfl

theorem State.loseReference_locked (s : State) (light : Bool) :
    (s.loseReference light).flag Fld.STEP_STAT_LOCKED = false := by
  rw [State.flag, s.fld_loseReference light (by decide)]
  exact State.flag_setFlag _ false (by decide) rfl

theorem State.loseReference_linkUp (s : State) (light : Bool) :
    (s.loseReference light).flag Fld.STEP_STAT_LINK_UP = s.flag Fld.STEP_STAT_LINK_UP := by
  rw [State.flag, s.fld_loseReference light (by decide),
    State.fld_setFlag_of_apart _ _ (by decide) (by decide), State.fld_incFld_of_apart _ (by decide) (by decide),
    State.fld_setFlag_of_apart _ _ (by decide) (by decide), State.flag]

theorem State.loseReference_entries (s : State) (light : Bool) : (s.loseReference light).fld Fld.STEP_HOLDOVER_ENTRIES =
    satAdd Fld.STEP_HOLDOVER_ENTRIES.w (s.fld Fld.STEP_HOLDOVER_ENTRIES) 1 := by
  rw [s.fld_loseReference light (by decide), State.fld_setFlag_of_apart _ _ (by decide) (by decide),
    State.fld_incFld _ (by decide), State.fld_setFlag_of_apart _ _ (by decide) (by decide)]

/-! ### Holdover that is exhausted at once -/

theorem State.holdNow_of_stepOn {s : State} (h : s.stept.stepOn = true) : s.holdNow = s := by
  unfold State.holdNow
  rw [h]
  simp

theorem State.fld_holdNow (s : State) {f : Field} (he : f.reg ∉ eventRegs) (h : Fld.STEP_STAT_HELD.apart f = true) :
    s.holdNow.fld f = s.fld f := by
  unfold State.holdNow
  dsimp only
  split
  · rw [State.fld_record _ _ _ _ he, State.fld_setFlag_of_apart _ _ (by decide) h]
    rfl
  · rfl

theorem State.holdNow_stept (s : State) :
    s.holdNow.stept = { s.stept with endHold := s.holdNow.stept.endHold } := by
  unfold State.holdNow
  dsimp only
  split
  · rw [State.record_stept]
    rfl
  · rfl

/-! ### Both together -/

/-- Holdover is entered: its flags, its count, and what it leaves of step time. -/
theorem State.enterHoldover_spec (s : State) (light : Bool) :
    (s.enterHoldover light).inHoldover = true ∧ (s.enterHoldover light).flag Fld.STEP_STAT_LOCKED = false ∧
      (s.enterHoldover light).flag Fld.STEP_STAT_LINK_UP = s.flag Fld.STEP_STAT_LINK_UP ∧
      (s.enterHoldover light).fld Fld.STEP_HOLDOVER_ENTRIES =
        satAdd Fld.STEP_HOLDOVER_ENTRIES.w (s.fld Fld.STEP_HOLDOVER_ENTRIES) 1 ∧
      ∃ g b, (s.enterHoldover light).stept = { s.stept.holding g with endHold := b } := by
  have hkept : ∀ f : Field, f.reg ∉ eventRegs → Fld.STEP_STAT_HELD.apart f = true →
      (s.enterHoldover light).fld f = (s.loseReference light).fld f := fun f he h => by
    rw [State.enterHoldover_eq, State.fld_holdNow _ he h, State.onStep_fld]
  refine ⟨?_, ?_, ?_, ?_, (s.loseReference light).holdFrom, (s.enterHoldover light).stept.endHold, ?_⟩
  · rw [← s.loseReference_inHoldover light, State.inHoldover, State.flag, hkept _ (by decide) (by decide)]
    rfl
  · rw [State.flag, hkept _ (by decide) (by decide)]
    exact s.loseReference_locked light
  · rw [State.flag, hkept _ (by decide) (by decide)]
    exact s.loseReference_linkUp light
  · rw [hkept _ (by decide) (by decide), State.loseReference_entries]
  · have hx := State.holdNow_stept ((s.loseReference light).onStep fun x => x.holding (s.loseReference light).holdFrom)
    rw [← State.enterHoldover_eq, State.onStep_stept, s.loseReference_stept light] at hx
    exact hx

/-- While a step is in progress the device does not hold yet. -/
theorem State.enterHoldover_stepOn {s : State} (light : Bool) (h : s.stept.stepOn = true) :
    (s.enterHoldover light).stept = s.stept.holding (s.loseReference light).holdFrom := by
  have hon : ((s.loseReference light).onStep fun x => x.holding (s.loseReference light).holdFrom).stept.stepOn =
      true := by
    rw [State.onStep_stept, s.loseReference_stept light]
    exact h
  rw [State.enterHoldover_eq, State.holdNow_of_stepOn hon, State.onStep_stept, s.loseReference_stept light]

/-! ### REFERENCE_LOST -/

section
variable {t : Nat} {s : State} (hup : s.cUp = true) (hrun : s.stept.run.isSome = true) (hsrc : s.stepSrc = 0)
  (hh : s.inHoldover = false) (hheld : s.holds = false)
include hup hrun hsrc hh hheld

theorem execReferenceLost_due (h : (s.tick t).lossCounts = true ∨
    s.stept.predicted.any (fun p => (s.tick t).past (p + s.stept.effMargin)) = true) :
    exec (.referenceLost t) s = .next ((s.tick t).enterHoldover (s.tick t).lossCounts) := by
  show execReferenceLost t s = _
  have hwatch : (s.tick t).runOn = true ∧ (s.tick t).stepSrc = 0 ∧ (s.tick t).inHoldover = false ∧
      (s.tick t).holds = false := ⟨hrun, hsrc, hh, hheld⟩
  obtain ⟨hrun', hsrc', hh', hheld'⟩ := hwatch
  rw [execReferenceLost, State.when_due (by simpa [hup, hrun', hsrc', hh', hheld'] using h)]

end

theorem execReferenceLost_early {t p : Nat} {s : State} (hp : s.stept.predicted = some p)
    (hloss : s.stept.lossAt = none) (h : (s.tick t).past (p + s.stept.effMargin) = false) :
    exec (.referenceLost t) s = .next (s.tick t) := by
  show execReferenceLost t s = _
  rw [execReferenceLost, State.when_not_due (by simp [State.lossCounts, hp, hloss, h])]

/-! ### CAMPANILE_LOSS_OF_LIGHT -/

/-- Both pairs of Campanile In have lost light (R329). -/
def State.dark (s : State) : State :=
  ((s.onStep fun x => { x with inA := { x.inA with up := false }, inB := { x.inB with up := false } }).setFlag
    Fld.STEP_STAT_LINK_UP false).setFlag Fld.STEP_STAT_LOCKED false

/-- A run watches for its reference (R54). -/
def State.watches (s : State) : Bool :=
  s.runOn && s.stepSrc == 0 && !s.inHoldover && !s.holds && s.stept.predicted.isSome

theorem State.dark_linkUp (s : State) : s.dark.flag Fld.STEP_STAT_LINK_UP = false := by
  rw [State.dark, State.flag_setFlag_of_apart _ _ (by decide) (by decide)]
  exact State.flag_setFlag _ false (by decide) rfl

theorem State.fld_dark (s : State) {f : Field} (hu : Fld.STEP_STAT_LINK_UP.apart f = true)
    (hl : Fld.STEP_STAT_LOCKED.apart f = true) : s.dark.fld f = s.fld f := by
  rw [State.dark, State.fld_setFlag_of_apart _ _ (by decide) hl, State.fld_setFlag_of_apart _ _ (by decide) hu,
    State.onStep_fld]

theorem execCampanileLossOfLight_up {t : Nat} {s : State} (h : s.cUp = true) : exec (.campanileLossOfLight t) s =
    .next (if (s.tick t).dark.watches then
      let v := (s.tick t).dark.onStep fun x => { x with lossAt := some (max s.now t) }
      if s.stept.instant.any (·.2 == max s.now t) then v else v.enterHoldover true
    else (s.tick t).dark) := by
  show execCampanileLossOfLight t s = _
  rw [execCampanileLossOfLight, State.when_due (by simpa using h)]
  rfl

theorem State.dark_watches {s : State} (hrun : s.stept.run.isSome = true) (hsrc : s.stepSrc = 0)
    (hh : s.inHoldover = false) (hheld : s.holds = false) (hp : s.stept.predicted.isSome = true) :
    s.dark.watches = true := by
  have hsrc' : s.dark.stepSrc = 0 := (s.fld_dark (by decide) (by decide)).trans hsrc
  have hh' : s.dark.inHoldover = false := (congrArg (· == 1) (s.fld_dark (by decide) (by decide))).trans hh
  have hheld' : s.dark.holds = false := (congrArg (· == 1) (s.fld_dark (by decide) (by decide))).trans hheld
  have hrun' : s.dark.runOn = true := hrun
  have hp' : s.dark.stept.predicted.isSome = true := hp
  simp [State.watches, hrun', hsrc', hh', hheld', hp']

/-- The loss of light has its cycle noted. -/
def State.darkNow (s : State) : State := s.dark.onStep fun x => { x with lossAt := some s.now }

theorem execCampanileLossOfLight_watched {t : Nat} {s : State} (h : s.cUp = true)
    (hw : (s.tick t).dark.watches = true) : exec (.campanileLossOfLight t) s =
      .next (if s.stept.instant.any (·.2 == max s.now t) then (s.tick t).darkNow
        else (s.tick t).darkNow.enterHoldover true) := by
  rw [execCampanileLossOfLight_up h, hw]
  rfl

theorem State.dark_unwatched {s : State} (hrun : s.stept.run = none) : s.dark.watches = false := by
  have hrun' : s.dark.runOn = false := congrArg Option.isSome hrun
  simp [State.watches, hrun']

/-! ### HOLDOVER_MARK -/

/-- The mark that holdover makes of a step (R55). -/
def State.heldMark (s : State) (step : Nat) : Mark :=
  ⟨false, step, 0, s.fld Fld.STEP_PHASE_PHASES_LOG2, s.fld Fld.STEP_PHASE_PHASES_LOG2, s.heldPeriod,
    s.fld Fld.STEP_SKEW_COMP_ACC_DELAY, s.fld Fld.STEP_SKEW_COMP_ACC_DELAY + s.fld Fld.STEP_SKEW_COMP_APPLIED, true,
    s.now + (s.fld Fld.STEP_SKEW_COMP_ACC_DELAY + s.fld Fld.STEP_SKEW_COMP_APPLIED -
      s.fld Fld.STEP_SKEW_COMP_ACC_DELAY), false⟩

/-- A mark goes out where marks are driven out. -/
def State.driveMark (s : State) (e : Emission) : State := if s.driveOut then s.emit e else s

theorem State.driveMark_rest (s : State) (e : Emission) :
    s.driveMark e = { s with emitted := if s.driveOut then e :: s.emitted else s.emitted } := by
  unfold State.driveMark
  split <;> rfl

theorem execHoldoverMark_due {t g c : Nat} {s : State} (hup : s.cUp = true) (hrun : s.stept.run.isSome = true)
    (hh : s.inHoldover = true) (hheld : s.holds = false) (hs : s.stept.genStopped = false)
    (hg : s.stept.gen = some (g, c)) (hc : c + s.heldPeriod ≤ max s.now t) : exec (.holdoverMark t) s = .next
      (((s.tick t).driveMark (.campOut (markFrame 1 ((s.tick t).heldMark (g + 1)).phasesLog2
        ((s.tick t).heldMark (g + 1)).phasesLog2 (g + 1) s.heldPeriod ((s.tick t).heldMark (g + 1)).dTotal
          ((s.tick t).heldMark (g + 1)).acc))).onStep fun x => { x with
            gen := some (g + 1, c + s.heldPeriod), latest := some (g + 1)
            marks := x.marks ++ [(s.tick t).heldMark (g + 1)] }) := by
  show execHoldoverMark t s = _
  have hruns : (s.tick t).runOn = true ∧ (s.tick t).inHoldover = true ∧ (s.tick t).holds = false ∧
      c + (s.tick t).heldPeriod ≤ max s.now t := ⟨hrun, hh, hheld, hc⟩
  obtain ⟨hrun', hh', hheld', hc'⟩ := hruns
  rw [execHoldoverMark, State.when_due (by simp [hup, hrun', hh', hheld', hs, hg, hc']), State.tick_stept, hg]
  unfold State.driveMark
  dsimp only
  split <;> rfl

end Sys2Proof.Machine
end

section
/-! SUPPORT. The Campanile pairs: failover, light that returns, echoes and the hop delay they measure, and RETRAIN (R329,
R330, R53). -/

namespace Sys2Proof.Machine

/-! ### The downstream link, and failover -/

theorem State.trySendReady_none {s : State} (h : s.stept.readyDue = none) : s.trySendReady = s := by
  rw [State.trySendReady, h]

/-- The outgoing port with its two pairs down. -/
def State.cutDownstream (s : State) : State :=
  (s.onStep fun x => { x with outA := false, outB := false, downWait := false }).record 0x200B 0

theorem execDownstreamDown_up {t : Nat} {s : State} (h : s.cUp = true) (hd : s.downUp = true) :
    exec (.downstreamDown t) s = .next (s.tick t).cutDownstream.trySendReady := by
  show execDownstreamDown t s = _
  have hd' : (s.tick t).downUp = true := hd
  rw [execDownstreamDown, State.when_due (by simp [h, hd'])]
  rfl

/-- The receiver takes the other pair of Campanile In (R329). -/
def State.swapIn (s : State) : State := s.onStep fun x => { x with
  useB := !x.useB
  inA := if x.useB then x.inA else { x.inA with up := false }
  inB := if x.useB then { x.inB with up := false } else x.inB }

/-- HOP_DELAY shows the hop of the pair in use. -/
def State.showHop (s : State) : State := s.setFld Fld.STEP_SKEW_COMP_HOP_DELAY (min s.hopDelay 0xFFFF)

theorem State.showHop_stept (s : State) : s.showHop.stept = s.stept := State.setFld_stept ..

theorem State.showHop_hop (s : State) : s.showHop.fld Fld.STEP_SKEW_COMP_HOP_DELAY = min s.showHop.hopDelay 0xFFFF := by
  rw [State.hopDelay, State.showHop_stept]
  exact State.fld_setFld_of_lt s (by decide) (Nat.lt_succ_of_le (Nat.min_le_right ..))

section
variable {t : Nat} {s : State} (h : s.cUp = true)
include h

theorem execCampanileFailover_out : exec (.campanileFailover t true) s = .next (({ s.tick t with stept :=
    { s.stept with outA := !s.stept.outA, outB := s.stept.outA } }).record 0x7010 (1 + 256 * s.stept.outA.toNat)) := by
  show execCampanileFailover t true s = _
  rw [execCampanileFailover, State.when_due (by simpa using h)]
  rfl

theorem execCampanileFailover_in : exec (.campanileFailover t false) s =
    .next ((s.tick t).swapIn.showHop.record 0x7010 (256 * (!s.stept.useB).toNat)) := by
  show execCampanileFailover t false s = _
  have hin : (s.tick t).swapIn.showHop.record 0x7010 (256 * (s.tick t).swapIn.showHop.stept.useB.toNat) =
      (s.tick t).swapIn.showHop.record 0x7010 (256 * (!s.stept.useB).toNat) := by
    rw [State.showHop_stept]
    rfl
  rw [execCampanileFailover, State.when_due (by simpa using h), ← hin]
  rfl

/-! ### Light that returns -/

theorem execCampanileLinkUp_out (b : Bool) : exec (.campanileLinkUp t true b) s = .next { s.tick t with
    stept := { s.stept with outA := s.stept.outA || !b, outB := s.stept.outB || b } } := by
  show execCampanileLinkUp t true b s = _
  rw [execCampanileLinkUp, State.when_due (by simpa using h)]
  cases b
  · simp [State.onStep]
  · simp [State.onStep]

end

/-- One pair of Campanile In. -/
def StepT.pair (x : StepT) (b : Bool) : Pair := if b then x.inB else x.inA

/-- A change to one pair of Campanile In. -/
def StepT.onPair (x : StepT) (b : Bool) (f : Pair → Pair) : StepT :=
  if b then { x with inB := f x.inB } else { x with inA := f x.inA }

theorem StepT.pair_onPair (x : StepT) (b : Bool) (f : Pair → Pair) : (x.onPair b f).pair b = f (x.pair b) := by
  cases b <;> rfl

theorem StepT.pair_onPair_other (x : StepT) (b : Bool) (f : Pair → Pair) :
    (x.onPair b f).pair (!b) = x.pair (!b) := by cases b <;> rfl

theorem State.sendEchoes_rest (s : State) (b up : Bool) :
    s.sendEchoes b up = { s with emitted := (s.sendEchoes b up).emitted } := by
  have hsent : ∀ (l : List Nat) (v : State), l.foldl (fun v i => v.emit (.echoUp b i)) v =
      { v with emitted := (l.foldl (fun v i => v.emit (.echoUp b i)) v).emitted } := fun l => by
    induction l with
    | nil => exact fun _ => rfl
    | cons i l ih =>
      intro v
      rw [List.foldl_cons, ih]
      rfl
  unfold State.sendEchoes
  split
  · exact hsent ..
  · rfl

/-- A pair of Campanile In has light again, and its echo sets have gone out (R330). -/
def StepT.lit (x : StepT) (b : Bool) (now : Nat) : StepT :=
  { x.onPair b fun p => { p with up := true }.startEcho now with useB := if (x.pair (!b)).up then x.useB else b }

theorem execCampanileLinkUp_in {t : Nat} {s : State} (h : s.cUp = true) (b : Bool) :
    exec (.campanileLinkUp t false b) s = .next ((((s.tick t).setFlag Fld.STEP_STAT_LINK_UP true).sendEchoes b
      true).onStep fun x => x.lit b (max s.now t)) := by
  show execCampanileLinkUp t false b s = _
  have hnow : (((s.tick t).setFlag Fld.STEP_STAT_LINK_UP true).sendEchoes b true).now = max s.now t := by
    rw [State.sendEchoes_rest]
    rfl
  rw [execCampanileLinkUp, State.when_due (by simpa using h), ← hnow]
  cases b <;> rfl

/-! ### Echoes -/

theorem Pair.echo_sent {p : Pair} {id c now : Nat} (h : p.echoSent.find? (·.1 == id) = some (id, c)) : p.echo id now =
    { p with
      echoSent := p.echoSent.filter (·.1 != id)
      echoSum := p.echoSum + (now - c)
      echoCount := p.echoCount + 1
      hop := if p.echoCount = 63 then (p.echoSum + (now - c) + 64) / 128 else p.hop } := by
  rw [Pair.echo, h]
  by_cases hc : p.echoCount = 63
  · simp [hc]
  · simp [hc]

theorem State.hopMeasured_pairs (s : State) : s.hopMeasured.stept.inA = s.stept.inA ∧
    s.hopMeasured.stept.inB = s.stept.inB ∧ s.hopMeasured.stept.useB = s.stept.useB ∧
    s.hopMeasured.fld Fld.STEP_SKEW_COMP_HOP_DELAY = s.fld Fld.STEP_SKEW_COMP_HOP_DELAY := by
  unfold State.hopMeasured State.hwClear
  split
  · exact ⟨rfl, rfl, rfl, rfl⟩
  · split
    · exact ⟨rfl, rfl, rfl, rfl⟩
    · exact ⟨rfl, rfl, rfl, State.fld_setFlag_of_apart s _ (by decide) (by decide)⟩

/-- An echo from upstream is counted, and the hop shown (R330). -/
def State.takeEcho (s : State) (b : Bool) (id : Nat) : State :=
  (s.onStep fun x => x.onPair b fun p => p.echo id s.now).showHop

theorem execEchoReceived_up {t id : Nat} {s : State} (h : s.cUp = true) (hid : id < 64) (b : Bool) :
    exec (.echoReceived t true b id) s = .next (if ((s.tick t).takeEcho b id).stept.inA.echoSent.length +
        ((s.tick t).takeEcho b id).stept.inB.echoSent.length == 0 then ((s.tick t).takeEcho b id).hopMeasured
      else (s.tick t).takeEcho b id) := by
  show execEchoReceived t true b id s = _
  rw [execEchoReceived, State.when_due (by simp [h, hid]), State.takeEcho, State.showHop_stept]
  cases b <;> rfl

/-- The last echo of a measurement changes no pair and no hop shown. -/
theorem execEchoReceived_pairs {t id : Nat} {s : State} (h : s.cUp = true) (hid : id < 64) (b : Bool) :
    ∃ u, exec (.echoReceived t true b id) s = .next u ∧
      (∀ k, u.stept.pair k = ((s.tick t).takeEcho b id).stept.pair k) ∧
      u.fld Fld.STEP_SKEW_COMP_HOP_DELAY = min u.hopDelay 0xFFFF := by
  refine ⟨_, execEchoReceived_up h hid b, ?_⟩
  have hshown : ((s.tick t).takeEcho b id).fld Fld.STEP_SKEW_COMP_HOP_DELAY = _ := State.showHop_hop _
  split
  · obtain ⟨ha, hb, huse, hhop⟩ := ((s.tick t).takeEcho b id).hopMeasured_pairs
    refine ⟨fun k => by rw [StepT.pair, StepT.pair, ha, hb], ?_⟩
    rw [hhop, State.hopDelay, ha, hb, huse]
    exact hshown
  · exact ⟨fun _ => rfl, hshown⟩

theorem execEchoReceived_down {t id : Nat} {s : State} (h : s.cUp = true) (hid : id < 64) (b : Bool) :
    exec (.echoReceived t false b id) s = .next { s.tick t with stept := { s.stept with
      echoOut := s.stept.echoOut ++ [(b.toNat * 64 + id, max s.now t)] } } := by
  show execEchoReceived t false b id s = _
  rw [execEchoReceived, State.when_due (by simp [h, hid])]
  rfl

section
variable {t k c : Nat} {rest : List (Nat × Nat)} {s : State} (he : s.stept.echoOut = (k, c) :: rest)
include he

theorem execEchoReturn_due (h : s.cUp = true) (hc : c + 192 ≤ max s.now t) : exec (.echoReturn t) s =
    .next (({ s.tick t with stept := { s.stept with echoOut := rest } }).emit
      (.echoBack (decide (64 ≤ k)) (k % 64))) := by
  show execEchoReturn t s = _
  rw [execEchoReturn, State.when_due (by simp [h, he, hc]), State.tick_stept, he]
  rfl

theorem execEchoReturn_early (hc : max s.now t < c + 192) : exec (.echoReturn t) s = .next (s.tick t) := by
  show execEchoReturn t s = _
  rw [execEchoReturn, State.when_not_due (by simp [he]; omega)]

end

/-! ### RETRAIN -/

/-- The hop is measured again. -/
def StepT.measured (x : StepT) (now : Nat) : StepT :=
  { x with inA := x.inA.startEcho now, inB := x.inB.startEcho now, retrain := false }

theorem State.measureHop_eq (s : State) :
    s.measureHop = { s with emitted := s.measureHop.emitted, stept := s.stept.measured s.now } := by
  unfold State.measureHop
  rw [State.sendEchoes_rest, State.sendEchoes_rest]
  rfl

/-- A write to STEP_SKEW_COMP: its fields, its note, and TRIM at once where no run is in progress (R36). -/
def State.writeSkew (s : State) (a : RegAcc) : State :=
  let v := (s.writeFields .STEP_SKEW_COMP a).noteConfig .STEP_SKEW_COMP a.port.source
  if v.runOn then v else v.onStep fun x => { x with effTrim := v.fld Fld.STEP_SKEW_COMP_TRIM }

theorem execStepRetrain_set {t : Nat} {a : RegAcc} {s : State} (h : s.reach a.port .STEP_SKEW_COMP = true)
    (hset : accSets a Fld.STEP_SKEW_COMP_RETRAIN = true) : exec (.stepRetrain t a) s = .next
      (let v := ((s.tick t).writeSkew a).swSet Fld.STEP_SKEW_COMP_RETRAIN
       if v.runOn then v.onStep fun x => { x with retrain := true } else v.measureHop) := by
  show execStepRetrain t a s = _
  rw [execStepRetrain, State.access_reached h, State.stepSkew, hset]
  rfl

theorem State.stept_writeSkew (s : State) (a : RegAcc) : (s.writeSkew a).now = s.now ∧ (s.writeSkew a).stept =
    if s.runOn then s.stept else { s.stept with effTrim := (s.writeSkew a).stept.effTrim } := by
  have hv := (s.writeFields .STEP_SKEW_COMP a).uneventful_noteConfig .STEP_SKEW_COMP a.port.source
  have hnow : ((s.writeFields .STEP_SKEW_COMP a).noteConfig .STEP_SKEW_COMP a.port.source).now = s.now :=
    congrArg (fun x => x.2.now) hv
  have hx : ((s.writeFields .STEP_SKEW_COMP a).noteConfig .STEP_SKEW_COMP a.port.source).stept = s.stept :=
    congrArg (fun x => x.2.stept) hv
  unfold State.writeSkew
  dsimp only
  rw [State.runOn, hx, State.runOn]
  split
  · exact ⟨hnow, hx⟩
  · refine ⟨hnow, ?_⟩
    rw [State.onStep_stept, hx]

theorem State.keeps_writeSkew (s : State) (a : RegAcc) :
    State.keeps s (s.writeSkew a) (eventRegs ++ [.STEP_SKEW_COMP]) := by
  have hnoted : State.keeps s ((s.writeFields .STEP_SKEW_COMP a).noteConfig .STEP_SKEW_COMP a.port.source)
      (eventRegs ++ [.STEP_SKEW_COMP]) :=
    ((s.onlyEvents_noteOwn_writeFields .STEP_SKEW_COMP a).of_uneventful (State.uneventful_noteConfig ..)).1
  unfold State.writeSkew
  dsimp only
  split
  · exact hnoted
  · exact hnoted

theorem State.flag_swSet (s : State) {f : Field} (hw : f.lo + 1 ≤ 64) (h : f.w = 1) : (s.swSet f).flag f = true :=
  State.flag_setFlag s true hw h

theorem State.keeps_swSet (s : State) {f : Field} {rs : List Reg} (h : f.reg ∈ rs) : State.keeps s (s.swSet f) rs :=
  State.keeps_setFlag s true h

/-- A write that asks for RETRAIN, before the hop is measured or is left for the end of the run (R53). -/
theorem execStepRetrain_writes {t : Nat} {a : RegAcc} {s : State} (h : s.reach a.port .STEP_SKEW_COMP = true)
    (hset : accSets a Fld.STEP_SKEW_COMP_RETRAIN = true) : ∃ v, exec (.stepRetrain t a) s =
      .next (if s.runOn then v.onStep fun x => { x with retrain := true } else v.measureHop) ∧
      v.flag Fld.STEP_SKEW_COMP_RETRAIN = true ∧ State.keeps s v (eventRegs ++ [.STEP_SKEW_COMP]) ∧
      v.now = max s.now t ∧ v.stept = if s.runOn then s.stept else { s.stept with effTrim := v.stept.effTrim } := by
  obtain ⟨hnow, hx⟩ := (s.tick t).stept_writeSkew a
  have hrun : (((s.tick t).writeSkew a).swSet Fld.STEP_SKEW_COMP_RETRAIN).runOn = s.runOn := by
    have hon : ((s.tick t).writeSkew a).stept.run = s.stept.run := by
      rw [hx]
      split <;> rfl
    exact congrArg Option.isSome hon
  refine ⟨((s.tick t).writeSkew a).swSet Fld.STEP_SKEW_COMP_RETRAIN, ?_, State.flag_swSet _ (by decide) rfl,
    ((s.tick t).keeps_writeSkew a).trans (State.keeps_swSet _ (by decide)), hnow, hx⟩
  rw [execStepRetrain_set h hset]
  dsimp only
  rw [hrun]

theorem Pair.echoSent_startEcho {p : Pair} (now : Nat) (h : p.up = true) :
    (p.startEcho now).echoSent = (List.range 64).map fun i => (i, now) := by
  rw [Pair.startEcho, if_pos h]

end Sys2Proof.Machine
end

section
/-! SUPPORT. Loss of the reference, pairs and echoes, together. -/

namespace Sys2Proof.Machine

/-- Settles O44: each row is its effect on step time, which the pairs, the marks and the flags are read from. -/
theorem referenceLoss : Obligations.ReferenceLoss := by
  unfold Obligations.ReferenceLoss
  refine ⟨?watch, ?idleDark, ?dark, ?lost, ?held, ?down, ?failOut, ?failIn, ?litOut, ?litIn, ?echoUp, ?echoDown, ?echoBack,
    ?retrain⟩
  case watch =>
    intro t p s hup hrun hsrc hh hheld hp hloss hon
    refine ⟨fun h => ?_, execReferenceLost_early hp hloss⟩
    have hany : s.stept.predicted.any (fun p => (s.tick t).past (p + s.stept.effMargin)) = true := by
      rw [hp]
      exact h
    obtain ⟨hin, hlocked, -, hentries, -⟩ := (s.tick t).enterHoldover_spec (s.tick t).lossCounts
    have hx := State.enterHoldover_stepOn (s := s.tick t) (s.tick t).lossCounts hon
    exact ⟨_, execReferenceLost_due hup hrun hsrc hh hheld (.inr hany), hin, hlocked, hentries,
      congrArg StepT.endHold hx, congrArg StepT.genStopped hx, congrArg (·.gen.isSome) hx⟩
  case idleDark =>
    intro t s hup hrun
    rw [execCampanileLossOfLight_up hup, State.dark_unwatched (s := s.tick t) hrun]
    rfl
  case dark =>
    intro t s hup hrun hsrc hh hheld hp u0
    have hwatch := State.dark_watches (s := s.tick t) hrun hsrc hh hheld hp
    have hdark : (s.tick t).darkNow.inHoldover = false :=
      (congrArg (· == 1) ((s.tick t).fld_dark (by decide) (by decide))).trans hh
    have hentries : (s.tick t).darkNow.fld Fld.STEP_HOLDOVER_ENTRIES = s.fld Fld.STEP_HOLDOVER_ENTRIES :=
      (s.tick t).fld_dark (by decide) (by decide)
    have hlink : (s.tick t).darkNow.flag Fld.STEP_STAT_LINK_UP = false := (s.tick t).dark_linkUp
    refine ⟨_, execCampanileLossOfLight_watched hup hwatch, ?_⟩
    cases hu : s.stept.instant.any (·.2 == max s.now t) with
    | true => exact ⟨by simpa [u0, hu] using hdark, hlink, rfl, rfl, rfl, by simpa [u0, hu] using hentries⟩
    | false =>
      obtain ⟨hin, -, hlit, hcount, g, b, hx⟩ := (s.tick t).darkNow.enterHoldover_spec true
      rw [hentries] at hcount
      exact ⟨by simpa [u0, hu] using hin, hlit.trans hlink, congrArg (fun x : StepT => x.inA.up) hx,
        congrArg (fun x : StepT => x.inB.up) hx, congrArg (fun x : StepT => x.lossAt) hx, by simpa [u0, hu] using hcount⟩
  case lost =>
    intro t s hup hrun hsrc hh hheld h
    obtain ⟨hin, hlocked, -, hentries, g, b, hx⟩ := (s.tick t).enterHoldover_spec (s.tick t).lossCounts
    exact ⟨_, execReferenceLost_due hup hrun hsrc hh hheld h, hin, hlocked, hentries,
      congrArg (fun x : StepT => x.genStopped) hx, congrArg (fun x : StepT => x.gen.isSome) hx,
      (congrArg (fun x : StepT => x.marks) hx).trans rfl⟩
  case held =>
    intro t g c s hup hrun hh hheld hs hg hc
    refine ⟨_, (s.tick t).heldMark (g + 1), execHoldoverMark_due hup hrun hh hheld hs hg hc, ?_⟩
    rw [State.driveMark_rest]
    exact ⟨rfl, rfl, rfl, congrArg (max s.now t + ·) (Nat.add_sub_cancel_left ..), rfl, rfl, rfl⟩
  case down =>
    intro t s hup hd w
    exact ⟨execDownstreamDown_up hup hd, fun h => State.trySendReady_none ((State.record_stept ..).symm ▸ h)⟩
  case failOut => exact fun t s hup => execCampanileFailover_out hup
  case failIn =>
    intro t s hup
    exact ⟨_, execCampanileFailover_in hup, congrArg StepT.useB (State.showHop_stept _), State.showHop_hop _⟩
  case litOut => exact fun t b s hup => execCampanileLinkUp_out hup b
  case litIn =>
    intro t b s hup pair
    refine ⟨_, execCampanileLinkUp_in hup b, ?_⟩
    rw [State.sendEchoes_rest]
    refine ⟨State.flag_setFlag _ true (by decide) rfl, ?_⟩
    cases b <;> exact ⟨rfl, rfl, rfl⟩
  case echoUp =>
    intro t id c b s hup hid pair q sum hsent
    obtain ⟨u, hu, hpairs, hhop⟩ := execEchoReceived_pairs (t := t) hup hid b
    have htaken : ((s.tick t).takeEcho b id).stept = s.stept.onPair b fun p => p.echo id (max s.now t) :=
      State.showHop_stept _
    have hfound : (s.stept.pair b).echoSent.find? (·.1 == id) = some (id, c) := by
      rw [← hsent]
      cases b <;> rfl
    refine ⟨u, hu, ?_, ?_, hhop⟩
    · refine (hpairs b).trans ?_
      rw [htaken, StepT.pair_onPair]
      exact Pair.echo_sent hfound
    · refine (hpairs (!b)).trans ?_
      rw [htaken, StepT.pair_onPair_other]
      rfl
  case echoDown => exact fun t id b s hup hid => execEchoReceived_down hup hid b
  case echoBack =>
    intro t k c rest s hup he
    exact ⟨execEchoReturn_due he hup, execEchoReturn_early he⟩
  case retrain =>
    intro t a s h hset
    obtain ⟨v, hu, hflag, hkeeps, hnow, hx⟩ := execStepRetrain_writes (t := t) h hset
    refine ⟨_, hu, ?_⟩
    cases hon : s.runOn with
    | true =>
      rw [hon] at hx
      have hrun : s.stept.run ≠ none := fun h0 => by simp [State.runOn, h0] at hon
      exact ⟨hflag, hkeeps, fun _ => congrArg (fun x : StepT => { x with retrain := true }) hx, fun h0 => absurd h0 hrun⟩
    | false =>
      rw [hon] at hx
      rw [if_neg Bool.false_ne_true, State.measureHop_eq, hnow]
      obtain ⟨ha, hb⟩ : v.stept.inA = s.stept.inA ∧ v.stept.inB = s.stept.inB :=
        ⟨(congrArg StepT.inA hx).trans rfl, (congrArg StepT.inB hx).trans rfl⟩
      exact ⟨hflag, hkeeps, fun h1 => absurd h1 (by simpa [State.runOn] using hon), fun _ =>
        ⟨rfl, fun h1 => Pair.echoSent_startEcho _ (ha ▸ h1), fun h1 => Pair.echoSent_startEcho _ (hb ▸ h1)⟩⟩

end Sys2Proof.Machine
end

section
/-! SUPPORT. Orders that execute: which may, and what a RUN, a CHECKPOINT, a QUIESCE and a ROW_SAMPLE do to the orders and to
what they start (R45, R115, R266, R267, R286). -/

namespace Sys2Proof.Machine

/-! ### Orders that execute -/

theorem State.executable_tick (s : State) (t seq op : Nat) : (s.tick t).executable seq op = s.executable seq op := by rfl

theorem State.orderRow_due {s : State} {t seq op : Nat} {o : Order} (f : State → Order → State)
    (h : s.executable seq op = some o) : s.orderRow t seq op f = .next (f (s.tick t) o) := by
  rw [State.orderRow, State.when_due (by rw [State.executable_tick, h]; rfl), State.executable_tick, h]

theorem State.executable_order {s : State} {seq op : Nat} {o : Order} (h : s.executable seq op = some o) :
    s.order seq = some o ∧ o.seq = seq := by
  have horder : s.order seq = some o := (Option.filter_eq_some_iff.mp h).1
  exact ⟨horder, beq_iff_eq.mp (List.find?_some (p := fun x : Order => x.seq == seq) horder)⟩

/-- An order executes. -/
def State.executing (s : State) (seq : Nat) : State := s.onOrder seq fun x => { x with phase := .executing }

/-- The order that an order of a SEQ was becomes one that executes. -/
theorem State.order_executing {s : State} {o : Order} (h : s.order o.seq = some o) :
    (s.executing o.seq).order o.seq = some { o with phase := .executing } := State.order_onOrder_self (fun _ => rfl) h

theorem State.order_of_orders {s u : State} (h : u.intake.orders = s.intake.orders) (seq : Nat) :
    u.order seq = s.order seq := by rw [State.order, h, State.order]

/-! ### The journal's part -/

/-- What a frame of an order leaves of it: its effect stands. -/
theorem State.order_takesEffect {s : State} {o : Order} (h : s.order o.seq = some o) :
    (s.takesEffect o).order o.seq = some { o with effect := some s.effectAt } :=
  State.order_onOrder_self (fun _ => rfl) ((State.order_of_orders (s.orders_addFrame ..) _).trans h)

theorem State.uneventful_addFrame (s : State) (typ : Nat) (lastPart : Bool) (orderSeq policy : Nat) (bs : List Byte) :
    (s.addFrame typ lastPart orderSeq policy bs).uneventful = s.uneventful :=
  State.uneventful_of_calm (State.calm_addFrame ..)

/-- An order that is refused changes no step time, no transfer and no register but those of events. -/
theorem State.finishAs_rest (s : State) (o : Order) (kind code payload : Nat) (eff : Bool) :
    (s.finishAs o kind code payload eff).stept = s.stept ∧
      (s.finishAs o kind code payload eff).jrnl.transfers = s.jrnl.transfers ∧
      ∀ r ∉ eventRegs, (s.finishAs o kind code payload eff).reg r = s.reg r := by
  have hview := fun bs => s.uneventful_addFrame 2 true o.seq o.policy bs
  unfold State.finishAs
  exact ⟨congrArg (fun x => x.2.stept) (hview _), congrArg (fun x => x.2.jrnl.transfers) (hview _),
    fun r hr => State.reg_of_uneventful (hview _) hr⟩

theorem State.order_takesEffect_executing {s : State} {o : Order} (h : s.order o.seq = some o) :
    ((s.takesEffect o).executing o.seq).order o.seq = some { o with effect := some s.effectAt, phase := .executing } :=
  State.order_executing (o := { o with effect := some s.effectAt }) (State.order_takesEffect h)

/-- An order that is rejected at its execution has no effect (R269). -/
theorem State.rejectOrder_spec {s : State} {o : Order} (h : s.order o.seq = some o) (code payload : Nat) :
    (s.rejectOrder o code payload).finished o 4 code payload ∧ (s.rejectOrder o code payload).stept = s.stept ∧
      (s.rejectOrder o code payload).jrnl.transfers = s.jrnl.transfers := by
  obtain ⟨hstept, htransfers, -⟩ := s.finishAs_rest o 4 code payload false
  exact ⟨State.finished_finishAs h 4 code payload false, hstept, htransfers⟩

/-! ### RUN -/

/-- The run that a RUN order starts (R45). -/
def State.runOf (s : State) (o : Order) : RunSt :=
  ⟨o.seq, fieldAt o.body 0 8, fieldAt o.body 8 8, fieldAt o.body 0 8, s.now, false⟩

theorem State.run_armWatch (s : State) (hint : Nat) :
    (s.armWatch hint).stept.run = s.stept.run ∧ (s.armWatch hint).intake = s.intake := by
  rw [State.armWatch_eq]
  exact ⟨rfl, rfl⟩

theorem State.run_selftestFor (s : State) (step : Nat) : (s.selftestFor step).stept.run = s.stept.run ∧
    (s.selftestFor step).intake.orders = s.intake.orders :=
  ⟨congrArg StepView.run (s.stepView_selftestFor step), congrArg StepView.orders (s.stepView_selftestFor step)⟩

theorem State.doRun_refused {s : State} {o : Order} {c p : Nat} (h : s.runRefused (fieldAt o.body 0 8) = some (c, p)) :
    s.doRun o = s.rejectOrder o c p := by
  rw [State.doRun, h]

theorem State.doRun_started {s : State} {o : Order} (h : s.runRefused (fieldAt o.body 0 8) = none) :
    (s.doRun o).stept.run = some (s.runOf o) ∧
      (s.doRun o).intake.orders = ((s.takesEffect o).executing o.seq).intake.orders := by
  have hnow : ((s.takesEffect o).executing o.seq).now = s.now := congrArg (fun x => x.2.now) (s.uneventful_addFrame ..)
  rw [State.doRun, h]
  dsimp only
  obtain ⟨hrun, horders⟩ := State.run_selftestFor _ _
  refine ⟨hrun.trans ?_, horders.trans ?_⟩
  · have hstarted : some (⟨o.seq, fieldAt o.body 0 8, fieldAt o.body 8 8, fieldAt o.body 0 8,
        ((s.takesEffect o).executing o.seq).now, false⟩ : RunSt) = some (s.runOf o) := by
      rw [hnow]
      rfl
    split
    · exact (State.run_armWatch ..).1.trans hstarted
    · exact hstarted
  · split
    · exact congrArg IntakeSt.orders (State.run_armWatch ..).2
    · rfl

theorem execRun_due {t seq : Nat} {o : Order} {s : State} (h : s.executable seq 4 = some o) :
    exec (.run t seq) s = .next (if s.engaged then s.tick t else (s.tick t).doRun o) := by
  show execRun t seq s = _
  rw [execRun, State.orderRow_due _ h]
  rfl

/-! ### CHECKPOINT -/

theorem execCheckpoint_due {t seq : Nat} {o : Order} {s : State} (h : s.executable seq 5 = some o) :
    exec (.checkpoint t seq) s =
      .next (if s.engaged then s.tick t else (s.tick t).doCheckpoint o (s.tick t).idleNext) := by
  show execCheckpoint t seq s = _
  rw [execCheckpoint, State.orderRow_due _ h]
  rfl

theorem State.formParts_transfer (s : State) {x : Transfer} (hx : x.kind ≠ 0) (ps : List (Bool × List Byte)) :
    (s.formParts x ps).1.uneventful = s.uneventful ∧
      ∃ parts, (s.formParts x ps).2 = { x with parts := parts, left := [] } := by
  induction ps generalizing s x with
  | nil => exact ⟨rfl, x.parts, rfl⟩
  | cons p ps ih =>
    rw [State.formParts]
    dsimp only
    rw [if_neg (by simp [hx])]
    have hjoined : ∀ n : Nat, let r := (s.addFrame 4 p.1 0 x.policy p.2).formParts { x with parts := x.parts ++ [n] } ps
        r.1.uneventful = s.uneventful ∧ ∃ parts, r.2 = { x with parts := parts, left := [] } := fun n => by
      obtain ⟨hview, hform⟩ := ih (s.addFrame 4 p.1 0 x.policy p.2) (x := { x with parts := x.parts ++ [n] }) hx
      exact ⟨hview.trans (State.uneventful_addFrame ..), hform⟩
    exact hjoined _

/-- A transfer that begins joins those under way (R286). -/
theorem State.startTransfer_spec (s : State) (bytes : List Byte) (seq policy : Nat) :
    (s.startTransfer bytes seq 2 policy).flag Fld.CKPT_STAT_IN_PROGRESS = true ∧
      (s.startTransfer bytes seq 2 policy).intake.orders = s.intake.orders ∧
      ∃ x, (s.startTransfer bytes seq 2 policy).jrnl.transfers = s.jrnl.transfers ++ [x] ∧ x.seq = seq ∧ x.kind = 2 ∧
        x.policy = policy ∧ x.bytes = bytes := by
  obtain ⟨hview, parts, hx⟩ := s.formParts_transfer (x := s.captured bytes seq 2 policy) (show 2 ≠ 0 by decide)
    (s.captured bytes seq 2 policy).left
  refine ⟨State.flag_setFlag _ true (by decide) rfl, congrArg (fun x => x.2.intake.orders) hview, _,
    congrArg (fun x => x.2.jrnl.transfers ++ _) hview, ?_⟩
  rw [hx]
  exact ⟨rfl, rfl, rfl, rfl⟩

theorem State.doCheckpoint_refused {s : State} {o : Order} {next : Nat} (h : s.planOn = false ∨ s.seeded = false) :
    s.doCheckpoint o next = s.rejectOrder o 0x101B 0 := by
  rw [State.doCheckpoint, if_pos (by simpa using h)]

theorem State.doCheckpoint_taken {s : State} {o : Order} {next : Nat} (hp : s.planOn = true) (hs : s.seeded = true) :
    ∃ v : State, s.doCheckpoint o next = (v.startTransfer (s.context s.ex.chain next false s.uncovered s.lastMode) o.seq 2
        o.policy).executing o.seq ∧ v.intake.orders = (s.takesEffect o).intake.orders ∧
      v.jrnl.transfers = s.jrnl.transfers := by
  rw [State.doCheckpoint, if_neg (by simp [hp, hs])]
  refine ⟨_, rfl, ?_, ?_⟩
  · split <;> rfl
  · have hkept := congrArg (fun x => x.2.jrnl.transfers) (s.uneventful_addFrame 2 true o.seq o.policy (s.effectBytes o))
    split <;> exact hkept

/-- A CHECKPOINT takes effect and executes, and its transfer is under way (R266, R286). -/
theorem State.doCheckpoint_spec {s : State} {o : Order} {next : Nat} (hp : s.planOn = true) (hs : s.seeded = true)
    (h : s.order o.seq = some o) :
    (s.doCheckpoint o next).order o.seq = some { o with effect := some s.effectAt, phase := .executing } ∧
      (s.doCheckpoint o next).flag Fld.CKPT_STAT_IN_PROGRESS = true ∧
      ∃ x, (s.doCheckpoint o next).jrnl.transfers = s.jrnl.transfers ++ [x] ∧ x.seq = o.seq ∧ x.kind = 2 ∧
        x.policy = o.policy ∧ x.bytes = s.context s.ex.chain next false s.uncovered s.lastMode := by
  obtain ⟨w, hw, horders, htransfers⟩ := State.doCheckpoint_taken (next := next) (o := o) hp hs
  obtain ⟨hflag, hkept, x, hx, hspec⟩ :=
    w.startTransfer_spec (s.context s.ex.chain next false s.uncovered s.lastMode) o.seq o.policy
  rw [hw]
  generalize w.startTransfer _ _ _ _ = z at hflag hkept hx ⊢
  have horder : z.order o.seq = some { o with effect := some s.effectAt } :=
    (State.order_of_orders (hkept.trans horders) _).trans (State.order_takesEffect h)
  exact ⟨State.order_executing (o := { o with effect := some s.effectAt }) horder, hflag, x,
    hx.trans (congrArg (· ++ [x]) htransfers), hspec⟩

/-! ### QUIESCE -/

/-- A QUIESCE that has waited for its records completes (R267). -/
def State.doQuiesce (s : State) (o : Order) : State :=
  if fieldAt o.body 0 8 == 1 then (s.effectDone o 0).setFlag Fld.INTAKE_STAT_HELD true else s.effectDone o 0

theorem execQuiesce_due {t seq : Nat} {o : Order} {s : State} (h : s.executable seq 10 = some o) :
    exec (.quiesce t seq) s = .next (if s.allDurable then (s.tick t).doQuiesce o else s.tick t) := by
  show execQuiesce t seq s = _
  rw [execQuiesce, State.orderRow_due _ h]
  rfl

theorem State.doQuiesce_held (s : State) (o : Order) : (s.doQuiesce o).flag Fld.INTAKE_STAT_HELD =
    (fieldAt o.body 0 8 == 1 || s.flag Fld.INTAKE_STAT_HELD) := by
  obtain ⟨-, -, hregs⟩ := s.finishAs_rest o 2 0 0 true
  have hkept : (s.effectDone o 0).flag Fld.INTAKE_STAT_HELD = s.flag Fld.INTAKE_STAT_HELD := by
    rw [State.flag, State.fld, State.effectDone, hregs _ (by decide), State.flag, State.fld]
  unfold State.doQuiesce
  cases fieldAt o.body 0 8 == 1 with
  | true => exact State.flag_setFlag _ true (by decide) rfl
  | false => exact hkept

theorem State.doQuiesce_finished {s : State} {o : Order} (h : s.order o.seq = some o) :
    (s.doQuiesce o).finished o 2 0 0 := by
  refine State.finished_of_orders (State.finished_finishAs h 2 0 0 true) ?_
  unfold State.doQuiesce
  split <;> rfl

/-! ### ROW_SAMPLE -/

theorem execRowSample_due {t seq : Nat} {o : Order} {s : State} (h : s.executable seq 8 = some o)
    (hmay : s.rowMayStart o = true) : exec (.rowSample t seq) s = .next ((s.tick t).rowStart o) := by
  show execRowSample t seq s = _
  have hmay' : (s.tick t).rowMayStart o = true := hmay
  rw [execRowSample, State.when_due (by rw [State.executable_tick, h]; exact hmay'), State.executable_tick, h]

theorem State.rowStart_noCores {s : State} {o : Order} (hc : s.noRowCores = true) : s.rowStart o =
    s.rejectOrder o 0xA023 (s.plan.data.vUsed % 256 + s.plan.data.sUsed % 256 * 256) := by
  rw [State.rowStart, hc]
  rfl

theorem State.rowStart_noSeed {s : State} {o : Order} (hc : s.noRowCores = false) (hs : s.rowSeed o = none) :
    s.rowStart o = s.rejectOrder o 0xA022 0 := by
  rw [State.rowStart, hc, hs]
  rfl

/-- A ROW_SAMPLE whose seed resolves stands as a job that executes, and goes as far as it can (R115). -/
def State.startRow (s : State) (o : Order) (seed : W64) : State :=
  { s.executing o.seq with rows := s.rows ++ [⟨o.seq, seed, 0, crc64ecma.init⟩] }

theorem State.rowStart_go {s : State} {o : Order} {seed : W64} (hc : s.noRowCores = false)
    (hs : s.rowSeed o = some seed) : s.rowStart o = (s.startRow o seed).rowGo o.seq 2 := by
  rw [State.rowStart, hc, hs]
  rfl

/-- A ROW_SAMPLE whose first row has no mask asks the host for its scores (R115, R118). -/
theorem State.rowFetch_first {s : State} {seq slot addr len : Nat} (hlen : 0 < len) (hf : s.intake.fetches = [])
    (ha : s.intake.asked = []) : s.rowFetch seq [(slot, addr, len)] = (s.askHost seq slot addr len, none, none) := by
  have hwait : s.fetch seq slot addr len = .wait (s.askHost seq slot addr len) := by
    simp [State.fetch, hf, ha, hlen.ne']
  simp [State.rowFetch, hwait]

/-- The job of the only row order, at its first row. -/
theorem State.rowGo_first {s : State} {o : Order} {j : RowJob} {n : Nat} (hj : s.rows = [j]) (hq : j.seq = o.seq)
    (hrow : j.row = 0) (ho : s.order o.seq = some o) (hrows : 0 < fieldAt o.body 24 4) {w : State}
    (hw : s.rowFetch o.seq (rowReads o.body 0) = (w, none, none)) : s.rowGo o.seq (n + 1) = w := by
  have hfound : s.rows.find? (·.seq == o.seq) = some j := by simp [hj, hq]
  rw [State.rowGo, hfound, ho]
  dsimp only
  rw [hrow, if_neg (by omega), hw]

theorem rowReads_unmasked {b : List Byte} (h : fieldAt b 33 1 = 0) : rowReads b 0 =
    [(2, fieldAt b 0 8 % 2 ^ 64, fieldAt b 28 4 * rowSize (fieldAt b 32 1))] := by
  simp [rowReads, h]

theorem State.askHost_mastering {s : State} (h : s.ports.busMaster = true) (seq slot addr len : Nat) :
    s.askHost seq slot addr len = { s with
      intake := { s.intake with asked := s.intake.asked ++ [(seq, slot, addr, len)] }
      emitted := .hostRead seq slot addr len :: s.emitted } := if_pos h

/-- The only ROW_SAMPLE, without a mask, asks the host for the scores of its first row and waits (R115, R318). -/
theorem State.rowStart_asks {s : State} {o : Order} {seed : W64} (horder : s.order o.seq = some o)
    (hc : s.noRowCores = false) (hs : s.rowSeed o = some seed) (hrows : s.rows = []) (hf : s.intake.fetches = [])
    (ha : s.intake.asked = []) (hn : 0 < fieldAt o.body 24 4) (hmode : fieldAt o.body 33 1 = 0)
    (hlen : 0 < fieldAt o.body 28 4 * rowSize (fieldAt o.body 32 1)) : s.rowStart o =
      (s.startRow o seed).askHost o.seq 2 (fieldAt o.body 0 8 % 2 ^ 64)
        (fieldAt o.body 28 4 * rowSize (fieldAt o.body 32 1)) := by
  have hexec : (s.startRow o seed).order o.seq = some { o with phase := .executing } := State.order_executing horder
  have hjob : (s.startRow o seed).rows = [⟨o.seq, seed, 0, crc64ecma.init⟩] := by
    rw [State.startRow, hrows]
    rfl
  have hfetch := State.rowFetch_first (s := s.startRow o seed) (seq := o.seq) (slot := 2)
    (addr := fieldAt o.body 0 8 % 2 ^ 64) hlen hf ha
  rw [← rowReads_unmasked hmode] at hfetch
  rw [State.rowStart_go hc hs]
  exact State.rowGo_first (o := { o with phase := .executing }) hjob rfl rfl hexec hn hfetch

end Sys2Proof.Machine
end

section
/-! SUPPORT. RUN, CHECKPOINT, QUIESCE and ROW_SAMPLE, together. -/

namespace Sys2Proof.Machine

/-- Settles O54: each order is found to execute, and its row is what the order does in its cycle. -/
theorem runOrders : Obligations.RunOrders := by
  unfold Obligations.RunOrders
  intro t seq o s v executing
  refine ⟨?engaged, ?run, ?checkpoint, ?quiesce, ?sample⟩
  case engaged =>
    intro h heng
    rw [execRun_due h, if_pos heng]
  case run =>
    intro h heng first
    obtain ⟨horder, rfl⟩ := State.executable_order h
    rw [execRun_due h, if_neg (by simp [heng])]
    refine ⟨_, rfl, fun c p hc => ?_, fun hr => ?_⟩
    · obtain ⟨hfinished, hstept, -⟩ := State.rejectOrder_spec (s := v) horder c p
      rw [State.doRun_refused hc]
      exact ⟨hfinished, hstept⟩
    · obtain ⟨hrun, horders⟩ := State.doRun_started hr
      exact ⟨⟨_, (State.order_of_orders horders _).trans (State.order_takesEffect_executing (s := v) horder), rfl, rfl⟩,
        hrun⟩
  case checkpoint =>
    intro h
    obtain ⟨horder, rfl⟩ := State.executable_order h
    refine ⟨fun heng => ?_, fun heng => by rw [execCheckpoint_due h, if_pos heng]⟩
    rw [execCheckpoint_due h, if_neg (by simp [heng])]
    refine ⟨_, rfl, fun hr => ?_, fun hp hs => ?_⟩
    · obtain ⟨hfinished, -, htransfers⟩ := State.rejectOrder_spec (s := v) horder 0x101B 0
      rw [State.doCheckpoint_refused (s := v) hr]
      exact ⟨hfinished, htransfers⟩
    · obtain ⟨hexec, hrest⟩ := State.doCheckpoint_spec (next := v.idleNext) hp hs (s := v) horder
      refine ⟨⟨_, hexec, rfl, rfl⟩, ?_, hrest⟩
      rw [hexec]
      rfl
  case quiesce =>
    intro h
    obtain ⟨horder, rfl⟩ := State.executable_order h
    refine ⟨fun hd => by rw [execQuiesce_due h, if_neg (by simp [hd])], fun hd => ?_⟩
    rw [execQuiesce_due h, if_pos hd]
    exact ⟨_, rfl, State.doQuiesce_finished horder, v.doQuiesce_held o⟩
  case sample =>
    intro h hmay
    obtain ⟨horder, rfl⟩ := State.executable_order h
    rw [execRowSample_due h hmay]
    refine ⟨fun hc => ⟨_, rfl, ?_⟩, fun hc hs => ⟨_, rfl, ?_⟩, ?_⟩
    · rw [State.rowStart_noCores (s := v) hc]
      exact (State.rejectOrder_spec (s := v) horder _ _).1
    · rw [State.rowStart_noSeed (s := v) hc hs]
      exact (State.rejectOrder_spec (s := v) horder _ _).1
    · intro seed hc hs hrows hfetches hasked hmaster hn hmode hlen len addr
      refine ⟨_, rfl, ?_⟩
      rw [State.rowStart_asks (s := v) horder hc hs hrows hfetches hasked hn hmode hlen,
        State.askHost_mastering (s := v.startRow o seed) hmaster]
      refine ⟨⟨_, State.order_executing (s := v) horder, rfl, rfl⟩, ?_, ?_, rfl, rfl⟩
      · exact congrArg (· ++ [_]) hrows
      · exact congrArg (· ++ [_]) hasked

end Sys2Proof.Machine
end

section
/-! SUPPORT. What goes out on the journal ports: an event adds nothing to it (R281, R390, R424). -/

namespace Sys2Proof.Machine

/-- A frame on a journal port. -/
def Emission.onJournal : Emission → Bool
  | .journal _ _ => true
  | _ => false

/-- The frames that have gone out on the journal ports. -/
def State.journalOut (s : State) : List Emission := s.emitted.filter Emission.onJournal

theorem State.mem_journalOut {s : State} {port : Nat} {b : List Byte} :
    Emission.journal port b ∈ s.journalOut ↔ Emission.journal port b ∈ s.emitted := by
  simp [State.journalOut, Emission.onJournal]

theorem State.journalOut_congr {s u : State} (h : u.emitted = s.emitted) : u.journalOut = s.journalOut := by
  rw [State.journalOut, h, State.journalOut]

@[simp ↓] theorem State.journalOut_emit (s : State) {e : Emission} (h : e.onJournal = false) :
    (s.emit e).journalOut = s.journalOut := List.filter_cons_of_neg (by simp [h])

@[simp ↓] theorem State.journalOut_ite {c : Prop} [Decidable c] (a b : State) :
    (if c then a else b).journalOut = if c then a.journalOut else b.journalOut := by split <;> rfl

@[simp ↓] theorem State.journalOut_foldl {α : Type} {f : State → α → State}
    (h : ∀ s a, (f s a).journalOut = s.journalOut) (l : List α) (s : State) :
    (l.foldl f s).journalOut = s.journalOut := by
  induction l generalizing s with
  | nil => rfl
  | cons a l ih => rw [List.foldl_cons, ih, h]

/-! ### Messages and journal frames -/

@[simp ↓] theorem State.journalOut_sendVector (s : State) (i : Nat) : (s.sendVector i).journalOut = s.journalOut := by
  unfold State.sendVector
  split
  · split
    · split
      · rfl
      · exact State.journalOut_emit s rfl
    · rfl
  · rfl

@[simp ↓] theorem State.journalOut_setCause (s : State) (i : Nat) : (s.setCause i).journalOut = s.journalOut := by
  unfold State.setCause
  dsimp only
  split
  · rfl
  · split
    · exact State.journalOut_sendVector _ i
    · rfl

/-- A frame that is formed waits in the rings. -/
@[simp ↓] theorem State.journalOut_addFrameRaw (s : State) (typ : Nat) (lastPart : Bool) (orderSeq policy : Nat)
    (bs : List Byte) : (s.addFrameRaw typ lastPart orderSeq policy bs).journalOut = s.journalOut := by
  unfold State.addFrameRaw
  split <;> rfl

@[simp ↓] theorem State.journalOut_setFld (s : State) (f : Field) (n : Nat) :
    (s.setFld f n).journalOut = s.journalOut := rfl

@[simp ↓] theorem State.journalOut_newSegment (s : State) : s.newSegment.journalOut = s.journalOut := by
  have hseg : ∀ (v : State) (n : Nat), State.journalOut { v with jrnl := { v.jrnl with segFirst := n, segBytes := 0 } } =
      v.journalOut := fun _ _ => rfl
  dsimp only [State.newSegment]
  simp [↓hseg]

@[simp ↓] theorem State.journalOut_addFrame (s : State) (typ : Nat) (lastPart : Bool) (orderSeq policy : Nat)
    (bs : List Byte) : (s.addFrame typ lastPart orderSeq policy bs).journalOut = s.journalOut := by
  dsimp only [State.addFrame, State.showUsed]
  simp

/-! ### Belfry and the durability policy -/

@[simp ↓] theorem State.journalOut_recapture (s : State) : s.recapture.journalOut = s.journalOut := by
  have hput : ∀ (v : State) (p : Port) (c : Capture), (v.putCapture p c).journalOut = v.journalOut := fun _ _ _ => rfl
  dsimp only [State.recapture]
  simp [↓hput]

@[simp ↓] theorem State.journalOut_storeRecord (s : State) (r : List Byte) :
    (s.storeRecord r).journalOut = s.journalOut := by
  have hcount : ∀ v : State, v.countWrote.journalOut = v.journalOut := fun _ => rfl
  have hmram : ∀ (v : State) (m : Mram), State.journalOut { v with mram := m } = v.journalOut := fun _ _ => rfl
  dsimp only [State.storeRecord]
  simp [↓hcount, ↓hmram]

/-- An alert leaves as a platform event. -/
@[simp ↓] theorem State.journalOut_writeRecord (s : State) (code : Nat) (r : List Byte) :
    (s.writeRecord code r).journalOut = s.journalOut := by
  have hcount : ∀ v : State, v.countWrote.journalOut = v.journalOut := fun _ => rfl
  have hbel : ∀ (v : State) (b : BelfrySt), State.journalOut { v with bel := b } = v.journalOut := fun _ _ => rfl
  have hmgmt : ∀ (v : State) (m : MgmtSt), State.journalOut { v with mgmt := m } = v.journalOut := fun _ _ => rfl
  have hinc : ∀ (v : State) (f : Field), (v.incFld f).journalOut = v.journalOut := fun _ _ => rfl
  have hmax : ∀ (v : State) (f : Field) (n : Nat), (v.maxFld f n).journalOut = v.journalOut := fun _ _ _ => rfl
  have hevent : (Emission.platformEvent r).onJournal = false := rfl
  dsimp only [State.writeRecord]
  simp [↓hcount, ↓hbel, ↓hmgmt, ↓hinc, ↓hmax, hevent]

@[simp ↓] theorem State.journalOut_setBucket (s : State) (b : Bucket) : (s.setBucket b).journalOut = s.journalOut := rfl

@[simp ↓] theorem State.journalOut_refillFirst (s : State) : s.refillFirst.journalOut = s.journalOut := by
  have hall : s.refillAll.journalOut = s.journalOut := rfl
  have hsum : ∀ (v : State) (code : Nat), (v.summary code).journalOut = v.journalOut := fun v code => by
    dsimp only [State.summary]
    simp
  simp [State.refillFirst, State.summaries, hall, hsum]

@[simp ↓] theorem State.journalOut_record (s : State) (code payload : Nat) (src : Source) :
    (s.record code payload src).journalOut = s.journalOut := by
  dsimp only [State.record]
  simp

@[simp ↓] theorem State.journalOut_checkPolicy (s : State) : s.checkPolicy.journalOut = s.journalOut := by
  have hshort : ∀ (v : State) (b : Bool), State.journalOut { v with jrnl := { v.jrnl with short := b } } =
      v.journalOut := fun _ _ => rfl
  have hflag : ∀ (v : State) (f : Field) (b : Bool), (v.setFlag f b).journalOut = v.journalOut := fun _ _ _ => rfl
  dsimp only [State.checkPolicy]
  simp [↓hshort, ↓hflag]

end Sys2Proof.Machine
end

section
/-! SUPPORT. The scope: training of a journal port, asked for by its light or by software, and the answer to it (R274, R282,
R283). -/

namespace Sys2Proof.Machine

/-! ### TRAIN goes out -/

/-- A port is TRAINING: nothing waits on it, and TRAIN has gone out. -/
def State.trains (s : State) (port : Nat) : Prop :=
  s.fld (jState port) = 2 ∧ (s.jport port).queue = [] ∧ ∃ b, Emission.journal port b ∈ s.emitted ∧ fieldAt b 3 1 = 0x0E

/-- TRAIN as a port sends it. -/
def State.trainFrame (s : State) (port : Nat) : List Byte :=
  wireFrame 0x0E 0 port 0 s.stepNow (s.fld Fld.JRNL_STAT_SEGMENT) s.fuse.serial 0 s.phi
    (natLe (s.fld Fld.JRNL_NEXT_FSEQ_FSEQ) 8 ++ natLe s.oldestFseq 8 ++ natLe (s.fld Fld.JRNL_STAT_SEGMENT) 4 ++ zeros 12)

theorem fieldAt_wireFrame_typ (flags port fseq step segment serial orderSeq phase : Nat) {typ : Nat} (bs : List Byte)
    (h : typ < 256) : fieldAt (wireFrame typ flags port fseq step segment serial orderSeq phase bs) 3 1 = typ := by
  simp [wireFrame, fieldAt, slice, natLe, leNat, Nat.mod_eq_of_lt h]

/-- A port that has forgotten its partner and is TRAINING, the policy not yet looked at. -/
def State.toTrain (s : State) (port : Nat) : State := (s.onPort port fun _ => JPort.reset).setFld (jState port) 2

theorem State.startTraining_eq (s : State) (port : Nat) : ∃ b, fieldAt b 3 1 = 0x0E ∧
    s.startTraining port = (s.toTrain port).checkPolicy.emit (.journal port b) := by
  refine ⟨_, ?_, rfl⟩
  exact fieldAt_wireFrame_typ _ _ _ _ _ _ _ _ _ (by decide)

theorem State.idlePort_startTraining (s : State) (port k : Nat) :
    (s.startTraining port).idlePort k = (s.toTrain port).idlePort k := by
  obtain ⟨b, -, he⟩ := s.startTraining_eq port
  rw [he, State.idlePort_emit, State.idlePort_checkPolicy]

theorem State.trains_startTraining (s : State) (port : Nat) : (s.startTraining port).trains port := by
  obtain ⟨hlo, hw, -⟩ := jport_fields port
  obtain ⟨b, htyp, he⟩ := s.startTraining_eq port
  have hst : (s.toTrain port).fld (jState port) = 2 := State.fld_setFld_of_lt _ hlo (by rw [hw]; decide)
  obtain ⟨hp, hdown⟩ := State.jport_of_idlePort
    ((s.idlePort_startTraining port port).trans (State.idlePort_of_down hst (by decide)))
  refine ⟨hdown, ?_, b, ?_, htyp⟩
  · have hreset : (s.toTrain port).jport port = JPort.reset := s.jport_onPort port fun _ => JPort.reset
    rw [hp, hreset]
    rfl
  · rw [he]
    exact List.mem_cons_self ..

/-- The states of two journal ports lie apart. -/
theorem jState_apart {port k : Nat} (hport : port < 2) (hk : k < 2) (h : k ≠ port) :
    (jState port).apart (jState k) = true := by
  obtain ⟨rfl, rfl⟩ | ⟨rfl, rfl⟩ : port = 0 ∧ k = 1 ∨ port = 1 ∧ k = 0 := by omega
  all_goals rfl

theorem State.idlePort_startTraining_other (s : State) {port k : Nat} (hport : port < 2) (hk : k < 2) (h : k ≠ port) :
    (s.startTraining port).idlePort k = s.idlePort k := by
  obtain ⟨hlo, -⟩ := jport_fields port
  rw [State.idlePort_startTraining]
  refine State.idlePort_congr (State.fld_setFld_of_apart _ _ hlo (jState_apart hport hk h)) fun _ => ?_
  rw [show k = 1 - port by omega]
  exact s.jport_onPort_other (fun _ => JPort.reset) hport

/-- A port that trains goes on while the other begins to. -/
theorem State.trains.startTraining {s : State} {port k : Nat} (h : s.trains k) (hport : port < 2) (hk : k < 2)
    (hne : k ≠ port) : (s.startTraining port).trains k := by
  obtain ⟨hst, hq, b, hb, htyp⟩ := h
  have hview := (s.idlePort_startTraining_other hport hk hne).trans (State.idlePort_of_down hst (by decide))
  obtain ⟨hp, hdown⟩ := State.jport_of_idlePort hview
  refine ⟨hdown, by rw [hp, hq], b, ?_, htyp⟩
  obtain ⟨c, -, he⟩ := s.startTraining_eq port
  have hout : (s.toTrain port).checkPolicy.journalOut = s.journalOut :=
    (State.journalOut_checkPolicy _).trans (State.journalOut_congr (by unfold State.toTrain State.onPort; split <;> rfl))
  rw [he]
  exact List.mem_cons_of_mem _ (State.mem_journalOut.mp (by rw [hout]; exact State.mem_journalOut.mpr hb))

theorem State.configs_startTraining (s : State) (port : Nat) :
    (s.startTraining port).jrnl.configs = s.jrnl.configs := by
  obtain ⟨b, -, he⟩ := s.startTraining_eq port
  have hpolicy := congrArg (fun x => x.2.jrnl.configs) (State.uneventful_checkPolicy (s.toTrain port))
  rw [he, State.emit_jrnl]
  refine hpolicy.trans ?_
  show (s.onPort port fun _ => JPort.reset).jrnl.configs = _
  rw [State.onPort_rest]

theorem State.optJ_startTraining (s : State) (port : Nat) : (s.startTraining port).optJ = s.optJ := by
  obtain ⟨b, -, he⟩ := s.startTraining_eq port
  have hpolicy := State.reg_of_uneventful (State.uneventful_checkPolicy (s.toTrain port)) (r := .DEV_GRADE) (by decide)
  have hstat : (jState port).reg = .JRNL_STAT := by unfold jState; split <;> rfl
  have hreg : (s.startTraining port).reg .DEV_GRADE = s.reg .DEV_GRADE := by
    rw [he, State.emit_reg, hpolicy, State.reg_showPolicy (by decide), State.toTrain,
      State.reg_setFld_ne _ _ (by rw [hstat]; decide), State.onPort_reg]
  rw [State.optJ, State.flag, State.fld, show Fld.DEV_GRADE_OPT_J.reg = .DEV_GRADE from rfl, hreg]
  rfl

/-! ### JRNL_CTL.RETRAIN -/

/-- One RETRAIN bit of a write to JRNL_CTL. -/
def State.retrain (s : State) (a : RegAcc) (port : Nat) : State :=
  if accSets a (jRetrain port) && s.optJ && s.fld (jState port) != 0 then (s.swSet (jRetrain port)).startTraining port
  else s

theorem State.jrnlCtl_eq (s : State) (a : RegAcc) : s.jrnlCtl a =
    (((s.writeFields .JRNL_CTL a).noteConfig .JRNL_CTL a.port.source).retrain a 0).retrain a 1 := rfl

/-- A RETRAIN bit that software sets leaves the ports, the journal and the grade of the part. -/
theorem State.swSet_retrain (s : State) (port k : Nat) : (s.swSet (jRetrain port)).optJ = s.optJ ∧
    (s.swSet (jRetrain port)).idlePort k = s.idlePort k ∧ (s.swSet (jRetrain port)).journalOut = s.journalOut := by
  have hoff : (jRetrain port).offPorts = true ∧ (jRetrain port).reg ≠ .DEV_GRADE := by
    unfold jRetrain
    split <;> decide
  refine ⟨?_, s.idlePort_setFlag true k hoff.1, rfl⟩
  exact congrArg (· == 1) (State.fld_setFld_ne s _ hoff.2.symm)

theorem State.fld_jState_of_idlePort {s u : State} {port : Nat} (h : u.idlePort port = s.idlePort port) :
    u.fld (jState port) = s.fld (jState port) := congrArg Prod.fst h

/-- A RETRAIN bit starts no training, or training of its port alone (R282). -/
theorem State.retrain_cases (s : State) (a : RegAcc) (port : Nat) :
    s.retrain a port = s ∨ s.retrain a port = (s.swSet (jRetrain port)).startTraining port := by
  unfold State.retrain
  split
  · exact .inr rfl
  · exact .inl rfl

theorem State.trains_retrain {s : State} {a : RegAcc} {port : Nat} (hj : s.optJ = true)
    (hst : s.fld (jState port) ≠ 0) (ha : accSets a (jRetrain port) = true) : (s.retrain a port).trains port := by
  rw [State.retrain, if_pos (by simp [hj, hst, ha])]
  exact State.trains_startTraining _ port

/-- What the RETRAIN bit of another port leaves. -/
theorem State.retrain_other (s : State) (a : RegAcc) {port k : Nat} (hport : port < 2) (hk : k < 2) (h : k ≠ port) :
    (s.retrain a port).optJ = s.optJ ∧ (s.retrain a port).fld (jState k) = s.fld (jState k) ∧
      (s.trains k → (s.retrain a port).trains k) := by
  obtain ⟨hj, hview, hout⟩ := s.swSet_retrain port k
  rcases s.retrain_cases a port with he | he
  · rw [he]
    exact ⟨rfl, rfl, id⟩
  · rw [he]
    refine ⟨(State.optJ_startTraining _ port).trans hj, ?_, fun ⟨hst, hq, b, hb, htyp⟩ => ?_⟩
    · exact State.fld_jState_of_idlePort ((State.idlePort_startTraining_other _ hport hk h).trans hview)
    · obtain ⟨hp, hst'⟩ := State.jport_of_idlePort (hview.trans (State.idlePort_of_down hst (by decide)))
      exact State.trains.startTraining ⟨hst', by rw [hp, hq], b, hb, htyp⟩ hport hk h

theorem State.configs_retrain (s : State) (a : RegAcc) (port : Nat) :
    (s.retrain a port).jrnl.configs = s.jrnl.configs := by
  rcases s.retrain_cases a port with he | he
  · rw [he]
  · rw [he, State.configs_startTraining]
    rfl

@[simp ↓] theorem State.idlePort_noteConfig (s : State) (r : Reg) (src : Source) (port : Nat) :
    (s.noteConfig r src).idlePort port = s.idlePort port := State.idlePort_record (s.noteOwn r) Config.configCode 0 src port

/-- The fields of JRNL_CTL written and noted: the ports and the grade of the part stay. -/
theorem State.noted_jrnlCtl (s : State) (a : RegAcc) {v : State}
    (hv : v = (s.writeFields .JRNL_CTL a).noteConfig .JRNL_CTL a.port.source) :
    v.optJ = s.optJ ∧ (∀ port, v.fld (jState port) = s.fld (jState port)) ∧
      ∃ c ∈ v.jrnl.configs, c.offset = Reg.JRNL_CTL.offset := by
  have hview : v.uneventful = ((s.writeFields .JRNL_CTL a).noteOwn .JRNL_CTL).uneventful :=
    hv ▸ State.uneventful_noteConfig ..
  refine ⟨?_, fun port => ?_, ?_⟩
  · have hgrade : v.reg .DEV_GRADE = s.reg .DEV_GRADE :=
      (State.reg_of_uneventful hview (by decide)).trans (State.reg_writeFields_ne (by decide))
    exact congrArg (fun w : W64 => bitsOf w.toNat Fld.DEV_GRADE_OPT_J.lo Fld.DEV_GRADE_OPT_J.w == 1) hgrade
  · have hstat : (jState port).reg ≠ .JRNL_CTL := by unfold jState; split <;> decide
    have hports : v.idlePort port = (s.writeFields .JRNL_CTL a).idlePort port := hv ▸ State.idlePort_noteConfig ..
    exact (State.fld_jState_of_idlePort hports).trans (State.fld_writeFields_ne hstat)
  · have hconfigs : v.jrnl.configs = _ := congrArg (fun x => x.2.jrnl.configs) hview
    rw [hconfigs]
    exact ⟨_, List.mem_cons_self .., rfl⟩

theorem State.jrnlCtl_trains {s : State} {a : RegAcc} {port : Nat} (hport : port < 2) (hj : s.optJ = true)
    (hst : s.fld (jState port) ≠ 0) (ha : accSets a (jRetrain port) = true) : (s.jrnlCtl a).trains port ∧
      ∃ c ∈ (s.jrnlCtl a).jrnl.configs, c.offset = Reg.JRNL_CTL.offset := by
  obtain ⟨hgrade, hports, hnoted⟩ := s.noted_jrnlCtl a rfl
  rw [State.jrnlCtl_eq, State.configs_retrain, State.configs_retrain]
  generalize (s.writeFields .JRNL_CTL a).noteConfig .JRNL_CTL a.port.source = v at hgrade hports hnoted ⊢
  refine ⟨?_, hnoted⟩
  rw [hj] at hgrade
  rw [← hports] at hst
  obtain rfl | rfl : port = 0 ∨ port = 1 := by omega
  · obtain ⟨-, -, hkept⟩ := (v.retrain a 0).retrain_other a (port := 1) (k := 0) (by decide) (by decide) (by decide)
    exact hkept (State.trains_retrain hgrade hst ha)
  · obtain ⟨hj', hst', -⟩ := v.retrain_other a (port := 0) (k := 1) (by decide) (by decide) (by decide)
    exact State.trains_retrain (hj'.trans hgrade) (hst' ▸ hst) ha

/-! ### The reply to TRAIN -/

/-- A port whose partner is answered with the frames of `queue`, and misses no others. -/
def JPort.trained (p : JPort) (queue : List (Nat × Bool)) (credit now : Nat) : JPort := { p with
  queue := queue, unacked := [], credit := credit, used := 0, expiries := 0, advanced := now, resync := none }

/-- The kept frames that a partner has not stored, to be sent again. -/
def State.resendAfter (s : State) (last : Nat) : List (Nat × Bool) :=
  (s.jrnl.frames.filter fun f => decide (last < f.fseq)).map fun f => (f.fseq, true)

/-- A port that is UP with the frames that its partner misses, the policy not yet looked at. -/
def State.toUp (s : State) (port last credit : Nat) : State :=
  ((s.onPort port fun p => p.trained (s.resendAfter last) credit s.now).setFlag (jRetrain port) false).setFld
    (jState port) 3

section
variable {port last credit : Nat} {s : State}

theorem State.trained_noGap (h : s.jrnl.frames = [] ∨ s.oldestFseq ≤ last + 1) :
    s.trained port last credit = (s.toUp port last credit).checkPolicy := by
  have hgap : (!s.jrnl.frames.isEmpty && decide (last + 1 < s.oldestFseq)) = false := by
    rcases h with h | h
    · simp [h]
    · simp [Nat.not_lt.mpr h]
  rw [State.trained, hgap]
  rfl

theorem State.toUp_spec : (s.toUp port last credit).fld (jState port) = 3 ∧
    (s.toUp port last credit).jport port = (s.jport port).trained (s.resendAfter last) credit s.now := by
  obtain ⟨hlo, hw, -⟩ := jport_fields port
  exact ⟨State.fld_setFld_of_lt _ hlo (by rw [hw]; decide),
    s.jport_onPort port fun p => p.trained (s.resendAfter last) credit s.now⟩

theorem State.policyNow_toUp : (s.toUp port last credit).policyNow = s.policyNow := by
  have hregs : (jRetrain port).reg ≠ .DURABILITY_POLICY ∧ (jState port).reg ≠ .DURABILITY_POLICY := by
    unfold jRetrain jState
    split <;> decide
  obtain ⟨hretrain, hstate⟩ := hregs
  exact (State.fld_setFld_ne _ _ hstate.symm).trans
    ((State.fld_setFld_ne _ _ hretrain.symm).trans (State.onPort_fld ..))

/-- A policy that one port meets is met by the port that comes up. -/
theorem State.toUp_met (hport : port < 2) (hpol : s.policyNow ≤ 1) : (s.toUp port last credit).policyShort = false := by
  obtain ⟨hst, hp⟩ := State.toUp_spec (s := s) (port := port) (last := last) (credit := credit)
  have hcounts : (s.toUp port last credit).portUp port = true := by
    rw [State.portUp, hst, hp]
    rfl
  have hup : 1 ≤ (s.toUp port last credit).portsUp := by
    rw [State.portsUp]
    obtain rfl | rfl : port = 0 ∨ port = 1 := by omega
    · rw [hcounts]
      exact Nat.le_add_right ..
    · rw [hcounts]
      exact Nat.le_add_left ..
  rw [State.policyShort, State.policyNow_toUp, decide_eq_false_iff_not]
  omega

/-- A partner with no gap takes its port UP, and no event follows under a policy that one port meets (R282). -/
theorem State.trained_spec (hport : port < 2) (hgap : s.jrnl.frames = [] ∨ s.oldestFseq ≤ last + 1)
    (hpol : s.policyNow ≤ 1) : (s.trained port last credit).fld (jState port) = 3 ∧
      (s.trained port last credit).jport port = (s.jport port).trained (s.resendAfter last) credit s.now ∧
      (s.trained port last credit).boot = s.boot := by
  obtain ⟨hst, hp⟩ := State.toUp_spec (s := s) (port := port) (last := last) (credit := credit)
  have hstat : (jState port).reg = .JRNL_STAT := by unfold jState; split <;> rfl
  rw [State.trained_noGap hgap, State.checkPolicy_met (State.toUp_met hport hpol)]
  refine ⟨?_, hp, ?_⟩
  · rw [State.setFlag, State.fld_setFld_ne _ _ (by rw [hstat]; decide), State.setFlag,
      State.fld_setFld_ne _ _ (by rw [hstat]; decide)]
    exact hst
  · rw [State.setFlag_boot, State.setFlag_boot, State.toUp, State.setFld_boot, State.setFlag_boot, State.onPort_boot]

end

/-! ### The rows -/

theorem execJournalLinkUp_fitted {t port : Nat} {s : State} (hport : port < 2) (hup : s.cUp = true) (hj : s.optJ = true) (hst : s.fld (jState port) ≠ 0) :
    exec (.journalLinkUp t port) s = .next ((s.tick t).startTraining port) := by
  show execJournalLinkUp t port s = _
  rw [execJournalLinkUp, if_neg (by omega), State.when_due]
  simp [hup, hst, show (s.tick t).optJ = true from hj]

theorem execJrnlRetrain_reached {t : Nat} {a : RegAcc} {s : State} (h : s.reach a.port .JRNL_CTL = true) :
    exec (.jrnlRetrain t a) s = .next ((s.tick t).jrnlCtl a) :=
  State.access_reached (f := fun s => s.jrnlCtl a) h

theorem execTrainReply_good {t port : Nat} {b : List Byte} {s : State} (hport : port < 2) (hup : s.cUp = true)
    (hst : s.fld (jState port) = 2) (hok : wireOk b = true) (htyp : fieldAt b 3 1 = 0x12)
    (hsw : (s.tick t).swNow (jRetrain port) = false) (hwarm : s.boot.recovering ≠ some .warm)
    (hcold : s.boot.recovering ≠ some .cold)
    (hboot : ((s.tick t).trained port (fieldAt b 64 8) (fieldAt b 72 8)).boot = s.boot) :
    exec (.trainReply t port b) s = .next ((s.tick t).trained port (fieldAt b 64 8) (fieldAt b 72 8)) := by
  show execTrainReply t port b s = _
  rw [execTrainReply, if_neg (by omega), State.when_due (by simp [hup, hst]), State.checkReturn_good hok htyp]
  dsimp only
  rw [if_neg (by simp [hsw]), hboot, if_neg (by simp [hwarm, hcold])]

/-- Settles O40: TRAINING is what starting it leaves, which the notes of JRNL_CTL and the other port's training keep, and a
partner with no gap takes its port UP with no event. -/
theorem journalTraining : Obligations.JournalTraining := by
  unfold Obligations.JournalTraining
  intro t port s hport hup training
  refine ⟨fun hj hst => ⟨_, execJournalLinkUp_fitted hport hup hj hst, State.trains_startTraining _ port⟩,
    fun a hreach hj hst ha => ?retrain, fun b hst hok htyp hsw hwarm hcold hgap hpol => ?reply⟩
  case retrain =>
    obtain ⟨htrains, c, hc, hoff⟩ := State.jrnlCtl_trains (s := s.tick t) hport hj hst ha
    exact ⟨_, c, execJrnlRetrain_reached hreach, htrains, hc, hoff⟩
  case reply =>
    obtain ⟨hup', hp, hboot⟩ := State.trained_spec (s := s.tick t) (credit := fieldAt b 72 8) hport hgap hpol
    refine ⟨_, execTrainReply_good hport hup hst hok htyp hsw hwarm hcold hboot, hup', ?_⟩
    rw [hp]
    exact ⟨rfl, rfl, rfl, rfl⟩

end Sys2Proof.Machine
end

section
/-! SUPPORT. Mode and load balancing taken (R242, R243): what the registers show, and the notes that follow. -/

namespace Sys2Proof.Machine

/-! ### What the registers show -/

/-- Mode and load balancing as their registers show them. -/
def State.showMode (s : State) (m l : Bool) : State :=
  (((s.setFlag Fld.MODE_CTL_MODE m).setFlag Fld.LOAD_BALANCE_ENABLE l).setFlag Fld.MODE_STAT_MODE m).setFlag
    Fld.MODE_STAT_LB_ACTIVE (m && l)

/-- A change of mode is dated with the step from which it applies, which the next step shows (R243). -/
def State.dateMode (s : State) (same : Bool) : State :=
  if same then s
  else { s.setFld Fld.MODE_SINCE_STEP s.modeFrom with dig := { s.dig with sinceDue := true } }

/-- Mode and load balancing taken, nothing noted yet. -/
def State.takeMode (s : State) (m l : Bool) : State :=
  if m then (s.showMode m l).dateMode (m == s.flag Fld.MODE_STAT_MODE)
  else ((s.showMode m l).dateMode (m == s.flag Fld.MODE_STAT_MODE)).homeParcels

/-- The four bits that show a mode and load balancing. -/
def State.showsMode (s : State) (m l : Bool) : Prop :=
  s.flag Fld.MODE_CTL_MODE = m ∧ s.flag Fld.LOAD_BALANCE_ENABLE = l ∧ s.flag Fld.MODE_STAT_MODE = m ∧
    s.flag Fld.MODE_STAT_LB_ACTIVE = (m && l)

theorem State.showsMode_showMode (s : State) (m l : Bool) : (s.showMode m l).showsMode m l := by
  have hlast : ∀ (v : State) (f : Field), Fld.MODE_STAT_LB_ACTIVE.apart f = true →
      (v.setFlag Fld.MODE_STAT_LB_ACTIVE (m && l)).flag f = v.flag f := fun v _ hf =>
    v.flag_setFlag_of_apart _ (by decide) hf
  have hstat : ∀ (v : State) (f : Field), Fld.MODE_STAT_MODE.apart f = true →
      (v.setFlag Fld.MODE_STAT_MODE m).flag f = v.flag f := fun v _ hf => v.flag_setFlag_of_apart _ (by decide) hf
  refine ⟨?_, ?_, ?_, State.flag_setFlag _ _ (by decide) rfl⟩
  · rw [State.showMode, hlast _ _ rfl, hstat _ _ rfl, State.flag_setFlag_of_apart _ _ (by decide) rfl]
    exact State.flag_setFlag _ _ (by decide) rfl
  · rw [State.showMode, hlast _ _ rfl, hstat _ _ rfl]
    exact State.flag_setFlag _ _ (by decide) rfl
  · rw [State.showMode, hlast _ _ rfl]
    exact State.flag_setFlag _ _ (by decide) rfl

theorem State.keeps_showMode (s : State) (m l : Bool) :
    State.keeps s (s.showMode m l) [.MODE_CTL, .MODE_STAT, .LOAD_BALANCE] :=
  (((s.keeps_setFlag m (by decide)).trans (State.keeps_setFlag _ l (by decide))).trans
    (State.keeps_setFlag _ m (by decide))).trans (State.keeps_setFlag _ _ (by decide))

theorem State.showsMode_congr {s u : State} {m l : Bool} (h : s.showsMode m l)
    (hr : ∀ r ∈ [Reg.MODE_CTL, .MODE_STAT, .LOAD_BALANCE], u.reg r = s.reg r) : u.showsMode m l := by
  have hflag : ∀ f : Field, f.reg ∈ [Reg.MODE_CTL, .MODE_STAT, .LOAD_BALANCE] → u.flag f = s.flag f := fun f hf => by
    rw [State.flag, State.fld, hr _ hf, State.flag, State.fld]
  obtain ⟨h1, h2, h3, h4⟩ := h
  exact ⟨(hflag _ (by decide)).trans h1, (hflag _ (by decide)).trans h2, (hflag _ (by decide)).trans h3,
    (hflag _ (by decide)).trans h4⟩

/-! ### The date of a change -/

theorem State.modeFrom_congr {s u : State} (hrun : u.stept.run = s.stept.run)
    (hr : ∀ r ∈ [Reg.RUN_NEXT_STEP, .STEP_NOW], u.reg r = s.reg r) : u.modeFrom = s.modeFrom := by
  unfold State.modeFrom State.stepNow State.fld
  rw [hrun, hr _ (by decide), show Fld.RUN_NEXT_STEP_STEP.reg = Reg.RUN_NEXT_STEP from rfl,
    show Fld.STEP_NOW_STEP.reg = Reg.STEP_NOW from rfl, hr _ (by decide), hr _ (by decide)]

theorem State.keeps_dateMode (s : State) (same : Bool) : State.keeps s (s.dateMode same) [.MODE_SINCE] := by
  cases same with
  | true => exact State.keeps_refl s _
  | false => exact State.keeps_setFld s (f := Fld.MODE_SINCE_STEP) _ (by decide)

theorem State.dateMode_rest (s : State) (same : Bool) : s.dateMode same = { s with
    regs := (s.dateMode same).regs, dig := { s.dig with sinceDue := s.dig.sinceDue || !same } } := by
  cases same with
  | true =>
    show s = _
    rw [Bool.not_true, Bool.or_false]
    rfl
  | false =>
    rw [Bool.not_false, Bool.or_true]
    rfl

/-! ### Both taken -/

theorem State.reg_takeMode (s : State) (m l : Bool) (r : Reg) :
    (s.takeMode m l).reg r = ((s.showMode m l).dateMode (m == s.flag Fld.MODE_STAT_MODE)).reg r := by
  cases m <;> rfl

theorem State.keeps_takeMode (s : State) (m l : Bool) :
    State.keeps s (s.takeMode m l) [.MODE_CTL, .MODE_STAT, .LOAD_BALANCE, .MODE_SINCE] := fun r hr => by
  simp only [List.mem_cons, List.not_mem_nil, or_false, not_or] at hr
  obtain ⟨h1, h2, h3, h4⟩ := hr
  rw [State.reg_takeMode, State.keeps_dateMode _ _ r (by simp [h4]), s.keeps_showMode m l r (by simp [h1, h2, h3])]

theorem State.showsMode_takeMode (s : State) (m l : Bool) : (s.takeMode m l).showsMode m l := by
  refine State.showsMode_congr (s.showsMode_showMode m l) fun r hr => ?_
  rw [State.reg_takeMode, State.keeps_dateMode _ _ r fun h => ?_]
  rw [List.mem_singleton.mp h] at hr
  exact absurd hr (by decide)

theorem State.modeFrom_takeMode (s : State) (m l : Bool) : (s.takeMode m l).modeFrom = s.modeFrom := by
  refine State.modeFrom_congr ?_ fun r hr => s.keeps_takeMode m l r fun h => ?_
  · have hrun := congrArg (fun x : State => x.stept.run)
      ((s.showMode m l).dateMode_rest (m == s.flag Fld.MODE_STAT_MODE))
    cases m <;> exact hrun
  · have hnone : ∀ q ∈ [Reg.RUN_NEXT_STEP, .STEP_NOW], q ∉ [Reg.MODE_CTL, .MODE_STAT, .LOAD_BALANCE, .MODE_SINCE] := by
      decide
    exact hnone r hr h

/-- Throughput mode taken leaves the plan, and of the rest but the date alone. -/
theorem State.takeMode_throughput (s : State) (l : Bool) : s.takeMode true l = { s with
    regs := (s.takeMode true l).regs
    dig := { s.dig with sinceDue := s.dig.sinceDue || !s.flag Fld.MODE_STAT_MODE } } := by
  have hrest := (s.showMode true l).dateMode_rest (true == s.flag Fld.MODE_STAT_MODE)
  rw [Bool.true_beq] at hrest
  rw [State.takeMode, if_pos rfl, Bool.true_beq]
  exact hrest

/-- A mode that is not new has no new date. -/
theorem State.takeMode_same {s : State} {m : Bool} (l : Bool) (h : s.flag Fld.MODE_STAT_MODE = m) :
    State.keeps s (s.takeMode m l) [.MODE_CTL, .MODE_STAT, .LOAD_BALANCE] := fun r hr => by
  rw [State.reg_takeMode, h, beq_self_eq_true]
  exact s.keeps_showMode m l r hr

/-- Replay mode taken puts every parcel where the plan puts it (R242). -/
theorem State.takeMode_replay (s : State) (l : Bool) : (s.takeMode false l).plan.shape.place = s.plan.home.place := by
  have hplan : ((s.showMode false l).dateMode (false == s.flag Fld.MODE_STAT_MODE)).plan = s.plan := by
    rw [State.dateMode_rest]
    rfl
  rw [State.takeMode, if_neg (by decide)]
  show ((s.showMode false l).dateMode (false == s.flag Fld.MODE_STAT_MODE)).plan.home.place = _
  rw [hplan]

/-! ### The notes -/

/-- A register of modes, when it was written, is noted at the step from which it applies. -/
def State.noteMode (s : State) (r : Reg) (written : Bool) (src : Source) : State :=
  if written then s.noteChange r.offset (s.reg r).toNat s.modeFrom 0 src else s

theorem State.uneventful_noteMode (s : State) (r : Reg) (written : Bool) (src : Source) :
    (s.noteMode r written src).uneventful =
      (if written then s.noteValue r.offset (s.reg r).toNat s.modeFrom 0 else s).uneventful := by
  cases written with
  | true => exact State.uneventful_noteChange ..
  | false => rfl

/-- Replay mode under a SYNCHRONOUS plan (R91). -/
def State.refusesMode (s : State) (mode : Option Bool) : Bool :=
  mode == some false && s.planOn && s.plan.data.synchronous

theorem State.setMode_refused {s : State} {mode : Option Bool} (lb : Option Bool) (src : Source)
    (h : s.refusesMode mode = true) : s.setMode mode lb src = s.record 0xA00D 0 src := if_pos h

section
variable {s : State} {mode lb : Option Bool} {src : Source} {m l : Bool} (h : s.refusesMode mode = false)
  (hm : mode.getD (s.flag Fld.MODE_STAT_MODE) = m) (hl : lb.getD (s.flag Fld.LOAD_BALANCE_ENABLE) = l)
include h hm hl

theorem State.setMode_taken : s.setMode mode lb src =
    ((s.takeMode m l).noteMode .MODE_CTL mode.isSome src).noteMode .LOAD_BALANCE lb.isSome src := by
  subst hm hl
  exact if_neg (by rw [← State.refusesMode, h]; decide)

/-- A mode that is taken shows, and every part that the notes and their events leave is as it was taken. -/
theorem State.setMode_spec : (s.setMode mode lb src).showsMode m l ∧
    (∀ r ∉ eventRegs, (s.setMode mode lb src).reg r = (s.takeMode m l).reg r) ∧
    (s.setMode mode lb src).plan = (s.takeMode m l).plan ∧
    (s.setMode mode lb src).intake = (s.takeMode m l).intake := by
  have hview : ∀ (v : State) (r : Reg) (w : Bool), (∀ q ∉ eventRegs, (v.noteMode r w src).reg q = v.reg q) ∧
      (v.noteMode r w src).plan = v.plan ∧ (v.noteMode r w src).intake = v.intake := fun v r w => by
    have hw := v.uneventful_noteMode r w src
    refine ⟨fun q hq => (State.reg_of_uneventful hw hq).trans ?_, (congrArg (fun x => x.2.plan) hw).trans ?_,
      (congrArg (fun x => x.2.intake) hw).trans ?_⟩
    all_goals cases w <;> rfl
  obtain ⟨hreg, hplan, hintake⟩ := hview (s.takeMode m l) .MODE_CTL mode.isSome
  obtain ⟨hreg', hplan', hintake'⟩ := hview ((s.takeMode m l).noteMode .MODE_CTL mode.isSome src) .LOAD_BALANCE lb.isSome
  rw [State.setMode_taken h hm hl]
  have hregs := fun r hr => (hreg' r hr).trans (hreg r hr)
  refine ⟨State.showsMode_congr (s.showsMode_takeMode m l) fun r hr => hregs r fun he => ?_, hregs,
    hplan'.trans hplan, hintake'.trans hintake⟩
  have hnone : ∀ q ∈ [Reg.MODE_CTL, .MODE_STAT, .LOAD_BALANCE], q ∉ eventRegs := by decide
  exact hnone r hr he

end

end Sys2Proof.Machine
end

section
/-! SUPPORT. The scope: MODE_CTL and LOAD_BALANCE, a read of DIGEST_STEP, and arming Oculus (R176, R242, R243, R258, R355,
R422). -/

namespace Sys2Proof.Machine

/-! ### Writes to MODE_CTL and LOAD_BALANCE -/

/-- The register of modes that a row names, and its field. -/
theorem execModeCtlWrite_reached {t v : Nat} {a : RegAcc} {s : State} (h : s.reach a.port .MODE_CTL = true)
    (ha : accField a Fld.MODE_CTL_MODE = some v) : exec (.modeCtlWrite t false a) s = .next
      (if s.running then { s.tick t with dig := { s.dig with heldMode := some (v == 1), heldPort := a.port } }.setFlag
        Fld.MODE_STAT_PENDING true
      else (s.tick t).setMode (some (v == 1)) none a.port.source) := by
  show execModeCtlWrite t false a s = _
  rw [execModeCtlWrite, if_neg (by decide), State.access_reached h, State.writeMode, if_neg (by decide), ha]
  rfl

theorem execModeCtlWrite_balance {t v : Nat} {a : RegAcc} {s : State} (h : s.reach a.port .LOAD_BALANCE = true)
    (ha : accField a Fld.LOAD_BALANCE_ENABLE = some v) : exec (.modeCtlWrite t true a) s = .next
      (if s.running then { s.tick t with dig := { s.dig with heldLb := some (v == 1), heldPort := a.port } }.setFlag
        Fld.MODE_STAT_PENDING true
      else (s.tick t).setMode none (some (v == 1)) a.port.source) := by
  show execModeCtlWrite t true a s = _
  rw [execModeCtlWrite, if_pos rfl, State.access_reached h, State.writeMode, if_pos rfl, ha]
  rfl

/-- A write of Throughput with no run: the mode shows, and is noted with the step from which it applies. -/
theorem State.setMode_throughput (s : State) (src : Source) :
    let u := s.setMode (some true) none src
    u.flag Fld.MODE_CTL_MODE = true ∧ u.flag Fld.MODE_STAT_MODE = true ∧
      u.flag Fld.MODE_STAT_LB_ACTIVE = s.flag Fld.LOAD_BALANCE_ENABLE ∧
      (s.flag Fld.MODE_STAT_MODE = true → u.reg .MODE_SINCE = s.reg .MODE_SINCE) ∧
      u.dig = { s.dig with sinceDue := s.dig.sinceDue || !s.flag Fld.MODE_STAT_MODE } ∧
      u.jrnl.configs = ⟨Reg.MODE_CTL.offset, (u.reg .MODE_CTL).toNat, s.modeFrom, 0⟩ :: s.jrnl.configs ∧
      State.onlyEvents s { u with dig := s.dig } [.MODE_CTL, .MODE_STAT, .LOAD_BALANCE, .MODE_SINCE] := by
  let w := s.takeMode true (s.flag Fld.LOAD_BALANCE_ENABLE)
  have hmay : s.refusesMode (some true) = false := rfl
  obtain ⟨⟨hctl, -, hstat, hlb⟩, hregs, -, -⟩ := State.setMode_spec (src := src) (lb := none)
    (l := s.flag Fld.LOAD_BALANCE_ENABLE) hmay rfl rfl
  have htaken : s.setMode (some true) none src = (w.noteMode .MODE_CTL true src).noteMode .LOAD_BALANCE false src :=
    State.setMode_taken hmay rfl rfl
  have hview : (s.setMode (some true) none src).uneventful =
      (w.noteValue Reg.MODE_CTL.offset (w.reg .MODE_CTL).toNat w.modeFrom 0).uneventful := by
    rw [htaken]
    exact State.uneventful_noteMode w .MODE_CTL true src
  refine ⟨hctl, hstat, hlb, fun hwas => ?_, ?_, ?_, ?_⟩
  · rw [hregs _ (by decide)]
    exact State.takeMode_same _ hwas _ (by decide)
  · refine (congrArg (fun x => x.2.dig) hview).trans ?_
    exact congrArg (fun x : State => x.dig) (s.takeMode_throughput (s.flag Fld.LOAD_BALANCE_ENABLE))
  · have hconfigs : w.jrnl.configs = s.jrnl.configs := by
      rw [show w = _ from s.takeMode_throughput _]
    refine (congrArg (fun x => x.2.jrnl.configs) hview).trans ?_
    show ⟨_, (w.reg .MODE_CTL).toNat, w.modeFrom, 0⟩ :: w.jrnl.configs = _
    rw [hregs _ (by decide), hconfigs, show w.modeFrom = s.modeFrom from s.modeFrom_takeMode ..]
    rfl
  · have hw : State.onlyEvents s { w.noteValue Reg.MODE_CTL.offset (w.reg .MODE_CTL).toNat w.modeFrom 0 with
        dig := s.dig } [.MODE_CTL, .MODE_STAT, .LOAD_BALANCE, .MODE_SINCE] := by
      refine ⟨fun r hr => s.keeps_takeMode _ _ r fun h => hr (List.mem_append_right _ h), ?_⟩
      rw [show w = _ from s.takeMode_throughput _]
      rfl
    exact hw.of_uneventful (congrArg (fun x : (Reg → W64) × State => (x.1, { x.2 with dig := s.dig })) hview)

/-- A write of LOAD_BALANCE in Throughput mode with no run. -/
theorem State.setMode_balance {s : State} (on : Bool) (src : Source) (h : s.flag Fld.MODE_STAT_MODE = true) :
    (s.setMode none (some on) src).showsMode true on ∧
      State.onlyEvents s (s.setMode none (some on) src) [.MODE_CTL, .MODE_STAT, .LOAD_BALANCE] := by
  let w := s.takeMode true on
  have hmay : s.refusesMode none = false := rfl
  obtain ⟨hshows, -⟩ := State.setMode_spec (src := src) (lb := some on) hmay h rfl
  have htaken : s.setMode none (some on) src = (w.noteMode .MODE_CTL false src).noteMode .LOAD_BALANCE true src :=
    State.setMode_taken hmay h rfl
  refine ⟨hshows, State.onlyEvents.of_uneventful
    (v := w.noteValue Reg.LOAD_BALANCE.offset (w.reg .LOAD_BALANCE).toNat w.modeFrom 0) ⟨fun r hr => ?_, ?_⟩ ?_⟩
  · exact State.takeMode_same on h r fun hm => hr (List.mem_append_right _ hm)
  · have hrest := s.takeMode_throughput on
    rw [h, Bool.not_true, Bool.or_false] at hrest
    rw [show w = _ from hrest]
    rfl
  · rw [htaken]
    exact State.uneventful_noteMode w .LOAD_BALANCE true src

/-! ### DIGEST_STEP -/

theorem State.afterBoundary_idle {s : State} (h : s.pending = []) : s.afterBoundary = s := by
  rw [State.afterBoundary, h]
  rfl

theorem execDigestStepRead_reached {t : Nat} {p : Port} {s : State} (h : s.reach p .DIGEST_STEP = true) :
    exec (.digestStepRead t p) s = .next
      (((s.tick t).snapDigest p).answer p (BitVec.ofNat 64 (s.tick t).afterBoundary.dig.step)) :=
  State.when_due (c := fun s => s.reach p .DIGEST_STEP)
    (f := fun s => (s.snapDigest p).answer p (BitVec.ofNat 64 s.afterBoundary.dig.step)) h

/-- The reading port has its snapshot, and the step of the digest for an answer. -/
theorem State.answer_snapDigest (s : State) (p : Port) (n : Nat) :
    (s.snapDigest p).answer p (BitVec.ofNat 64 n) = { s with
      dig := { s.dig with
        snapHost := if p = .host then (s.afterBoundary.dig.value, s.afterBoundary.dig.flags, s.afterBoundary.dig.valid)
          else s.dig.snapHost
        snapMgmt := if p = .mgmt then (s.afterBoundary.dig.value, s.afterBoundary.dig.flags, s.afterBoundary.dig.valid)
          else s.dig.snapMgmt }
      emitted := (match p with
        | .host => .readData (n % 2 ^ 64) false
        | .mgmt => .mgmtReply 0 (natLe (n % 2 ^ 64) 8)) :: s.emitted } := by
  cases p <;> rfl

/-! ### OCU_CTL -/

theorem execOculusArm_reached {t : Nat} {a : RegAcc} {s : State} (h : s.reach a.port .OCU_CTL = true) :
    exec (.oculusArm t a) s = .next (if s.dbgLevel = 0 then (s.tick t).ocuRefuse else (s.tick t).writeOcuCtl a) := by
  refine (State.access_reached (f := fun s => if s.dbgLevel == 0 then s.ocuRefuse else s.writeOcuCtl a) h).trans ?_
  exact congrArg _ (if_congr beq_iff_eq rfl rfl)

theorem Reg.noW1c_ocuCtl : Reg.OCU_CTL.noW1c := by
  show ∀ f ∈ Reg.OCU_CTL.layout, f.acc ≠ .w1c
  decide

/-- A write to the fields of OCU_CTL leaves ARM to its own rule, and every other register. -/
theorem State.writeFields_ocuCtl (s : State) (a : RegAcc) :
    (s.writeFields .OCU_CTL a).flag Fld.OCU_CTL_ARM = s.flag Fld.OCU_CTL_ARM ∧
      State.keeps s (s.writeFields .OCU_CTL a) [.OCU_CTL] ∧
      (s.writeFields .OCU_CTL a).stepToCome = s.stepToCome ∧
      (s.writeFields .OCU_CTL a).fld Fld.OCU_TRIG_STEP_STEP = s.fld Fld.OCU_TRIG_STEP_STEP := by
  have hkeeps : State.keeps s (s.writeFields .OCU_CTL a) [.OCU_CTL] :=
    fun r hr => State.reg_writeFields_ne fun he => hr (List.mem_singleton.mpr he)
  refine ⟨?_, hkeeps, ?_, State.fld_writeFields_ne (by decide)⟩
  · have harm := State.bitsOf_writeFields (s := s) (a := a) Reg.noW1c_ocuCtl (f := ⟨0, 1, .rw1s⟩) (by decide)
    rw [fieldAfter, if_neg fun h => absurd h.1 (by decide)] at harm
    exact congrArg (· == 1) harm
  · unfold State.stepToCome State.stepNow State.idleNext
    rw [State.fld_writeFields_ne (by decide), State.fld_writeFields_ne (by decide), hkeeps _ (by decide)]
    rfl

section
variable {s : State} {a : RegAcc} (ha : accSets a Fld.OCU_CTL_ARM = true)
include ha

/-- Armed for a step to come (R176). -/
theorem State.writeOcuCtl_armed (h : s.stepToCome ≤ s.fld Fld.OCU_TRIG_STEP_STEP) :
    (s.writeOcuCtl a).flag Fld.OCU_CTL_ARM = true ∧ State.keeps s (s.writeOcuCtl a) [.OCU_CTL] ∧
      (s.writeOcuCtl a).ocu = { s.ocu with armedAt := if s.flag Fld.OCU_CTL_ARM then s.ocu.armedAt else s.now } := by
  obtain ⟨harm, hkeeps, hcome, htrig⟩ := s.writeFields_ocuCtl a
  have hset : ((s.writeFields .OCU_CTL a).swSet Fld.OCU_CTL_ARM).flag Fld.OCU_CTL_ARM = true :=
    State.flag_setFlag _ true (by decide) rfl
  have hkept : State.keeps s ((s.writeFields .OCU_CTL a).swSet Fld.OCU_CTL_ARM) [.OCU_CTL] :=
    hkeeps.trans (State.keeps_swSet _ (by decide))
  rw [State.writeOcuCtl, if_pos ha, htrig, hcome, if_neg (Nat.not_lt.mpr h), harm]
  cases s.flag Fld.OCU_CTL_ARM with
  | true => exact ⟨hset, hkept, rfl⟩
  | false => exact ⟨hset, hkept, rfl⟩

/-- Armed for a step that has completed (R176). -/
theorem State.writeOcuCtl_missed (h : s.fld Fld.OCU_TRIG_STEP_STEP < s.stepToCome) :
    (s.writeOcuCtl a).flag Fld.OCU_STAT_MISSED = true ∧ (s.writeOcuCtl a).flag Fld.OCU_CTL_ARM = false ∧
      (s.writeOcuCtl a).ocu = s.ocu := by
  obtain ⟨-, -, hcome, htrig⟩ := s.writeFields_ocuCtl a
  let v := ((s.writeFields .OCU_CTL a).setFlag Fld.OCU_CTL_ARM false).hwSet Fld.OCU_STAT_MISSED
  have hmissed : s.writeOcuCtl a = v.setCause 4 := by
    rw [State.writeOcuCtl, if_pos ha, htrig, hcome, if_pos h]
  have hview := v.uneventful_setCause 4
  have hflag : ∀ f : Field, f.reg ∉ eventRegs → (s.writeOcuCtl a).flag f = v.flag f := fun f hf => by
    rw [hmissed, State.flag, State.fld_of_uneventful hview hf, State.flag]
  refine ⟨(hflag _ (by decide)).trans (State.flag_hwSet _ (by decide) rfl), (hflag _ (by decide)).trans ?_, ?_⟩
  · exact (State.flag_setFlag_of_apart _ true (by decide) rfl).trans (State.flag_setFlag _ false (by decide) rfl)
  · rw [hmissed]
    exact congrArg (fun x => x.2.ocu) hview

end

/-- Settles O51: a write of a mode is held or is `setMode`, whose notes leave what was taken; a read of DIGEST_STEP and a
write that arms Oculus are followed through their rows. -/
theorem modesDigestOculus : Obligations.ModesDigestOculus := by
  unfold Obligations.ModesDigestOculus
  refine ⟨fun t v a s hreach ha => ⟨?held, ?throughput, ?refused⟩, fun t v a s hreach ha => ⟨?heldBalance, ?balance⟩,
    fun t p s hreach => ⟨fun hidle => ?_, ?digest⟩, fun t a s hreach => ⟨?level0, fun hlevel ha => ⟨?armed, ?missed⟩⟩⟩
  case held =>
    intro hrun
    rw [execModeCtlWrite_reached hreach ha, if_pos hrun]
    exact ⟨_, rfl, rfl, State.flag_setFlag _ true (by decide) rfl, State.keeps_setFlag (s.tick t) true (by decide), rfl⟩
  case throughput =>
    rintro hrun rfl
    rw [execModeCtlWrite_reached hreach ha, if_neg (by simp [hrun])]
    exact ⟨_, rfl, (s.tick t).setMode_throughput a.port.source⟩
  case refused =>
    rintro hrun rfl hplan hsync
    have hrefuses : (s.tick t).refusesMode (some false) = true := by
      rw [State.refusesMode, State.planOn_tick, hplan]
      exact hsync
    rw [execModeCtlWrite_reached hreach ha, if_neg (by simp [hrun])]
    exact congrArg _ (State.setMode_refused none a.port.source hrefuses)
  case heldBalance =>
    intro hrun
    rw [execModeCtlWrite_balance hreach ha, if_pos hrun]
    exact ⟨_, rfl, rfl, State.flag_setFlag _ true (by decide) rfl⟩
  case balance =>
    intro hrun hmode
    rw [execModeCtlWrite_balance hreach ha, if_neg (by simp [hrun])]
    obtain ⟨⟨-, hlb, hstat, hactive⟩, hevents⟩ := State.setMode_balance (s := s.tick t) (v == 1) a.port.source hmode
    exact ⟨_, rfl, hlb, hactive, hstat, hevents⟩
  · show (s.tick t).afterBoundary.dig = s.dig
    rw [State.afterBoundary_idle (s := s.tick t) hidle]
    rfl
  case digest =>
    rw [execDigestStepRead_reached hreach]
    exact congrArg _ ((s.tick t).answer_snapDigest p _)
  case level0 =>
    intro hlevel
    rw [execOculusArm_reached hreach, if_pos hlevel]
    rfl
  case armed =>
    intro hcome
    rw [execOculusArm_reached hreach, if_neg hlevel]
    exact ⟨_, rfl, State.writeOcuCtl_armed (s := s.tick t) ha hcome⟩
  case missed =>
    intro hpast
    rw [execOculusArm_reached hreach, if_neg hlevel]
    exact ⟨_, rfl, State.writeOcuCtl_missed (s := s.tick t) ha hpast⟩

end Sys2Proof.Machine
end

section
/-! SUPPORT. What Belfry holds: its own registers, its areas and its hidden state. Messages, frames and captures leave it, a
record that is stored changes of it what R393 says, and an event leaves what FREEZE keeps (R393, R395, R398). -/

namespace Sys2Proof.Machine

/-! ### What messages, frames and captures leave -/

/-- The registers that say how records are kept, and count them. -/
def belfryRegs : List Reg :=
  [.BELFRY_CTL, .BELFRY_STAT, .BELFRY_TOTAL, .BELFRY_TALLY, .BELFRY_PENDING, .BELFRY_AT_LIMIT]

/-- What Belfry holds. -/
def State.store (s : State) : (Reg → W64) × Mram × BelfrySt × Bool :=
  (fun r => if r ∈ belfryRegs then s.reg r else 0, { s.mram with fseq := 0 }, s.bel, s.sec.dmcDown)

theorem State.reg_of_store {s u : State} (h : u.store = s.store) {r : Reg} (hr : r ∈ belfryRegs) :
    u.reg r = s.reg r := by
  simpa [State.store, hr] using congrFun (congrArg Prod.fst h) r

theorem State.fld_of_store {s u : State} (h : u.store = s.store) {f : Field} (hf : f.reg ∈ belfryRegs) :
    u.fld f = s.fld f := by
  rw [State.fld, State.reg_of_store h hf, State.fld]

theorem State.bel_of_store {s u : State} (h : u.store = s.store) : u.bel = s.bel := congrArg (fun x => x.2.2.1) h

theorem State.last_of_store {s u : State} (h : u.store = s.store) :
    u.mram.last0 = s.mram.last0 ∧ u.mram.last1 = s.mram.last1 :=
  ⟨congrArg (fun x => x.2.1.last0) h, congrArg (fun x => x.2.1.last1) h⟩

@[simp ↓] theorem State.store_setReg (s : State) {r : Reg} (v : W64) (h : r ∉ belfryRegs) :
    (s.setReg r v).store = s.store := by
  refine Prod.ext (funext fun q => ?_) rfl
  show (if q ∈ belfryRegs then (s.setReg r v).reg q else 0) = if q ∈ belfryRegs then s.reg q else 0
  split
  next hq => exact State.reg_setReg_ne s v fun e => h (e ▸ hq)
  next => rfl

@[simp ↓] theorem State.store_setFld (s : State) {f : Field} (n : Nat) (h : f.reg ∉ belfryRegs) :
    (s.setFld f n).store = s.store := s.store_setReg _ h

@[simp ↓] theorem State.store_incFld (s : State) {f : Field} (h : f.reg ∉ belfryRegs) :
    (s.incFld f).store = s.store := s.store_setReg _ h

@[simp ↓] theorem State.store_ite {c : Prop} [Decidable c] (a b : State) :
    (if c then a else b).store = if c then a.store else b.store := by split <;> rfl

@[simp ↓] theorem State.store_update (s : State) (intr : IntrSt) (jrnl : JrnlSt) (mgmt : MgmtSt) (emitted : List Emission)
    (hwSets : List (Nat × Reg × Nat)) : State.store { s with
      intr := intr, jrnl := jrnl, mgmt := mgmt, emitted := emitted, hwSets := hwSets } = s.store := rfl

@[simp ↓] theorem State.store_sendVector (s : State) (i : Nat) : (s.sendVector i).store = s.store := by
  unfold State.sendVector
  split
  · split
    · split
      · exact State.store_incFld _ (by decide)
      · exact State.store_incFld _ (by decide)
    · rfl
  · rfl

@[simp ↓] theorem State.store_setCause (s : State) (i : Nat) : (s.setCause i).store = s.store := by
  have hnote : (s.noteHw .INT_STAT (2 ^ i)).store = s.store := rfl
  dsimp only [State.setCause]
  simp (disch := decide) [↓hnote]

@[simp ↓] theorem State.store_addFrameRaw (s : State) (typ : Nat) (lastPart : Bool) (orderSeq policy : Nat)
    (bs : List Byte) : (s.addFrameRaw typ lastPart orderSeq policy bs).store = s.store := by
  unfold State.addFrameRaw
  split
  · exact State.store_setFld _ _ (by decide)
  · rfl

@[simp ↓] theorem State.store_newSegment (s : State) : s.newSegment.store = s.store := by
  have hseg : ∀ (v : State) (n : Nat), State.store { v with jrnl := { v.jrnl with segFirst := n, segBytes := 0 } } =
      v.store := fun _ _ => rfl
  dsimp only [State.newSegment]
  simp (disch := decide) [↓hseg]

@[simp ↓] theorem State.store_addFrame (s : State) (typ : Nat) (lastPart : Bool) (orderSeq policy : Nat)
    (bs : List Byte) : (s.addFrame typ lastPart orderSeq policy bs).store = s.store := by
  dsimp only [State.addFrame, State.showUsed]
  simp (disch := decide)

@[simp ↓] theorem State.store_putCapture (s : State) (p : Port) (c : Capture) : (s.putCapture p c).store = s.store := by
  dsimp only [State.putCapture]
  cases p <;> simp (disch := decide) only [State.store_setReg]

@[simp ↓] theorem State.store_recapture (s : State) : s.recapture.store = s.store := by
  dsimp only [State.recapture]
  simp

/-! ### A record that is stored -/

/-- A record put in the areas of each copy that has not failed (R393). -/
def State.fileRecord (s : State) (r : List Byte) : State :=
  let first := decide (s.fld Fld.BELFRY_TOTAL_FIRST_COUNT < 4096)
  let ok0 := !s.flag Fld.BELFRY_STAT_COPY0_FAILED
  let ok1 := !s.flag Fld.BELFRY_STAT_COPY1_FAILED
  { s with mram := { s.mram with
    first0 := if first && ok0 then placeRecord s.wroteNow s.mram.first0 r else s.mram.first0
    first1 := if first && ok1 then placeRecord s.wroteNow s.mram.first1 r else s.mram.first1
    last0 := if ok0 then ringPush 65536 s.wroteNow s.mram.last0 r else s.mram.last0
    last1 := if ok1 then ringPush 65536 s.wroteNow s.mram.last1 r else s.mram.last1 } }

/-- The records of all time, and those of FIRST, counted. -/
def State.countRecord (s : State) : State :=
  let v := s.setFld Fld.BELFRY_TOTAL_TOTAL (s.fld Fld.BELFRY_TOTAL_TOTAL + 1)
  if decide (s.fld Fld.BELFRY_TOTAL_FIRST_COUNT < 4096) then
    v.setFld Fld.BELFRY_TOTAL_FIRST_COUNT (s.fld Fld.BELFRY_TOTAL_FIRST_COUNT + 1)
  else v

/-- A record stored and counted, no capture and no frame made of it yet. -/
def State.placed (s : State) (r : List Byte) : State :=
  let v := (s.fileRecord r).countRecord
  (v.setFld Fld.BELFRY_STAT_LAST_COUNT (min (v.fld Fld.BELFRY_STAT_LAST_COUNT + 1) 65536)).countWrote

theorem State.storeRecord_eq (s : State) (r : List Byte) :
    s.storeRecord r = (s.placed r).recapture.addFrame 5 true 0 (s.placed r).recapture.policyNow r := by
  rfl

theorem State.storeRecord_store (s : State) (r : List Byte) : (s.storeRecord r).store = (s.placed r).store := by
  rw [State.storeRecord_eq, State.store_addFrame, State.store_recapture]

theorem State.countRecord_rest (s : State) : s.countRecord.bel = s.bel ∧ s.countRecord.now = s.now ∧
    s.countRecord.mram = s.mram ∧ ∀ f : Field, f.reg ≠ .BELFRY_TOTAL → s.countRecord.fld f = s.fld f := by
  unfold State.countRecord
  dsimp only
  split
  · exact ⟨rfl, rfl, rfl, fun f hf => (State.fld_setFld_ne _ _ hf).trans (State.fld_setFld_ne _ _ hf)⟩
  · exact ⟨rfl, rfl, rfl, fun f hf => State.fld_setFld_ne _ _ hf⟩

theorem State.wroteNow_congr {s u : State} (hb : u.bel = s.bel) (hn : u.now = s.now) : u.wroteNow = s.wroteNow := by
  rw [State.wroteNow, hb, hn, State.wroteNow]

theorem State.countWrote_bel (s : State) : s.countWrote.bel = { s.bel with wrote := (s.now, s.wroteNow + 1) } := rfl

/-- What a record that is placed leaves of Belfry, and where it stands in LAST. -/
theorem State.placed_spec (s : State) (r : List Byte) :
    (s.placed r).bel = { s.bel with wrote := (s.now, s.wroteNow + 1) } ∧
    (s.placed r).mram.last0 = (if s.flag Fld.BELFRY_STAT_COPY0_FAILED then s.mram.last0
      else ringPush 65536 s.wroteNow s.mram.last0 r) ∧
    (s.placed r).mram.last1 = (if s.flag Fld.BELFRY_STAT_COPY1_FAILED then s.mram.last1
      else ringPush 65536 s.wroteNow s.mram.last1 r) ∧
    (s.placed r).fld Fld.BELFRY_STAT_LAST_COUNT = min (s.fld Fld.BELFRY_STAT_LAST_COUNT + 1) 65536 ∧
    ∀ f : Field, Fld.BELFRY_STAT_LAST_COUNT.apart f = true → f.reg ≠ .BELFRY_TOTAL → (s.placed r).fld f = s.fld f := by
  obtain ⟨hbel, hnow, hmram, hfld⟩ := (s.fileRecord r).countRecord_rest
  have hlast : ∀ (b : Bool) (l l' : List (List Byte)), (if (!b) = true then l' else l) = if b then l else l' :=
    fun b l l' => by cases b <;> rfl
  refine ⟨?_, ?_, ?_, ?_, fun f hf hr => ?_⟩
  · have hwrote : ∀ n, ((s.fileRecord r).countRecord.setFld Fld.BELFRY_STAT_LAST_COUNT n).wroteNow = s.wroteNow :=
      fun n => State.wroteNow_congr hbel hnow
    rw [State.placed, State.countWrote_bel, State.setFld_bel, State.setFld_now, hbel, hnow, hwrote]
    rfl
  · exact (congrArg Mram.last0 hmram).trans (hlast ..)
  · exact (congrArg Mram.last1 hmram).trans (hlast ..)
  · refine (State.fld_setFld_of_lt _ (by decide) (Nat.lt_of_le_of_lt (Nat.min_le_right ..) (by decide))).trans ?_
    rw [hfld _ (by decide)]
    rfl
  · exact (State.fld_setFld_of_apart _ _ (by decide) hf).trans (hfld f hr)

/-- What a stored record leaves of Belfry, and where it stands in LAST. -/
theorem State.storeRecord_spec (s : State) (r : List Byte) :
    (s.storeRecord r).bel = { s.bel with wrote := (s.now, s.wroteNow + 1) } ∧
    (s.storeRecord r).mram.last0 = (if s.flag Fld.BELFRY_STAT_COPY0_FAILED then s.mram.last0
      else ringPush 65536 s.wroteNow s.mram.last0 r) ∧
    (s.storeRecord r).mram.last1 = (if s.flag Fld.BELFRY_STAT_COPY1_FAILED then s.mram.last1
      else ringPush 65536 s.wroteNow s.mram.last1 r) ∧
    (s.storeRecord r).fld Fld.BELFRY_STAT_LAST_COUNT = min (s.fld Fld.BELFRY_STAT_LAST_COUNT + 1) 65536 ∧
    ∀ f : Field, Fld.BELFRY_STAT_LAST_COUNT.apart f = true → f.reg ∈ belfryRegs → f.reg ≠ .BELFRY_TOTAL →
      (s.storeRecord r).fld f = s.fld f := by
  have h := s.storeRecord_store r
  obtain ⟨hbel, h0, h1, hcount, hfld⟩ := s.placed_spec r
  obtain ⟨hlast0, hlast1⟩ := State.last_of_store h
  exact ⟨(State.bel_of_store h).trans hbel, hlast0.trans h0, hlast1.trans h1,
    (State.fld_of_store h (by decide)).trans hcount,
    fun f hf hr ht => (State.fld_of_store h hr).trans (hfld f hf ht)⟩

/-! ### What an event leaves of the log -/

/-- The fields of Belfry that no event changes. -/
def logFields : List Field :=
  [Fld.BELFRY_CTL_FREEZE, Fld.BELFRY_AT_LIMIT_FREEZE, Fld.BELFRY_TALLY_LOG_CLEARS, Fld.BELFRY_TALLY_POWER_CYCLES,
    Fld.BELFRY_STAT_COPY0_FAILED, Fld.BELFRY_STAT_COPY1_FAILED, Fld.BELFRY_STAT_CLEAR_PENDING]

/-- What no event changes of the log: its fields, the pending buffer unless records are held in it, and the areas of a
failed copy. -/
def State.logView (s : State) : (Field → Nat) × Bool × Option (List (List Byte) × Nat) × Option (List (List Byte)) ×
    Option (List (List Byte)) :=
  (fun f => if f ∈ logFields then s.fld f else 0, s.sec.dmcDown,
    if s.flag Fld.BELFRY_CTL_FREEZE || s.sec.dmcDown then none else some (s.bel.pending, s.fld Fld.BELFRY_STAT_PENDING),
    if s.flag Fld.BELFRY_STAT_COPY0_FAILED then some s.mram.last0 else none,
    if s.flag Fld.BELFRY_STAT_COPY1_FAILED then some s.mram.last1 else none)

/-- A field that shares no bit with what the log shows. -/
def Field.offLog (f : Field) : Bool :=
  decide (f.lo + f.w ≤ 64) && (Fld.BELFRY_STAT_PENDING :: logFields).all f.apart

theorem State.logView_congr {s u : State} (hf : ∀ f ∈ logFields, u.fld f = s.fld f)
    (hd : u.sec.dmcDown = s.sec.dmcDown)
    (hp : s.flag Fld.BELFRY_CTL_FREEZE = false → s.sec.dmcDown = false →
      u.bel.pending = s.bel.pending ∧ u.fld Fld.BELFRY_STAT_PENDING = s.fld Fld.BELFRY_STAT_PENDING)
    (h0 : s.flag Fld.BELFRY_STAT_COPY0_FAILED = true → u.mram.last0 = s.mram.last0)
    (h1 : s.flag Fld.BELFRY_STAT_COPY1_FAILED = true → u.mram.last1 = s.mram.last1) : u.logView = s.logView := by
  have hflag : ∀ f ∈ logFields, u.flag f = s.flag f := fun f h => by rw [State.flag, hf f h, State.flag]
  have hshows : (fun f => if f ∈ logFields then u.fld f else 0) = fun f => if f ∈ logFields then s.fld f else 0 :=
    funext fun f => by
      split
      · exact hf f ‹_›
      · rfl
  rw [State.logView, hshows, hd, hflag _ (by decide), hflag _ (by decide), hflag _ (by decide), State.logView]
  congr 3
  · split
    · rfl
    · next h =>
      rw [Bool.or_eq_true, not_or, Bool.not_eq_true, Bool.not_eq_true] at h
      obtain ⟨hbuf, hcount⟩ := hp h.1 h.2
      rw [hbuf, hcount]
  · congr 1
    · split
      · rw [h0 ‹_›]
      · rfl
    · split
      · rw [h1 ‹_›]
      · rfl

theorem State.logView_of_store {s u : State} (h : u.store = s.store) : u.logView = s.logView := by
  have hregs : ∀ f ∈ Fld.BELFRY_STAT_PENDING :: logFields, f.reg ∈ belfryRegs := by decide
  obtain ⟨h0, h1⟩ := State.last_of_store h
  refine State.logView_congr (fun f hf => State.fld_of_store h (hregs f (List.mem_cons_of_mem _ hf)))
    (congrArg (fun x => x.2.2.2) h) (fun _ _ => ⟨congrArg BelfrySt.pending (State.bel_of_store h), ?_⟩)
    (fun _ => h0) fun _ => h1
  exact State.fld_of_store h (by decide)

@[simp ↓] theorem State.logView_setFld (s : State) {f : Field} (n : Nat) (h : f.offLog = true) :
    (s.setFld f n).logView = s.logView := by
  rw [Field.offLog, Bool.and_eq_true, decide_eq_true_eq, List.all_eq_true] at h
  obtain ⟨hw, hall⟩ := h
  exact State.logView_congr (fun g hg => s.fld_setFld_of_apart n hw (hall g (List.mem_cons_of_mem _ hg))) rfl
    (fun _ _ => ⟨rfl, s.fld_setFld_of_apart n hw (hall _ (List.mem_cons_self ..))⟩) (fun _ => rfl) fun _ => rfl

theorem State.logView_storeRecord (s : State) (r : List Byte) : (s.storeRecord r).logView = s.logView := by
  obtain ⟨hbel, h0, h1, -, hfld⟩ := s.storeRecord_spec r
  have hoff : ∀ f ∈ Fld.BELFRY_STAT_PENDING :: logFields, Fld.BELFRY_STAT_LAST_COUNT.apart f = true ∧
      f.reg ∈ belfryRegs ∧ f.reg ≠ .BELFRY_TOTAL := by decide
  have hkept : ∀ f ∈ Fld.BELFRY_STAT_PENDING :: logFields, (s.storeRecord r).fld f = s.fld f := fun f hf => by
    obtain ⟨hapart, hreg, htotal⟩ := hoff f hf
    exact hfld f hapart hreg htotal
  have hsec : (s.storeRecord r).sec = s.sec := congrArg (fun x => x.2.sec) (s.calm_storeRecord r)
  refine State.logView_congr (fun f hf => hkept f (List.mem_cons_of_mem _ hf)) (by rw [hsec])
    (fun _ _ => ⟨by rw [hbel], hkept _ (List.mem_cons_self ..)⟩) (fun hc => ?_) fun hc => ?_
  · rw [h0, if_pos hc]
  · rw [h1, if_pos hc]

/-- A record held in the pending buffer (R398). -/
def State.holdRecord (s : State) (r : List Byte) : State :=
  let v : State := { s with bel := { s.bel with pending := placeRecord s.wroteNow s.bel.pending r } }
  (v.countWrote.setFld Fld.BELFRY_STAT_PENDING v.bel.pending.length).maxFld Fld.BELFRY_PENDING_MAX_LEVEL
    v.bel.pending.length

/-- A record that the pending buffer has no room for (R398). -/
def State.dropRecord (s : State) : State :=
  ({ s with bel := { s.bel with dropped := s.bel.dropped + 1 } }).incFld Fld.BELFRY_PENDING_OVERFLOW

/-- A record that the rate limit passes: counted while both copies have failed, held, or stored (R395, R398). -/
def State.keepRecord (s : State) (code : Nat) (r : List Byte) : State :=
  if s.logLost then s.incFld Fld.BELFRY_AT_LIMIT_UNLOGGED
  else if s.flag Fld.BELFRY_CTL_FREEZE || s.sec.dmcDown then
    let room := if code ∈ unlimitedCodes then 256 else 240
    if s.bel.pending.length < room then s.holdRecord r else s.dropRecord
  else s.storeRecord r

/-- An alert goes out (R390). -/
def State.sendAlert (s : State) (r : List Byte) : State :=
  ({ s with mgmt := { s.mgmt with alertPending := true, events := s.mgmt.events ++ [r] } }).emit (.platformEvent r)

theorem State.writeRecord_eq (s : State) (code : Nat) (r : List Byte) :
    s.writeRecord code r = (if severity code == 2 then s.sendAlert r else s).keepRecord code r := rfl

theorem State.logView_holdRecord {s : State} (r : List Byte)
    (h : (s.flag Fld.BELFRY_CTL_FREEZE || s.sec.dmcDown) = true) : (s.holdRecord r).logView = s.logView := by
  unfold State.holdRecord
  dsimp only
  rw [State.maxFld, State.logView_setFld _ _ (by decide)]
  refine State.logView_congr (fun f hf => ?_) rfl (fun hfree hup => ?_) (fun _ => rfl) fun _ => rfl
  · have hoff : ∀ f ∈ logFields, Fld.BELFRY_STAT_PENDING.apart f = true := by decide
    exact State.fld_setFld_of_apart _ _ (by decide) (hoff f hf)
  · rw [hfree, hup] at h
    exact absurd h (by decide)

theorem State.logView_keepRecord (s : State) (code : Nat) (r : List Byte) : (s.keepRecord code r).logView = s.logView := by
  unfold State.keepRecord
  dsimp only
  generalize (if code ∈ unlimitedCodes then 256 else 240) = room
  split
  · exact State.logView_setFld s _ (by decide)
  · split
    next hheld =>
      split
      · exact State.logView_holdRecord r hheld
      · exact State.logView_setFld _ _ (by decide)
    next => exact s.logView_storeRecord r

@[simp ↓] theorem State.logView_writeRecord (s : State) (code : Nat) (r : List Byte) :
    (s.writeRecord code r).logView = s.logView := by
  rw [State.writeRecord_eq, State.logView_keepRecord]
  split <;> rfl

@[simp ↓] theorem State.logView_setBucket (s : State) (b : Bucket) : (s.setBucket b).logView = s.logView := rfl

@[simp ↓] theorem State.logView_summary (s : State) (code : Nat) : (s.summary code).logView = s.logView := by
  unfold State.summary
  dsimp only
  split
  · rw [State.logView_writeRecord, State.logView_setBucket]
  · rfl

theorem State.logView_summaries (s : State) : s.summaries.logView = s.logView := by
  have hall : ∀ (l : List Nat) (v : State), (l.foldl State.summary v).logView = v.logView := fun l => by
    induction l with
    | nil => exact fun _ => rfl
    | cons code l ih => exact fun v => (ih _).trans (v.logView_summary code)
  exact hall _ s

@[simp ↓] theorem State.logView_refillFirst (s : State) : s.refillFirst.logView = s.logView := by
  unfold State.refillFirst
  split
  · exact State.logView_summaries s.refillAll
  · rfl

theorem State.logView_recordCauses (s : State) (code : Nat) : (s.recordCauses code).logView = s.logView := by
  have hcause : ∀ (v : State) (c : Bool) (i : Nat), (if c then v.setCause i else v).logView = v.logView := fun v c i => by
    split
    · exact State.logView_of_store (v.store_setCause i)
    · rfl
  rw [State.recordCauses, hcause, hcause, State.logView_refillFirst]

@[simp ↓] theorem State.logView_record (s : State) (code payload : Nat) (src : Source) :
    (s.record code payload src).logView = s.logView := by
  rw [State.record_eq]
  split
  · rw [← s.logView_recordCauses code, State.limitRecord]
    split
    · exact State.logView_writeRecord ..
    · dsimp only
      split
      · rfl
      · exact State.logView_writeRecord ..
  · rfl

@[simp ↓] theorem State.logView_noteConfig (s : State) (r : Reg) (src : Source) :
    (s.noteConfig r src).logView = s.logView := State.logView_record (s.noteOwn r) Config.configCode 0 src

/-! ### What is read from it -/

theorem State.fld_of_logView {s u : State} (h : u.logView = s.logView) {f : Field} (hf : f ∈ logFields) :
    u.fld f = s.fld f := by
  simpa [State.logView, hf] using congrFun (congrArg Prod.fst h) f

theorem State.flag_of_logView {s u : State} (h : u.logView = s.logView) {f : Field} (hf : f ∈ logFields) :
    u.flag f = s.flag f := by
  rw [State.flag, State.fld_of_logView h hf, State.flag]

/-- Where no record is held, the pending buffer stays. -/
theorem State.pending_of_logView {s u : State} (h : u.logView = s.logView) (hf : s.flag Fld.BELFRY_CTL_FREEZE = false)
    (hd : s.sec.dmcDown = false) :
    u.bel.pending = s.bel.pending ∧ u.fld Fld.BELFRY_STAT_PENDING = s.fld Fld.BELFRY_STAT_PENDING := by
  have hpart := congrArg (fun x => x.2.2.1) h
  have hdmc : u.sec.dmcDown = s.sec.dmcDown := congrArg (fun x => x.2.1) h
  simpa [State.logView, State.flag_of_logView h (f := Fld.BELFRY_CTL_FREEZE) (by decide), hdmc, hf, hd] using hpart

theorem State.last_of_logView {s u : State} (h : u.logView = s.logView) :
    (s.flag Fld.BELFRY_STAT_COPY0_FAILED = true → u.mram.last0 = s.mram.last0) ∧
      (s.flag Fld.BELFRY_STAT_COPY1_FAILED = true → u.mram.last1 = s.mram.last1) := by
  have h0 := congrArg (fun x => x.2.2.2.1) h
  have h1 := congrArg (fun x => x.2.2.2.2) h
  simp only [State.logView, State.flag_of_logView h (f := Fld.BELFRY_STAT_COPY0_FAILED) (by decide),
    State.flag_of_logView h (f := Fld.BELFRY_STAT_COPY1_FAILED) (by decide)] at h0 h1
  refine ⟨fun hc => ?_, fun hc => ?_⟩
  · simpa [hc] using h0
  · simpa [hc] using h1

end Sys2Proof.Machine
end

section
/-! SUPPORT. Records stored one after another when the pending buffer drains (R398), and one event that is stored (R391, R393,
R395). -/

namespace Sys2Proof.Machine

/-! ### The pending buffer drains -/

@[simp ↓] theorem State.calm_endWrote (s : State) : s.endWrote.calm = s.calm := rfl

theorem State.endWrote_bel (s : State) : s.endWrote.bel = { s.bel with wrote := (s.now, 0) } := rfl

@[simp] theorem State.endWrote_fld (s : State) (f : Field) : s.endWrote.fld f = s.fld f := rfl

theorem State.wroteNow_endWrote (s : State) : s.endWrote.wroteNow = 0 := if_pos (beq_self_eq_true _)

/-- Records stored one after another, each behind all before it. -/
def State.storeAll (s : State) (l : List (List Byte)) : State := l.foldl (fun s r => (s.storeRecord r).endWrote) s

/-- What records stored one after another leave, and where they stand in LAST. -/
structure State.Stored (s u : State) (l : List (List Byte)) : Prop where
  calm : u.calm = s.calm
  bel : u.bel = { s.bel with wrote := u.bel.wrote }
  wrote : u.wroteNow = 0
  last0 : u.mram.last0 =
    if s.flag Fld.BELFRY_STAT_COPY0_FAILED then s.mram.last0 else l.foldl (ringPush 65536 0) s.mram.last0
  last1 : u.mram.last1 =
    if s.flag Fld.BELFRY_STAT_COPY1_FAILED then s.mram.last1 else l.foldl (ringPush 65536 0) s.mram.last1
  fields : ∀ f : Field, Fld.BELFRY_STAT_LAST_COUNT.apart f = true → f.reg ∈ belfryRegs → f.reg ≠ .BELFRY_TOTAL →
    u.fld f = s.fld f

theorem State.stored_one {s : State} (r : List Byte) (h : s.wroteNow = 0) :
    s.Stored (s.storeRecord r).endWrote [r] := by
  obtain ⟨hbel, h0, h1, -, hfld⟩ := s.storeRecord_spec r
  rw [h] at h0 h1
  refine ⟨s.calm_storeRecord r, ?_, State.wroteNow_endWrote _, h0, h1, hfld⟩
  rw [State.endWrote_bel, hbel]

theorem State.Stored.trans {s v u : State} {l m : List (List Byte)} (h : s.Stored v l) (h' : v.Stored u m) :
    s.Stored u (l ++ m) := by
  have hflag : ∀ f : Field, Fld.BELFRY_STAT_LAST_COUNT.apart f = true → f.reg ∈ belfryRegs →
      f.reg ≠ .BELFRY_TOTAL → v.flag f = s.flag f := fun f hf hr ht => by rw [State.flag, h.fields f hf hr ht, State.flag]
  refine ⟨h'.calm.trans h.calm, ?_, h'.wrote, ?_, ?_,
    fun f hf hr ht => (h'.fields f hf hr ht).trans (h.fields f hf hr ht)⟩
  · rw [h'.bel, h.bel]
  · rw [h'.last0, hflag _ (by decide) (by decide) (by decide), h.last0, List.foldl_append]
    split <;> rfl
  · rw [h'.last1, hflag _ (by decide) (by decide) (by decide), h.last1, List.foldl_append]
    split <;> rfl

theorem State.stored_storeAll {s : State} (l : List (List Byte)) (h : s.wroteNow = 0) : s.Stored (s.storeAll l) l := by
  induction l generalizing s with
  | nil => exact ⟨rfl, rfl, h, (ite_self _).symm, (ite_self _).symm, fun _ _ _ _ => rfl⟩
  | cons r l ih => exact (State.stored_one r h).trans (ih (State.wroteNow_endWrote _))

/-- The pending buffer empty, its records not yet stored. -/
def State.emptyPending (s : State) : State :=
  (({ s with bel := { s.bel with pending := [], dropped := 0 } } : State).setFld Fld.BELFRY_STAT_PENDING 0).endWrote

theorem State.drainPending_eq {s : State} (h : s.bel.dropped = 0) :
    s.drainPending = s.emptyPending.storeAll s.bel.pending := by
  unfold State.drainPending
  dsimp only
  rw [if_pos (beq_iff_eq.mpr h)]
  rfl

theorem State.calm_emptyPending (s : State) : s.emptyPending.calm = s.calm := by
  rw [State.emptyPending, State.calm_endWrote, State.calm_setFld _ (by decide) (by decide), State.calm_update_bel]

/-- FREEZE goes to 0 with no clear waiting and nothing dropped: what was held is stored in order (R398). -/
theorem State.unfreeze_eq {s : State} (hk : s.bel.clearKey = none) (hd : s.bel.dropped = 0) (hup : s.sec.dmcDown = false) :
    s.unfreeze = (s.setFlag Fld.BELFRY_CTL_FREEZE false).emptyPending.storeAll s.bel.pending := by
  unfold State.unfreeze
  dsimp only
  rw [State.setFlag_bel, hk]
  dsimp only
  rw [State.setFlag_sec, hup, if_neg (by decide), State.drainPending_eq (s := s.setFlag Fld.BELFRY_CTL_FREEZE false) hd,
    State.setFlag_bel]

/-- What a drained log shows: FREEZE is 0, and the records that waited stand in LAST in their order. -/
structure State.Drained (s u : State) : Prop where
  calm : u.calm = (s.setFlag Fld.BELFRY_CTL_FREEZE false).calm
  bel : u.bel = { s.bel with pending := [], dropped := 0, wrote := u.bel.wrote }
  wrote : u.wroteNow = 0
  count : u.fld Fld.BELFRY_STAT_PENDING = 0
  last0 : u.mram.last0 = if s.flag Fld.BELFRY_STAT_COPY0_FAILED then s.mram.last0
    else s.bel.pending.foldl (ringPush 65536 0) s.mram.last0
  last1 : u.mram.last1 = if s.flag Fld.BELFRY_STAT_COPY1_FAILED then s.mram.last1
    else s.bel.pending.foldl (ringPush 65536 0) s.mram.last1
  fields : ∀ f ∈ logFields, f ≠ Fld.BELFRY_CTL_FREEZE → u.fld f = s.fld f

theorem State.drained_unfreeze {s : State} (hk : s.bel.clearKey = none) (hd : s.bel.dropped = 0)
    (hup : s.sec.dmcDown = false) : s.Drained s.unfreeze := by
  let v := (s.setFlag Fld.BELFRY_CTL_FREEZE false).emptyPending
  have hfields : ∀ f : Field, Fld.BELFRY_CTL_FREEZE.apart f = true → Fld.BELFRY_STAT_PENDING.apart f = true →
      v.fld f = s.fld f := fun f hf hp =>
    (State.fld_setFld_of_apart _ 0 (by decide) hp).trans (s.fld_setFlag_of_apart false (by decide) hf)
  have hflag : ∀ f : Field, Fld.BELFRY_CTL_FREEZE.apart f = true → Fld.BELFRY_STAT_PENDING.apart f = true →
      v.flag f = s.flag f := fun f hf hp => by rw [State.flag, hfields f hf hp, State.flag]
  have hstored : v.Stored s.unfreeze s.bel.pending := by
    rw [State.unfreeze_eq hk hd hup]
    exact State.stored_storeAll _ (State.wroteNow_endWrote _)
  obtain ⟨hcalm, hbel, hwrote, h0, h1, hkept⟩ := hstored
  rw [hflag _ (by decide) (by decide)] at h0 h1
  refine ⟨hcalm.trans (State.calm_emptyPending _), hbel, hwrote, ?_, h0, h1, fun f hf hne => ?_⟩
  · rw [hkept _ (by decide) (by decide) (by decide)]
    exact State.fld_setFld_of_lt _ (by decide) (by decide)
  · have hoff : ∀ f ∈ logFields, f ≠ Fld.BELFRY_CTL_FREEZE → Fld.BELFRY_CTL_FREEZE.apart f = true ∧
        Fld.BELFRY_STAT_PENDING.apart f = true ∧ Fld.BELFRY_STAT_LAST_COUNT.apart f = true ∧ f.reg ∈ belfryRegs ∧
        f.reg ≠ .BELFRY_TOTAL := by decide
    obtain ⟨hfreeze, hpending, hcount, hreg, htotal⟩ := hoff f hf hne
    exact (hkept f hcount hreg htotal).trans (hfields f hfreeze hpending)

theorem State.Drained.freeze {s u : State} (h : s.Drained u) : u.flag Fld.BELFRY_CTL_FREEZE = false := by
  have hfld := State.fld_of_uneventful (State.uneventful_of_calm h.calm) (f := Fld.BELFRY_CTL_FREEZE) (by decide)
  rw [State.flag, hfld]
  exact State.flag_setFlag s false (by decide) rfl

theorem State.Drained.dmcDown {s u : State} (h : s.Drained u) : u.sec.dmcDown = s.sec.dmcDown :=
  congrArg (fun x => x.2.sec.dmcDown) h.calm

/-! ### One event that is stored -/

/-- With records stored as they come, an event that is no alert and passes the rate limit is stored. -/
theorem State.writeRecord_stored {s : State} {code : Nat} (r : List Byte) (hsev : severity code ≠ 2)
    (hlost : s.logLost = false) (hf : s.flag Fld.BELFRY_CTL_FREEZE = false) (hup : s.sec.dmcDown = false) :
    s.writeRecord code r = s.storeRecord r := by
  rw [State.writeRecord_eq, if_neg (by simpa using hsev), State.keepRecord, hlost, hf, hup]
  rfl

theorem State.refillFirst_not_due {s : State} (h : s.refillDue = false) : s.refillFirst = s := by
  rw [State.refillFirst, h]
  rfl

/-- The causes of an event, no refill being due, leave Belfry. -/
theorem State.store_recordCauses {s : State} (code : Nat) (h : s.refillDue = false) :
    (s.recordCauses code).store = s.store := by
  rw [State.recordCauses, State.refillFirst_not_due h]
  split
  · split <;> simp only [State.store_setCause]
  · split <;> simp only [State.store_setCause]

/-- A record is formed of the hours, the power cycles, the step and whether a run is on (R388). -/
theorem State.recordBytes_congr {s u : State} {code payload suppressed : Nat} {summary : Bool} {src : Source}
    (hr : u.running = s.running) (hm : u.mram.hours = s.mram.hours)
    (hp : u.fld Fld.BELFRY_TALLY_POWER_CYCLES = s.fld Fld.BELFRY_TALLY_POWER_CYCLES) (hs : u.stepNow = s.stepNow) :
    u.recordBytes code payload suppressed summary src = s.recordBytes code payload suppressed summary src := by
  rw [State.recordBytes, hr, hm, hp, hs, State.recordBytes]

theorem State.recordBytes_of_uneventful {s u : State} (h : u.uneventful = s.uneventful)
    (hp : u.fld Fld.BELFRY_TALLY_POWER_CYCLES = s.fld Fld.BELFRY_TALLY_POWER_CYCLES) (code payload suppressed : Nat)
    (summary : Bool) (src : Source) :
    u.recordBytes code payload suppressed summary src = s.recordBytes code payload suppressed summary src := by
  refine State.recordBytes_congr ?_ (congrArg (fun x => x.2.mram.hours) h) hp (State.fld_of_uneventful h (by decide))
  rw [State.running, State.flag, State.fld_of_uneventful h (by decide), State.running, State.flag]

section
variable {s : State} {code : Nat} (payload : Nat) (src : Source) (hsev : severity code ≠ 2) (hlost : s.logLost = false)
  (hf : s.flag Fld.BELFRY_CTL_FREEZE = false) (hup : s.sec.dmcDown = false)

include hsev hlost hf hup in
theorem State.writeRecord_of_store {c : State} (r : List Byte) (h : ∀ q ∈ belfryRegs, c.reg q = s.reg q)
    (hd : c.sec.dmcDown = s.sec.dmcDown) : c.writeRecord code r = c.storeRecord r := by
  have hflag : ∀ f : Field, f.reg ∈ belfryRegs → c.flag f = s.flag f := fun f hr => by
    rw [State.flag, State.fld, h _ hr, State.flag, State.fld]
  refine State.writeRecord_stored r hsev ?_ ((hflag _ (by decide)).trans hf) (hd.trans hup)
  rw [State.logLost, hflag _ (by decide), hflag _ (by decide)]
  exact hlost

variable (haux : s.pwr.auxGood = true) (hdue : s.refillDue = false)
include haux hdue

/-- The causes of an event leave its cycle, its bucket and the bytes of its record. -/
theorem State.recordCauses_spec : ∃ c : State, c.store = s.store ∧ c.now = s.now ∧ c.bucket code = s.bucket code ∧
    (∀ n, c.recordBytes code payload n false src = s.recordBytes code payload n false src) ∧
    s.record code payload src = c.limitRecord code payload src := by
  have hstore := State.store_recordCauses code hdue
  have hview := s.uneventful_recordCauses code
  refine ⟨s.recordCauses code, hstore, congrArg (fun x => x.2.now) hview, ?_, fun n => ?_, ?_⟩
  · rw [State.bucket, State.bel_of_store hstore, State.fld_of_store hstore (by decide), State.bucket]
  · exact State.recordBytes_of_uneventful hview (State.fld_of_store hstore (by decide)) ..
  · rw [State.record_eq, if_pos haux]

include hsev hlost hf hup

/-- An event that is never limited is stored, and uses no token (R392). -/
theorem State.record_unlimited (h : code ∈ unlimitedCodes) : ∃ c : State, c.store = s.store ∧ c.now = s.now ∧
    s.record code payload src = c.storeRecord (s.recordBytes code payload 0 false src) := by
  obtain ⟨c, hstore, hnow, -, hbytes, he⟩ := State.recordCauses_spec (code := code) payload src haux hdue
  refine ⟨c, hstore, hnow, ?_⟩
  rw [he, State.limitRecord, if_pos h, hbytes]
  exact State.writeRecord_of_store hsev hlost hf hup _ (fun q hq => State.reg_of_store hstore hq)
    (congrArg (fun x => x.2.2.2) hstore)

/-- An event with a token in its bucket is stored, and says what was suppressed before it (R391). -/
theorem State.record_limited (h : code ∉ unlimitedCodes) (htok : (s.bucket code).tokens ≠ 0) : ∃ c : State,
    c.store = s.store ∧ c.now = s.now ∧ s.record code payload src =
      (c.setBucket { s.bucket code with tokens := (s.bucket code).tokens - 1, suppressed := 0 }).storeRecord
        (s.recordBytes code payload (s.bucket code).suppressed false src) := by
  obtain ⟨c, hstore, hnow, hbucket, hbytes, he⟩ := State.recordCauses_spec (code := code) payload src haux hdue
  refine ⟨c, hstore, hnow, ?_⟩
  rw [he, State.limitRecord, if_neg h, hbucket]
  dsimp only
  rw [if_neg (by simpa using htok), hbytes]
  exact State.writeRecord_of_store hsev hlost hf hup _ (fun q hq => State.reg_of_store hstore hq)
    (congrArg (fun x => x.2.2.2) hstore)

end

end Sys2Proof.Machine
end

section
/-! SUPPORT. The scope: FREEZE written and expired, and a clear that waited (R398, R399, R401). -/

namespace Sys2Proof.Machine

/-! ### Writes of FREEZE -/

theorem Reg.noW1c_belfryCtl : Reg.BELFRY_CTL.noW1c := by
  show ∀ f ∈ Reg.BELFRY_CTL.layout, f.acc ≠ .w1c
  decide

theorem State.freeze_writeFields {s : State} {a : RegAcc} {n : Nat} (h : accField a Fld.BELFRY_CTL_FREEZE = some n) :
    (s.writeFields .BELFRY_CTL a).fld Fld.BELFRY_CTL_FREEZE = n :=
  State.fld_writeFields (f := Fld.BELFRY_CTL_FREEZE) Reg.noW1c_belfryCtl (by decide) h rfl

/-- What a write makes of FREEZE, its other fields taken: a start, an end, or nothing (R398, R401). -/
def State.freezeEdge (s w : State) : State :=
  if !s.flag Fld.BELFRY_CTL_FREEZE && w.flag Fld.BELFRY_CTL_FREEZE then
    ({ w with bel := { w.bel with freezeTick := w.mram.hours } } : State).endWrote
  else if s.flag Fld.BELFRY_CTL_FREEZE && !w.flag Fld.BELFRY_CTL_FREEZE then
    (if s.fld Fld.BELFRY_CTL_FREEZE_LIMIT != 0 && w.mram.hours == s.freezeEnd then w.incFld Fld.BELFRY_AT_LIMIT_FREEZE
      else w).unfreeze
  else w

/-- A change of the fields beside FREEZE is noted (R93). -/
def State.noteLimits (s u : State) (src : Source) : State :=
  if (u.reg .BELFRY_CTL).toNat / 2 == (s.reg .BELFRY_CTL).toNat / 2 then u else u.noteConfig .BELFRY_CTL src

theorem State.belfryCtl_eq (s : State) (a : RegAcc) :
    s.belfryCtl a = s.noteLimits (s.freezeEdge (s.writeFields .BELFRY_CTL a)) a.port.source := rfl

theorem execBelfryFreeze_reached {t : Nat} {a : RegAcc} {s : State} (h : s.reach a.port .BELFRY_CTL = true) :
    exec (.belfryFreezeSet t a) s = .next ((s.tick t).belfryCtl a) ∧
      exec (.belfryFreezeClear t a) s = .next ((s.tick t).belfryCtl a) :=
  ⟨State.access_reached (f := fun s => s.belfryCtl a) h, State.access_reached (f := fun s => s.belfryCtl a) h⟩

/-- The tick from which FREEZE counts, after a write that sets it. -/
def State.frozenSince (s : State) : Nat := if s.flag Fld.BELFRY_CTL_FREEZE then s.bel.freezeTick else s.mram.hours

/-- The state after a write that sets FREEZE, but for the note of other fields. -/
def State.frozenBy (s : State) (a : RegAcc) (wrote : Nat × Nat) : State :=
  { s.writeFields .BELFRY_CTL a with bel := { s.bel with freezeTick := s.frozenSince, wrote := wrote } }

/-- A write that sets FREEZE notes its tick, unless FREEZE was 1. -/
theorem State.freezeEdge_set {s : State} {a : RegAcc} (h : accField a Fld.BELFRY_CTL_FREEZE = some 1) :
    ∃ wrote, s.freezeEdge (s.writeFields .BELFRY_CTL a) = s.frozenBy a wrote := by
  have hw : (s.writeFields .BELFRY_CTL a).flag Fld.BELFRY_CTL_FREEZE = true := by
    rw [State.flag, State.freeze_writeFields h]
    rfl
  unfold State.freezeEdge State.frozenBy State.frozenSince
  rw [hw]
  cases s.flag Fld.BELFRY_CTL_FREEZE with
  | true => exact ⟨s.bel.wrote, rfl⟩
  | false => exact ⟨(s.now, 0), rfl⟩

theorem State.uneventful_noteLimits (s u : State) (src : Source) :
    (s.noteLimits u src).uneventful = u.uneventful ∨ (s.noteLimits u src).uneventful = (u.noteOwn .BELFRY_CTL).uneventful := by
  unfold State.noteLimits
  split
  · exact .inl rfl
  · exact .inr (State.uneventful_noteConfig ..)

theorem State.logView_noteLimits (s u : State) (src : Source) : (s.noteLimits u src).logView = u.logView := by
  unfold State.noteLimits
  split
  · rfl
  · exact State.logView_noteConfig ..

/-- FREEZE is bit 0: the other fields are what is left of the register without it. -/
theorem toNat_insertBits_freeze (v : W64) (n : Nat) : (insertBits v 0 1 n).toNat / 2 = v.toNat / 2 := by
  have h := bitsOf_insertBits_apart v 0 1 n 1 63 (by decide) (.inr (Nat.le_refl 1))
  have hlt := v.isLt
  have hlt' := (insertBits v 0 1 n).isLt
  simp only [bitsOf, Nat.pow_one] at h
  omega

/-- A drained log has the other fields of BELFRY_CTL as they were. -/
theorem State.Drained.limits {s u : State} (h : s.Drained u) :
    (u.reg .BELFRY_CTL).toNat / 2 = (s.reg .BELFRY_CTL).toNat / 2 := by
  rw [State.reg_of_uneventful (State.uneventful_of_calm h.calm) (by decide)]
  show ((s.setReg .BELFRY_CTL _).reg .BELFRY_CTL).toNat / 2 = _
  rw [State.reg_setReg]
  exact toNat_insertBits_freeze ..

/-- A write that clears FREEZE counts in its last tick and drains the pending buffer (R398). -/
theorem State.freezeEdge_clear {s : State} {a : RegAcc} (h : accField a Fld.BELFRY_CTL_FREEZE = some 0)
    (hwas : s.flag Fld.BELFRY_CTL_FREEZE = true) (hk : s.bel.clearKey = none) (hd : s.bel.dropped = 0)
    (hup : s.sec.dmcDown = false) :
    let w := s.writeFields .BELFRY_CTL a
    ∃ v : State, v.Drained (s.freezeEdge w) ∧ v.reg .BELFRY_CTL = w.reg .BELFRY_CTL ∧ v.bel = s.bel ∧ v.mram = s.mram ∧
      v.sec = s.sec ∧ v.reg .BELFRY_STAT = s.reg .BELFRY_STAT ∧ v.fld Fld.BELFRY_AT_LIMIT_FREEZE =
        (if s.fld Fld.BELFRY_CTL_FREEZE_LIMIT ≠ 0 ∧ s.mram.hours = s.freezeEnd then
          satAdd Fld.BELFRY_AT_LIMIT_FREEZE.w (s.fld Fld.BELFRY_AT_LIMIT_FREEZE) 1
        else s.fld Fld.BELFRY_AT_LIMIT_FREEZE) := by
  intro w
  have hw : w.flag Fld.BELFRY_CTL_FREEZE = false := by rw [State.flag, State.freeze_writeFields h]; rfl
  have hstat : w.reg .BELFRY_STAT = s.reg .BELFRY_STAT := State.reg_writeFields_ne (by decide)
  have hlim : w.fld Fld.BELFRY_AT_LIMIT_FREEZE = s.fld Fld.BELFRY_AT_LIMIT_FREEZE :=
    State.fld_writeFields_ne (by decide)
  rw [State.freezeEdge, hw, hwas]
  by_cases hin : s.fld Fld.BELFRY_CTL_FREEZE_LIMIT ≠ 0 ∧ s.mram.hours = s.freezeEnd
  · refine ⟨w.incFld Fld.BELFRY_AT_LIMIT_FREEZE, ?_, State.reg_setFld_ne _ _ (by decide), rfl, rfl, rfl,
      (State.reg_setFld_ne _ _ (by decide)).trans hstat, ?_⟩
    · have hcond : (s.fld Fld.BELFRY_CTL_FREEZE_LIMIT != 0 && w.mram.hours == s.freezeEnd) = true := by
        rw [show w.mram = s.mram from rfl]
        simpa using hin
      rw [hcond]
      exact State.drained_unfreeze hk hd hup
    · rw [if_pos hin, State.fld_incFld _ (by decide), hlim]
  · refine ⟨w, ?_, rfl, rfl, rfl, rfl, hstat, ?_⟩
    · have hcond : (s.fld Fld.BELFRY_CTL_FREEZE_LIMIT != 0 && w.mram.hours == s.freezeEnd) = false := by
        rw [show w.mram = s.mram from rfl]
        simpa using hin
      rw [hcond]
      exact State.drained_unfreeze hk hd hup
    · rw [if_neg hin, hlim]

/-! ### A clear -/

theorem State.refillTick_keepRecord (s : State) (code : Nat) (r : List Byte) :
    (s.keepRecord code r).bel.refillTick = s.bel.refillTick := by
  unfold State.keepRecord
  dsimp only
  generalize (if code ∈ unlimitedCodes then 256 else 240) = room
  split
  · rfl
  · split
    · split <;> rfl
    · rw [(s.storeRecord_spec r).1]

theorem State.refillTick_summaries (s : State) : s.summaries.bel.refillTick = s.bel.refillTick := by
  have hone : ∀ (v : State) (code : Nat), (v.summary code).bel.refillTick = v.bel.refillTick := fun v code => by
    unfold State.summary
    dsimp only
    split
    · rw [State.writeRecord_eq, State.refillTick_keepRecord]
      split <;> rfl
    · rfl
  have hall : ∀ (l : List Nat) (v : State), (l.foldl State.summary v).bel.refillTick = v.bel.refillTick := fun l => by
    induction l with
    | nil => exact fun _ => rfl
    | cons code l ih => exact fun v => (ih _).trans (hone v code)
  exact hall _ s

/-- A tick has one refill (R391). -/
theorem State.refillDue_refillFirst {s : State} (h : s.fld Fld.BELFRY_CTL_RATE_TICKS ≠ 0) :
    s.refillFirst.refillDue = false := by
  unfold State.refillFirst
  split
  next hdue =>
    have hcalm : s.refillAll.summaries.calm = s.calm := (State.calm_summaries _).trans s.calm_refillAll
    have hrate := State.fld_of_uneventful (State.uneventful_of_calm hcalm) (f := Fld.BELFRY_CTL_RATE_TICKS) (by decide)
    have hhours : s.refillAll.summaries.mram.hours = s.mram.hours := congrArg (fun x => x.2.mram.hours) hcalm
    have htick : s.refillAll.summaries.bel.refillTick = s.mram.hours := State.refillTick_summaries _
    rw [State.refillDue, hrate, hhours, htick]
    simp only [decide_eq_false_iff_not]
    omega
  next hdue => simpa using hdue

/-- LAST empty in each good copy, and no clear waiting. -/
def State.emptyLast (s : State) : State := { s with
  mram := { s.mram with
    last0 := if s.flag Fld.BELFRY_STAT_COPY0_FAILED then s.mram.last0 else []
    last1 := if s.flag Fld.BELFRY_STAT_COPY1_FAILED then s.mram.last1 else [] }
  bel := { s.bel with clearKey := none } }

/-- A clear shown and counted, its record not yet made (R399). -/
def State.clearAreas (s : State) : State :=
  ((s.emptyLast.setFld Fld.BELFRY_STAT_LAST_COUNT 0).setFlag Fld.BELFRY_STAT_CLEAR_PENDING false).endWrote.incFld
    Fld.BELFRY_TALLY_LOG_CLEARS

theorem State.clearLast_eq (s : State) (k : Nat) : s.clearLast k = (s.refillFirst.clearAreas.record 0x9001
    (s.refillFirst.fld Fld.BELFRY_STAT_LAST_COUNT + k * 2 ^ 32) .dmc).endWrote := by
  unfold State.clearLast State.clearAreas State.emptyLast
  rfl

theorem State.fld_update_belfry (s : State) (m : Mram) (b : BelfrySt) (f : Field) :
    State.fld { s with mram := m, bel := b } f = s.fld f := rfl

theorem State.emptyLast_fld (s : State) (f : Field) : s.emptyLast.fld f = s.fld f := s.fld_update_belfry _ _ f

theorem State.clearAreas_fields (s : State) : s.clearAreas.fld Fld.BELFRY_STAT_LAST_COUNT = 0 ∧
    s.clearAreas.flag Fld.BELFRY_STAT_CLEAR_PENDING = false ∧
    s.clearAreas.fld Fld.BELFRY_TALLY_LOG_CLEARS =
      satAdd Fld.BELFRY_TALLY_LOG_CLEARS.w (s.fld Fld.BELFRY_TALLY_LOG_CLEARS) 1 ∧
    ∀ f : Field, Fld.BELFRY_STAT_LAST_COUNT.apart f = true → Fld.BELFRY_STAT_CLEAR_PENDING.apart f = true →
      Fld.BELFRY_TALLY_LOG_CLEARS.apart f = true → s.clearAreas.fld f = s.fld f := by
  refine ⟨?_, ?_, ?_, fun f hc hp ht => ?_⟩
  · rw [State.clearAreas, State.fld_incFld_of_apart _ (by decide) (by decide), State.endWrote_fld,
      State.fld_setFlag_of_apart _ _ (by decide) (by decide), State.fld_setFld_of_lt _ (by decide) (by decide)]
  · rw [State.flag, State.clearAreas, State.fld_incFld_of_apart _ (by decide) (by decide), State.endWrote_fld,
      ← State.flag]
    exact State.flag_setFlag _ false (by decide) rfl
  · rw [State.clearAreas, State.fld_incFld _ (by decide), State.endWrote_fld,
      State.fld_setFlag_of_apart _ _ (by decide) (by decide), State.fld_setFld_of_apart _ _ (by decide) (by decide),
      State.emptyLast_fld]
  · rw [State.clearAreas, State.fld_incFld_of_apart _ (by decide) ht, State.endWrote_fld,
      State.fld_setFlag_of_apart _ _ (by decide) hp, State.fld_setFld_of_apart _ _ (by decide) hc, State.emptyLast_fld]

/-- Of the parts that no event changes, a clear takes the key that waited alone. -/
theorem State.uneventful_clearAreas (s : State) : s.clearAreas.uneventful =
    State.uneventful { s with bel := { s.bel with clearKey := none } } := by
  refine State.uneventful_of_calm ?_
  rw [State.clearAreas, State.calm_incFld (by decide) (by decide), State.calm_endWrote, State.setFlag,
    State.calm_setFld _ (by decide) (by decide), State.calm_setFld _ (by decide) (by decide)]
  rfl

/-- The newest record is the only one of an empty ring. -/
theorem ringPush_nil (n : Nat) (r : List Byte) : ringPush 65536 n [] r = [r] := by
  simp [ringPush, placeRecord]

/-- What a clear leaves once the record of it is stored. -/
structure State.Cleared (s u : State) (r : List Byte) : Prop where
  bel : u.bel = { s.bel with clearKey := none, wrote := u.bel.wrote }
  count : u.fld Fld.BELFRY_STAT_LAST_COUNT = 1
  pending : u.flag Fld.BELFRY_STAT_CLEAR_PENDING = false
  clears : u.fld Fld.BELFRY_TALLY_LOG_CLEARS =
    satAdd Fld.BELFRY_TALLY_LOG_CLEARS.w (s.fld Fld.BELFRY_TALLY_LOG_CLEARS) 1
  last0 : u.mram.last0 = if s.flag Fld.BELFRY_STAT_COPY0_FAILED then s.mram.last0 else [r]
  last1 : u.mram.last1 = if s.flag Fld.BELFRY_STAT_COPY1_FAILED then s.mram.last1 else [r]

/-- The record of a clear stands alone in LAST of each good copy, with no token used (R392, R399). -/
theorem State.cleared_record {s : State} (payload : Nat) (haux : s.pwr.auxGood = true) (hdue : s.refillDue = false)
    (hlost : s.logLost = false) (hf : s.flag Fld.BELFRY_CTL_FREEZE = false) (hup : s.sec.dmcDown = false) :
    s.Cleared (s.clearAreas.record 0x9001 payload .dmc).endWrote (s.recordBytes 0x9001 payload 0 false .dmc) := by
  obtain ⟨hcount, hpending, hclears, hkept⟩ := s.clearAreas_fields
  have hview := s.uneventful_clearAreas
  have hflag : ∀ f : Field, Fld.BELFRY_STAT_LAST_COUNT.apart f = true → Fld.BELFRY_STAT_CLEAR_PENDING.apart f = true →
      Fld.BELFRY_TALLY_LOG_CLEARS.apart f = true → s.clearAreas.flag f = s.flag f := fun f hc hp ht => by
    rw [State.flag, hkept f hc hp ht, State.flag]
  have hnone : s.clearAreas.refillDue = false := by
    rw [State.refillDue, hkept _ (by decide) (by decide) (by decide)]
    exact hdue
  have hgood : s.clearAreas.logLost = false := by
    rw [State.logLost, hflag _ (by decide) (by decide) (by decide), hflag _ (by decide) (by decide) (by decide)]
    exact hlost
  obtain ⟨c, hstore, hnow, he⟩ := State.record_unlimited (s := s.clearAreas) (code := 0x9001) payload .dmc (by decide)
    hgood ((hflag _ (by decide) (by decide) (by decide)).trans hf) hup haux hnone (by decide)
  have hbytes : s.clearAreas.recordBytes 0x9001 payload 0 false .dmc = s.recordBytes 0x9001 payload 0 false .dmc :=
    State.recordBytes_of_uneventful (s := { s with bel := { s.bel with clearKey := none } }) hview
      (hkept _ (by decide) (by decide) (by decide)) ..
  rw [he, hbytes]
  obtain ⟨hbel, h0, h1, hlast, hfld⟩ := c.storeRecord_spec (s.recordBytes 0x9001 payload 0 false .dmc)
  obtain ⟨hc0, hc1⟩ := State.last_of_store hstore
  have hcflag : ∀ f : Field, f.reg ∈ belfryRegs → c.flag f = s.clearAreas.flag f := fun f hr => by
    rw [State.flag, State.fld_of_store hstore hr, State.flag]
  refine ⟨?_, ?_, ?_, ?_, ?_, ?_⟩
  · rw [State.endWrote_bel, hbel, State.bel_of_store hstore]
    rfl
  · refine hlast.trans ?_
    rw [State.fld_of_store hstore (by decide), hcount]
    rfl
  · rw [State.flag, State.endWrote_fld, hfld _ (by decide) (by decide) (by decide), ← State.flag, hcflag _ (by decide),
      hpending]
  · refine (hfld _ (by decide) (by decide) (by decide)).trans ?_
    rw [State.fld_of_store hstore (by decide), hclears]
  · refine h0.trans ?_
    rw [hcflag _ (by decide), hflag _ (by decide) (by decide) (by decide), hc0]
    show (if _ then (if _ then _ else _) else ringPush 65536 _ (if _ then _ else _) _) = _
    cases s.flag Fld.BELFRY_STAT_COPY0_FAILED with
    | true => rfl
    | false => exact ringPush_nil ..
  · refine h1.trans ?_
    rw [hcflag _ (by decide), hflag _ (by decide) (by decide) (by decide), hc1]
    show (if _ then (if _ then _ else _) else ringPush 65536 _ (if _ then _ else _) _) = _
    cases s.flag Fld.BELFRY_STAT_COPY1_FAILED with
    | true => rfl
    | false => exact ringPush_nil ..

/-! ### Together -/

/-- A write that sets FREEZE: its fields and its tick, and events alone beside them; none where no other field changes. -/
theorem State.belfryCtl_set {s : State} {a : RegAcc} (h : accField a Fld.BELFRY_CTL_FREEZE = some 1) :
    let w := s.writeFields .BELFRY_CTL a
    let u := s.belfryCtl a
    u.flag Fld.BELFRY_CTL_FREEZE = true ∧ u.reg .BELFRY_CTL = w.reg .BELFRY_CTL ∧ u.bel.freezeTick = s.frozenSince ∧
      State.onlyEvents { s with bel := { s.bel with freezeTick := s.frozenSince } } u [.BELFRY_CTL] ∧
      ((w.reg .BELFRY_CTL).toNat / 2 = (s.reg .BELFRY_CTL).toNat / 2 → u.mram = s.mram ∧
        u.bel.pending = s.bel.pending ∧ u.jrnl = s.jrnl ∧ u.emitted = s.emitted) := by
  obtain ⟨wrote, he⟩ := State.freezeEdge_set h
  have hw : (s.writeFields .BELFRY_CTL a).fld Fld.BELFRY_CTL_FREEZE = 1 := State.freeze_writeFields h
  have hkeeps : ∀ q ∉ eventRegs ++ [.BELFRY_CTL], (s.writeFields .BELFRY_CTL a).reg q = s.reg q := fun q hq =>
    State.reg_writeFields_ne fun e => hq (List.mem_append_right _ (List.mem_singleton.mpr e))
  have hedge : State.onlyEvents { s with bel := { s.bel with freezeTick := s.frozenSince } } (s.frozenBy a wrote)
      [.BELFRY_CTL] := ⟨hkeeps, rfl⟩
  have hnoted : State.onlyEvents { s with bel := { s.bel with freezeTick := s.frozenSince } }
      ((s.frozenBy a wrote).noteOwn .BELFRY_CTL) [.BELFRY_CTL] := ⟨hkeeps, rfl⟩
  rw [State.belfryCtl_eq, he]
  have hreg : (s.noteLimits (s.frozenBy a wrote) a.port.source).reg .BELFRY_CTL =
      (s.writeFields .BELFRY_CTL a).reg .BELFRY_CTL := by
    rcases s.uneventful_noteLimits (s.frozenBy a wrote) a.port.source with hv | hv
    · exact State.reg_of_uneventful hv (by decide)
    · exact State.reg_of_uneventful hv (by decide)
  refine ⟨?_, hreg, ?_, ?_, fun hsame => ?_⟩
  · rw [State.flag, State.fld, show Fld.BELFRY_CTL_FREEZE.reg = .BELFRY_CTL from rfl, hreg]
    exact beq_iff_eq.mpr hw
  · rcases s.uneventful_noteLimits (s.frozenBy a wrote) a.port.source with hv | hv
    · exact congrArg (fun x => x.2.bel.freezeTick) hv
    · exact congrArg (fun x => x.2.bel.freezeTick) hv
  · rcases s.uneventful_noteLimits (s.frozenBy a wrote) a.port.source with hv | hv
    · exact hedge.of_uneventful hv
    · exact hnoted.of_uneventful hv
  · have hsame' : ((s.frozenBy a wrote).reg .BELFRY_CTL).toNat / 2 = (s.reg .BELFRY_CTL).toNat / 2 := hsame
    rw [State.noteLimits, if_pos (beq_iff_eq.mpr hsame')]
    exact ⟨rfl, rfl, rfl, rfl⟩

/-- A write that clears FREEZE with no clear waiting and nothing dropped (R398). -/
theorem State.belfryCtl_clear {s : State} {a : RegAcc} (h : accField a Fld.BELFRY_CTL_FREEZE = some 0)
    (hwas : s.flag Fld.BELFRY_CTL_FREEZE = true) (hk : s.bel.clearKey = none) (hd : s.bel.dropped = 0)
    (hup : s.sec.dmcDown = false) :
    let w := s.writeFields .BELFRY_CTL a
    let u := s.belfryCtl a
    u.flag Fld.BELFRY_CTL_FREEZE = false ∧ u.bel.pending = [] ∧ u.fld Fld.BELFRY_STAT_PENDING = 0 ∧
      ((w.reg .BELFRY_CTL).toNat / 2 = (s.reg .BELFRY_CTL).toNat / 2 →
        u.mram.last0 = (if s.flag Fld.BELFRY_STAT_COPY0_FAILED then s.mram.last0
          else s.bel.pending.foldl (ringPush 65536 0) s.mram.last0) ∧
        u.mram.last1 = (if s.flag Fld.BELFRY_STAT_COPY1_FAILED then s.mram.last1
          else s.bel.pending.foldl (ringPush 65536 0) s.mram.last1)) ∧
      u.fld Fld.BELFRY_AT_LIMIT_FREEZE =
        (if s.fld Fld.BELFRY_CTL_FREEZE_LIMIT ≠ 0 ∧ s.mram.hours = s.freezeEnd then
          satAdd Fld.BELFRY_AT_LIMIT_FREEZE.w (s.fld Fld.BELFRY_AT_LIMIT_FREEZE) 1
        else s.fld Fld.BELFRY_AT_LIMIT_FREEZE) := by
  obtain ⟨v, hv, hctl, hbel, hmram, hsec, hstat, hlim⟩ := State.freezeEdge_clear h hwas hk hd hup
  dsimp only
  rw [State.belfryCtl_eq]
  generalize hx : s.freezeEdge (s.writeFields .BELFRY_CTL a) = x at hv
  have hview := s.logView_noteLimits x a.port.source
  have hdmc : x.sec.dmcDown = false := hv.dmcDown.trans (hsec ▸ hup)
  obtain ⟨hbuf, hcount⟩ := State.pending_of_logView hview hv.freeze hdmc
  refine ⟨(State.flag_of_logView hview (by decide)).trans hv.freeze, ?_, hcount.trans hv.count, fun hsame => ?_, ?_⟩
  · rw [hbuf, hv.bel]
  · have hflag : ∀ f : Field, f.reg = .BELFRY_STAT → v.flag f = s.flag f := fun f hf => by
      rw [State.flag, State.fld, hf, hstat, State.flag, State.fld, hf]
    have hnone : (x.reg .BELFRY_CTL).toNat / 2 = (s.reg .BELFRY_CTL).toNat / 2 := by
      rw [hv.limits, hctl]
      exact hsame
    rw [State.noteLimits, if_pos (beq_iff_eq.mpr hnone), hv.last0, hv.last1, hbel, hmram, hflag _ rfl, hflag _ rfl]
    exact ⟨rfl, rfl⟩
  · rw [State.fld_of_logView hview (by decide), hv.fields _ (by decide) (by decide), hlim]

theorem execFreezeExpired_due {t : Nat} {s : State} (haux : s.pwr.auxGood = true)
    (hf : s.flag Fld.BELFRY_CTL_FREEZE = true) (hlim : s.fld Fld.BELFRY_CTL_FREEZE_LIMIT ≠ 0)
    (hover : s.freezeEnd < s.mram.hours) : exec (.freezeExpired t) s =
      .next ((s.tick t).unfreeze.record 0x9005 (s.fld Fld.BELFRY_CTL_FREEZE_LIMIT) .dmc) := by
  have hend : (s.tick t).freezeEnd < s.mram.hours := hover
  show execFreezeExpired t s = _
  rw [execFreezeExpired, State.when_due]
  · rfl
  · simp [haux, hf, hlim, hend]

/-- A drained log takes the record of the expiry behind those that waited (R398). -/
theorem State.Drained.expired {s x : State} (h : s.Drained x) (haux : s.pwr.auxGood = true)
    (hup : s.sec.dmcDown = false) (hlost : s.logLost = false) (hdue : s.refillDue = false)
    (htok : (s.bucket 0x9005).tokens ≠ 0) (payload : Nat) :
    (x.record 0x9005 payload .dmc).mram.last0 = if s.flag Fld.BELFRY_STAT_COPY0_FAILED then s.mram.last0
      else ringPush 65536 0 (s.bel.pending.foldl (ringPush 65536 0) s.mram.last0)
        (s.recordBytes 0x9005 payload (s.bucket 0x9005).suppressed false .dmc) := by
  have hview := State.uneventful_of_calm h.calm
  have hctl : ∀ f : Field, f.reg ∉ eventRegs → Fld.BELFRY_CTL_FREEZE.apart f = true → x.fld f = s.fld f :=
    fun f hr hf => (State.fld_of_uneventful hview hr).trans (s.fld_setFlag_of_apart false (by decide) hf)
  have hflag : ∀ f ∈ logFields, f ≠ Fld.BELFRY_CTL_FREEZE → x.flag f = s.flag f := fun f hf hne => by
    rw [State.flag, h.fields f hf hne, State.flag]
  have hhours : x.mram.hours = s.mram.hours := congrArg (fun y => y.2.mram.hours) hview
  have hxaux : x.pwr.auxGood = true := (congrArg (fun y => y.2.pwr.auxGood) hview).trans haux
  have hxdue : x.refillDue = false := by
    rw [State.refillDue, hctl _ (by decide) (by decide), hhours, h.bel]
    exact hdue
  have hxlost : x.logLost = false := by
    rw [State.logLost, hflag _ (by decide) (by decide), hflag _ (by decide) (by decide)]
    exact hlost
  have hbucket : x.bucket 0x9005 = s.bucket 0x9005 := by
    rw [State.bucket, hctl _ (by decide) (by decide), h.bel, State.bucket]
  have hbytes : ∀ n, x.recordBytes 0x9005 payload n false .dmc = s.recordBytes 0x9005 payload n false .dmc := fun n => by
    refine State.recordBytes_congr ?_ hhours (h.fields _ (by decide) (by decide)) (hctl _ (by decide) (by decide))
    rw [State.running, State.flag, hctl _ (by decide) (by decide), State.running, State.flag]
  obtain ⟨c, hstore, hnow, he⟩ := State.record_limited (code := 0x9005) payload .dmc (by decide) hxlost h.freeze
    (h.dmcDown.trans hup) hxaux hxdue (by decide) (by rw [hbucket]; exact htok)
  have hwrote : c.wroteNow = 0 := (State.wroteNow_congr (State.bel_of_store hstore) hnow).trans h.wrote
  obtain ⟨-, h0, -⟩ := (c.setBucket { x.bucket 0x9005 with
    tokens := (x.bucket 0x9005).tokens - 1, suppressed := 0 }).storeRecord_spec
      (x.recordBytes 0x9005 payload (x.bucket 0x9005).suppressed false .dmc)
  have hset : ∀ b : Bucket, (c.setBucket b).flag Fld.BELFRY_STAT_COPY0_FAILED = s.flag Fld.BELFRY_STAT_COPY0_FAILED ∧
      (c.setBucket b).mram.last0 = x.mram.last0 ∧ (c.setBucket b).wroteNow = 0 := fun b => by
    refine ⟨?_, (State.last_of_store hstore).1, hwrote⟩
    rw [← hflag _ (by decide) (by decide), State.flag, State.flag, ← State.fld_of_store hstore (by decide)]
    rfl
  rw [he, h0, (hset _).1, (hset _).2.1, (hset _).2.2, h.last0, hbytes, hbucket]
  split <;> rfl

theorem execBelfryCleared_due {t k : Nat} {s : State} (haux : s.pwr.auxGood = true) (hk : s.bel.clearKey = some k)
    (hf : s.flag Fld.BELFRY_CTL_FREEZE = false) : exec (.belfryCleared t) s = .next ((s.tick t).clearLast k) := by
  have hk' : (s.tick t).bel.clearKey = some k := hk
  show execBelfryCleared t s = _
  rw [execBelfryCleared, State.when_due]
  · rw [hk']
    rfl
  · simp [haux, hf, hk]

/-- Settles O18: a write of FREEZE is its edge and a note, whose event leaves what FREEZE keeps; an end of FREEZE drains the
log, and a clear empties LAST before its record is stored. -/
theorem freezeAndClear : Obligations.FreezeAndClear := by
  unfold Obligations.FreezeAndClear
  refine ⟨fun t a s hreach => ⟨fun hset => ?set, fun hclear hwas hk hd hup => ?clear⟩,
    fun t s haux hf hlim hover hk hd hup hlost => ?expired, fun t k s haux hk hf hlost hup hrate => ?cleared⟩
  case set => exact ⟨_, (execBelfryFreeze_reached hreach).1, State.belfryCtl_set (s := s.tick t) hset⟩
  case clear =>
    exact ⟨_, (execBelfryFreeze_reached hreach).2, State.belfryCtl_clear (s := s.tick t) hclear hwas hk hd hup⟩
  case expired =>
    have hx : (s.tick t).Drained (s.tick t).unfreeze := State.drained_unfreeze hk hd hup
    refine ⟨_, execFreezeExpired_due haux hf hlim hover, (State.flag_record _ _ _ _ (by decide)).trans hx.freeze, ?_,
      fun hdue htok => hx.expired haux hup hlost hdue htok _⟩
    obtain ⟨hbuf, -⟩ := State.pending_of_logView ((s.tick t).unfreeze.logView_record 0x9005
      (s.fld Fld.BELFRY_CTL_FREEZE_LIMIT) .dmc) hx.freeze (hx.dmcDown.trans hup)
    rw [hbuf, hx.bel]
  case cleared =>
    intro v r
    have hview : v.logView = s.logView := (s.tick t).logView_refillFirst
    have hcalm := (s.tick t).calm_refillFirst
    have hvf : v.flag Fld.BELFRY_CTL_FREEZE = false := (State.flag_of_logView hview (by decide)).trans hf
    have hvlost : v.logLost = false := by
      rw [State.logLost, State.flag_of_logView hview (by decide), State.flag_of_logView hview (by decide)]
      exact hlost
    obtain ⟨hbuf, -⟩ := State.pending_of_logView hview hf hup
    obtain ⟨hlast0, hlast1⟩ := State.last_of_logView hview
    obtain ⟨hbel, hcount, hpending, hclears, h0, h1⟩ := State.cleared_record (s := v)
      (v.fld Fld.BELFRY_STAT_LAST_COUNT + k * 2 ^ 32) ((congrArg (fun x => x.2.pwr.auxGood) hcalm).trans haux)
      (State.refillDue_refillFirst (s := s.tick t) hrate) hvlost hvf
      ((congrArg (fun x => x.2.sec.dmcDown) hcalm).trans hup)
    refine ⟨_, (execBelfryCleared_due haux hk hf).trans (congrArg _ (State.clearLast_eq ..)), ?_, ?_, ?_, hcount,
      hpending, ?_, ?_, ?_⟩
    · rw [hbel]
    · rw [hbel, ← hbuf]
    · rw [hbel]
    · rw [hclears, State.fld_of_logView hview (by decide)]
    · rw [h0, State.flag_of_logView hview (by decide)]
      split
      · exact hlast0 ‹_›
      · rfl
    · rw [h1, State.flag_of_logView hview (by decide)]
      split
      · exact hlast1 ‹_›
      · rfl

end Sys2Proof.Machine
end

section
/-! SUPPORT. Sequencers: the core whose entry is due, and what GATHER, SYNC, BARRIER_RELEASE and WRITEBACK do (R80, R103,
R215, R217, R250, R296). -/

namespace Sys2Proof.Machine

/-! ### The core whose entry is due -/

/-- A core whose entry is due has not ended its table. -/
theorem State.entryDue_core {s : State} {node op : Nat} {c : CoreSt} {e : SeqEntry}
    (h : s.entryDue node op = some (c, e)) : s.core node = some c ∧ c.ended = false := by
  unfold State.entryDue at h
  split at h
  next c' hc =>
    split at h
    next e' he =>
      split at h
      next hdue =>
        cases h
        simp only [Bool.and_eq_true, Bool.not_eq_true'] at hdue
        obtain ⟨⟨⟨⟨-, hended⟩, -⟩, -⟩, -⟩ := hdue
        exact ⟨hc, hended⟩
      next => cases h
    next => cases h
  next => cases h

theorem State.core_onCore_self {s : State} {node : Nat} {c : CoreSt} {f : CoreSt → CoreSt} (h : s.core node = some c)
    (hf : ∀ c, (f c).node = c.node) : (s.onCore node f).core node = some (f c) := by
  rw [State.core_onCore s node node hf, h, Option.map_some, if_pos rfl]

theorem State.core_node {s : State} {node : Nat} {c : CoreSt} (h : s.core node = some c) :
    c ∈ s.ex.cores ∧ c.node = node :=
  ⟨List.mem_of_find?_eq_some h, beq_iff_eq.mp (List.find?_some (p := fun x : CoreSt => x.node == node) h)⟩

/-! ### GATHER and WRITEBACK -/

theorem State.coreFault_ok (s : State) (node : Nat) : s.coreFault node .ok = s := by
  unfold State.coreFault
  split <;> rfl

theorem State.coreFault_residue {s : State} {node site : Nat} (h : s.siteOf (node / 1024) (node % 1024) = some site) :
    s.coreFault node .residue = s.damage (.charge site 0) := by
  rw [State.coreFault, h]

/-- A core with the values that were committed before its slot. -/
def State.gathers (s : State) (node : Nat) : State :=
  s.onCore node fun c => { c.advance with gathered := s.ex.snap }

section
variable {t node : Nat} {c : CoreSt} {e : SeqEntry} {s : State}

theorem execGather_due (h : (s.tick t).entryDue node 1 = some (c, e)) (hr : (s.tick t).gatherReady c = true)
    (f : CoreFault) : exec (.gather t node f) s = .next (((s.tick t).gathers node).coreFault node f) := by
  show execGather t node f s = _
  rw [execGather, State.when_due (by rw [h]; exact hr)]
  rfl

theorem execGather_not_due (h : (s.tick t).entryDue node 1 = none) (f : CoreFault) :
    exec (.gather t node f) s = .next (s.tick t) := by
  show execGather t node f s = _
  rw [execGather, State.when_not_due (by rw [h])]

theorem execWriteback_due (h : (s.tick t).entryDue node 5 = some (c, e))
    (hr : (s.tick t).lastSweep = false ∨ c.pass + 1 < s.replicas ∨ (s.tick t).controllerDone = true) :
    exec (.writeback t node) s = .next ((s.tick t).onCore node fun c => { c.advance with
      written := (s.tick t).controllerDone && (s.tick t).lastSweep || c.written }) := by
  have hr' : (!(s.tick t).lastSweep || decide (c.pass + 1 < (s.tick t).replicas) || (s.tick t).controllerDone) = true := by
    rw [show (s.tick t).replicas = s.replicas from rfl]
    simpa [or_assoc] using hr
  show execWriteback t node s = _
  rw [execWriteback, State.when_due (by rw [h]; exact hr')]

end

/-! ### Flits dropped and in error -/

/-- A change to a site that leaves a count leaves it at every site of the grid. -/
theorem State.flitErrors_onSite {s : State} {i r : Nat} {f : SiteSt → SiteSt}
    (hf : ∀ x, (f x).flitErrors = x.flitErrors) (hr : r < s.sites.length) :
    ((s.onSite i f).site r).flitErrors = (s.site r).flitErrors := by
  by_cases he : r = i
  · subst he
    rw [State.site_onSite f hr, hf]
  · rw [State.site_onSite_ne s f he]

theorem State.ghost_spec {s : State} (site n : Nat) :
    (s.ghost site n).ex = s.ex ∧ (s.ghost site n).sites.length = s.sites.length ∧
      (site < s.sites.length → ((s.ghost site n).site site).ghostFlits = satAdd 32 (s.site site).ghostFlits n) ∧
      ∀ r < s.sites.length, ((s.ghost site n).site r).flitErrors = (s.site r).flitErrors := by
  refine ⟨rfl, List.length_modify .., fun h => ?_, fun r hr => ?_⟩
  · exact congrArg SiteSt.ghostFlits (State.site_onSite _ h)
  · exact State.flitErrors_onSite (fun _ => rfl) hr

/-- A parity error counts against its router and marks the step. -/
theorem State.flitParity_spec {s : State} {r : Nat} (h : r < s.sites.length) :
    (s.flitParity r).slog.rerun = true ∧ ((s.flitParity r).site r).flitErrors = (s.site r).flitErrors + 1 := by
  unfold State.flitParity
  dsimp only
  split
  · exact ⟨rfl, congrArg SiteSt.flitErrors (State.site_onSite _ h)⟩
  · exact ⟨rfl, congrArg SiteSt.flitErrors (State.site_onSite _ h)⟩

/-! ### SYNC -/

/-- An arrival is added to its barrier, which stands first. -/
theorem State.arrive_spec (s : State) (node id : Nat) : (s.arrive node id).sites = s.sites ∧ ∃ b : Barrier,
    (s.arrive node id).ex = { s.ex with barriers := b :: s.ex.barriers.filter (·.id != id) } ∧ b.id = id ∧
      (node, s.ccyc) ∈ b.arrived := by
  have hid : ((s.ex.barriers.find? (·.id == id)).getD ⟨id, []⟩).id = id := by
    cases hb : s.ex.barriers.find? (·.id == id) with
    | none => rfl
    | some b => exact beq_iff_eq.mp (List.find?_some (p := fun x : Barrier => x.id == id) hb)
  unfold State.arrive
  dsimp only
  generalize (s.ex.barriers.find? (·.id == id)).getD ⟨id, []⟩ = b at hid ⊢
  split
  · exact ⟨rfl, { b with arrived := b.arrived ++ [(node, s.ccyc)] }, rfl, hid, by simp⟩
  · exact ⟨rfl, { b with arrived := b.arrived ++ [(node, s.ccyc)] }, rfl, hid, by simp⟩

/-- A change to a core leaves all but the cores, here where the barriers have changed too. -/
theorem State.ex_onCore_of_barriers {v u : State} {l : List Barrier} (node : Nat) (f : CoreSt → CoreSt)
    (h : u.ex = { v.ex with barriers := l }) : (u.onCore node f).ex =
      { v.ex with cores := (u.onCore node f).ex.cores, barriers := (u.onCore node f).ex.barriers } := by
  have hrest : (u.onCore node f).ex = { u.ex with cores := (u.onCore node f).ex.cores } := rfl
  have hbarriers : (u.onCore node f).ex.barriers = u.ex.barriers := rfl
  rw [hbarriers, hrest]
  rw [h]

/-- A flag that every node sees 48 cycles later (R217). -/
def State.raiseFlag (s : State) (id : Nat) : State :=
  s.onEx fun x => { x with flags := (id, s.ccyc + 48) :: x.flags.filter (·.1 != id) }

/-- What a SYNC entry sends, before its core goes on or is held. -/
def State.signals (s : State) (node : Nat) (e : SeqEntry) (flag : Bool) : State :=
  if s.nodeFenced node then s.ghost ((s.siteOf (node / 1024) (node % 1024)).getD 0) 1
  else if flag then s.raiseFlag e.arg
  else s.arrive node e.arg

theorem State.syncEntry_eq (s : State) (node : Nat) (e : SeqEntry) (flag : Bool) : s.syncEntry node e flag =
    (s.signals node e flag).onCore node fun c => if flag then c.advance else { c with waiting := some e.arg } := rfl

/-- What is sent leaves the cores, the sites that the grid has, and their parity errors. -/
theorem State.signals_spec (s : State) (node : Nat) (e : SeqEntry) (flag : Bool) :
    (s.signals node e flag).ex.cores = s.ex.cores ∧ (s.signals node e flag).sites.length = s.sites.length ∧
      ∀ r < s.sites.length, ((s.signals node e flag).site r).flitErrors = (s.site r).flitErrors := by
  unfold State.signals
  split
  · obtain ⟨hex, hlen, -, herr⟩ := s.ghost_spec ((s.siteOf (node / 1024) (node % 1024)).getD 0) 1
    exact ⟨by rw [hex], hlen, herr⟩
  · split
    · exact ⟨rfl, rfl, fun _ _ => rfl⟩
    · obtain ⟨hsites, b, hex, -⟩ := s.arrive_spec node e.arg
      exact ⟨by rw [hex], by rw [hsites], fun r _ => by rw [State.site, hsites, State.site]⟩

theorem State.core_of_cores {s u : State} (h : u.ex.cores = s.ex.cores) (node : Nat) : u.core node = s.core node := by
  rw [State.core, h, State.core]

/-- A core whose SYNC is due goes on, or is held at its barrier. -/
theorem State.core_syncEntry {s : State} {node : Nat} {c : CoreSt} (e : SeqEntry) (flag : Bool)
    (h : s.core node = some c) : (s.syncEntry node e flag).core node =
      some (if flag then c.advance else { c with waiting := some e.arg }) := by
  obtain ⟨hcores, -⟩ := s.signals_spec node e flag
  rw [State.syncEntry_eq]
  refine State.core_onCore_self (f := fun c => if flag then c.advance else { c with waiting := some e.arg })
    ((State.core_of_cores hcores node).trans h) fun c => ?_
  cases flag <;> rfl

section
variable {t node : Nat} {s : State}

theorem execSync_no_unit (h : 4816 ≤ node) (x : Signal) : exec (.sync t node x) s = .fault .noSuchUnit := by
  show execSync t node x s = _
  rw [execSync, if_pos (by simp [h])]

theorem execSync_due {c : CoreSt} {e : SeqEntry} (h : (s.tick t).entryDue node 11 = some (c, e)) (hn : node < 4096)
    {x : Signal} (hx : ∀ r, x.parity = some r → r < 720) :
    exec (.sync t node x) s = .next (((s.tick t).syncEntry node e x.flag).flitCheck x.parity) := by
  have hunit : ¬ (decide (4816 ≤ node) || x.parity.any fun r => decide (720 ≤ r)) = true := by
    rw [Bool.or_eq_true, decide_eq_true_eq, Option.any_eq_true, not_or]
    refine ⟨by omega, fun ⟨r, hr, hlt⟩ => ?_⟩
    have := hx r hr
    rw [decide_eq_true_eq] at hlt
    omega
  have hdue : (s.tick t).syncDue node = true := by
    rw [State.syncDue, if_pos hn, h]
    rfl
  show execSync t node x s = _
  rw [execSync, if_neg hunit, State.when_due hdue, h]

theorem execSync_not_due (h : (s.tick t).entryDue node 11 = none) (hn : node < 4096) (flag : Bool) :
    exec (.sync t node ⟨flag, none⟩) s = .next (s.tick t) := by
  have hdue : (s.tick t).syncDue node = false := by
    rw [State.syncDue, if_pos hn, h]
    rfl
  show execSync t node ⟨flag, none⟩ s = _
  rw [execSync, if_neg (by simp; omega), State.when_not_due hdue]

/-- A fenced site that carries no core sends a flit all the same, which is dropped (R215, R312). -/
theorem execSync_site {site : Nat} (hsite : site < 720) (hs : (s.tick t).sweeping = true)
    (hc : s.core (4096 + site) = none) (hf : (s.site site).fenced = true) (hn : (s.tick t).serves site = none)
    (flag : Bool) : exec (.sync t (4096 + site) ⟨flag, none⟩) s = .next ((s.tick t).ghost site 1) := by
  have hnone : (s.tick t).entryDue (4096 + site) 11 = none := by
    rw [State.entryDue, State.core_tick, hc]
  have hdue : (s.tick t).syncDue (4096 + site) = true := by
    rw [State.syncDue, if_neg (by omega), Nat.add_sub_cancel_left, hs, State.site_tick, hf, hn]
    rfl
  show execSync t (4096 + site) ⟨flag, none⟩ s = _
  rw [execSync, if_neg (by simp; omega), State.when_due hdue, hnone, Nat.add_sub_cancel_left]
  rfl

/-! ### BARRIER_RELEASE -/

theorem State.release_eq (s : State) (id : Nat) : s.release id = { s with ex := { s.ex with
    cores := s.ex.cores.map fun x => if x.waiting = some id then { x with pos := x.pos + 1, waiting := none } else x
    barriers := s.ex.barriers.filter (·.id != id) } } := by
  have hcore : (fun c : CoreSt => if c.waiting == some id then { c.advance with waiting := none } else c) =
      fun x => if x.waiting = some id then { x with pos := x.pos + 1, waiting := none } else x :=
    funext fun c => if_congr beq_iff_eq rfl rfl
  rw [State.release, hcore]
  rfl

theorem execBarrierRelease_due {b : Barrier} (hs : (s.tick t).sweeping = true)
    (h : (s.tick t).dueBarrier = some b) : exec (.barrierRelease t) s = .next ((s.tick t).release b.id) := by
  show execBarrierRelease t s = _
  rw [execBarrierRelease, State.when_due (by rw [hs, h]; rfl), h]

theorem execBarrierRelease_not_due (h : (s.tick t).dueBarrier = none) :
    exec (.barrierRelease t) s = .next (s.tick t) := by
  show execBarrierRelease t s = _
  rw [execBarrierRelease, State.when_not_due (by rw [h]; exact Bool.and_false _)]

end

end Sys2Proof.Machine
end

section
/-! SUPPORT. Sequencers: END, SLOT_END and the core watchdog (R80, R103, R107, R122, R298, R312). -/

namespace Sys2Proof.Machine

/-! ### END -/

/-- A core at its END: the next chain's pass, or its sweep ended (R80, R122). -/
def State.endTable (s : State) (node : Nat) : State :=
  s.onCore node fun c =>
    if c.pass + 1 < s.replicas then { c with pos := 0, pass := c.pass + 1, gathered := [] } else { c with ended := true }

/-- A sweep waits for the cores that have not ended. -/
theorem State.sweepOver_waits {s : State} {x : CoreSt} (hx : x ∈ s.ex.cores) (h : x.ended = false) :
    s.sweepOver = s := by
  have hall : s.ex.cores.all (·.ended) = false :=
    List.all_eq_false.mpr ⟨x, hx, by simp [h]⟩
  rw [State.sweepOver, hall, Bool.and_false, if_neg (by decide)]

section
variable {t node : Nat} {c : CoreSt} {e : SeqEntry} {s : State} (h : (s.tick t).entryDue node 15 = some (c, e))
include h

theorem execEndEntry_due (hr : c.pass + 1 < s.replicas ∨ (s.tick t).passSpent = true) :
    exec (.endEntry t node) s = .next ((s.tick t).endTable node).sweepOver := by
  have hr' : (decide (c.pass + 1 < (s.tick t).replicas) || (s.tick t).passSpent) = true := by
    rw [show (s.tick t).replicas = s.replicas from rfl]
    simpa using hr
  show execEndEntry t node s = _
  rw [execEndEntry, State.when_due (by rw [h]; exact hr')]
  rfl

/-- What an END leaves while the sweep waits for a core. -/
theorem State.endTable_core : ((s.tick t).endTable node).core node = some
    (if c.pass + 1 < s.replicas then { c with pos := 0, pass := c.pass + 1, gathered := [] }
      else { c with ended := true }) := by
  obtain ⟨hc, -⟩ := State.entryDue_core h
  refine State.core_onCore_self (s := s.tick t) (f := fun c => if c.pass + 1 < s.replicas then
    { c with pos := 0, pass := c.pass + 1, gathered := [] } else { c with ended := true }) hc fun c => ?_
  split <;> rfl

/-- The next chain's pass: the core that takes it has not ended. -/
theorem State.endTable_next (hp : c.pass + 1 < s.replicas) :
    ∃ x ∈ ((s.tick t).endTable node).ex.cores, x.ended = false := by
  obtain ⟨-, hended⟩ := State.entryDue_core h
  obtain ⟨hmem, -⟩ := State.core_node (State.endTable_core h)
  rw [if_pos hp] at hmem
  exact ⟨_, hmem, hended⟩

end

/-- A core at another node goes on as it was. -/
theorem State.endTable_other {s : State} {node : Nat} {x : CoreSt} (hx : x ∈ s.ex.cores) (hn : x.node ≠ node) :
    x ∈ (s.endTable node).ex.cores := by
  rw [State.endTable, State.onCore_cores]
  exact List.mem_map.mpr ⟨x, hx, if_neg (by simpa using hn)⟩

/-! ### SLOT_END -/

/-- A state that differs from another in its cores and the log of its step alone. -/
def State.OnlyCores (v u : State) : Prop :=
  u = { v with
    ex := { v.ex with cores := u.ex.cores }
    slog := u.slog }

theorem State.OnlyCores.ex {v u : State} (h : v.OnlyCores u) : u.ex = { v.ex with cores := u.ex.cores } := by
  rw [State.OnlyCores] at h
  exact congrArg State.ex h

theorem State.OnlyCores.plan {v u : State} (h : v.OnlyCores u) : u.plan = v.plan := by
  rw [State.OnlyCores] at h
  rw [h]

theorem State.OnlyCores.standing {v u : State} (h : v.OnlyCores u) :
    u.ex.chain = v.ex.chain ∧ u.ex.slot = v.ex.slot ∧ u.ex.pass = v.ex.pass := by
  have hex := h.ex
  exact ⟨by rw [hex], by rw [hex], by rw [hex]⟩

theorem State.OnlyCores.trans {s v u : State} (h : s.OnlyCores v) (h' : v.OnlyCores u) : s.OnlyCores u := by
  unfold State.OnlyCores at h h' ⊢
  rw [h']
  rw [h]

/-- Conflicts are counted at the cores and in the step's log. -/
theorem State.onlyCores_slotConflicts (s : State) : s.OnlyCores s.slotConflicts := by
  unfold State.slotConflicts
  split
  · refine List.foldlRecOn (motive := fun u => s.OnlyCores u) _ _ rfl fun v hv p _ => ?_
    split
    · exact hv.trans rfl
    · exact hv
  · rfl

theorem State.slotConflicts_asynchronous {s : State} (h : s.plan.data.synchronous = false) : s.slotConflicts = s := by
  rw [State.slotConflicts, h, if_neg (by decide)]

/-- The next slot, or the next chain's pass: the commits made are what is read from now on (R103). -/
theorem State.nextSlot_spec (s : State) :
    s.nextSlot.ex.snap = s.ex.chain.vals ∧ s.nextSlot.ex.updated = [] ∧ s.nextSlot.ex.changed = [] ∧
      s.nextSlot.ex.chain = s.ex.chain ∧ (∀ x ∈ s.nextSlot.ex.cores, x.gathered = []) ∧
      s.nextSlot = { s with ex := s.nextSlot.ex } ∧
      (s.ex.slot + 1 < s.plan.shape.slotOrder.length →
        s.nextSlot.ex.slot = s.ex.slot + 1 ∧ s.nextSlot.ex.pass = s.ex.pass) ∧
      (s.plan.shape.slotOrder.length ≤ s.ex.slot + 1 → s.ex.pass + 1 < s.replicas →
        s.nextSlot.ex.slot = 0 ∧ s.nextSlot.ex.pass = s.ex.pass + 1) := by
  have hgathered : ∀ x ∈ s.ex.cores.map fun c => { c with gathered := [], lastP := [], lastP0 := [] },
      x.gathered = [] := by
    intro x hx
    obtain ⟨c, -, rfl⟩ := List.mem_map.mp hx
    rfl
  unfold State.nextSlot State.onEx
  dsimp only
  split
  next hpass =>
    refine ⟨rfl, rfl, rfl, rfl, hgathered, rfl, fun hslot => ?_, fun _ _ => ⟨rfl, rfl⟩⟩
    rw [Bool.and_eq_true, decide_eq_true_eq] at hpass
    exact absurd hpass.1 (Nat.not_le.mpr hslot)
  next hpass =>
    refine ⟨rfl, rfl, rfl, rfl, hgathered, rfl, fun _ => ⟨rfl, rfl⟩, fun hslot hmore => absurd ?_ hpass⟩
    rw [Bool.and_eq_true, decide_eq_true_eq, decide_eq_true_eq]
    exact ⟨hslot, hmore⟩

section
variable {t : Nat} {s : State}

theorem execSlotEnd_due (h : (s.tick t).slotEndDue = true) :
    exec (.slotEnd t) s = .next (s.tick t).slotConflicts.nextSlot := by
  show execSlotEnd t s = _
  rw [execSlotEnd, State.when_due h]

theorem execSlotEnd_not_due (h : (s.tick t).slotEndDue = false) : exec (.slotEnd t) s = .next (s.tick t) := by
  show execSlotEnd t s = _
  rw [execSlotEnd, State.when_not_due h]

end

/-! ### The core watchdog -/

theorem State.site_record (s : State) (code payload : Nat) (src : Source) (i : Nat) :
    (s.record code payload src).site i = s.site i :=
  congrArg (fun x : (Reg → W64) × State => x.2.site i) (State.uneventful_record s code payload src)

/-- A sound site that is declared failed is fenced, with the reason given. -/
theorem State.site_declareFailed {s : State} {site : Nat} (reason : Nat) (h : (s.site site).reason = 0)
    (hlen : site < s.sites.length) :
    ((s.declareFailed site reason).site site).reason = reason ∧
      ((s.declareFailed site reason).site site).fenced = true := by
  have hsound : ((s.site site).reason != 0) = false := by rw [h]; rfl
  have hsite : (s.declareFailed site reason).site site =
      { s.site site with reason := reason, fenced := true, testing := false, requalified := false } := by
    rw [State.declareFailed, hsound, if_neg (by decide)]
    exact (State.site_record ..).trans (State.site_onSite _ hlen)
  rw [hsite]
  exact ⟨rfl, rfl⟩

/-- What the watchdog does once the site that is missing is declared failed: it releases the barrier and abandons the
rest of the step (R298). -/
def State.giveUp (s : State) (barrier site : Nat) : State :=
  ((s.damage (.failed site 2)).release barrier).onLog fun l => { l with abandoned := true }

theorem State.giveUp_spec (s : State) (barrier site : Nat) :
    (s.giveUp barrier site).slog.abandoned = true ∧ (s.giveUp barrier site).site site = s.site site ∧
      Damage.failed site 2 ∈ (s.giveUp barrier site).spare.damage ∧
      ∀ b ∈ (s.giveUp barrier site).ex.barriers, b.id ≠ barrier := by
  rw [State.giveUp, State.release_eq]
  refine ⟨rfl, rfl, List.mem_append_right _ (List.mem_singleton.mpr rfl), fun b hb => ?_⟩
  obtain ⟨-, hne⟩ := List.mem_filter.mp hb
  exact bne_iff_ne.mp hne

theorem execCoreWatchdog_due {t barrier n site : Nat} {s : State} (hs : (s.tick t).sweeping = true)
    (h : (s.tick t).watchdogDue barrier = some (n, site)) :
    exec (.coreWatchdog t barrier) s = .next (((s.tick t).declareFailed site 2).giveUp barrier site) := by
  show execCoreWatchdog t barrier s = _
  rw [execCoreWatchdog, State.when_due (by rw [hs, h]; rfl), h]
  rfl

end Sys2Proof.Machine
end

section
/-! O56: the rows of the sequencer. -/

namespace Sys2Proof.Machine

section
variable {t node : Nat} {c : CoreSt} {e : SeqEntry} {s : State}

theorem gatherRow (h : (s.tick t).entryDue node 1 = some (c, e)) (hr : (s.tick t).gatherReady c = true) :
    (∃ u, exec (.gather t node .ok) s = .next u ∧
      u.core node = some { c with pos := c.pos + 1, gathered := s.ex.snap } ∧
      u = { s.tick t with ex := { s.ex with cores := u.ex.cores } }) ∧
    ∀ site, (s.tick t).siteOf (node / 1024) (node % 1024) = some site →
      ∃ u, exec (.gather t node .residue) s = .next u ∧
        u.core node = some { c with pos := c.pos + 1, gathered := s.ex.snap } ∧
        u.spare.damage = s.spare.damage ++ [.charge site 0] ∧ u.slog.rerun = true := by
  obtain ⟨hc, -⟩ := State.entryDue_core h
  have hcore : ((s.tick t).gathers node).core node = some { c with pos := c.pos + 1, gathered := s.ex.snap } :=
    State.core_onCore_self hc fun _ => rfl
  refine ⟨⟨_, execGather_due h hr .ok, ?_, ?_⟩, fun site hsite => ⟨_, execGather_due h hr .residue, ?_⟩⟩
  · rwa [State.coreFault_ok]
  · rw [State.coreFault_ok]
    rfl
  · rw [State.coreFault_residue (s := (s.tick t).gathers node) hsite]
    exact ⟨hcore, rfl, rfl⟩

theorem writebackRow (h : (s.tick t).entryDue node 5 = some (c, e))
    (hr : (s.tick t).lastSweep = false ∨ c.pass + 1 < s.replicas ∨ (s.tick t).controllerDone = true) :
    ∃ u, exec (.writeback t node) s = .next u ∧ u.core node = some { c with
        pos := c.pos + 1, written := (s.tick t).controllerDone && (s.tick t).lastSweep || c.written } ∧
      u = { s.tick t with ex := { s.ex with cores := u.ex.cores } } := by
  obtain ⟨hc, -⟩ := State.entryDue_core h
  exact ⟨_, execWriteback_due h hr, State.core_onCore_self (f := fun c => { c.advance with
    written := (s.tick t).controllerDone && (s.tick t).lastSweep || c.written }) hc fun _ => rfl, rfl⟩

theorem syncFlagRow (h : (s.tick t).entryDue node 11 = some (c, e)) (hn : node < 4096)
    (hf : (s.tick t).nodeFenced node = false) :
    ∃ u, exec (.sync t node ⟨true, none⟩) s = .next u ∧ u.core node = some { c with pos := c.pos + 1 } ∧
      u.ex.flags = (e.arg, (s.tick t).ccyc + 48) :: s.ex.flags.filter (·.1 != e.arg) ∧
      u = { s.tick t with ex := { s.ex with cores := u.ex.cores, flags := u.ex.flags } } := by
  obtain ⟨hc, -⟩ := State.entryDue_core h
  have hcore := State.core_syncEntry e true hc
  rw [State.syncEntry_eq, State.signals, hf, if_neg (by decide), if_pos rfl] at hcore
  refine ⟨_, execSync_due h hn (x := ⟨true, none⟩) nofun, ?_⟩
  rw [State.syncEntry_eq, State.signals, hf, if_neg (by decide), if_pos rfl]
  exact ⟨hcore, rfl, rfl⟩

theorem syncBarrierRow (h : (s.tick t).entryDue node 11 = some (c, e)) (hn : node < 4096)
    (hf : (s.tick t).nodeFenced node = false) :
    ∃ u b, exec (.sync t node ⟨false, none⟩) s = .next u ∧ u.core node = some { c with waiting := some e.arg } ∧
      u.ex.barriers = b :: s.ex.barriers.filter (·.id != e.arg) ∧ b.id = e.arg ∧
      (node, (s.tick t).ccyc) ∈ b.arrived ∧
      u.ex = { s.ex with cores := u.ex.cores, barriers := u.ex.barriers } := by
  obtain ⟨hc, -⟩ := State.entryDue_core h
  obtain ⟨-, b, hex, hid, hmem⟩ := (s.tick t).arrive_spec node e.arg
  have hcore := State.core_syncEntry e false hc
  have hsignals : (s.tick t).signals node e false = (s.tick t).arrive node e.arg := by
    rw [State.signals, hf, if_neg (by decide), if_neg (by decide)]
  refine ⟨_, b, execSync_due h hn (x := ⟨false, none⟩) nofun, hcore, ?_, hid, hmem, ?_⟩
  · show ((s.tick t).syncEntry node e false).ex.barriers = _
    rw [State.syncEntry_eq, hsignals]
    exact congrArg Exec.barriers hex
  · show ((s.tick t).syncEntry node e false).ex = { s.ex with
      cores := ((s.tick t).syncEntry node e false).ex.cores
      barriers := ((s.tick t).syncEntry node e false).ex.barriers }
    rw [State.syncEntry_eq, hsignals]
    exact State.ex_onCore_of_barriers node _ hex

/-- A SYNC of a fenced site is dropped, and its core goes on (R215, R312). -/
theorem syncFencedRow {site : Nat} (h : (s.tick t).entryDue node 11 = some (c, e)) (hn : node < 4096)
    (hsite : (s.tick t).siteOf (node / 1024) (node % 1024) = some site) (hf : (s.site site).fenced = true)
    (hlen : site < s.sites.length) :
    ∃ u, exec (.sync t node ⟨true, none⟩) s = .next u ∧ u.core node = some { c with pos := c.pos + 1 } ∧
      (u.site site).ghostFlits = satAdd 32 (s.site site).ghostFlits 1 ∧ u.ex.flags = s.ex.flags ∧
      u.ex.barriers = s.ex.barriers := by
  obtain ⟨hc, -⟩ := State.entryDue_core h
  obtain ⟨hex, -, hghost, -⟩ := (s.tick t).ghost_spec site 1
  have hfenced : (s.tick t).nodeFenced node = true := by
    rw [State.nodeFenced, hsite]
    exact hf
  have hsignals : (s.tick t).signals node e true = (s.tick t).ghost site 1 := by
    rw [State.signals, if_pos hfenced, hsite, Option.getD_some]
  refine ⟨_, execSync_due h hn (x := ⟨true, none⟩) nofun, State.core_syncEntry e true hc, ?_⟩
  show (((s.tick t).syncEntry node e true).site site).ghostFlits = _ ∧
    ((s.tick t).syncEntry node e true).ex.flags = _ ∧ ((s.tick t).syncEntry node e true).ex.barriers = _
  rw [State.syncEntry_eq, hsignals]
  have hflags : ((s.tick t).ghost site 1).ex.flags = s.ex.flags := congrArg Exec.flags hex
  have hbarriers : ((s.tick t).ghost site 1).ex.barriers = s.ex.barriers := congrArg Exec.barriers hex
  exact ⟨hghost hlen, hflags, hbarriers⟩

theorem syncParityRow (h : (s.tick t).entryDue node 11 = some (c, e)) (hn : node < 4096) (flag : Bool) {r : Nat}
    (hr : r < 720) (hlen : r < s.sites.length) :
    ∃ u, exec (.sync t node ⟨flag, some r⟩) s = .next u ∧ u.slog.rerun = true ∧
      (u.site r).flitErrors = (s.site r).flitErrors + 1 := by
  obtain ⟨-, hsites, herr⟩ := (s.tick t).signals_spec node e flag
  have hentry : ((s.tick t).syncEntry node e flag).sites = ((s.tick t).signals node e flag).sites := by
    rw [State.syncEntry_eq]
    rfl
  have hone := State.flitParity_spec (s := (s.tick t).syncEntry node e flag) (r := r) (by rwa [hentry, hsites])
  refine ⟨_, execSync_due h hn (x := ⟨flag, some r⟩) fun _ hx => Option.some_inj.mp hx ▸ hr, hone.1, hone.2.trans ?_⟩
  rw [State.site, hentry]
  exact congrArg (· + 1) (herr r hlen)

/-- A chain's END, while another chain's table is to be run. -/
theorem endNextRow (h : (s.tick t).entryDue node 15 = some (c, e)) (hp : c.pass + 1 < s.replicas) :
    ∃ u, exec (.endEntry t node) s = .next u ∧
      u.core node = some { c with pos := 0, pass := c.pass + 1, gathered := [] } ∧
      u = { s.tick t with ex := { s.ex with cores := u.ex.cores } } := by
  obtain ⟨x, hx, hopen⟩ := State.endTable_next h hp
  have hcore := State.endTable_core h
  rw [if_pos hp] at hcore
  refine ⟨_, execEndEntry_due h (.inl hp), ?_⟩
  rw [State.sweepOver_waits hx hopen]
  exact ⟨hcore, rfl⟩

/-- The last chain's END, while another core runs. -/
theorem endLastRow (h : (s.tick t).entryDue node 15 = some (c, e)) (hp : s.replicas ≤ c.pass + 1)
    (hspent : (s.tick t).passSpent = true) (hother : ∃ x ∈ s.ex.cores, x.node ≠ node ∧ x.ended = false) :
    ∃ u, exec (.endEntry t node) s = .next u ∧ u.core node = some { c with ended := true } ∧
      u = { s.tick t with ex := { s.ex with cores := u.ex.cores } } := by
  obtain ⟨x, hx, hne, hopen⟩ := hother
  have hcore := State.endTable_core h
  rw [if_neg (Nat.not_lt.mpr hp)] at hcore
  refine ⟨_, execEndEntry_due h (.inr hspent), ?_⟩
  rw [State.sweepOver_waits (State.endTable_other (s := s.tick t) hx hne) hopen]
  exact ⟨hcore, rfl⟩

theorem slotEndRow (h : (s.tick t).slotEndDue = true) :
    ∃ u, exec (.slotEnd t) s = .next u ∧ u.ex.snap = s.ex.chain.vals ∧ u.ex.updated = [] ∧ u.ex.changed = [] ∧
      u.ex.chain = s.ex.chain ∧ (∀ x ∈ u.ex.cores, x.gathered = []) ∧
      u = { s.tick t with
        ex := u.ex
        slog := u.slog } ∧
      (s.plan.data.synchronous = false → u.slog = s.slog) ∧
      (s.ex.slot + 1 < s.plan.shape.slotOrder.length → u.ex.slot = s.ex.slot + 1 ∧ u.ex.pass = s.ex.pass) ∧
      (s.plan.shape.slotOrder.length ≤ s.ex.slot + 1 → s.ex.pass + 1 < s.replicas →
        u.ex.slot = 0 ∧ u.ex.pass = s.ex.pass + 1) := by
  have hasync : s.plan.data.synchronous = false → (s.tick t).slotConflicts.slog = s.slog := fun hs => by
    rw [State.slotConflicts_asynchronous (s := s.tick t) hs]
    rfl
  have honly := (s.tick t).onlyCores_slotConflicts
  obtain ⟨hchain', hslot', hpass'⟩ := honly.standing
  have hreplicas : (s.tick t).slotConflicts.replicas = s.replicas := by
    rw [State.replicas, honly.plan]
    rfl
  have hlength : (s.tick t).slotConflicts.plan.shape.slotOrder.length = s.plan.shape.slotOrder.length := by
    rw [honly.plan]
    rfl
  obtain ⟨hsnap, hupdated, hchanged, hchain, hgathered, hrest, hnext, hturn⟩ :=
    (s.tick t).slotConflicts.nextSlot_spec
  have hslog : (s.tick t).slotConflicts.nextSlot.slog = (s.tick t).slotConflicts.slog := by rw [hrest]
  rw [hlength, hslot', hpass'] at hnext hturn
  rw [hreplicas] at hturn
  rw [hchain'] at hsnap hchain
  refine ⟨_, execSlotEnd_due h, hsnap, hupdated, hchanged, hchain,
    hgathered, ?_, fun hs => ?_, hnext, hturn⟩
  · rw [State.OnlyCores] at honly
    rw [hslog]
    refine hrest.trans ?_
    generalize (s.tick t).slotConflicts.nextSlot.ex = x
    conv_lhs => rw [honly]
  · exact hslog.trans (hasync hs)

theorem watchdogRow {barrier n site : Nat} (hs : (s.tick t).sweeping = true)
    (h : (s.tick t).watchdogDue barrier = some (n, site)) (hr : (s.site site).reason = 0)
    (hlen : site < s.sites.length) :
    ∃ u, exec (.coreWatchdog t barrier) s = .next u ∧ u.slog.abandoned = true ∧ (u.site site).reason = 2 ∧
      (u.site site).fenced = true ∧ Damage.failed site 2 ∈ u.spare.damage ∧ ∀ b ∈ u.ex.barriers, b.id ≠ barrier := by
  obtain ⟨hreason, hfenced⟩ := State.site_declareFailed (s := s.tick t) 2 hr hlen
  obtain ⟨hab, hsite, hdamage, hbarriers⟩ := ((s.tick t).declareFailed site 2).giveUp_spec barrier site
  refine ⟨_, execCoreWatchdog_due hs h, hab, ?_, ?_, hdamage, hbarriers⟩
  · rw [hsite, hreason]
  · rw [hsite, hfenced]

end

/-- Settles O56: each row of the sequencer, by what its entry does to the core that it is due at. -/
theorem sequencerRows : Obligations.SequencerRows := by
  unfold Obligations.SequencerRows
  intro t node c e s
  refine ⟨fun h hr => gatherRow h hr, fun h f => execGather_not_due h f, fun h hr => writebackRow h hr,
    fun h flag parity => execSync_no_unit h ⟨flag, parity⟩, fun h hn => ⟨fun hf => ⟨?_, ?_⟩, ?_, ?_⟩, ?_, ?_, ?_, ?_,
    fun h => ⟨fun hp => endNextRow h hp, fun hp hspent hother => endLastRow h hp hspent hother⟩,
    fun h => slotEndRow h, fun h => execSlotEnd_not_due h,
    fun barrier n site hs h hr hlen => watchdogRow hs h hr hlen⟩
  · exact syncFlagRow h hn hf
  · exact syncBarrierRow h hn hf
  · exact fun site hsite hfenced hlen => syncFencedRow h hn hsite hfenced hlen
  · exact fun flag r hr hlen => syncParityRow h hn flag hr hlen
  · intro site flag hnode hsite hlen hs hc hf hserves
    subst hnode
    obtain ⟨hex, -, hghost, -⟩ := (s.tick t).ghost_spec site 1
    exact ⟨_, execSync_site hsite hs hc hf hserves flag, hghost hlen, congrArg Exec.flags hex,
      congrArg Exec.barriers hex⟩
  · exact fun h hn flag => execSync_not_due h hn flag
  · intro hs b hb
    rw [execBarrierRelease_due hs hb, State.release_eq]
    rfl
  · exact fun h => execBarrierRelease_not_due h

end Sys2Proof.Machine
end

section
/-! SUPPORT. The scope: PLAN_LOAD on a paused device, where the tile that fails the image's check takes the last place of its
port's poison list (R231, R306, R308). -/

namespace Sys2Proof.Machine

/-- An accepted PLAN_LOAD with an empty image, contained. -/
def emptyLoad : Order where
  seq := 0
  phase := .accepted
  raw := [1, 1] ++ zeros 62
  bulk := some []
  crc := 0
  policy := 0
  src := .host
  recFseq := 0
  slot := 0
  durFlags := 0
  seedDrawn := none
  effect := none
  final := none
  finalPosted := false
  rel := none
  acceptedPosted := false
  latest := none

/-- A paused device with that order. Its plan holds a block behind port 0, where 255 tiles are poisoned already. -/
def nearlyPoisoned : State :=
  { ((State.reset.setFld Fld.DEV_BOOT_STAGE 15).setFlag Fld.DEV_STAT_PLAN_LOADED true).setFlag
      Fld.SPARE_STAT_PAUSED true with
    pwr := { PwrSt.reset with rails := true }
    intake := { IntakeSt.reset with orders := [emptyLoad] }
    plan := { PlanSt.reset with res := [⟨0, 1, 0, 0⟩] }
    mports := List.replicate 32 { MPort.reset with state := 0, poison := List.range' 1 255 } }

/-- The image's tile behind port 0 does not match its check value. -/
def mismatchedTile : List TileCheck := [⟨0, 0, .mismatch 5⟩]

theorem nearlyPoisoned_executable : nearlyPoisoned.executable 0 1 = some emptyLoad ∧ nearlyPoisoned.engaged = false := by
  decide +kernel

/-- The failed tile fills the poison list, which costs the stack; the block is dealt to port 2 (R231, R308). -/
theorem nearlyPoisoned_verifyImage : ((nearlyPoisoned.tick 0).verifyImage mismatchedTile).2 = some (0x5001, 0) ∧
    ((nearlyPoisoned.tick 0).verifyImage mismatchedTile).1.plan.res = [⟨0, 1, 2, 0⟩] := by
  decide +kernel

theorem State.plan_rejectOrder (s : State) (o : Order) (code payload : Nat) :
    (s.rejectOrder o code payload).plan = s.plan :=
  congrArg (fun x : (Reg → W64) × State => x.2.plan) (s.uneventful_addFrame ..)

/-- A PLAN_LOAD with contained bulk is rejected when the check of its image fails (R88). -/
theorem execPlanLoad_badImage {t seq c p : Nat} {o : Order} {tiles : List TileCheck} {s : State}
    (h : s.executable seq 1 = some o) (hb : o.bulkKind ≠ 2) (heng : s.engaged = false)
    (hv : ((s.tick t).verifyImage tiles).2 = some (c, p)) :
    exec (.planLoad t ⟨seq, tiles⟩) s = .next (((s.tick t).verifyImage tiles).1.rejectOrder o c p) := by
  have heng' : (s.tick t).engaged = false := heng
  show execPlanLoad t ⟨seq, tiles⟩ s = _
  rw [execPlanLoad, State.orderRow_due _ h, heng', if_neg (by decide), State.withBulk, if_pos (bne_iff_ne.mpr hb)]
  generalize (s.tick t).verifyImage tiles = x at hv ⊢
  obtain ⟨w, r⟩ := x
  cases hv
  rfl

/-- Its plan is the one that the check of the image leaves. -/
theorem execPlanLoad_badImage_plan {t seq c p : Nat} {o : Order} {tiles : List TileCheck} {s u : State}
    (h : s.executable seq 1 = some o) (hb : o.bulkKind ≠ 2) (heng : s.engaged = false)
    (hv : ((s.tick t).verifyImage tiles).2 = some (c, p)) (hu : exec (.planLoad t ⟨seq, tiles⟩) s = .next u) :
    u.plan = ((s.tick t).verifyImage tiles).1.plan := by
  cases (execPlanLoad_badImage h hb heng hv).symm.trans hu
  exact State.plan_rejectOrder ..

/-- Refutes O53: a PLAN_LOAD whose image fails its check is said to leave the plan as it was. When the tile that failed
takes the last place of its port's poison list, the stack behind the port is lost (R231), and with no run in progress
this is settled at once: the plan's blocks there are dealt to other ports (R308), so that the plan in effect has changed. -/
theorem not_planOrders : ¬ Obligations.PlanOrders := by
  unfold Obligations.PlanOrders
  intro h
  obtain ⟨hexec, hidle⟩ := nearlyPoisoned_executable
  obtain ⟨hfails, hdealt⟩ := nearlyPoisoned_verifyImage
  obtain ⟨hload, -⟩ := h 0 0 emptyLoad nearlyPoisoned
  obtain ⟨hload, -⟩ := hload [] mismatchedTile hexec rfl
  obtain ⟨-, hrejected, -⟩ := hload hidle
  obtain ⟨u, hu, -, hplan, -⟩ := hrejected 0x5001 0 hfails
  rw [execPlanLoad_badImage_plan hexec (by decide) hidle hfails hu] at hplan
  have hres : [(⟨0, 1, 2, 0⟩ : Residence)] = [⟨0, 1, 0, 0⟩] := hdealt.symm.trans (congrArg PlanSt.res hplan)
  exact absurd hres (by decide)

end Sys2Proof.Machine
end

section
/-! SUPPORT. The arithmetic of a sweep: what MAC, DRAIN and REDUCE do to the core that they run at (R145, R151, R157,
R165, R169, R171). -/

namespace Sys2Proof.Machine

/-! ### One core changed, and its banks -/

/-- The core of a node after a change that leaves the cores of that node there, whatever it does to others. -/
theorem State.core_onCore_at {s : State} {node : Nat} {c : CoreSt} {f : CoreSt → CoreSt} (h : s.core node = some c)
    (hf : ∀ c, c.node = node → (f c).node = node) : (s.onCore node f).core node = some (f c) := by
  have hsame : s.onCore node f = s.onCore node fun c => if c.node = node then f c else c := by
    have hf' : (fun c : CoreSt => if c.node == node then f c else c) =
        fun c => if c.node == node then (if c.node = node then f c else c) else c := by
      funext c
      by_cases hn : c.node = node <;> simp [hn]
    rw [State.onCore, hf', State.onCore]
  rw [hsame, State.core_onCore_self h, if_pos (State.core_node h).2]
  intro c
  split
  next hn => rw [hf c hn, hn]
  next => rfl

@[simp] theorem CoreSt.bank_setBank_self (c : CoreSt) (b : Bool) (k : Bank) : (c.setBank b k).bank b = k := by
  cases b <;> rfl

@[simp] theorem CoreSt.bank_setBank_other (c : CoreSt) (b : Bool) (k : Bank) :
    (c.setBank b k).bank (!b) = c.bank !b := by
  cases b <;> rfl

@[simp] theorem CoreSt.setBank_node (c : CoreSt) (b : Bool) (k : Bank) : (c.setBank b k).node = c.node := by
  cases b <;> rfl

@[simp] theorem CoreSt.setBank_pos (c : CoreSt) (b : Bool) (k : Bank) : (c.setBank b k).pos = c.pos := by
  cases b <;> rfl

@[simp] theorem CoreSt.setBank_drains (c : CoreSt) (b : Bool) (k : Bank) : (c.setBank b k).drains = c.drains := by
  cases b <;> rfl

@[simp] theorem CoreSt.setBank_sticky (c : CoreSt) (b : Bool) (k : Bank) : (c.setBank b k).sticky = c.sticky := by
  cases b <;> rfl

/-! ### What a failing check leaves, and what it charges -/

/-- A check that fails touches neither execution nor registers, and sends nothing. -/
theorem State.coreFault_frame (s : State) (node : Nat) (f : CoreFault) :
    (s.coreFault node f).ex = s.ex ∧ (s.coreFault node f).regs = s.regs ∧ (s.coreFault node f).emitted = s.emitted := by
  unfold State.coreFault
  split
  · cases f with
    | corrected bank =>
      dsimp only [State.sramCorrected]
      split <;> exact ⟨rfl, rfl, rfl⟩
    | _ => exact ⟨rfl, rfl, rfl⟩
  · exact ⟨rfl, rfl, rfl⟩

/-- The faults that cost a re-execution charge the site, or its slice or bank (R150, R296). -/
theorem State.coreFault_charges {s : State} {node site : Nat} (h : s.siteOf (node / 1024) (node % 1024) = some site)
    {x : CoreFault × Damage} (hx : x ∈ [(CoreFault.residue, Damage.charge site 0),
      (.parity false 3 1 2, .slice site false 3), (.uncorrectable 5, .bank site 5)]) :
    x.2 ∈ (s.coreFault node x.1).spare.damage ∧ (s.coreFault node x.1).slog.rerun = true := by
  simp only [List.mem_cons, List.not_mem_nil, or_false] at hx
  obtain rfl | rfl | rfl := hx <;> rw [State.coreFault, h] <;>
    exact ⟨List.mem_append_right _ (List.mem_singleton_self _), rfl⟩

/-- Two effects of one row compared: where it is not due, each is the passing of time. -/
theorem State.when_both {R : State → State → Prop} {s : State} {t : Nat} {c : State → Bool} {f g : State → State}
    (hrefl : ∀ v, R v v) (h : R (f (s.tick t)) (g (s.tick t))) :
    ∃ u w, s.when t c f = .next u ∧ s.when t c g = .next w ∧ R u w := by
  refine ⟨_, _, s.when_next t c f, s.when_next t c g, ?_⟩
  split
  · exact h
  · exact hrefl _

/-! ### MAC -/

/-- The bank that a MAC entry adds to: as it stands under ADD, else cleared for the entry's fill (R151). -/
def State.macBank (s : State) (c : CoreSt) (e : SeqEntry) : Bank :=
  if e.flags.testBit 0 then c.bank e.bankB else { Bank.reset with
    parcel := s.macParcel e, chain := c.pass, fill := s.fillIndex c (s.macParcel e)
    cols := List.replicate 64 Vault.zero }

/-- The groups of an entry's block that its bank holds already. -/
def State.macDone (s : State) (c : CoreSt) (e : SeqEntry) : Nat :=
  (((s.macBank c e).done.find? (·.1 == e.arg)).map (·.2)).getD 0

/-- What a column of that bank takes from the entry (R145). -/
def State.macSum (s : State) (c : CoreSt) (e : SeqEntry) (d : BlockD) (col : Nat) : XVal :=
  s.plan.columnSum (if c.gathered.isEmpty then s.ex.snap else c.gathered) c.pass s.ex.chain.an.penK
    (s.inLantern c.node) (d, e.arg) (s.macParcel e) (s.macBank c e).fill (s.macDone c e) e.count col

/-- The core after its MAC entry: the bank with the sum of each column, closed by LAST, and all else as it was. -/
theorem State.macEntry_eq (s : State) (c : CoreSt) (e : SeqEntry) {d : BlockD}
    (hd : s.plan.data.blocks[e.arg]? = some d) : s.macEntry c e = c.advance.setBank e.bankB { s.macBank c e with
      filling := !e.flags.testBit 2
      closed := e.flags.testBit 2
      closedAt := s.ccyc
      cols := (s.macBank c e).cols.zipIdx.map fun w => w.1.add (s.macSum c e d w.2)
      done := (e.arg, s.macDone c e + e.count) :: (s.macBank c e).done.filter (·.1 != e.arg) } := by
  unfold State.macEntry State.macSum State.macDone State.macBank
  rw [hd]
  cases e.flags.testBit 0 <;> rfl

section
variable {t node : Nat} {c : CoreSt} {e : SeqEntry} {s : State}

theorem State.macEntry_node (s : State) (c : CoreSt) (e : SeqEntry) : (s.macEntry c e).node = c.node :=
  CoreSt.setBank_node ..

theorem execMac_due (h : (s.tick t).entryDue node 2 = some (c, e)) (hr : (s.tick t).macReady c e = true)
    (f : CoreFault) : exec (.mac t node f) s =
      .next (((s.tick t).onCore node fun _ => (s.tick t).macEntry c e).coreFault node f) := by
  show execMac t node f s = _
  rw [execMac, State.when_due (by rw [h]; exact hr), h]

theorem execMac_not_ready (h : (s.tick t).entryDue node 2 = some (c, e)) (hr : (s.tick t).macReady c e = false)
    (f : CoreFault) : exec (.mac t node f) s = .next (s.tick t) := by
  show execMac t node f s = _
  rw [execMac, State.when_not_due (by rw [h]; exact hr)]

end

/-! ### DRAIN -/

@[simp] theorem State.hwClear_ex (s : State) (f : Field) : (s.hwClear f).ex = s.ex := by
  unfold State.hwClear
  split <;> rfl

@[simp] theorem State.hwSet_ex (s : State) (f : Field) : (s.hwSet f).ex = s.ex := rfl

@[simp] theorem State.setCause_ex (s : State) (i : Nat) : (s.setCause i).ex = s.ex :=
  congrArg (fun x : (Reg → W64) × State => x.2.ex) (s.uneventful_setCause i)

/-- A capture reads the execution and leaves it. -/
@[simp] theorem State.capture_ex (s : State) (cols : List Vault) (outs : List Nat) (shift site core : Nat) :
    (s.capture cols outs shift site core).ex = s.ex := by
  simp [State.capture, apply_ite State.ex]

theorem State.badCapture_frame (s : State) (bad : Option (Nat × Nat)) : (s.badCapture bad).ex = s.ex ∧
    (s.badCapture bad).regs = s.regs ∧ (s.badCapture bad).emitted = s.emitted := by
  unfold State.badCapture
  split <;> exact ⟨rfl, rfl, rfl⟩

/-- The drain configuration that a bank's parcel names. -/
def State.drainId (s : State) (b : Bank) : Nat := (s.plan.data.drainOf s.plan.shape b.parcel).getD 0

/-- What the drain path makes of a bank (R157 to R163): the columns with their bias, converted in the class of their
configuration. -/
def State.drainOut (s : State) (b : Bank) (cfg : DrainCfg) : DrainOut :=
  let xs := b.cols.zipIdx.map fun v =>
    ((v.1.add (.fin (s.plan.biasOf cfg b.parcel b.fill s.ex.chain.an.penK v.2))).x,
      s.plan.data.filled b.parcel b.fill v.2,
      if cfg.round = 2 then s.roundWord (s.drainId b) b.chain b.parcel b.fill v.2 else 0)
  if cfg.cls = 0 then drainSampler s.plan.data cfg xs else drainDense s.plan.data cfg xs

/-- The block that a drained bank gives, presented as R165 says. -/
def State.drainBlock (s : State) (c : CoreSt) (b : Bank) (cfg : DrainCfg) : Machine.Drained where
  parcel := b.parcel
  chain := b.chain
  fill := b.fill
  cfg := s.drainId b
  shift := (s.drainOut b cfg).shift
  outs := (s.drainOut b cfg).outs
  at_ := presentAt b.closedAt c.lastP (s.drainOut b cfg).shift
  at0 := presentAt b.closedAt c.lastP0 0

/-- A core whose bank the drain path has read, with the block of it (R165). -/
def State.drainCore (s : State) (c : CoreSt) (side : Bool) (cfg : DrainCfg) (x : CoreSt) : CoreSt :=
  let d := s.drainBlock c (c.bank side) cfg
  { (x.setBank side { Bank.reset with freeAt := s.ccyc + 1 }) with
    drains := x.drains ++ [d], lastP := d.at_ :: x.lastP, lastP0 := d.at0 :: x.lastP0
    stepDelay := max x.stepDelay (d.at_ - d.at0)
    maxDelay := min (max x.maxDelay (d.at_ - d.at0)) 0xFFFF }

/-- A bank drained before Oculus looks at it. -/
def State.drainRead (s : State) (c : CoreSt) (side : Bool) (cfg : DrainCfg) : State :=
  let b := c.bank side
  let o := s.drainOut b cfg
  ((s.onCore c.node (s.drainCore c side cfg)).drainFlags c.node b.chain b.parcel b.fill o).onEx fun x =>
    { x with redIn := x.redIn ++ s.plan.data.redInputs b (s.drainId b) cfg.out o.outs }

theorem State.drainBank_eq (s : State) (c : CoreSt) (side : Bool) {cfg : DrainCfg}
    (hcfg : s.plan.data.drain (s.drainId (c.bank side)) = some cfg) : s.drainBank c side =
      let w := s.drainRead c side cfg
      let b := c.bank side
      if w.ocuOpen && w.triggers b.chain b.parcel b.fill then
        w.capture b.cols (s.drainOut b cfg).outs (s.drainOut b cfg).shift ((w.siteOf 0 (c.node % 1024)).getD 0)
          (c.node % 1024)
      else w := by
  unfold State.drainBank State.drainRead State.drainCore State.drainBlock State.drainOut
  dsimp only
  rw [show (s.plan.data.drainOf s.plan.shape (c.bank side).parcel).getD 0 = s.drainId (c.bank side) from rfl, hcfg]
  simp only [beq_iff_eq]

theorem State.drainBank_ex (s : State) (c : CoreSt) (side : Bool) {cfg : DrainCfg}
    (hcfg : s.plan.data.drain (s.drainId (c.bank side)) = some cfg) :
    (s.drainBank c side).ex = (s.drainRead c side cfg).ex := by
  rw [s.drainBank_eq c side hcfg]
  dsimp only
  split
  · exact State.capture_ex ..
  · rfl

/-- The flags of a drain leave a core its banks, its blocks and its place. -/
theorem State.core_drainFlags {s : State} {node : Nat} {c : CoreSt} (h : s.core node = some c) (chain q fill : Nat)
    (o : DrainOut) : ∃ x, (s.drainFlags node chain q fill o).core node = some x ∧ (∀ b, x.bank b = c.bank b) ∧
      x.drains = c.drains ∧ x.pos = c.pos ∧ x.sticky = c.sticky ||| o.sticky :=
  ⟨_, State.core_onCore_self h fun _ => rfl, fun _ => rfl, rfl, rfl, rfl⟩

/-- The core after the drain path has read a bank of it. -/
theorem State.core_drainRead {s : State} {node : Nat} {c : CoreSt} (h : s.core node = some c) (side : Bool)
    (cfg : DrainCfg) : ∃ x, (s.drainRead c side cfg).core node = some x ∧
      x.bank side = { Bank.reset with freeAt := s.ccyc + 1 } ∧ x.bank (!side) = c.bank (!side) ∧
      x.drains = c.drains ++ [s.drainBlock c (c.bank side) cfg] ∧ x.pos = c.pos ∧
      x.sticky = c.sticky ||| (s.drainOut (c.bank side) cfg).sticky := by
  have hnode : c.node = node := (State.core_node h).2
  have hread : (s.onCore c.node (s.drainCore c side cfg)).core node = some (s.drainCore c side cfg c) := by
    rw [hnode]
    exact State.core_onCore_self h fun x => CoreSt.setBank_node ..
  obtain ⟨x, hx, hbank, hdrains, hpos, hsticky⟩ := State.core_drainFlags hread (c.bank side).chain (c.bank side).parcel
    (c.bank side).fill (s.drainOut (c.bank side) cfg)
  refine ⟨x, ?_, (hbank _).trans (CoreSt.bank_setBank_self ..), (hbank _).trans (CoreSt.bank_setBank_other ..), hdrains,
    hpos.trans (CoreSt.setBank_pos ..), hsticky.trans ?_⟩
  · rw [← hx, ← hnode]
    rfl
  · exact congrArg (· ||| _) (CoreSt.setBank_sticky ..)

section
variable {t node : Nat} {c : CoreSt} {side : Bool} {s : State}

theorem State.drainDue_core (h : s.drainDue node = some (c, side)) : s.core node = some c := by
  unfold State.drainDue at h
  split at h
  next c' hc =>
    split at h
    next =>
      split at h
      next =>
        cases h
        exact hc
      next => cases h
    next => cases h
  next => cases h

/-- The column and limb that a capture of this drain holds with a parity mismatch. -/
def State.drainBad (s : State) (node : Nat) (k : Bank) (f : CoreFault) : Option (Nat × Nat) :=
  if s.ocuOpen && s.triggers k.chain k.parcel k.fill then s.parityAt node f else none

theorem execDrain_due (h : (s.tick t).drainDue node = some (c, side)) (f : CoreFault) : exec (.drain t node f) s =
    .next ((((s.tick t).drainBank c side).badCapture ((s.tick t).drainBad node (c.bank side) f)).coreFault node f) := by
  show execDrain t node f s = _
  rw [execDrain, State.when_due (by rw [h]; rfl), h]
  rfl

theorem execDrain_not_due (h : (s.tick t).drainDue node = none) (f : CoreFault) :
    exec (.drain t node f) s = .next (s.tick t) := by
  show execDrain t node f s = _
  rw [execDrain, State.when_not_due (by rw [h]; rfl)]

/-- Whatever its checks find, a drain leaves one execution and one set of registers, and sends the same. -/
theorem State.drained_frame (w : State) (node : Nat) (bad : Option (Nat × Nat)) (f : CoreFault) :
    ((w.badCapture bad).coreFault node f).ex = w.ex ∧ ((w.badCapture bad).coreFault node f).regs = w.regs ∧
      ((w.badCapture bad).coreFault node f).emitted = w.emitted := by
  obtain ⟨hex, hregs, hemitted⟩ := w.badCapture_frame bad
  obtain ⟨hex', hregs', hemitted'⟩ := (w.badCapture bad).coreFault_frame node f
  exact ⟨hex'.trans hex, hregs'.trans hregs, hemitted'.trans hemitted⟩

end

/-! ### REDUCE -/

/-- The result of a reduction stored for its chain, and the core at its next entry (R169). -/
def State.reduceStored (s : State) (node chain : Nat) (r : RedRec) (order : Arrivals) : State :=
  (s.onCore node CoreSt.advance).onEx fun x => { x with
    redOut := (r.id, chain, s.reduce r chain order.heads order.tails) ::
      x.redOut.filter fun y => !(y.1 == r.id && y.2.1 == chain) }

section
variable {t node : Nat} {c : CoreSt} {e : SeqEntry} {s : State} {r : RedRec} {heads tails : List Nat}

/-- REDUCE stores its result; what Oculus may capture of it leaves the execution. -/
theorem execReduce_due (h : (s.tick t).entryDue node 6 = some (c, e)) (hp : (s.tick t).passEnded c.pass = true)
    (hr : (s.tick t).plan.data.reds.find? (·.id == e.arg) = some r)
    (ha : (s.tick t).arrivalsOk r heads tails = true) :
    ∃ u, exec (.reduce t node ⟨heads, tails⟩) s = .next u ∧
      u.ex = ((s.tick t).reduceStored node c.pass r ⟨heads, tails⟩).ex ∧
      ((s.tick t).ocuOpen = false → u = (s.tick t).reduceStored node c.pass r ⟨heads, tails⟩) := by
  show ∃ u, execReduce t node ⟨heads, tails⟩ s = .next u ∧ _
  rw [execReduce, State.when_due (by rw [h]; dsimp only; rw [hp, hr, Option.all_some, ha]; rfl), h]
  dsimp only
  rw [hr]
  refine ⟨_, rfl, ?_⟩
  dsimp only
  split
  · split
    next hc =>
      refine ⟨State.capture_ex .., fun hclosed => ?_⟩
      have hopen : (s.tick t).ocuOpen = true := by
        simp only [Bool.and_eq_true] at hc
        exact hc.1.2
      rw [hclosed] at hopen
      cases hopen
    next => exact ⟨rfl, fun _ => rfl⟩
  · exact ⟨rfl, fun _ => rfl⟩

theorem execReduce_not_arrived (h : (s.tick t).entryDue node 6 = some (c, e))
    (hr : (s.tick t).plan.data.reds.find? (·.id == e.arg) = some r)
    (ha : (s.tick t).arrivalsOk r heads tails = false) :
    exec (.reduce t node ⟨heads, tails⟩) s = .next (s.tick t) := by
  show execReduce t node ⟨heads, tails⟩ s = _
  rw [execReduce, State.when_not_due (by rw [h]; dsimp only; rw [hr, Option.all_some, ha, Bool.and_false])]

end

end Sys2Proof.Machine
end

section
/-! SUPPORT. What UPDATE and LANGEVIN may change: the values of the variables that they name, with the streams, marks
and counters that go with them, and never what a gather of the slot sees (R95, R98, R103, R108, R112, R113). -/

namespace Sys2Proof.Machine

/-! ### States reached by moves and by commits -/

/-- A state that moves lead to: only the execution and the log of its step have changed, no value outside `W` has, and
every core stands where it stood. -/
structure State.Moves (W : Nat → Prop) (v u : State) : Prop where
  rest : u = { v with
    ex := u.ex
    slog := u.slog }
  snap : u.ex.snap = v.ex.snap
  vals : ∀ k, ¬ W k → u.ex.chain.vals.getD k 0 = v.ex.chain.vals.getD k 0
  done : ∀ x ∈ v.ex.done, x ∈ u.ex.done
  pos : ∀ node, (u.core node).map (·.pos) = (v.core node).map (·.pos)

/-- One that commits lead to: moves that say nothing to the log. -/
structure State.Commits (W : Nat → Prop) (v u : State) : Prop extends State.Moves W v u where
  slog : u.slog = v.slog

variable {W : Nat → Prop} {s v u : State}

theorem State.Moves.trans (h : s.Moves W v) (h' : v.Moves W u) : s.Moves W u where
  rest := h'.rest.trans (by rw [h.rest])
  snap := h'.snap.trans h.snap
  vals k hk := (h'.vals k hk).trans (h.vals k hk)
  done x hx := h'.done x (h.done x hx)
  pos node := (h'.pos node).trans (h.pos node)

theorem State.Moves.plan (h : v.Moves W u) : u.plan = v.plan := by rw [h.rest]

theorem State.Commits.trans (h : s.Commits W v) (h' : v.Commits W u) : s.Commits W u where
  toMoves := h.toMoves.trans h'.toMoves
  slog := h'.slog.trans h.slog

theorem State.Commits.refl (s : State) : s.Commits W s :=
  ⟨⟨rfl, rfl, fun _ _ => rfl, fun _ hx => hx, fun _ => rfl⟩, rfl⟩

theorem State.Commits.onlyEx (h : v.Commits W u) : u = { v with ex := u.ex } := by
  have hrest := h.rest
  rwa [h.slog] at hrest

/-- Commits repeated over a list. -/
theorem State.Commits.foldl {α : Type} {f : State → α → State} (l : List α)
    (hf : ∀ u, s.Commits W u → ∀ x ∈ l, u.Commits W (f u x)) : s.Commits W (l.foldl f s) :=
  List.foldlRecOn (motive := fun u => s.Commits W u) l f (.refl s) fun u hu x hx => hu.trans (hf u hu x hx)

/-- Moves repeated over a list. -/
theorem State.Moves.foldl {α : Type} {f : State → α → State} (l : List α)
    (hf : ∀ u, s.Moves W u → ∀ x ∈ l, u.Moves W (f u x)) : s.Moves W (l.foldl f s) :=
  List.foldlRecOn (motive := fun u => s.Moves W u) l f (State.Commits.refl s).toMoves
    fun u hu x hx => hu.trans (hf u hu x hx)

/-- What a change to a core leaves of a core is what it was. -/
theorem State.map_core_onCore {α : Type} (s : State) (node n : Nat) {f : CoreSt → CoreSt} (g : CoreSt → α)
    (hf : ∀ c, (f c).node = c.node) (hg : ∀ c, g (f c) = g c) :
    ((s.onCore node f).core n).map g = (s.core n).map g := by
  rw [State.core_onCore s node n hf, Option.map_map]
  refine Option.map_congr fun c _ => ?_
  rw [Function.comp_apply]
  split
  · exact hg c
  · rfl

/-- A change to a core that leaves it where it stands. -/
theorem State.commits_onCore (s : State) (node : Nat) {f : CoreSt → CoreSt}
    (hf : ∀ c, (f c).node = c.node ∧ (f c).pos = c.pos) : s.Commits W (s.onCore node f) where
  rest := rfl
  snap := rfl
  vals _ _ := rfl
  done _ hx := hx
  pos n := s.map_core_onCore node n (·.pos) (fun c => (hf c).1) fun c => (hf c).2
  slog := rfl

/-! ### Draws and commits -/

theorem State.commits_drawParcel (s : State) (chain q : Nat) : s.Commits W (s.drawParcel chain q).2 :=
  ⟨⟨rfl, rfl, fun _ _ => rfl, fun _ hx => hx, fun _ => rfl⟩, rfl⟩

theorem State.commits_parcelDone (s : State) (chain q : Nat) : s.Commits W (s.parcelDone chain q) :=
  ⟨⟨rfl, rfl, fun _ _ => rfl, fun _ hx => List.mem_cons_of_mem _ hx, fun _ => rfl⟩, rfl⟩

/-- A commit before its core counts the change. -/
def State.commitVal (s : State) (chain v new : Nat) : State :=
  let i := chain * s.nVars + v
  (s.onEx fun x => { x with
    updated := i :: x.updated
    changed := if s.ex.chain.vals.getD i 0 != new then i :: x.changed else x.changed
    lastCommit := max x.lastCommit s.ccyc }).onChain fun c => { c with vals := c.vals.set i new }

/-- The change counted at its core (R121). -/
def State.countChange (s : State) (core : Nat) (moved : Bool) : State :=
  if moved then s.onCore core fun c => { c with changes := satAdd 64 c.changes 1 } else s

theorem State.commit_eq (s : State) (core chain v new : Nat) : s.commit core chain v new =
    (s.commitVal chain v new).countChange core (s.ex.chain.vals.getD (chain * s.nVars + v) 0 != new) := rfl

theorem State.commits_countChange (s : State) (core : Nat) (moved : Bool) : s.Commits W (s.countChange core moved) := by
  unfold State.countChange
  split
  · exact s.commits_onCore core fun _ => ⟨rfl, rfl⟩
  · exact .refl s

/-- A commit writes its variable in its chain. -/
theorem State.commits_commit (s : State) (core : Nat) {chain v : Nat} (new : Nat) (h : W (chain * s.nVars + v)) :
    s.Commits W (s.commit core chain v new) := by
  have hval : s.Commits W (s.commitVal chain v new) := by
    refine ⟨⟨rfl, rfl, fun k hk => ?_, fun _ hx => hx, fun _ => rfl⟩, rfl⟩
    have hne : chain * s.nVars + v ≠ k := fun he => hk (he ▸ h)
    show (s.ex.chain.vals.set (chain * s.nVars + v) new).getD k 0 = _
    rw [List.getD_eq_getElem?_getD, List.getElem?_set_ne hne, List.getD_eq_getElem?_getD]
  rw [State.commit_eq]
  exact hval.trans (State.commits_countChange ..)

@[simp] theorem State.commit_chain (s : State) (core chain v new : Nat) : (s.commit core chain v new).ex.chain =
    { s.ex.chain with vals := s.ex.chain.vals.set (chain * s.nVars + v) new } := by
  rw [State.commit_eq, State.countChange]
  split <;> rfl

theorem State.commit_drains (s : State) (core chain v new node : Nat) :
    ((s.commit core chain v new).core node).map (·.drains) = (s.core node).map (·.drains) := by
  rw [State.commit_eq, State.countChange]
  split
  · exact State.map_core_onCore _ core node (·.drains) (fun _ => rfl) fun _ => rfl
  · rfl

/-! ### UPDATE -/

/-- Where the variables of a parcel stand in a chain. -/
def State.parcelVals (s : State) (chain q k : Nat) : Prop :=
  ∃ v ∈ ((s.plan.data.parcels[q]?).map (·.vars)).getD [], k = chain * s.nVars + v

/-- The lanes of a block commit their variables alone. -/
theorem State.commits_updateLanes (s : State) (core : Nat) (d : Machine.Drained) (out : Nat) (pc : Parcel) (r : Rule)
    (h : ∀ v ∈ pc.vars, W (d.chain * s.nVars + v)) : s.Commits W (s.updateLanes core d out pc r) := by
  have hus := s.commits_drawParcel (W := W) d.chain d.parcel
  have hes : s.Commits W (if r == .integer then (s.drawParcel d.chain d.parcel).2.drawParcel d.chain d.parcel
      else ([], (s.drawParcel d.chain d.parcel).2)).2 := by
    split
    · exact hus.trans (State.commits_drawParcel ..)
    · exact hus
  unfold State.updateLanes
  dsimp only
  generalize (if r == .integer then (s.drawParcel d.chain d.parcel).2.drawParcel d.chain d.parcel
    else ([], (s.drawParcel d.chain d.parcel).2)) = es at hes ⊢
  refine hes.trans (.trans (State.Commits.foldl _ fun u hu x hx => ?_) (State.commits_parcelDone ..))
  split
  · exact .refl u
  · refine State.commits_commit u core _ ?_
    rw [State.nVars, hu.plan, hes.plan]
    exact h _ (List.fst_mem_of_mem_zipIdx hx)

/-- The state that won a Potts variable's comparisons, committed (R101). -/
def State.commitTop (s : State) (core chain : Nat) : Option (W32 × Nat) → Option Nat → State
  | some (_, a), some v => s.commit core chain v a
  | _, _ => s

theorem State.commits_commitTop (s : State) (core : Nat) {chain : Nat} (top : Option (W32 × Nat)) {v : Option Nat}
    (h : ∀ x, v = some x → W (chain * s.nVars + x)) : s.Commits W (s.commitTop core chain top v) := by
  unfold State.commitTop
  split
  next => exact s.commits_commit core _ (h _ rfl)
  next => exact .refl s

/-- The last pass of a Potts variable commits it. -/
theorem State.commits_updatePotts (s : State) (core : Nat) (d : Machine.Drained) (out : Nat) (pc : Parcel)
    (h : ∀ v ∈ pc.vars, W (d.chain * s.nVars + v)) : s.Commits W (s.updatePotts core d out pc) := by
  unfold State.updatePotts
  dsimp only
  generalize List.foldl _ _ _ = top
  have hw : s.Commits W ((s.drawParcel d.chain d.parcel).2.onCore core fun c => { c with top := top }) :=
    (s.commits_drawParcel ..).trans (State.commits_onCore _ core fun _ => ⟨rfl, rfl⟩)
  generalize (s.drawParcel d.chain d.parcel).2.onCore core (fun c => { c with top := top }) = w at hw ⊢
  have hdecided : ∀ n, w.Commits W (w.commitTop core d.chain top pc.vars[n]?) := fun n =>
    w.commits_commitTop core top fun x hx => by
      rw [State.nVars, hw.plan]
      exact h x (List.mem_of_getElem? hx)
  refine hw.trans ?_
  split
  · split
    · exact (hdecided _).trans (State.commits_parcelDone ..)
    · exact hdecided _
  · exact .refl w

theorem State.commits_updateBlock (s : State) (core : Nat) (d : Machine.Drained)
    (h : ∀ k, s.parcelVals d.chain d.parcel k → W k) : s.Commits W (s.updateBlock core d) := by
  unfold State.updateBlock
  dsimp only
  have hvars : ∀ pc, s.plan.data.parcels[d.parcel]? = some pc → ∀ v ∈ pc.vars, W (d.chain * s.nVars + v) :=
    fun pc hpc v hv => h _ ⟨v, by rw [hpc]; exact hv, rfl⟩
  split
  next hpc _ => exact s.commits_updatePotts core d _ _ (hvars _ hpc)
  next hpc _ => exact s.commits_updateLanes core d _ _ _ (hvars _ hpc)
  next => exact .refl s

section
variable {t node : Nat}

/-- A block taken from those that wait at its core (R110). -/
def State.takeBlock (s : State) (node : Nat) (d : Machine.Drained) : State :=
  s.onCore node fun c => { c with drains := c.drains.erase d }

theorem State.drains_takeBlock (s : State) (node : Nat) (d : Machine.Drained) :
    ((s.takeBlock node d).core node).map (·.drains) = (s.core node).map fun c => c.drains.erase d := by
  rw [State.takeBlock, State.core_onCore (f := fun c => { c with drains := c.drains.erase d }) s node node fun _ => rfl,
    Option.map_map]
  exact Option.map_congr fun _ _ => congrArg CoreSt.drains (if_pos rfl)

theorem execUpdate_block {d : Machine.Drained} (h : (s.tick t).updateDue node = some (.inl d)) :
    exec (.update t node) s = .next (((s.tick t).takeBlock node d).updateBlock node d) := by
  show execUpdate t node s = _
  rw [execUpdate, State.when_due (by rw [h]; rfl), h]
  rfl

theorem execUpdate_empty {q : Nat} (h : (s.tick t).updateDue node = some (.inr q)) : exec (.update t node) s =
    .next (((s.tick t).emptyBlocks s.ex.pass q).foldl (fun u d => u.updateBlock node d) (s.tick t)) := by
  show execUpdate t node s = _
  rw [execUpdate, State.when_due (by rw [h]; rfl), h]
  rfl

theorem execUpdate_not_due (h : (s.tick t).updateDue node = none) : exec (.update t node) s = .next (s.tick t) := by
  show execUpdate t node s = _
  rw [execUpdate, State.when_not_due (by rw [h]; rfl)]

theorem State.commits_takeBlock (s : State) (node : Nat) (d : Machine.Drained) : s.Commits W (s.takeBlock node d) :=
  s.commits_onCore node fun _ => ⟨rfl, rfl⟩

/-- Blocks of a parcel without factors commit its variables alone. -/
theorem State.commits_emptyBlocks (s : State) (node chain q : Nat) : s.Commits (s.parcelVals chain q)
    ((s.emptyBlocks chain q).foldl (fun u d => u.updateBlock node d) s) := by
  refine State.Commits.foldl _ fun u hu d hd => u.commits_updateBlock node d fun k hk => ?_
  obtain ⟨f, -, rfl⟩ := List.mem_map.mp hd
  obtain ⟨v, hv, rfl⟩ := hk
  rw [State.nVars, hu.plan]
  exact ⟨v, by rwa [← hu.plan], rfl⟩

/-- A block of a binary or spin parcel decides its lanes. -/
theorem State.updateBlock_lanes {core : Nat} {d : Machine.Drained} {pc : Parcel} {r : Rule}
    (hpc : s.plan.data.parcels[d.parcel]? = some pc) (hrule : s.plan.data.rule d.parcel = some r)
    (hr : r ∈ [Rule.heatBath, .glauber, .metropolis]) : s.updateBlock core d =
      s.updateLanes core d (((s.plan.data.drain d.cfg).map (·.out)).getD 0) pc r := by
  simp only [List.mem_cons, List.not_mem_nil, or_false] at hr
  unfold State.updateBlock
  rw [hpc, hrule]
  obtain rfl | rfl | rfl := hr <;> rfl

/-- The lanes of a one-variable block: a word of each stream, one decision, and the parcel is complete (R98, R108). -/
theorem State.updateLanes_one {core out x : Nat} {d : Machine.Drained} {pc : Parcel} {r : Rule}
    (hr : r ∈ [Rule.heatBath, .glauber, .metropolis]) (hv : pc.vars = [x]) (hx : x ∉ s.pairedVars d.chain) :
    s.updateLanes core d out pc r = ((s.drawParcel d.chain d.parcel).2.commit core d.chain x
      (decideBit r (s.betaOf d.chain) (pc.typ == 1) (storedOf s.nVars s.ex.snap d.chain x)
        (unitField out (d.outs.getD 0 0)) d.shift ((s.drawParcel d.chain d.parcel).1.getD 0 0))).parcelDone
      d.chain d.parcel := by
  have hfree : ((s.drawParcel d.chain d.parcel).2.pairedVars d.chain).contains x = false := by
    rw [List.contains_eq_mem, decide_eq_false_iff_not]
    exact hx
  simp only [List.mem_cons, List.not_mem_nil, or_false] at hr
  unfold State.updateLanes
  rw [hv]
  obtain rfl | rfl | rfl := hr <;>
    exact congrArg (fun u : State => u.parcelDone d.chain d.parcel) (if_neg (ne_true_of_eq_false hfree))

end

/-! ### LANGEVIN -/

/-- What a move is counted as touches no value (R113, R121). -/
theorem State.moves_countMove (s : State) (vnode chain v : Nat) (mala changed down bad : Bool) :
    s.Moves W (s.countMove vnode chain v mala changed down bad) := by
  unfold State.countMove
  dsimp only
  split <;> exact ⟨rfl, rfl, fun _ _ => rfl, fun _ hx => hx, fun n =>
    s.map_core_onCore vnode n (·.pos) (fun _ => rfl) fun _ => rfl⟩

theorem State.countMove_chain (s : State) (vnode chain v : Nat) (mala changed down bad : Bool) :
    (s.countMove vnode chain v mala changed down bad).ex.chain = s.ex.chain := by
  unfold State.countMove
  dsimp only
  split <;> rfl

/-- The words of a parcel's acceptances, which MALA alone draws (R112). -/
def State.drawAccept (s : State) (mala : Bool) (chain q : Nat) : List W32 × State :=
  if mala then s.drawParcel chain q else ([], s)

theorem State.commits_drawAccept (s : State) (mala : Bool) (chain q : Nat) :
    s.Commits W (s.drawAccept mala chain q).2 := by
  unfold State.drawAccept
  split
  · exact s.commits_drawParcel chain q
  · exact .refl s

/-- The move of one lane, committed and counted. -/
def State.moveLane (s : State) (vnode chain v : Nat) (mala : Bool) (k : Coeffs) (eta beta xi e : W32) : State :=
  let old := BitVec.ofNat 32 (storedOf s.nVars s.ex.snap chain v)
  let m := langevinMove mala k eta beta old xi e
  (s.commit vnode chain v m.1.toNat).countMove vnode chain v mala (m.1 != old) m.2.1 m.2.2

theorem State.moves_moveLane (s : State) (vnode : Nat) {chain v : Nat} (mala : Bool) (k : Coeffs) (eta beta xi e : W32)
    (h : W (chain * s.nVars + v)) : s.Moves W (s.moveLane vnode chain v mala k eta beta xi e) :=
  (s.commits_commit vnode _ h).toMoves.trans (State.moves_countMove ..)

theorem State.moveLane_chain (s : State) (vnode chain v : Nat) (mala : Bool) (k : Coeffs) (eta beta xi e : W32) :
    (s.moveLane vnode chain v mala k eta beta xi e).ex.chain = { s.ex.chain with
      vals := s.ex.chain.vals.set (chain * s.nVars + v) (langevinMove mala k eta beta
        (BitVec.ofNat 32 (storedOf s.nVars s.ex.snap chain v)) xi e).1.toNat } := by
  rw [State.moveLane, State.countMove_chain, State.commit_chain]

/-- The step size of a continuous parcel (R112). -/
def State.stepSize (s : State) (q : Nat) : W32 :=
  match (s.plan.data.drainOf s.plan.shape q).bind s.plan.data.drain with
  | some cfg => cfg.scale
  | none => Config.stepSize (fieldAt s.plan.digest 0 8) q

/-- A continuous parcel's lanes, moved one after another on the words that were drawn. -/
def State.moveLanes (s : State) (vnode chain q : Nat) (mala : Bool) (ds : List Machine.Drained) (xis es : List W32) :
    State :=
  (((s.plan.data.parcels[q]?).map (·.vars)).getD []).zipIdx.foldl (fun u x =>
    u.moveLane vnode chain x.1 mala (u.coeffs q x.2 ds) (s.stepSize q) (s.betaOf chain)
      (tableDraw .gaussian (xis.getD x.2 0).toNat) (tableDraw .exponential (es.getD x.2 0).toNat)) s

/-- The blocks of a parcel that has moved, dropped from its core. -/
def State.dropBlocks (s : State) (node q : Nat) : State :=
  s.onCore node fun c => { c with drains := c.drains.filter (·.parcel != q) }

theorem State.moveParcel_eq (s : State) (vnode node chain q : Nat) : s.moveParcel vnode node chain q =
    let mala := s.plan.data.rule q == some .mala
    let xis := s.drawParcel chain q
    let es := xis.2.drawAccept mala chain q
    ((es.2.moveLanes vnode chain q mala (s.passesOf node q) xis.1 es.1).dropBlocks node q).parcelDone chain q := rfl

theorem State.commits_dropBlocks (s : State) (node q : Nat) : s.Commits W (s.dropBlocks node q) :=
  s.commits_onCore node fun _ => ⟨rfl, rfl⟩

theorem State.done_parcelDone (s : State) (chain q : Nat) : s.parcelIn chain q ∈ (s.parcelDone chain q).ex.done :=
  List.mem_cons_self

/-- A parcel's moves write its variables alone, and complete it. -/
theorem State.moves_moveParcel (s : State) (vnode node chain q : Nat) :
    s.Moves (s.parcelVals chain q) (s.moveParcel vnode node chain q) ∧
      s.parcelIn chain q ∈ (s.moveParcel vnode node chain q).ex.done := by
  have hes : s.Commits (s.parcelVals chain q)
      ((s.drawParcel chain q).2.drawAccept (s.plan.data.rule q == some .mala) chain q).2 :=
    (s.commits_drawParcel chain q).trans (State.commits_drawAccept ..)
  rw [State.moveParcel_eq]
  dsimp only
  generalize (s.plan.data.rule q == some .mala) = mala at hes ⊢
  generalize (s.drawParcel chain q).2.drawAccept mala chain q = es at hes ⊢
  have hlanes : es.2.Moves (s.parcelVals chain q)
      (es.2.moveLanes vnode chain q mala (s.passesOf node q) (s.drawParcel chain q).1 es.1) := by
    refine State.Moves.foldl _ fun u hu x hx => u.moves_moveLane vnode mala _ _ _ _ _ ?_
    rw [State.nVars, hu.plan, hes.toMoves.plan]
    exact ⟨x.1, by rw [← hes.toMoves.plan]; exact List.fst_mem_of_mem_zipIdx hx, rfl⟩
  have hdrop := hes.toMoves.trans (hlanes.trans (State.commits_dropBlocks _ node q).toMoves)
  refine ⟨hdrop.trans (State.commits_parcelDone _ chain q).toMoves, ?_⟩
  have hdone := State.done_parcelDone (State.dropBlocks
    (es.2.moveLanes vnode chain q mala (s.passesOf node q) (s.drawParcel chain q).1 es.1) node q) chain q
  rwa [State.parcelIn, hdrop.plan] at hdone

theorem State.moveLanes_one {vnode chain q x : Nat} (mala : Bool) (ds : List Machine.Drained) (xis es : List W32)
    (hv : (s.plan.data.parcels[q]?).map (·.vars) = some [x]) : s.moveLanes vnode chain q mala ds xis es =
      s.moveLane vnode chain x mala (s.coeffs q 0 ds) (s.stepSize q) (s.betaOf chain)
        (tableDraw .gaussian (xis.getD 0 0).toNat) (tableDraw .exponential (es.getD 0 0).toNat) := by
  rw [State.moveLanes, hv]
  rfl

/-- What the move of a one-variable parcel leaves of the values (R112). -/
theorem State.vals_moveParcel_one {vnode node chain q x : Nat} {r : Rule}
    (hv : (s.plan.data.parcels[q]?).map (·.vars) = some [x]) (hr : s.plan.data.rule q = some r) :
    (s.moveParcel vnode node chain q).ex.chain.vals = s.ex.chain.vals.set (chain * s.nVars + x)
      (langevinMove (r == .mala) (s.coeffs q 0 (s.passesOf node q)) (s.stepSize q) (s.betaOf chain)
        (BitVec.ofNat 32 (storedOf s.nVars s.ex.snap chain x))
        (tableDraw .gaussian ((s.drawParcel chain q).1.getD 0 0).toNat)
        (tableDraw .exponential
          (((s.drawParcel chain q).2.drawAccept (r == .mala) chain q).1.getD 0 0).toNat)).1.toNat := by
  have hmala : (s.plan.data.rule q == some .mala) = (r == .mala) := by
    rw [hr]
    rfl
  have hplan : ((s.drawParcel chain q).2.drawAccept (r == .mala) chain q).2.plan = s.plan :=
    ((s.commits_drawParcel (W := fun _ => True) chain q).trans (State.commits_drawAccept ..)).plan
  rw [State.moveParcel_eq, hmala]
  dsimp only
  rw [State.moveLanes_one _ _ _ _ (by rwa [hplan])]
  refine (congrArg ChainSt.vals (State.moveLane_chain ..)).trans ?_
  cases r == .mala <;> rfl

/-- The value that a move leaves: the old one where MALA turns the proposal down or it is not finite (R112, R113). -/
theorem langevinMove_fst (mala : Bool) (k : Coeffs) (eta beta x xi e : W32) :
    (langevinMove mala k eta beta x xi e).1 =
      let y := k.propose eta beta x xi
      if (mala && !expAccepts e (k.logRatio eta beta x y)) || !isFinite32 y then x else y := by
  unfold langevinMove
  dsimp only
  cases mala && !expAccepts e (k.logRatio eta beta x (k.propose eta beta x xi)) <;>
    cases isFinite32 (k.propose eta beta x xi) <;> rfl

/-- Parcels of a chain moved one after another, each with the blocks at its own core. -/
def State.langevinMoves (s : State) (node chain : Nat) (qs : List Nat) : State :=
  qs.foldl (fun u q => u.moveParcel node (u.coreOfParcel q) chain q) s

theorem State.moves_langevinMoves (s : State) (node chain : Nat) (qs : List Nat) :
    s.Moves (fun _ => True) (s.langevinMoves node chain qs) :=
  State.Moves.foldl qs fun u _ q _ =>
    let h := (u.moves_moveParcel node (u.coreOfParcel q) chain q).1
    { h with vals := fun _ hk => absurd trivial hk }

/-- Every parcel of the list has moved. -/
theorem State.done_langevinMoves (node chain : Nat) {qs : List Nat} : ∀ {s : State}, ∀ q ∈ qs,
    s.parcelIn chain q ∈ (s.langevinMoves node chain qs).ex.done := by
  induction qs with
  | nil => exact fun q hq => absurd hq List.not_mem_nil
  | cons p qs ih =>
    intro s q hq
    obtain ⟨hmoves, hdone⟩ := s.moves_moveParcel node (s.coreOfParcel p) chain p
    have hrest := (s.moveParcel node (s.coreOfParcel p) chain p).moves_langevinMoves node chain qs
    obtain rfl | hq := List.mem_cons.mp hq
    · exact hrest.done _ hdone
    · have := ih (s := s.moveParcel node (s.coreOfParcel p) chain p) q hq
      rwa [State.parcelIn, hmoves.plan] at this

section
variable {t node : Nat} {c : CoreSt} {e : SeqEntry}

/-- The parcels of a LANGEVIN entry that have not moved in this pass. -/
def State.langevinLeft (s : State) (c : CoreSt) (e : SeqEntry) : List Nat :=
  (s.plan.home.langevin e).filter fun q => !s.ex.done.contains (s.parcelIn c.pass q)

theorem execLangevin_due (h : (s.tick t).entryDue node 7 = some (c, e)) (hr : (s.tick t).langevinReady c e = true) :
    exec (.langevin t node) s = .next (((s.tick t).onCore node CoreSt.advance).langevinMoves node c.pass
      ((s.tick t).langevinLeft c e)) := by
  show execLangevin t node s = _
  rw [execLangevin, State.when_due (by rw [h]; exact hr), h]
  rfl

end

end Sys2Proof.Machine
end

section
/-! O57: the rows of the arithmetic. -/

namespace Sys2Proof.Machine

section
variable {t node : Nat} {c : CoreSt} {e : SeqEntry} {s : State}

/-- MAC, as the core stands after it. -/
theorem macRow {d : BlockD} (h : (s.tick t).entryDue node 2 = some (c, e)) (hr : (s.tick t).macReady c e = true)
    (hd : s.plan.data.blocks[e.arg]? = some d) :
    ∃ u x, exec (.mac t node .ok) s = .next u ∧ u.core node = some x ∧ x.pos = c.pos + 1 ∧
      x.bank e.bankB = { (s.tick t).macBank c e with
        filling := !e.flags.testBit 2
        closed := e.flags.testBit 2
        closedAt := (s.tick t).ccyc
        cols := ((s.tick t).macBank c e).cols.zipIdx.map fun w => w.1.add ((s.tick t).macSum c e d w.2)
        done := (e.arg, (s.tick t).macDone c e + e.count) :: ((s.tick t).macBank c e).done.filter (·.1 != e.arg) } ∧
      x.bank (!e.bankB) = c.bank (!e.bankB) ∧ x.drains = c.drains ∧
      u = { s.tick t with ex := { s.ex with cores := u.ex.cores } } := by
  obtain ⟨hc, -⟩ := State.entryDue_core h
  have hcore := State.core_onCore_at (f := fun _ => (s.tick t).macEntry c e) hc fun _ _ =>
    ((s.tick t).macEntry_node c e).trans (State.core_node hc).2
  have hentry := (s.tick t).macEntry_eq c e hd
  refine ⟨(s.tick t).onCore node fun _ => (s.tick t).macEntry c e, _, ?_, hcore, ?_⟩
  · rw [execMac_due h hr, State.coreFault_ok]
  · rw [hentry, CoreSt.setBank_pos, CoreSt.bank_setBank_self, CoreSt.bank_setBank_other, CoreSt.setBank_drains]
    exact ⟨rfl, rfl, rfl, rfl, rfl⟩

/-- DRAIN, as the core stands after it. -/
theorem drainRow {side : Bool} {cfg : DrainCfg} (h : (s.tick t).drainDue node = some (c, side))
    (hcfg : (s.tick t).plan.data.drain ((s.tick t).drainId (c.bank side)) = some cfg) :
    ∃ u x, exec (.drain t node .ok) s = .next u ∧ u.core node = some x ∧
      x.bank side = { Bank.reset with freeAt := (s.tick t).ccyc + 1 } ∧ x.bank (!side) = c.bank (!side) ∧
      x.drains = c.drains ++ [(s.tick t).drainBlock c (c.bank side) cfg] ∧ x.pos = c.pos ∧
      x.sticky = c.sticky ||| ((s.tick t).drainOut (c.bank side) cfg).sticky ∧ u.ex.chain = s.ex.chain := by
  obtain ⟨x, hx, hspec⟩ := State.core_drainRead (State.drainDue_core h) side cfg
  obtain ⟨hbank, hother, hdrains, hpos, hsticky⟩ := hspec
  have hex := (State.drained_frame ((s.tick t).drainBank c side) node ((s.tick t).drainBad node (c.bank side) .ok)
    .ok).1.trans ((s.tick t).drainBank_ex c side hcfg)
  exact ⟨_, x, execDrain_due h .ok, (State.core_of_cores (congrArg Exec.cores hex) node).trans hx, hbank, hother,
    hdrains, hpos, hsticky, (congrArg Exec.chain hex).trans rfl⟩

/-- A check that fails in a MAC changes nothing else (R146, R150). -/
theorem macFaultRow (t node : Nat) (f : CoreFault) (s : State) : ∃ u w, exec (.mac t node .ok) s = .next u ∧
    exec (.mac t node f) s = .next w ∧ w.ex = u.ex ∧ w.regs = u.regs ∧ w.emitted = u.emitted := by
  show ∃ u w, execMac t node .ok s = .next u ∧ execMac t node f s = .next w ∧ _
  refine State.when_both (R := fun u w => w.ex = u.ex ∧ w.regs = u.regs ∧ w.emitted = u.emitted)
    (fun _ => ⟨rfl, rfl, rfl⟩) ?_
  split
  · rw [State.coreFault_ok]
    exact State.coreFault_frame ..
  · exact ⟨rfl, rfl, rfl⟩

/-- Nor does one in a DRAIN. -/
theorem drainFaultRow (t node : Nat) (f : CoreFault) (s : State) : ∃ u w, exec (.drain t node .ok) s = .next u ∧
    exec (.drain t node f) s = .next w ∧ w.ex = u.ex ∧ w.regs = u.regs ∧ w.emitted = u.emitted := by
  show ∃ u w, execDrain t node .ok s = .next u ∧ execDrain t node f s = .next w ∧ _
  refine State.when_both (R := fun u w => w.ex = u.ex ∧ w.regs = u.regs ∧ w.emitted = u.emitted)
    (fun _ => ⟨rfl, rfl, rfl⟩) ?_
  split
  next c side _ =>
    obtain ⟨hex, hregs, hemitted⟩ := State.drained_frame ((s.tick t).drainBank c side) node
      ((s.tick t).drainBad node (c.bank side) .ok) .ok
    obtain ⟨hex', hregs', hemitted'⟩ := State.drained_frame ((s.tick t).drainBank c side) node
      ((s.tick t).drainBad node (c.bank side) f) f
    exact ⟨hex'.trans hex.symm, hregs'.trans hregs.symm, hemitted'.trans hemitted.symm⟩
  next => exact ⟨rfl, rfl, rfl⟩

theorem macDamageRow {site : Nat} (h : (s.tick t).entryDue node 2 = some (c, e))
    (hr : (s.tick t).macReady c e = true) (hsite : (s.tick t).siteOf (node / 1024) (node % 1024) = some site)
    {x : CoreFault × Damage} (hx : x ∈ [(CoreFault.residue, Damage.charge site 0),
      (.parity false 3 1 2, .slice site false 3), (.uncorrectable 5, .bank site 5)]) :
    ∃ w, exec (.mac t node x.1) s = .next w ∧ x.2 ∈ w.spare.damage ∧ w.slog.rerun = true :=
  ⟨_, execMac_due h hr x.1, State.coreFault_charges (s := (s.tick t).onCore node fun _ =>
    (s.tick t).macEntry c e) hsite hx⟩

/-- UPDATE writes the variables of its parcel alone. -/
theorem updateRow {x : Machine.Drained ⊕ Nat} (h : (s.tick t).updateDue node = some x) :
    ∃ u, exec (.update t node) s = .next u ∧ (s.tick t).Commits (match x with
      | .inl d => (s.tick t).parcelVals d.chain d.parcel
      | .inr q => (s.tick t).parcelVals s.ex.pass q) u := by
  cases x with
  | inl d => exact ⟨_, execUpdate_block h, ((s.tick t).commits_takeBlock node d).trans
      (State.commits_updateBlock _ node d fun _ hk => hk)⟩
  | inr q => exact ⟨_, execUpdate_empty h, (s.tick t).commits_emptyBlocks node s.ex.pass q⟩

/-- What no commit of these variables writes is as it was. -/
theorem State.Commits.frame {u : State} {chain q : Nat} (h : (s.tick t).Commits ((s.tick t).parcelVals chain q) u) :
    u.ex.snap = s.ex.snap ∧ u = { s.tick t with ex := u.ex } ∧
      ∀ k, (∀ w ∈ ((s.plan.data.parcels[q]?).map (·.vars)).getD [], k ≠ chain * s.nVars + w) →
        u.ex.chain.vals.getD k 0 = s.ex.chain.vals.getD k 0 :=
  ⟨h.snap, h.onlyEx, fun k hk => h.vals k fun ⟨w, hw, he⟩ => hk w hw he⟩

/-- UPDATE of a one-variable block (R95 to R100, R108). -/
theorem updateOneRow {d : Machine.Drained} {pc : Parcel} {r : Rule} {x : Nat}
    (h : (s.tick t).updateDue node = some (.inl d)) (hpc : s.plan.data.parcels[d.parcel]? = some pc)
    (hrule : s.plan.data.rule d.parcel = some r) (hr : r ∈ [Rule.heatBath, .glauber, .metropolis])
    (hv : pc.vars = [x]) (hx : x ∉ (s.tick t).pairedVars d.chain) :
    let new := decideBit r ((s.tick t).betaOf d.chain) (pc.typ == 1) (storedOf s.nVars s.ex.snap d.chain x)
      (unitField (((s.plan.data.drain d.cfg).map (·.out)).getD 0) (d.outs.getD 0 0)) d.shift
      (((s.tick t).drawParcel d.chain d.parcel).1.getD 0 0)
    ∃ u, exec (.update t node) s = .next u ∧ u.ex.chain.vals = s.ex.chain.vals.set (d.chain * s.nVars + x) new ∧
      u.ex.chain.lanes = ((s.tick t).drawParcel d.chain d.parcel).2.ex.chain.lanes ∧
      s.parcelIn d.chain d.parcel ∈ u.ex.done ∧ u.ex.snap = s.ex.snap ∧
      (u.core node).map (·.drains) = (s.core node).map (fun k => k.drains.erase d) := by
  intro new
  have hblock : ((s.tick t).takeBlock node d).updateBlock node d =
      ((((s.tick t).takeBlock node d).drawParcel d.chain d.parcel).2.commit node d.chain x new).parcelDone
        d.chain d.parcel := by
    rw [State.updateBlock_lanes (s := (s.tick t).takeBlock node d) hpc hrule hr,
      State.updateLanes_one (s := (s.tick t).takeBlock node d) hr hv hx]
    rfl
  have htaken := (s.tick t).commits_takeBlock (W := fun _ => True) node d
  have hdrawn := htaken.trans (State.commits_drawParcel ((s.tick t).takeBlock node d) d.chain d.parcel)
  refine ⟨_, execUpdate_block h, ?_⟩
  rw [hblock]
  generalize hw : (((s.tick t).takeBlock node d).drawParcel d.chain d.parcel).2 = w at hdrawn ⊢
  have hcommit := hdrawn.trans (w.commits_commit node (chain := d.chain) (v := x) new trivial)
  have hchain : ((w.commit node d.chain x new).parcelDone d.chain d.parcel).ex.chain = _ :=
    w.commit_chain node d.chain x new
  have hdone := State.done_parcelDone (w.commit node d.chain x new) d.chain d.parcel
  rw [State.parcelIn, hcommit.plan] at hdone
  refine ⟨?_, ?_, hdone, hcommit.snap, ?_⟩
  · rw [hchain, State.nVars, hdrawn.plan, ← hw]
    rfl
  · rw [hchain, ← hw]
    rfl
  · refine (w.commit_drains node d.chain x new node).trans ?_
    rw [← hw]
    exact (s.tick t).drains_takeBlock node d

/-- LANGEVIN moves what its entry names, and its core goes on (R80, R112). -/
theorem langevinRow (h : (s.tick t).entryDue node 7 = some (c, e)) (hr : (s.tick t).langevinReady c e = true) :
    ∃ u y, exec (.langevin t node) s = .next u ∧ u.core node = some y ∧ y.pos = c.pos + 1 ∧ u.ex.snap = s.ex.snap ∧
      (∀ q ∈ s.plan.home.langevin e, s.parcelIn c.pass q ∈ u.ex.done) ∧
      u = { s.tick t with
        ex := u.ex
        slog := u.slog } := by
  obtain ⟨hc, -⟩ := State.entryDue_core h
  have hmoves := ((s.tick t).onCore node CoreSt.advance).moves_langevinMoves node c.pass ((s.tick t).langevinLeft c e)
  have hpos := hmoves.pos node
  rw [State.core_onCore_self (f := CoreSt.advance) hc fun _ => rfl, Option.map_some] at hpos
  obtain ⟨y, hy, hypos⟩ := Option.map_eq_some_iff.mp hpos
  refine ⟨_, y, execLangevin_due h hr, hy, hypos, hmoves.snap, fun q hq => ?_, hmoves.rest⟩
  by_cases hdone : s.parcelIn c.pass q ∈ s.ex.done
  · exact hmoves.done _ hdone
  · refine State.done_langevinMoves (s := (s.tick t).onCore node CoreSt.advance) node c.pass q
      (List.mem_filter.mpr ⟨hq, ?_⟩)
    rw [List.contains_eq_mem, Bool.not_eq_true', decide_eq_false_iff_not]
    exact hdone

/-- LANGEVIN of a parcel of one variable (R112, R113). -/
theorem langevinOneRow {q i x : Nat} {cfg : DrainCfg} {r : Rule} (h : (s.tick t).entryDue node 7 = some (c, e))
    (hr : (s.tick t).langevinReady c e = true) (hq : s.plan.home.langevin e = [q])
    (hopen : s.ex.done.contains (s.parcelIn c.pass q) = false) (hrule : s.plan.data.rule q = some r)
    (hmem : r ∈ [Rule.ula, .mala]) (hi : s.plan.data.drainOf s.plan.shape q = some i)
    (hcfg : s.plan.data.drain i = some cfg) (hv : (s.plan.data.parcels[q]?).map (·.vars) = some [x]) :
    let drawn := (s.tick t).drawParcel c.pass q
    let old := BitVec.ofNat 32 (storedOf s.nVars s.ex.snap c.pass x)
    let k := s.coeffs q 0 (s.passesOf (s.coreOfParcel q) q)
    let new := k.propose cfg.scale ((s.tick t).betaOf c.pass) old (tableDraw .gaussian (drawn.1.getD 0 0).toNat)
    let down := r == .mala && !expAccepts (tableDraw .exponential ((drawn.2.drawParcel c.pass q).1.getD 0 0).toNat)
      (k.logRatio cfg.scale ((s.tick t).betaOf c.pass) old new)
    ∃ u y, exec (.langevin t node) s = .next u ∧ u.core node = some y ∧ y.pos = c.pos + 1 ∧
      s.parcelIn c.pass q ∈ u.ex.done ∧ u.ex.snap = s.ex.snap ∧
      u.ex.chain.vals = s.ex.chain.vals.set (c.pass * s.nVars + x)
        (if down || !isFinite32 new then old.toNat else new.toNat) := by
  intro drawn old k new down
  obtain ⟨u, y, hu, hy, hpos, hsnap, hdone, -⟩ := langevinRow h hr
  refine ⟨u, y, hu, hy, hpos, hdone q (by rw [hq]; exact List.mem_singleton_self q), hsnap, ?_⟩
  have hleft : (s.tick t).langevinLeft c e = [q] := by
    have hopen' : (!(s.tick t).ex.done.contains ((s.tick t).parcelIn c.pass q)) = true := by
      rw [Bool.not_eq_true']
      exact hopen
    rw [State.langevinLeft, show (s.tick t).plan.home.langevin e = [q] from hq, 
      List.filter_cons_of_pos (p := fun q => !(s.tick t).ex.done.contains ((s.tick t).parcelIn c.pass q)) hopen',
      List.filter_nil]
  rw [execLangevin_due h hr, hleft] at hu
  cases hu
  have hstep : ((s.tick t).onCore node CoreSt.advance).stepSize q = cfg.scale := by
    rw [State.stepSize, show ((s.tick t).onCore node CoreSt.advance).plan = s.plan from rfl, hi, Option.bind_some, hcfg]
  have hpasses : ((s.tick t).onCore node CoreSt.advance).passesOf (s.coreOfParcel q) q =
      s.passesOf (s.coreOfParcel q) q := by
    rw [State.passesOf, State.map_core_onCore (f := CoreSt.advance) _ node _ (·.drains) (fun _ => rfl) fun _ => rfl]
    rfl
  refine (State.vals_moveParcel_one (s := (s.tick t).onCore node CoreSt.advance) (node := s.coreOfParcel q) hv
    hrule).trans ?_
  rw [hstep, hpasses, langevinMove_fst]
  dsimp only
  rw [apply_ite BitVec.toNat]
  simp only [List.mem_cons, List.not_mem_nil, or_false] at hmem
  obtain rfl | rfl := hmem
  · have hula : (Rule.ula == Rule.mala) = false := rfl
    simp only [down, hula, Bool.false_and, Bool.false_or]
    rfl
  · have hmala : (Rule.mala == Rule.mala) = true := rfl
    simp only [down, hmala, Bool.true_and, State.drawAccept, if_pos]
    rfl

/-- REDUCE stores the result of its record for its chain (R169, R171). -/
theorem reduceRow {r : RedRec} {heads tails : List Nat} (h : (s.tick t).entryDue node 6 = some (c, e))
    (hp : (s.tick t).passEnded c.pass = true) (hr : s.plan.data.reds.find? (·.id == e.arg) = some r)
    (ha : (s.tick t).arrivalsOk r heads tails = true) :
    ∃ u, exec (.reduce t node ⟨heads, tails⟩) s = .next u ∧ u.core node = some { c with pos := c.pos + 1 } ∧
      u.ex.redOut = (r.id, c.pass, (s.tick t).reduce r c.pass heads tails) ::
        s.ex.redOut.filter (fun y => !(y.1 == r.id && y.2.1 == c.pass)) ∧
      u.ex = { s.ex with cores := u.ex.cores, redOut := u.ex.redOut } ∧
      ((s.tick t).ocuOpen = false → u = { s.tick t with ex := u.ex }) := by
  obtain ⟨hc, -⟩ := State.entryDue_core h
  have hcore := State.core_onCore_self (f := CoreSt.advance) hc fun _ => rfl
  obtain ⟨u, hu, hex, hclosed⟩ := execReduce_due h hp hr ha
  refine ⟨u, hu, (State.core_of_cores (congrArg Exec.cores hex) node).trans hcore, congrArg Exec.redOut hex, ?_,
    fun ho => ?_⟩
  · rw [hex]
    rfl
  · rw [hclosed ho]
    rfl

end

/-- Settles O57: each row of the arithmetic, by what its entry does to its core and to the values that it names. -/
theorem arithmeticRows : Obligations.ArithmeticRows := by
  unfold Obligations.ArithmeticRows
  intro t node c s v
  refine ⟨fun e d h hr hd => ?_, fun e h hr f => execMac_not_ready h hr f, fun side cfg h => ?_,
    fun h f => execDrain_not_due h f, fun f => ⟨macFaultRow t node f s, drainFaultRow t node f s⟩,
    fun e site h hr hsite x hx => macDamageRow h hr hsite hx, fun x h => ?_, fun e h hr => langevinRow h hr,
    fun d pc r x h hpc hrule hr hv hx => updateOneRow h hpc hrule hr hv hx, fun h => execUpdate_not_due h,
    fun e q cfg i x r h hr hq hopen hrule hmem hi hcfg hv =>
      langevinOneRow h hr hq hopen hrule hmem hi hcfg hv,
    fun e r heads tails h hp hr => ⟨fun ha => reduceRow h hp hr ha, fun ha => execReduce_not_arrived h hr ha⟩⟩
  · obtain ⟨u, x, hu, hx, hpos, hbank, hother, hdrains, hrest⟩ := macRow h hr hd
    have hnode : c.node = node := (State.core_node (State.entryDue_core h).1).2
    intro b vals old g0
    refine ⟨u, x, hu, hx, hpos, ?_⟩
    rw [hbank]
    refine ⟨rfl, rfl, rfl, rfl, rfl, rfl, ?_, hother, hdrains, hrest⟩
    rw [← hnode]
    rfl
  · intro b id hcfg xs o
    obtain ⟨u, x, hu, hx, hbank, hother, hdrains, hpos, hsticky, hchain⟩ := drainRow h hcfg
    exact ⟨u, x, _, hu, hx, hbank, hother, hdrains, rfl, rfl, rfl, rfl, rfl, rfl, hsticky, hpos, hchain⟩
  · obtain ⟨u, hu, hcommits⟩ := updateRow h
    cases x with
    | inl d => exact ⟨u, hu, hcommits.frame⟩
    | inr q => exact ⟨u, hu, hcommits.frame⟩

end Sys2Proof.Machine
end

section
/-! SUPPORT. The controller's part of a sweep: the moves of a paired group write the values of its members alone, the
actions after them leave w, and the last action adds one to it (R123, R127 to R137). -/

namespace Sys2Proof.Machine

/-! ### Paired moves -/

/-- A state that paired moves lead to: commits that leave w, the number of values and the controller's place among the
groups. -/
structure State.PairedMoves (W : Nat → Prop) (v u : State) : Prop extends State.Commits W v u where
  length : u.ex.chain.vals.length = v.ex.chain.vals.length
  w : u.ex.chain.an.w = v.ex.chain.an.w
  groupNext : u.ex.groupNext = v.ex.groupNext

variable {W : Nat → Prop} {s v u : State}

theorem State.PairedMoves.refl (s : State) : s.PairedMoves W s := ⟨.refl s, rfl, rfl, rfl⟩

theorem State.PairedMoves.trans (h : s.PairedMoves W v) (h' : v.PairedMoves W u) : s.PairedMoves W u where
  toCommits := h.toCommits.trans h'.toCommits
  length := h'.length.trans h.length
  w := h'.w.trans h.w
  groupNext := h'.groupNext.trans h.groupNext

/-- Paired moves repeated over a list. -/
theorem State.PairedMoves.foldl {α : Type} {f : State → α → State} (l : List α)
    (hf : ∀ u, s.PairedMoves W u → ∀ x ∈ l, u.PairedMoves W (f u x)) : s.PairedMoves W (l.foldl f s) :=
  List.foldlRecOn (motive := fun u => s.PairedMoves W u) l f (.refl s) fun u hu x hx => hu.trans (hf u hu x hx)

/-- A change that touches no value: a stream, what is known of a group, or a count. -/
theorem State.PairedMoves.of_no_value (h : u = { s with ex := { s.ex with
    chain := { s.ex.chain with
      ctrl := u.ex.chain.ctrl
      an := { s.ex.chain.an with groups := u.ex.chain.an.groups } }
    groupAcc := u.ex.groupAcc } }) : s.PairedMoves W u := by
  rw [h]
  exact ⟨⟨⟨rfl, rfl, fun _ _ => rfl, fun _ hx => hx, fun _ => rfl⟩, rfl⟩, rfl, rfl, rfl⟩

theorem State.pairedMoves_drawCtrl (s : State) (id : Nat) : s.PairedMoves W (s.drawCtrl id).2 := .of_no_value rfl

/-- A variable set by the controller. -/
theorem State.pairedMoves_setVar (s : State) {chain v : Nat} (n : Nat) (h : W (chain * s.nVars + v)) :
    s.PairedMoves W (s.setVar chain v n) where
  rest := rfl
  snap := rfl
  vals k hk := by
    have hne : chain * s.nVars + v ≠ k := fun he => hk (he ▸ h)
    show (s.ex.chain.vals.set (chain * s.nVars + v) n).getD k 0 = _
    rw [List.getD_eq_getElem?_getD, List.getElem?_set_ne hne, List.getD_eq_getElem?_getD]
  done _ hx := hx
  pos _ := rfl
  slog := rfl
  length := List.length_set
  w := rfl
  groupNext := rfl

/-- An accepted move (R133): position `j` is set in place of the one that was. -/
def State.acceptMove (s : State) (chain gi vi vj j : Nat) : State :=
  let u := ((s.setVar chain vi 0).setVar chain vj 1).onGroup chain gi fun x => { x with pos := j }
  u.onEx fun x => { x with groupAcc := x.groupAcc.modify (chain * u.nGroups + gi) (satAdd 32 · 1) }

theorem State.pairedMoves_acceptMove (s : State) {chain gi vi vj : Nat} (j : Nat) (hi : W (chain * s.nVars + vi))
    (hj : W (chain * s.nVars + vj)) : s.PairedMoves W (s.acceptMove chain gi vi vj j) :=
  (s.pairedMoves_setVar 0 hi).trans (((s.setVar chain vi 0).pairedMoves_setVar 1 hj).trans (.of_no_value rfl))

/-- A paired move writes members of its group alone, whether it is accepted or not. -/
theorem State.pairedMoves_pairedMove (s : State) (chain : Nat) {g : GroupD} (gi : Nat)
    (h : ∀ m ∈ g.members, W (chain * s.nVars + m)) : s.PairedMoves W (s.pairedMove chain g gi) := by
  have hdrawn : s.PairedMoves W ((s.drawCtrl (s.groupStream chain gi)).2.drawCtrl
      ((s.drawCtrl (s.groupStream chain gi)).2.groupStream chain gi)).2 :=
    (s.pairedMoves_drawCtrl _).trans (State.pairedMoves_drawCtrl ..)
  unfold State.pairedMove
  dsimp only
  split
  next vi vj hi hj =>
    split
    · exact hdrawn.trans <| State.pairedMoves_acceptMove _ _ (h vi (List.mem_of_getElem? hi))
        (h vj (List.mem_of_getElem? hj))
    · exact hdrawn
  next => exact hdrawn

/-- Where the members of a group stand in a chain. -/
def State.memberVals (s : State) (chain : Nat) (g : GroupD) (k : Nat) : Prop :=
  ∃ m ∈ g.members, k = chain * s.nVars + m

theorem State.pairedMoves_runGroup (s : State) (chain : Nat) (g : GroupD) (gi : Nat) :
    s.PairedMoves (s.memberVals chain g) (s.runGroup chain g gi) := by
  refine .trans (State.PairedMoves.foldl _ fun u hu _ _ =>
    u.pairedMoves_pairedMove chain gi fun m hm => ⟨m, hm, ?_⟩) (.of_no_value rfl)
  rw [State.nVars, hu.plan]
  rfl

/-- Outside paired mode a group makes no move (R131). -/
theorem State.vals_runGroup_unpaired {chain gi : Nat} (g : GroupD) (h : (s.groupSt chain gi).paired = false) :
    (s.runGroup chain g gi).ex.chain.vals = s.ex.chain.vals := by
  unfold State.runGroup
  rw [h]
  rfl

/-! ### Actions before the last -/

@[simp] theorem State.record_ex (s : State) (code payload : Nat) (src : Source) :
    (s.record code payload src).ex = s.ex := congrArg (·.2.ex) (s.uneventful_record code payload src)

@[simp] theorem State.record_plan (s : State) (code payload : Nat) (src : Source) :
    (s.record code payload src).plan = s.plan := congrArg (·.2.plan) (s.uneventful_record code payload src)

@[simp] theorem State.record_slog (s : State) (code payload : Nat) (src : Source) :
    (s.record code payload src).slog = s.slog := congrArg (·.2.slog) (s.uneventful_record code payload src)

/-- What every action of the controller but the last leaves. -/
structure SweepView where
  plan : PlanSt
  slog : StepLog
  w : Nat

/-- What every one of them leaves after the groups' runs are counted. -/
structure ValuesView extends SweepView where
  vals : List Nat

/-- What the best state and the stuck offset leave. -/
structure EnergyView extends ValuesView where
  penK : Nat
  energy : List (Int × Bool)

def State.sweepView (s : State) : SweepView := ⟨s.plan, s.slog, s.ex.chain.an.w⟩

def State.valuesView (s : State) : ValuesView := ⟨s.sweepView, s.ex.chain.vals⟩

def State.energyView (s : State) : EnergyView := ⟨s.valuesView, s.ex.chain.an.penK, s.ex.energy⟩

theorem State.sweep_of_sweepView (h : u.sweepView = v.sweepView) :
    u.plan = v.plan ∧ u.slog = v.slog ∧ u.ex.chain.an.w = v.ex.chain.an.w :=
  ⟨congrArg SweepView.plan h, congrArg SweepView.slog h, congrArg SweepView.w h⟩

theorem State.vals_of_valuesView (h : u.valuesView = v.valuesView) : u.ex.chain.vals = v.ex.chain.vals :=
  congrArg ValuesView.vals h

theorem State.energyView_record (s : State) (code payload : Nat) (src : Source) :
    (s.record code payload src).energyView = s.energyView := by
  simp [State.energyView, State.valuesView, State.sweepView]

theorem State.valuesView_record (s : State) (code payload : Nat) (src : Source) :
    (s.record code payload src).valuesView = s.valuesView :=
  congrArg EnergyView.toValuesView (s.energyView_record code payload src)

theorem State.sweepView_record (s : State) (code payload : Nat) (src : Source) :
    (s.record code payload src).sweepView = s.sweepView :=
  congrArg ValuesView.toSweepView (s.valuesView_record code payload src)

/-- What both branches of a choice leave. -/
theorem State.view_ite {α : Type} {view : State → α} {c : Prop} [Decidable c] {a b : State} (ha : view a = view s)
    (hb : view b = view s) : view (if c then a else b) = view s := by
  split
  · exact ha
  · exact hb

theorem State.sweepView_foldl {α : Type} {f : State → α → State} (h : ∀ s a, (f s a).sweepView = s.sweepView)
    (l : List α) (s : State) : (l.foldl f s).sweepView = s.sweepView := by
  induction l generalizing s with
  | nil => rfl
  | cons a l ih => rw [List.foldl_cons, ih, h]

theorem State.sweepView_onGroup (s : State) (chain gi : Nat) (f : GroupSt → GroupSt) :
    (s.onGroup chain gi f).sweepView = s.sweepView := rfl

theorem State.sweepView_repair (s : State) (chain : Nat) (g : GroupD) (gi : Nat) :
    (s.repair chain g gi).sweepView = s.sweepView := by
  unfold State.repair
  rw [State.sweepView_onGroup]
  refine State.sweepView_foldl (fun u m => ?_) _ s
  rfl

theorem State.sweepView_countRun (s : State) (chain : Nat) (g : GroupD) (gi : Nat) :
    (s.countRun chain g gi).sweepView = s.sweepView := by
  unfold State.countRun
  refine State.view_ite rfl (State.view_ite rfl (State.view_ite ?_ rfl))
  rw [State.sweepView_record, State.sweepView_onGroup, State.sweepView_repair]

theorem State.sweepView_countRuns (s : State) : s.countRuns.sweepView = s.sweepView :=
  State.sweepView_foldl (fun u chain => State.sweepView_foldl (fun v _ => v.sweepView_countRun chain _ _) _ u) _ s

/-- A plan with no group has no run to count. -/
theorem State.countRuns_no_group (h : s.nGroups = 0) : s.countRuns = s := by
  have hgroups : s.plan.data.anneal.groups.zipIdx = [] := by
    rw [List.eq_nil_of_length_eq_zero h]
    rfl
  refine List.foldlRecOn (motive := fun u => u = s) _ _ rfl fun u hu chain _ => ?_
  rw [hu, hgroups, List.foldl_nil]

theorem State.energyView_updateBest (s : State) : s.updateBest.energyView = s.energyView := by
  unfold State.updateBest
  dsimp only
  split
  · exact State.view_ite (State.view_ite (State.energyView_record ..) rfl) rfl
  · rfl

theorem State.energyView_updateStuck (s : State) : s.updateStuck.energyView = s.energyView :=
  State.view_ite (State.view_ite rfl rfl) <|
    State.view_ite rfl (State.view_ite (State.view_ite (State.energyView_record ..) rfl) rfl)

theorem State.valuesView_updatePenalty (s : State) : s.updatePenalty.valuesView = s.valuesView :=
  State.view_ite rfl <|
    State.view_ite (State.view_ite (State.valuesView_record ..) (State.valuesView_record ..)) rfl

/-- Without a penalty rule no scale changes (R130). -/
theorem State.updatePenalty_no_rule (h : s.plan.data.anneal.penaltyE = 0) : s.updatePenalty = s := by
  rw [State.updatePenalty, h]
  rfl

/-- The controller's actions from the groups' runs to the penalty weights (R128). -/
def State.judgeSweep (s : State) : State := s.countRuns.formEnergy.updateBest.updateStuck.updatePenalty

theorem State.valuesView_judgeSweep (s : State) : s.judgeSweep.valuesView = s.countRuns.valuesView := by
  rw [State.judgeSweep, State.valuesView_updatePenalty]
  exact congrArg EnergyView.toValuesView ((State.energyView_updateStuck _).trans (State.energyView_updateBest _))

theorem State.sweepView_judgeSweep (s : State) : s.judgeSweep.sweepView = s.sweepView :=
  (congrArg ValuesView.toSweepView s.valuesView_judgeSweep).trans s.sweepView_countRuns

theorem State.judgeSweep_plan (s : State) : s.judgeSweep.plan = s.plan := by
  obtain ⟨hplan, -, -⟩ := State.sweep_of_sweepView s.sweepView_judgeSweep
  exact hplan

theorem State.judgeSweep_slog (s : State) : s.judgeSweep.slog = s.slog := by
  obtain ⟨-, hslog, -⟩ := State.sweep_of_sweepView s.sweepView_judgeSweep
  exact hslog

theorem State.judgeSweep_w (s : State) : s.judgeSweep.ex.chain.an.w = s.ex.chain.an.w := by
  obtain ⟨-, -, hw⟩ := State.sweep_of_sweepView s.sweepView_judgeSweep
  exact hw

theorem State.vals_judgeSweep_no_group (h : s.nGroups = 0) : s.judgeSweep.ex.chain.vals = s.ex.chain.vals := by
  rw [State.vals_of_valuesView s.valuesView_judgeSweep, State.countRuns_no_group h]

/-- With no group and no penalty rule the energies are those of the values as the sweep left them (R126, R127). -/
theorem State.energy_judgeSweep (h : s.nGroups = 0) (hp : s.plan.data.anneal.penaltyE = 0) :
    s.judgeSweep.ex.energy = (List.range s.replicas).map fun r =>
      (s.plan.e12 s.ex.chain.vals r s.ex.chain.an.penK, s.plan.feasible s.ex.chain.vals r) := by
  have hview : s.formEnergy.updateBest.updateStuck.energyView = s.formEnergy.energyView :=
    (State.energyView_updateStuck _).trans (State.energyView_updateBest _)
  have hplan : s.formEnergy.updateBest.updateStuck.plan = s.plan := congrArg (·.plan) hview
  rw [State.judgeSweep, State.countRuns_no_group h, State.updatePenalty_no_rule (by rw [hplan, hp])]
  exact congrArg EnergyView.energy hview

/-! ### The last action -/

@[simp] theorem State.setCause_plan (s : State) (i : Nat) : (s.setCause i).plan = s.plan :=
  congrArg (·.2.plan) (s.uneventful_setCause i)

@[simp] theorem State.hwClear_plan (s : State) (f : Field) : (s.hwClear f).plan = s.plan := by
  unfold State.hwClear
  split <;> rfl

/-- A halt shows in registers and as a cause alone (R357). -/
theorem State.haltNow_sweep (s : State) : s.haltNow.ex = s.ex ∧ s.haltNow.plan = s.plan := by
  unfold State.haltNow
  dsimp only
  split <;> simp

theorem State.noteFlush_sweep (s : State) : s.noteFlush.ex = s.ex ∧ s.noteFlush.plan = s.plan := by
  unfold State.noteFlush
  split <;> exact ⟨rfl, rfl⟩

/-- What the boundary of a sweep leaves, where no swap event is due. -/
structure BoundaryView where
  plan : PlanSt
  chain : ChainSt
  energy : List (Int × Bool)
  swapDue : Bool

def State.boundaryView (s : State) : BoundaryView := ⟨s.plan, s.ex.chain, s.ex.energy, s.ex.swapDue⟩

theorem State.boundaryView_congr (h : u.ex = v.ex ∧ u.plan = v.plan) : u.boundaryView = v.boundaryView := by
  obtain ⟨hex, hplan⟩ := h
  rw [State.boundaryView, hex, hplan, State.boundaryView]

theorem State.boundaryView_startSweep (h : s.ex.swapDue = false) : s.startSweep.boundaryView = s.boundaryView := by
  rw [State.boundaryView, State.boundaryView, h]
  rfl

/-- After a sweep the step ends, the device halts, or the next sweep begins. -/
theorem State.boundaryView_sweepOver (h : s.ex.swapDue = false) : s.sweepOver.boundaryView = s.boundaryView := by
  unfold State.sweepOver
  dsimp only
  split
  · split
    · exact (State.boundaryView_congr (State.noteFlush_sweep _)).trans rfl
    · split
      · exact (State.boundaryView_congr (State.haltNow_sweep _)).trans rfl
      · exact State.boundaryView_startSweep h
  · rfl

/-- The last action counts the sweep in w and leaves the rest of chain state (R128). -/
theorem State.boundaryView_endSweep (h : s.ex.swapDue = false) : s.endSweep.boundaryView =
    { s.boundaryView with chain := { s.ex.chain with an := { s.ex.chain.an with w := s.ex.chain.an.w + 1 } } } := by
  unfold State.endSweep
  dsimp only
  rw [State.boundaryView_sweepOver (by exact h)]
  rfl

theorem State.endSweep_plan (h : s.ex.swapDue = false) : s.endSweep.plan = s.plan :=
  congrArg BoundaryView.plan (State.boundaryView_endSweep h)

theorem State.endSweep_chain (h : s.ex.swapDue = false) : s.endSweep.ex.chain =
    { s.ex.chain with an := { s.ex.chain.an with w := s.ex.chain.an.w + 1 } } :=
  congrArg BoundaryView.chain (State.boundaryView_endSweep h)

theorem State.endSweep_energy (h : s.ex.swapDue = false) : s.endSweep.ex.energy = s.ex.energy :=
  congrArg BoundaryView.energy (State.boundaryView_endSweep h)

theorem State.endSweep_swapDue (h : s.ex.swapDue = false) : s.endSweep.ex.swapDue = false :=
  (congrArg BoundaryView.swapDue (State.boundaryView_endSweep h)).trans h

/-! ### Swap events -/

/-- What a swap event leaves. -/
structure SwapView where
  w : Nat
  vals : List Nat
  slots : Nat

def State.swapView (s : State) : SwapView := ⟨s.ex.chain.an.w, s.ex.chain.vals, s.ex.chain.an.slotMap.length⟩

theorem State.swapView_swapPair (s : State) (event : Nat) (before : List Nat) (k : Nat) :
    (s.swapPair event before k).swapView = s.swapView := by
  unfold State.swapPair
  dsimp only
  split
  · split
    · exact congrArg (SwapView.mk _ _) (List.length_set.trans List.length_set)
    · rfl
  · rfl

/-- The pairs of a swap event, one after another. -/
def State.swapPairs (s : State) (event : Nat) (before : List Nat) (ks : List Nat) : State :=
  ks.foldl (fun u k => u.swapPair event before k) s

theorem State.swapView_swapPairs (event : Nat) (before ks : List Nat) (s : State) :
    (s.swapPairs event before ks).swapView = s.swapView :=
  List.foldlRecOn (motive := fun u : State => u.swapView = s.swapView) ks _ rfl
    fun u hu k _ => (u.swapView_swapPair event before k).trans hu

/-! ### Load balancing -/

theorem State.balance_ex (s : State) (moves : List (Nat × Nat × Nat)) : (s.balance moves).ex = s.ex := by
  unfold State.balance
  split
  · refine List.foldlRecOn (motive := fun u : State => u.ex = s.ex) moves _ rfl fun u hu m _ => ?_
    dsimp only
    split <;> exact hu
  · rfl

/-- Only a Throughput step moves parcels (R242). -/
theorem State.balance_of_not_throughput (moves : List (Nat × Nat × Nat)) (h : s.slog.throughput = false) :
    s.balance moves = s := by
  rw [State.balance, h]
  rfl

end Sys2Proof.Machine
end

section
/-! SUPPORT. The scope: GROUP, ANNEAL and SWAP (R123, R127 to R136). -/

namespace Sys2Proof.Machine

section
variable {t : Nat} {s : State}

/-- A state in which the controller goes on from its next group. -/
def State.nextGroup (s : State) : State := s.onEx fun x => { x with groupNext := x.groupNext + 1 }

theorem execGroup_due {g : GroupD} (hopen : (s.tick t).controllerOpen = true)
    (hlt : s.ex.groupNext < s.replicas * s.nGroups)
    (hg : s.plan.data.anneal.groups[s.ex.groupNext % s.nGroups]? = some g) : exec (.group t) s =
      .next ((s.tick t).nextGroup.runGroup (s.ex.groupNext / s.nGroups) g (s.ex.groupNext % s.nGroups)) := by
  have hdue : ((s.tick t).controllerOpen &&
      decide ((s.tick t).ex.groupNext < (s.tick t).replicas * (s.tick t).nGroups)) = true := by
    rw [hopen]
    exact decide_eq_true hlt
  have hg' : ((s.tick t).onEx fun x => { x with groupNext := (s.tick t).ex.groupNext + 1 }).plan.data.anneal.groups[
      (s.tick t).ex.groupNext % (State.nGroups ((s.tick t).onEx fun x =>
        { x with groupNext := (s.tick t).ex.groupNext + 1 }))]? = some g := hg
  show execGroup t s = _
  rw [execGroup, State.when_due hdue]
  dsimp only
  rw [hg']
  rfl

/-- GROUP: its group's members alone change, and they only in paired mode (R128, R131, R133). -/
theorem groupRow {g : GroupD} (hopen : (s.tick t).controllerOpen = true)
    (hlt : s.ex.groupNext < s.replicas * s.nGroups)
    (hg : s.plan.data.anneal.groups[s.ex.groupNext % s.nGroups]? = some g) :
    ∃ u, exec (.group t) s = .next u ∧ u.ex.groupNext = s.ex.groupNext + 1 ∧
      u.ex.chain.vals.length = s.ex.chain.vals.length ∧ u.ex.chain.an.w = s.ex.chain.an.w ∧
      (∀ i, (∀ m ∈ g.members, i ≠ s.ex.groupNext / s.nGroups * s.nVars + m) →
        u.ex.chain.vals.getD i 0 = s.ex.chain.vals.getD i 0) ∧
      ((s.groupSt (s.ex.groupNext / s.nGroups) (s.ex.groupNext % s.nGroups)).paired = false →
        u.ex.chain.vals = s.ex.chain.vals) ∧ u = { s.tick t with ex := u.ex } := by
  have hmoves := (s.tick t).nextGroup.pairedMoves_runGroup (s.ex.groupNext / s.nGroups) g (s.ex.groupNext % s.nGroups)
  refine ⟨_, execGroup_due hopen hlt hg, hmoves.groupNext, hmoves.length, hmoves.w,
    fun i hi => hmoves.vals i fun ⟨m, hm, he⟩ => hi m hm he, fun hp => State.vals_runGroup_unpaired g hp, ?_⟩
  exact hmoves.onlyEx

/-- A controller that is not open acts on no group and ends no sweep. -/
theorem execController_closed (hopen : (s.tick t).controllerOpen = false) :
    exec (.group t) s = .next (s.tick t) ∧ ∀ moves, exec (.anneal t moves) s = .next (s.tick t) := by
  refine ⟨?_, fun moves => ?_⟩
  · show execGroup t s = _
    rw [execGroup, State.when_not_due (by rw [hopen]; rfl)]
  · show execAnneal t moves s = _
    rw [execAnneal, State.when_not_due (by rw [hopen]; rfl)]

/-- A swap event is due at the end of the sweep (R135). -/
def State.swapDueNow (s : State) : Bool :=
  decide (0 < s.plan.data.anneal.swapK) && (s.ex.chain.an.w + 1) % s.plan.data.anneal.swapK == 0

theorem State.swapDueNow_iff : s.swapDueNow = true ↔
    0 < s.plan.data.anneal.swapK ∧ (s.ex.chain.an.w + 1) % s.plan.data.anneal.swapK = 0 := by
  rw [State.swapDueNow, Bool.and_eq_true, decide_eq_true_iff, beq_iff_eq]

theorem State.swapDueNow_eq_false (h : s.plan.data.anneal.swapK = 0 ∨
    (s.ex.chain.an.w + 1) % s.plan.data.anneal.swapK ≠ 0) : s.swapDueNow = false := by
  rw [← Bool.not_eq_true, State.swapDueNow_iff]
  omega

theorem State.swapDueNow_judgeSweep (s : State) : s.judgeSweep.swapDueNow = s.swapDueNow := by
  rw [State.swapDueNow, State.judgeSweep_plan, State.judgeSweep_w, State.swapDueNow]

/-- The sweep judged and its parcels balanced: whether a swap event is to come is known. -/
def State.annealed (s : State) (moves : List (Nat × Nat × Nat)) : State :=
  (s.judgeSweep.onEx fun x => { x with annealDone := true, swapDue := s.swapDueNow }).balance moves

theorem State.annealed_ex (s : State) (moves : List (Nat × Nat × Nat)) :
    (s.annealed moves).ex = { s.judgeSweep.ex with annealDone := true, swapDue := s.swapDueNow } :=
  State.balance_ex ..

theorem State.annealed_plan {moves : List (Nat × Nat × Nat)} (h : s.slog.throughput = false) :
    (s.annealed moves).plan = s.plan := by
  rw [State.annealed, State.balance_of_not_throughput moves (by rw [State.onEx_slog, State.judgeSweep_slog, h]),
    State.onEx_plan, State.judgeSweep_plan]

theorem execAnneal_due (moves : List (Nat × Nat × Nat)) (hopen : (s.tick t).controllerOpen = true)
    (hlast : s.replicas * s.nGroups ≤ s.ex.groupNext) : exec (.anneal t moves) s = .next
      (if s.swapDueNow then (s.tick t).annealed moves else ((s.tick t).annealed moves).endSweep) := by
  have hdue : ((s.tick t).controllerOpen &&
      decide ((s.tick t).replicas * (s.tick t).nGroups ≤ (s.tick t).ex.groupNext)) = true := by
    rw [hopen]
    exact decide_eq_true hlast
  have hswap : (s.tick t).judgeSweep.swapDueNow = s.swapDueNow := (s.tick t).swapDueNow_judgeSweep
  show execAnneal t moves s = _
  rw [execAnneal, State.when_due hdue, State.annealed, (show (s.tick t).swapDueNow = s.swapDueNow from rfl), ← hswap,
    State.swapDueNow, State.judgeSweep]

/-- ANNEAL judges the sweep, and ends it unless a swap event is due (R126 to R130, R135). -/
theorem annealRow (moves : List (Nat × Nat × Nat)) (hopen : (s.tick t).controllerOpen = true)
    (hlast : s.replicas * s.nGroups ≤ s.ex.groupNext) :
    ∃ u, exec (.anneal t moves) s = .next u ∧
      (s.swapDueNow = true → u.ex.swapDue = true ∧ u.ex.annealDone = true ∧ u.ex.chain.an.w = s.ex.chain.an.w) ∧
      (s.swapDueNow = false → u.ex.chain.an.w = s.ex.chain.an.w + 1) ∧
      (s.slog.throughput = false → u.plan = s.plan) ∧ u.ex.chain.vals = (s.tick t).judgeSweep.ex.chain.vals ∧
      u.ex.energy = (s.tick t).judgeSweep.ex.energy := by
  have hex := (s.tick t).annealed_ex moves
  have hplan := State.annealed_plan (s := s.tick t) (moves := moves)
  have hw : (s.tick t).judgeSweep.ex.chain.an.w = s.ex.chain.an.w := (s.tick t).judgeSweep_w
  refine ⟨_, execAnneal_due moves hopen hlast, ?_⟩
  cases hdue : (s.tick t).swapDueNow with
  | true =>
    rw [if_pos (show s.swapDueNow = true from hdue), hex, hdue]
    dsimp only
    exact ⟨fun _ => ⟨rfl, rfl, hw⟩, fun h => absurd (hdue.symm.trans h) (by decide), hplan, rfl, rfl⟩
  | false =>
    have hoff : ((s.tick t).annealed moves).ex.swapDue = false := by rw [hex, ← hdue]
    have hnot : ¬ s.swapDueNow = true := ne_true_of_eq_false hdue
    rw [if_neg hnot, State.endSweep_chain hoff, State.endSweep_plan hoff, State.endSweep_energy hoff, hex]
    dsimp only
    exact ⟨fun h => absurd h hnot, fun _ => congrArg (· + 1) hw, hplan, rfl, rfl⟩

/-- What ANNEAL judges where there is no group: the values as the sweep left them (R126). -/
theorem State.judgeSweep_tick_no_group (hg : s.nGroups = 0) :
    (s.tick t).judgeSweep.ex.chain.vals = s.ex.chain.vals ∧ (s.plan.data.anneal.penaltyE = 0 →
      (s.tick t).judgeSweep.ex.energy = (List.range s.replicas).map fun r =>
        (s.plan.e12 s.ex.chain.vals r s.ex.chain.an.penK, s.plan.feasible s.ex.chain.vals r)) :=
  ⟨State.vals_judgeSweep_no_group (s := s.tick t) hg, fun hp => State.energy_judgeSweep (s := s.tick t) hg hp⟩

theorem execSwap_due (hs : s.sweeping = true) (hd : s.ex.annealDone = true) (hdue : s.ex.swapDue = true) :
    exec (.swap t) s = .next ((((s.tick t).swapPairs ((s.ex.chain.an.w + 1) / s.plan.data.anneal.swapK - 1)
      s.ex.chain.an.slotMap (List.range (s.replicas - 1))).onEx fun x => { x with swapDue := false }).endSweep) := by
  have hall : ((s.tick t).sweeping && (s.tick t).ex.annealDone && (s.tick t).ex.swapDue) = true := by
    rw [State.sweeping_tick, hs]
    exact Bool.and_eq_true_iff.mpr ⟨hd, hdue⟩
  show execSwap t s = _
  rw [execSwap, State.when_due hall]
  rfl

theorem execSwap_not_due (h : s.ex.swapDue = false) : exec (.swap t) s = .next (s.tick t) := by
  have hnot : ((s.tick t).sweeping && (s.tick t).ex.annealDone && (s.tick t).ex.swapDue) = false :=
    Bool.and_eq_false_iff.mpr (.inr h)
  show execSwap t s = _
  rw [execSwap, State.when_not_due hnot]

/-- SWAP exchanges slots alone, and ends the sweep (R128, R135, R136). -/
theorem swapRow (hs : s.sweeping = true) (hd : s.ex.annealDone = true) (hdue : s.ex.swapDue = true) :
    ∃ u, exec (.swap t) s = .next u ∧ u.ex.chain.an.w = s.ex.chain.an.w + 1 ∧
      u.ex.chain.vals = s.ex.chain.vals ∧ u.ex.swapDue = false ∧
      u.ex.chain.an.slotMap.length = s.ex.chain.an.slotMap.length ∧
      (s.replicas ≤ 1 → u.ex.chain.an.slotMap = s.ex.chain.an.slotMap) := by
  refine ⟨_, execSwap_due hs hd hdue, ?_⟩
  have hview := State.swapView_swapPairs ((s.ex.chain.an.w + 1) / s.plan.data.anneal.swapK - 1) s.ex.chain.an.slotMap
    (List.range (s.replicas - 1)) (s.tick t)
  have hone : s.replicas ≤ 1 → (s.tick t).swapPairs ((s.ex.chain.an.w + 1) / s.plan.data.anneal.swapK - 1)
      s.ex.chain.an.slotMap (List.range (s.replicas - 1)) = s.tick t := fun h => by
    rw [Nat.sub_eq_zero_of_le h]
    rfl
  generalize (s.tick t).swapPairs _ _ _ = u at hview hone ⊢
  have hoff : (u.onEx fun x => { x with swapDue := false }).ex.swapDue = false := rfl
  rw [State.endSweep_chain hoff, State.endSweep_swapDue hoff]
  exact ⟨congrArg (·.w + 1) hview, congrArg SwapView.vals hview, rfl, congrArg SwapView.slots hview,
    fun h => congrArg (·.ex.chain.an.slotMap) (hone h)⟩

end

/-- Settles O58: the rows of the controller, by what a group's moves, the judging of the sweep and its last action
leave. -/
theorem annealRows : Obligations.AnnealRows := by
  unfold Obligations.AnnealRows
  intro t s v
  refine ⟨fun hopen hlt g hg => groupRow hopen hlt hg, execController_closed, fun hopen hlast moves => ?_,
    fun hs hd hdue => swapRow ((s.sweeping_tick t).symm.trans hs) hd hdue, execSwap_not_due⟩
  obtain ⟨u, hu, hdue, hnot, hplan, hvals, henergy⟩ := annealRow moves hopen hlast
  refine ⟨u, hu, fun hk hm => hdue (State.swapDueNow_iff.mpr ⟨hk, hm⟩),
    fun hk => hnot (State.swapDueNow_eq_false hk), hplan, fun hg => ?_⟩
  rw [hvals, henergy]
  exact State.judgeSweep_tick_no_group hg

end Sys2Proof.Machine
end

section
/-! SUPPORT. What moves on the mesh (chapter 08): what a change to the mesh leaves of routes and outputs, where a packet
with one target goes, and what a credit and an acknowledgement free. -/

namespace Sys2Proof.Machine

/-! ### Flits dropped and in error -/

/-- Flits of a site are dropped and counted, and nothing else moves (R215). -/
def State.Dropped (s u : State) (site n : Nat) : Prop :=
  (u.site site).ghostFlits = satAdd 32 (s.site site).ghostFlits n ∧ u.ex = s.ex ∧ u.mesh = s.mesh

theorem State.dropped_ghost {s : State} {site : Nat} (n : Nat) (h : site < s.sites.length) :
    s.Dropped (s.ghost site n) site n :=
  ⟨(s.ghost_spec site n).2.2.1 h, rfl, rfl⟩

/-- A parity error counts against a router and marks the step; the second in the step fails the router (R296). -/
def State.Erred (s u : State) (r : Nat) : Prop :=
  u.slog.rerun = true ∧ (u.site r).flitErrors = (s.site r).flitErrors + 1 ∧
    ((s.site r).flitErrors = 1 → Damage.router r ∈ u.spare.damage)

/-- What an earlier change leaves of a router's count is all that the count of its errors needs. -/
theorem State.erred_flitParity {s u : State} {r : Nat} (hlen : r < u.sites.length)
    (hr : (u.site r).flitErrors = (s.site r).flitErrors) : s.Erred (u.flitParity r) r := by
  obtain ⟨hrerun, hcount⟩ := State.flitParity_spec hlen
  refine ⟨hrerun, hr ▸ hcount, fun hone => ?_⟩
  unfold State.flitParity
  rw [hr, hone]
  exact List.mem_append_right _ (List.mem_singleton.mpr rfl)

/-! ### Routes and outputs under a change to the mesh -/

section
variable (s : State) (f : MeshSt → MeshSt)

theorem State.site_onMesh (i : Nat) : (s.onMesh f).site i = s.site i := rfl

theorem State.nextRouter_onMesh (dir n site : Nat) : (s.onMesh f).nextRouter dir n site = s.nextRouter dir n site := by
  induction n generalizing site with
  | zero => rfl
  | succ n ih =>
    unfold State.nextRouter
    simp only [ih]
    rfl

theorem State.aroundHoles_onMesh (alongRow : Bool) (l : List Nat) :
    (s.onMesh f).aroundHoles alongRow l = s.aroundHoles alongRow l := by
  induction l using State.aroundHoles.induct s with
  | case1 a h b rest hgap ih =>
    rw [State.aroundHoles, State.aroundHoles, State.site_onMesh, if_pos hgap, if_pos hgap, ih]
  | case2 a h b rest hgap ih =>
    rw [State.aroundHoles, State.aroundHoles, State.site_onMesh, if_neg hgap, if_neg hgap, ih]
  | case3 l hl => rw [State.aroundHoles.eq_2 _ _ _ hl, State.aroundHoles.eq_2 _ _ _ hl]

theorem State.route_onMesh (a b : Nat) : (s.onMesh f).route a b = s.route a b := by
  simp only [State.route, State.aroundHoles_onMesh]
  rfl

theorem State.orderDir_onMesh (src site target : Nat) :
    (s.onMesh f).orderDir src site target = s.orderDir src site target := by
  simp only [State.orderDir, State.route_onMesh]

theorem State.pathLinks_onMesh (n : Nat) (path : List Nat) : (s.onMesh f).pathLinks n path = s.pathLinks n path := by
  induction path generalizing n with
  | nil => rfl
  | cons a rest ih =>
    cases rest with
    | nil => rfl
    | cons b rest =>
      simp only [State.pathLinks, ih]
      rfl

theorem State.hopPath_onMesh (h : Hop) : (s.onMesh f).hopPath h = s.hopPath h := by
  unfold State.hopPath
  simp only [State.pathLinks_onMesh, State.route_onMesh]
  rfl

variable {f} in
theorem State.outputHeld_onMesh (h : (f s.mesh).hops = s.mesh.hops) (site dir c : Nat) :
    (s.onMesh f).outputHeld site dir c = s.outputHeld site dir c := by
  unfold State.outputHeld State.linkOf State.linkHeldAt
  simp only [State.nextRouter_onMesh, State.hopPath_onMesh, State.onMesh_mesh, h]
  rfl

variable {f} in
/-- A send takes as long whatever waits, goes or has credit, as long as the output stands as it stood. -/
theorem State.sentBy_onMesh (hhops : (f s.mesh).hops = s.mesh.hops) (hbusy : (f s.mesh).busy = s.mesh.busy)
    (site dir n : Nat) : (s.onMesh f).sentBy site dir n = s.sentBy site dir n := by
  unfold State.sentBy State.outputFree
  rw [funext (s.outputHeld_onMesh hhops site dir), State.onMesh_mesh, hbusy]
  rfl

end

/-! ### Credits -/

/-- A router's input buffer is free again, and its credit is back with the output that sent to it (R218). -/
def State.freeCredit (s : State) (site dir : Nat) : State :=
  s.onMesh fun m => { m with inUse := m.inUse.map fun x =>
    if x.1 == site && x.2.1 == dir then (x.1, x.2.1, x.2.2 - 1) else x }

theorem State.creditUsed_of_mesh {u v : State} (h : u.mesh = v.mesh) (site dir : Nat) :
    u.creditUsed site dir = v.creditUsed site dir := by
  rw [State.creditUsed, h]
  rfl

theorem State.creditUsed_freeCredit (s : State) (site dir : Nat) :
    (s.freeCredit site dir).creditUsed site dir = s.creditUsed site dir - 1 := by
  have hsame : ((fun x : Nat × Nat × Nat => x.1 == site && x.2.1 == dir) ∘ fun x =>
      if x.1 == site && x.2.1 == dir then (x.1, x.2.1, x.2.2 - 1) else x) = fun x => x.1 == site && x.2.1 == dir := by
    funext x
    dsimp only [Function.comp]
    split <;> rfl
  unfold State.creditUsed State.freeCredit
  simp only [State.onMesh_mesh, List.find?_map, hsame]
  cases h : s.mesh.inUse.find? fun x => x.1 == site && x.2.1 == dir with
  | none => rfl
  | some x =>
    have hx := List.find?_some h
    simp only [Option.map_some, Option.getD_some, hx, if_pos]

theorem State.creditUsed_sendBranch (s : State) (b : Branch) :
    (s.sendBranch b).creditUsed b.site b.dir = s.creditUsed b.site b.dir + 1 := by
  simp [State.creditUsed, State.sendBranch]

/-- A branch goes: it has an end of its sending, and its output is taken until then. -/
theorem State.mesh_sendBranch {s : State} {b : Branch} {c : Nat} (h : s.sentBy b.site b.dir (s.flitsOf b.pkt) = c) :
    (s.sendBranch b).mesh =
      let other (x : Nat × Nat × Nat) : Bool := !(x.1 == b.site && x.2.1 == b.dir)
      { s.mesh with
        flying := s.mesh.flying ++ [{ b with done := c }]
        busy := (b.site, b.dir, c) :: s.mesh.busy.filter other
        inUse := (b.site, b.dir, s.creditUsed b.site b.dir + 1) :: s.mesh.inUse.filter other } := by
  subst h
  rfl

theorem State.serveOutput_none_waiting {s : State} {site dir : Nat}
    (h : ∀ b ∈ s.mesh.waiting, b.site ≠ site ∨ b.dir ≠ dir) : s.serveOutput site dir = s := by
  have hnone : s.mesh.waiting.find? (fun b => b.site == site && b.dir == dir) = none :=
    List.find?_eq_none.mpr fun b hb => by simpa [imp_iff_not_or] using h b hb
  rw [State.serveOutput, hnone]

theorem State.serveOutput_no_credit {s : State} {site dir : Nat} (h : s.hasCredit site dir = false) :
    s.serveOutput site dir = s := by
  unfold State.serveOutput
  split
  · rw [h, if_neg (by decide)]
  · rfl

/-- A retry is counted at the site; on the mesh the oldest branch that waits goes. -/
theorem State.mesh_serveOutput {s : State} {site dir : Nat} {b : Branch}
    (hb : s.mesh.waiting.find? (fun b => b.site == site && b.dir == dir) = some b)
    (h : s.hasCredit site dir = true) : (s.serveOutput site dir).mesh =
      ((s.onMesh fun m => { m with waiting := m.waiting.erase b }).sendBranch b).mesh := by
  rw [State.serveOutput, hb]
  dsimp only
  rw [if_pos h]
  by_cases hc : b.copy = true
  · rw [if_pos hc]
    rfl
  · rw [if_neg hc]
    rfl

/-- The oldest branch that waits on an output with credit goes, and takes one. -/
theorem State.serveOutput_sends {s : State} {site dir : Nat} {b : Branch}
    (hb : s.mesh.waiting.find? (fun b => b.site == site && b.dir == dir) = some b)
    (h : s.hasCredit site dir = true) : (s.serveOutput site dir).mesh.packets = s.mesh.packets ∧
      (s.serveOutput site dir).mesh.waiting = s.mesh.waiting.erase b ∧
      (s.serveOutput site dir).creditUsed site dir = s.creditUsed site dir + 1 ∧
      (s.serveOutput site dir).mesh.flying =
        s.mesh.flying ++ [{ b with done := s.sentBy site dir (s.flitsOf b.pkt) }] := by
  have hserved := State.mesh_serveOutput hb h
  have hhere := List.find?_some hb
  simp only [Bool.and_eq_true, beq_iff_eq] at hhere
  obtain ⟨rfl, rfl⟩ := hhere
  have hmesh := hserved.trans (State.mesh_sendBranch (State.sentBy_onMesh _ rfl rfl ..))
  have hcredit := (State.creditUsed_of_mesh hserved b.site b.dir).trans (State.creditUsed_sendBranch ..)
  rw [hmesh]
  exact ⟨rfl, rfl, hcredit, rfl⟩

/-! ### Packets with one target -/

theorem State.branches_nil (s : State) (src n site : Nat) : s.branches src n site [] = [] := by
  simp [State.branches]

theorem State.branches_singleton {s : State} {src n site target dir : Nat} (hdir : dir < 4)
    (h : s.outputFor src n site target = some dir) : s.branches src n site [target] = [(dir, [target])] := by
  interval_cases dir <;> simp [State.branches, List.range_succ, h]

/-- A packet at its last target leaves no branch there. -/
theorem State.roomToFork_here (s : State) (src n site : Nat) : s.roomToFork src n site [site] = true := by
  simp [State.roomToFork, State.branches_nil]

theorem State.roomToFork_singleton {s : State} {src n site target dir : Nat} (hne : target ≠ site) (hdir : dir < 4)
    (h : s.outputFor src n site target = some dir) : s.roomToFork src n site [target] = true := by
  have hleft : [target].filter (· != site) = [target] := by simpa using hne
  simp [State.roomToFork, hleft, State.branches_singleton hdir h, hne.symm]

theorem State.fork_here (s : State) (p : Packet) (site : Nat) :
    s.fork p site [site] = (s.eject p site).showCopies site := by
  simp [State.fork, State.branches_nil]

/-- A packet with one target beyond a router goes whole, so that no copy is held (R219). -/
theorem State.fork_singleton {s : State} {p : Packet} {site target dir : Nat} (hne : target ≠ site) (hdir : dir < 4)
    (h : s.outputFor p.src p.names site target = some dir) :
    s.fork p site [target] = (s.takeBranch ⟨site, dir, p.id, [target], false, 0⟩).showCopies site := by
  have hleft : [target].filter (· != site) = [target] := by simpa using hne
  simp [State.fork, hleft, State.branches_singleton hdir h, hne.symm]

theorem State.eject_unfenced {s : State} {site : Nat} (p : Packet) (h : (s.site site).fenced = false) :
    s.eject p site = s.onPacket p.id fun x => { x with reached := site :: x.reached } := by
  simp [State.eject, h]

/-- No branch waits on the output: what the packet does turns on the credit alone. -/
theorem State.takeBranch_eq {s : State} {b : Branch}
    (h : ∀ x ∈ s.mesh.waiting, x.site ≠ b.site ∨ x.dir ≠ b.dir) : s.takeBranch b =
      if s.hasCredit b.site b.dir then s.sendBranch b
      else s.onMesh fun m => { m with waiting := m.waiting ++ [b] } := by
  have hnone : (s.mesh.waiting.any fun w => w.site == b.site && w.dir == b.dir) = false :=
    List.any_eq_false.mpr fun x hx => by simpa [imp_iff_not_or] using h x hx
  rw [State.takeBranch, State.outputOpen, hnone, Bool.not_false, Bool.and_true]

/-- Outside Throughput mode a packet takes dimension order (R207). -/
theorem State.outputFor_ordered {s : State} (h : s.flag Fld.MODE_STAT_MODE = false) (src n site target : Nat) :
    s.outputFor src n site target = s.orderDir src site target := by
  rw [State.outputFor, h, Bool.and_false, if_neg (by decide)]

/-! ### Packets given and taken -/

theorem State.arriving_eq_none {s : State} {id : Nat} (h : ∀ b ∈ s.mesh.flying, b.pkt ≠ id) (site : Nat) :
    s.arriving id site = none :=
  List.find?_eq_none.mpr fun b hb => by simp [h b hb]

theorem State.packet_of_arriving {s : State} {id site : Nat} {b : Branch} (h : s.arriving id site = some b) :
    b.pkt = id := by
  have hb := List.find?_some h
  simp only [Bool.and_eq_true, beq_iff_eq] at hb
  exact hb.1.1

theorem Packet.id_of_find? {l : List Packet} {p : Packet} {id : Nat} (h : l.find? (·.id == id) = some p) : p.id = id :=
  beq_iff_eq.mp (List.find?_some (p := fun x : Packet => x.id == id) h)

/-- A packet joins those on the mesh. -/
def State.addPacket (s : State) (p : Packet) : State := s.onMesh fun m => { m with packets := m.packets ++ [p] }

theorem State.flitsOf_addPacket {s : State} {p : Packet} (h : ∀ q ∈ s.mesh.packets, q.id ≠ p.id) :
    (s.addPacket p).flitsOf p.id = p.flits := by
  have hnone : s.mesh.packets.find? (·.id == p.id) = none := List.find?_eq_none.mpr fun q hq => by simpa using h q hq
  simp [State.flitsOf, State.addPacket, List.find?_append, hnone]

/-- A change to a packet that has just joined is a change to it alone. -/
theorem State.packets_addPacket_onPacket {s : State} {p : Packet} (f : Packet → Packet)
    (h : ∀ q ∈ s.mesh.packets, q.id ≠ p.id) :
    ((s.addPacket p).onPacket p.id f).mesh.packets = s.mesh.packets ++ [f p] := by
  have hold : (s.mesh.packets.map fun x => if x.id == p.id then f x else x) = s.mesh.packets :=
    (List.map_congr_left fun q hq => if_neg (by simpa using h q hq)).trans (List.map_id _)
  exact List.map_append.trans (congrArg₂ _ hold (congrArg ([·]) (if_pos (beq_self_eq_true p.id))))

end Sys2Proof.Machine
end

section
/-! O59: what moves on the mesh. -/

namespace Sys2Proof.Machine

section
variable {t i site : Nat} {s : State}

/-! ### Sites that the grid does not have -/

theorem execMesh_no_unit (h : 720 ≤ site) : exec (.hopInject t i site) s = .fault .noSuchUnit ∧
    exec (.hopDelivery t i (some site)) s = .fault .noSuchUnit ∧
    ∀ n, exec (.freeSlotPacket t i site ⟨false, []⟩ ⟨n, none⟩) s = .fault .noSuchUnit := by
  refine ⟨?_, ?_, fun n => ?_⟩
  · show execHopInject t i site s = _
    rw [execHopInject, if_pos h]
  · show execHopDelivery t i (some site) s = _
    exact if_pos (decide_eq_true h)
  · show execFreeSlotPacket t i site ⟨false, []⟩ ⟨n, none⟩ s = _
    rw [execFreeSlotPacket, if_pos (by simp [h])]

/-! ### Scheduled hops -/

theorem execHopInject_due {h : Hop} {a : HopAlloc} (hsite : site < 720) (hdue : (s.tick t).injectDue i site = true)
    (hhop : (s.tick t).hopAt i = some (h, a)) : exec (.hopInject t i site) s = .next
      (if (s.site site).fenced && !(s.tick t).portHop h site then (s.tick t).ghost site (h.flits * h.duration)
      else { s.tick t with ex := { s.ex with
        inFlight := s.ex.inFlight ++ [(i, (s.tick t).ccyc, s.ex.passAt + a.t)], sent := i :: s.ex.sent } }) := by
  show execHopInject t i site s = _
  rw [execHopInject, if_neg (Nat.not_le.mpr hsite), State.when_due hdue, hhop]
  rfl

theorem execHopInject_not_due (hsite : site < 720) (hdue : (s.tick t).injectDue i site = false) :
    exec (.hopInject t i site) s = .next (s.tick t) := by
  show execHopInject t i site s = _
  rw [execHopInject, if_neg (Nat.not_le.mpr hsite), State.when_not_due hdue]

theorem hopDroppedRow {h : Hop} {a : HopAlloc} (hsite : site < 720) (hdue : (s.tick t).injectDue i site = true)
    (hhop : (s.tick t).hopAt i = some (h, a)) (hf : (s.site site).fenced = true)
    (hport : (s.tick t).portHop h site = false) (hlen : site < s.sites.length) :
    ∃ u, exec (.hopInject t i site) s = .next u ∧ s.Dropped u site (h.flits * h.duration) := by
  refine ⟨_, execHopInject_due hsite hdue hhop, ?_⟩
  rw [hf, hport, Bool.not_false, Bool.and_self, if_pos rfl]
  exact (s.tick t).dropped_ghost _ hlen

/-- A hop is taken out of flight, and a slot ends no earlier (R213). -/
def State.deliverHop (s : State) (x : Nat × Nat × Nat) : State :=
  s.onEx fun y => { y with inFlight := y.inFlight.erase x, lastCommit := max y.lastCommit (s.deliveryAt x) }

theorem execHopDelivery_due {x : Nat × Nat × Nat} {parity : Option Nat} (hdue : (s.tick t).deliveryDue i = true)
    (hx : s.ex.inFlight.find? (·.1 == i) = some x) (hp : ∀ r, parity = some r → r < 720) :
    exec (.hopDelivery t i parity) s = .next (((s.tick t).deliverHop x).flitCheck parity) := by
  have hunit : ¬ parity.any (720 ≤ ·) = true := by cases parity <;> simp_all
  have hx' : (s.tick t).ex.inFlight.find? (·.1 == i) = some x := hx
  show execHopDelivery t i parity s = _
  rw [execHopDelivery, if_neg hunit, State.when_due hdue, hx']
  rfl

theorem execHopDelivery_not_due (hdue : (s.tick t).deliveryDue i = false) :
    exec (.hopDelivery t i none) s = .next (s.tick t) := by
  show execHopDelivery t i none s = _
  rw [execHopDelivery, if_neg (by decide), State.when_not_due hdue]

/-! ### Free-slot packets -/

/-- A router takes what arrives of a packet, or else what its own core or node gives it. -/
def State.takePacket (s : State) (i site : Nat) (targets : Targets) (flits : Nat) : State :=
  match s.arriving i site with
  | some b => s.passPacket b site
  | none => s.givePacket ⟨i, site, flits, targets.sites.dedup, [], false⟩ targets.node

theorem State.takePacket_arriving {b : Branch} (h : s.arriving i site = some b) (targets : Targets) (flits : Nat) :
    s.takePacket i site targets flits = s.passPacket b site := by
  rw [State.takePacket, h]

theorem State.takePacket_given (h : s.arriving i site = none) (targets : Targets) (flits : Nat) :
    s.takePacket i site targets flits =
      s.givePacket ⟨i, site, flits, targets.sites.dedup, [], false⟩ targets.node := by
  rw [State.takePacket, h]

theorem execFreeSlotPacket_due {targets : Targets} {flits : Flits} (hsite : site < 720)
    (ht : ∀ x ∈ targets.sites, x < 720) (hp : ∀ r, flits.parity = some r → r < 720)
    (hdue : (s.tick t).packetDue i site targets.node targets.sites flits.count = true) :
    exec (.freeSlotPacket t i site targets flits) s =
      .next (((s.tick t).takePacket i site targets flits.count).flitCheck flits.parity) := by
  have hunit : ¬ (720 ≤ site || targets.sites.any (720 ≤ ·) || flits.parity.any (720 ≤ ·)) = true := by
    obtain ⟨count, parity⟩ := flits
    cases parity <;> simp_all
  show execFreeSlotPacket t i site targets flits s = _
  rw [execFreeSlotPacket, if_neg hunit, State.when_due hdue]
  rfl

/-- A packet with one target, new at its own router. -/
def newPacket (i site flits target : Nat) : Packet := ⟨i, site, flits, [target], [], false⟩

/-- A router that is up takes a new packet of its core where there is room to fork. -/
theorem execFreeSlotPacket_new {target flits : Nat} {parity : Option Nat} (hsite : site < 720) (ht : target < 720)
    (hp : ∀ r, parity = some r → r < 720) (hup : s.cUp = true) (hdead : (s.site site).dead = false)
    (hnew : ∀ p ∈ s.mesh.packets, p.id ≠ i) (hfly : ∀ b ∈ s.mesh.flying, b.pkt ≠ i) (hmin : 2 ≤ flits)
    (hmax : flits ≤ 34) (hroom : (s.tick t).roomToFork site 1 site [target] = true) :
    exec (.freeSlotPacket t i site ⟨false, [target]⟩ ⟨flits, parity⟩) s =
      .next (((s.tick t).givePacket (newPacket i site flits target) false).flitCheck parity) := by
  have hnone : (s.tick t).arriving i site = none := State.arriving_eq_none (s := s.tick t) hfly site
  have hok : packetOk [target] flits = true := by simp [packetOk, hmin, hmax]
  have hdue : (s.tick t).packetDue i site false [target] flits = true := by
    unfold State.packetDue
    rw [hnone]
    simpa [hup, hdead, hok, hroom] using hnew
  rw [execFreeSlotPacket_due (targets := ⟨false, [target]⟩) (flits := ⟨flits, parity⟩) hsite (by simpa using ht) hp
    hdue, State.takePacket_given hnone]
  rfl

theorem State.givePacket_unfenced {s : State} {p : Packet} (h : (s.site p.src).fenced = false) :
    s.givePacket p false = (s.addPacket p).fork p p.src p.waiting := by
  rw [State.givePacket, h, Bool.false_and, if_neg (by decide)]
  rfl

theorem State.givePacket_fenced {s : State} {p : Packet} (h : (s.site p.src).fenced = true) :
    s.givePacket p false = s.ghost p.src p.flits := by
  rw [State.givePacket, h, Bool.not_false, Bool.and_self, if_pos rfl]

/-- A new packet for its own router joins and is ejected there. -/
theorem State.givePacket_here {s : State} (flits : Nat) (hf : (s.site site).fenced = false) :
    s.givePacket (newPacket i site flits site) false =
      ((s.addPacket (newPacket i site flits site)).onPacket i fun x =>
        { x with reached := site :: x.reached }).showCopies site := by
  rw [State.givePacket_unfenced hf]
  show State.fork _ (newPacket i site flits site) site [site] = _
  rw [State.fork_here, State.eject_unfenced (s := s.addPacket _) _ hf]
  rfl

theorem State.mesh_givePacket_here {s : State} (flits : Nat) (hf : (s.site site).fenced = false)
    (hnew : ∀ p ∈ s.mesh.packets, p.id ≠ i) : (s.givePacket (newPacket i site flits site) false).mesh =
      { s.mesh with packets := s.mesh.packets ++ [⟨i, site, flits, [site], [site], false⟩] } := by
  rw [State.givePacket_here flits hf]
  exact congrArg (fun l => { s.mesh with packets := l })
    (State.packets_addPacket_onPacket (p := newPacket i site flits site)
      (fun x => { x with reached := site :: x.reached }) hnew)

/-- What the mesh is when a branch of a new packet has gone at once, or queued without credit. -/
def State.joined (s : State) (p : Packet) (site dir : Nat) : MeshSt :=
  let c := s.sentBy site dir p.flits
  let other (x : Nat × Nat × Nat) : Bool := !(x.1 == site && x.2.1 == dir)
  if s.hasCredit site dir then { s.mesh with
    packets := s.mesh.packets ++ [p]
    flying := s.mesh.flying ++ [⟨site, dir, p.id, p.waiting, false, c⟩]
    busy := (site, dir, c) :: s.mesh.busy.filter other
    inUse := (site, dir, s.creditUsed site dir + 1) :: s.mesh.inUse.filter other }
  else { s.mesh with
    packets := s.mesh.packets ++ [p], waiting := s.mesh.waiting ++ [⟨site, dir, p.id, p.waiting, false, 0⟩] }

/-- A new packet for another router joins, and its one branch goes or waits (R207, R218). -/
theorem State.mesh_givePacket_beyond {s : State} {flits dst dir : Nat} (hf : (s.site site).fenced = false)
    (hnew : ∀ p ∈ s.mesh.packets, p.id ≠ i) (hne : dst ≠ site) (hdir : dir < 4)
    (hmode : s.flag Fld.MODE_STAT_MODE = false) (hout : s.orderDir site site dst = some dir)
    (hwait : ∀ b ∈ s.mesh.waiting, b.site ≠ site ∨ b.dir ≠ dir) :
    (s.givePacket (newPacket i site flits dst) false).mesh = s.joined (newPacket i site flits dst) site dir := by
  have hout' : (s.addPacket (newPacket i site flits dst)).outputFor site 1 site dst = some dir := by
    rw [State.outputFor_ordered (s := s.addPacket _) hmode, State.addPacket, State.orderDir_onMesh, hout]
  have hcredit : (s.addPacket (newPacket i site flits dst)).hasCredit site dir = s.hasCredit site dir := rfl
  have hsent : (s.addPacket (newPacket i site flits dst)).sentBy site dir flits = s.sentBy site dir flits :=
    s.sentBy_onMesh rfl rfl ..
  rw [State.givePacket_unfenced hf]
  show (State.fork _ (newPacket i site flits dst) site [dst]).mesh = _
  rw [State.fork_singleton hne hdir hout']
  show (State.takeBranch _ ⟨site, dir, i, [dst], false, 0⟩).mesh = _
  rw [State.takeBranch_eq (s := s.addPacket _) (b := ⟨site, dir, i, [dst], false, 0⟩) hwait, hcredit, State.joined]
  split
  · exact State.mesh_sendBranch ((congrArg _ (State.flitsOf_addPacket hnew)).trans hsent)
  · rfl

/-- A parity error on the way of a new packet for its own router counts, whatever its arrival there changed (R296). -/
theorem State.erred_givePacket_here {s : State} {r : Nat} (flits : Nat) (hf : (s.site site).fenced = false)
    (hr : r < s.sites.length) : s.Erred ((s.givePacket (newPacket i site flits site) false).flitParity r) r := by
  rw [State.givePacket_here flits hf]
  exact State.erred_flitParity (hr.trans_eq (List.length_modify ..).symm) (State.flitErrors_onSite (fun _ => rfl) hr)

/-- A packet that arrives at its one target left is ejected there. -/
theorem State.mesh_passPacket_here {s : State} {b : Branch} {p : Packet} (hf : (s.site site).fenced = false)
    (hp : s.mesh.packets.find? (·.id == b.pkt) = some p) (hb : b.targets = [site]) :
    (s.passPacket b site).mesh = { s.mesh with
      flying := s.mesh.flying.erase b
      packets := s.mesh.packets.map fun x => if x.id = b.pkt then { x with reached := site :: x.reached } else x } := by
  have hid : p.id = b.pkt := Packet.id_of_find? hp
  have hp' : (s.onMesh fun m => { m with flying := m.flying.erase b }).mesh.packets.find? (·.id == b.pkt) = some p := hp
  rw [State.passPacket, hp']
  dsimp only
  rw [hb, State.fork_here, State.eject_unfenced (s := State.onMesh _ _) _ hf, hid]
  simp only [State.onPacket, beq_iff_eq]
  rfl

theorem packetPassesRow {b : Branch} {p : Packet} (flits : Nat) (node : Bool) (hsite : site < 720) (hup : s.cUp = true)
    (hdead : (s.site site).dead = false) (hf : (s.site site).fenced = false)
    (harr : (s.tick t).arriving i site = some b) (hp : s.mesh.packets.find? (·.id == i) = some p)
    (hb : b.targets = [site]) :
    ∃ u, exec (.freeSlotPacket t i site ⟨node, []⟩ ⟨flits, none⟩) s = .next u ∧ u.mesh = { s.mesh with
      flying := s.mesh.flying.erase b
      packets := s.mesh.packets.map fun x => if x.id = i then { x with reached := site :: x.reached } else x } := by
  obtain rfl := State.packet_of_arriving harr
  have hp' : (s.tick t).mesh.packets.find? (·.id == b.pkt) = some p := hp
  have hdue : (s.tick t).packetDue b.pkt site node [] flits = true := by
    unfold State.packetDue
    rw [harr]
    simp [hup, hdead, hp, hb, State.roomToFork_here]
  refine ⟨_, execFreeSlotPacket_due (targets := ⟨node, []⟩) (flits := ⟨flits, none⟩) hsite nofun nofun hdue, ?_⟩
  rw [State.takePacket_arriving harr]
  exact State.mesh_passPacket_here (s := s.tick t) hf hp hb

/-! ### Credits -/

theorem execCreditReturn_not_due {dir : Nat} (hsite : site < 720) (hdir : dir < 4)
    (h : s.creditUsed site dir ≤ (s.tick t).underWay site dir) :
    exec (.creditReturn t site dir) s = .next (s.tick t) := by
  have hunit : ¬ (720 ≤ site || 4 ≤ dir) = true := by simp [hsite, hdir]
  have hdue : ((s.tick t).cUp && (s.tick t).underWay site dir < (s.tick t).creditUsed site dir) = false := by
    rw [show (s.tick t).creditUsed site dir = s.creditUsed site dir from rfl, decide_eq_false (Nat.not_lt.mpr h),
      Bool.and_false]
  show execCreditReturn t site dir s = _
  rw [execCreditReturn, if_neg hunit, State.when_not_due hdue]

section
variable {dir : Nat} (hsite : site < 720) (hdir : dir < 4) (hup : s.cUp = true)
  (h : (s.tick t).underWay site dir < s.creditUsed site dir)
include hsite hdir hup h

theorem execCreditReturn_due :
    exec (.creditReturn t site dir) s = .next (((s.tick t).freeCredit site dir).serveOutput site dir) := by
  have hunit : ¬ (720 ≤ site || 4 ≤ dir) = true := by simp [hsite, hdir]
  have hdue : ((s.tick t).cUp && (s.tick t).underWay site dir < (s.tick t).creditUsed site dir) = true := by
    rw [State.cUp_tick, hup, Bool.true_and]
    exact decide_eq_true h
  show execCreditReturn t site dir s = _
  rw [execCreditReturn, if_neg hunit, State.when_due hdue]
  rfl

theorem creditFreedRow (hwait : ∀ b ∈ s.mesh.waiting, b.site ≠ site ∨ b.dir ≠ dir) :
    ∃ u, exec (.creditReturn t site dir) s = .next u ∧ u.creditUsed site dir = s.creditUsed site dir - 1 ∧
      u.mesh = { s.mesh with inUse := u.mesh.inUse } := by
  refine ⟨_, execCreditReturn_due hsite hdir hup h, ?_⟩
  rw [State.serveOutput_none_waiting (s := (s.tick t).freeCredit site dir) hwait]
  exact ⟨(s.tick t).creditUsed_freeCredit site dir, rfl⟩

/-- The oldest branch that waits goes with the credit that came back, where the output holds no more than its
credits. -/
theorem creditTakenRow {b : Branch}
    (hb : s.mesh.waiting.find? (fun b => b.site == site && b.dir == dir) = some b) :
    ∃ u, exec (.creditReturn t site dir) s = .next u ∧ u.mesh.packets = s.mesh.packets ∧
      if s.creditUsed site dir ≤ Config.routerCredit site dir then
        u.mesh.waiting = s.mesh.waiting.erase b ∧ u.creditUsed site dir = s.creditUsed site dir ∧
        u.mesh.flying = s.mesh.flying ++ [{ b with done := (s.tick t).sentBy site dir (s.flitsOf b.pkt) }]
      else u.mesh.waiting = s.mesh.waiting ∧ u.mesh.flying = s.mesh.flying := by
  have hused : ((s.tick t).freeCredit site dir).creditUsed site dir = s.creditUsed site dir - 1 :=
    (s.tick t).creditUsed_freeCredit site dir
  refine ⟨_, execCreditReturn_due hsite hdir hup h, ?_⟩
  split
  next hle =>
    have hcredit : ((s.tick t).freeCredit site dir).hasCredit site dir = true := by
      rw [State.hasCredit, hused]
      exact decide_eq_true (by omega)
    obtain ⟨hpackets, hwaiting, hcount, hflying⟩ :=
      State.serveOutput_sends (s := (s.tick t).freeCredit site dir) hb hcredit
    have hback : s.creditUsed site dir - 1 + 1 = s.creditUsed site dir := by omega
    have hsent : ∀ n, ((s.tick t).freeCredit site dir).sentBy site dir n = (s.tick t).sentBy site dir n :=
      State.sentBy_onMesh _ rfl rfl site dir
    rw [hused, hback] at hcount
    rw [hsent] at hflying
    exact ⟨hpackets, hwaiting, hcount, hflying⟩
  next hle =>
    have hcredit : ((s.tick t).freeCredit site dir).hasCredit site dir = false := by
      rw [State.hasCredit, hused]
      exact decide_eq_false (by omega)
    rw [State.serveOutput_no_credit hcredit]
    exact ⟨rfl, rfl, rfl⟩

end

/-! ### Acknowledgements -/

theorem execFreeSlotAck_due {p : Packet} {target : Nat} (hup : s.cUp = true)
    (hp : s.mesh.packets.find? (·.id == i) = some p) (hr : target ∈ p.reached) (hw : target ∈ p.waiting) :
    exec (.freeSlotAck t i ⟨target, none⟩) s = .next ((s.tick t).ackPacket p target) := by
  have hp' : (s.tick t).mesh.packets.find? (·.id == i) = some p := hp
  have hdue : ((s.tick t).cUp && (s.tick t).mesh.packets.any fun p =>
      p.id == i && p.reached.contains target && p.waiting.contains target) = true := by
    rw [State.cUp_tick, hup, Bool.true_and]
    exact List.any_eq_true.mpr ⟨p, List.mem_of_find?_eq_some hp, by simpa [hr, hw] using List.find?_some hp⟩
  show execFreeSlotAck t i ⟨target, none⟩ s = _
  refine (if_neg Bool.false_ne_true).trans ((State.when_due hdue).trans ?_)
  rw [hp']
  rfl

theorem execFreeSlotAck_not_due {target : Nat}
    (h : ∀ q ∈ s.mesh.packets, q.id = i → target ∉ q.waiting ∨ target ∉ q.reached) :
    exec (.freeSlotAck t i ⟨target, none⟩) s = .next (s.tick t) := by
  have hnone : (s.tick t).mesh.packets.any (fun p =>
      p.id == i && p.reached.contains target && p.waiting.contains target) = false := by
    refine List.any_eq_false.mpr fun q hq hall => ?_
    simp only [Bool.and_eq_true, beq_iff_eq, List.contains_iff_mem] at hall
    obtain ⟨⟨hid, hreached⟩, hwaiting⟩ := hall
    exact (h q hq hid).elim (· hwaiting) (· hreached)
  show execFreeSlotAck t i ⟨target, none⟩ s = _
  exact (if_neg Bool.false_ne_true).trans (State.when_not_due (by rw [hnone, Bool.and_false]))

theorem lastAckRow {p : Packet} {target : Nat} (hup : s.cUp = true)
    (hp : s.mesh.packets.find? (·.id == i) = some p) (hr : target ∈ p.reached) (hw : p.waiting = [target]) :
    exec (.freeSlotAck t i ⟨target, none⟩) s = .next { s.tick t with mesh := { s.mesh with
      packets := s.mesh.packets.filter (·.id != i), lastDone := some (i, p.failed) } } := by
  have hid : p.id = i := Packet.id_of_find? hp
  rw [execFreeSlotAck_due hup hp hr (hw ▸ List.mem_singleton.mpr rfl), State.ackPacket, hw, List.erase_cons_head, hid]
  rfl

theorem earlierAckRow {p : Packet} {target : Nat} (hup : s.cUp = true)
    (hp : s.mesh.packets.find? (·.id == i) = some p) (hr : target ∈ p.reached) (hw : target ∈ p.waiting)
    (hmore : 1 < p.waiting.length) :
    ∃ u, exec (.freeSlotAck t i ⟨target, none⟩) s = .next u ∧
      u.mesh.packets.find? (·.id == i) = some { p with waiting := p.waiting.erase target } := by
  have hid : p.id = i := Packet.id_of_find? hp
  have hleft : (p.waiting.erase target).isEmpty = false := by
    rw [List.isEmpty_eq_false_iff, ← List.length_pos_iff, List.length_erase_of_mem hw]
    omega
  subst hid
  refine ⟨_, execFreeSlotAck_due hup hp hr hw, ?_⟩
  rw [State.ackPacket, hleft, if_neg (by decide)]
  have hsame : ((fun x : Packet => x.id == p.id) ∘ fun q : Packet =>
      if q.id == p.id then { q with waiting := p.waiting.erase target } else q) = fun x => x.id == p.id := by
    funext q
    dsimp only [Function.comp]
    split <;> rfl
  show (s.mesh.packets.map _).find? _ = _
  rw [List.find?_map, hsame, hp, Option.map_some, if_pos (beq_self_eq_true p.id)]

end

/-- Settles O59: each row is what its command leaves of hops in flight, of packets, or of an output's credits. -/
theorem meshTraffic : Obligations.MeshTraffic := by
  unfold Obligations.MeshTraffic
  intro t i site s
  refine ⟨fun h => execMesh_no_unit h, ?_, execHopInject_not_due, ?_, execHopDelivery_not_due, ?_,
    fun b p flits node hsite hup hdead hf harr hp hb => packetPassesRow flits node hsite hup hdead hf harr hp hb,
    fun dir hsite hdir hup => ⟨fun h => ⟨creditFreedRow hsite hdir hup h, fun b => creditTakenRow hsite hdir hup h⟩,
      execCreditReturn_not_due hsite hdir⟩,
    fun p target hup hp hr => ⟨lastAckRow hup hp hr, earlierAckRow hup hp hr⟩, fun target => execFreeSlotAck_not_due⟩
  · intro h a hsite hdue hhop
    refine ⟨fun hf => ?_, hopDroppedRow hsite hdue hhop⟩
    rw [execHopInject_due hsite hdue hhop, hf, Bool.false_and, if_neg (by decide)]
  · intro x hdue hx
    refine ⟨execHopDelivery_due hdue hx nofun, fun r hr hlen => ⟨_, execHopDelivery_due hdue hx ?_, ?_⟩⟩
    · rintro _ ⟨rfl⟩
      exact hr
    · exact State.erred_flitParity (u := (s.tick t).deliverHop x) hlen rfl
  · intro flits hsite hlen hup hdead hnew hfly hmin hmax
    refine ⟨fun hf => ⟨?_, fun r hr hrlen => ?_⟩, fun dst dir hdst hne hf hmode hout hdir hwait => ?_, fun hf => ?_⟩
    · exact ⟨_, execFreeSlotPacket_new hsite hsite nofun hup hdead hnew hfly hmin hmax (State.roomToFork_here ..),
        State.mesh_givePacket_here (s := s.tick t) flits hf hnew⟩
    · refine ⟨_, execFreeSlotPacket_new hsite hsite ?_ hup hdead hnew hfly hmin hmax (State.roomToFork_here ..),
        State.erred_givePacket_here (s := s.tick t) flits hf hrlen⟩
      rintro _ ⟨rfl⟩
      exact hr
    · exact ⟨_, execFreeSlotPacket_new hsite hdst nofun hup hdead hnew hfly hmin hmax
        (State.roomToFork_singleton hne hdir ((State.outputFor_ordered (s := s.tick t) hmode ..).trans hout)),
        State.mesh_givePacket_beyond (s := s.tick t) hf hnew hne hdir hmode hout hwait⟩
    · refine ⟨_, execFreeSlotPacket_new hsite hsite nofun hup hdead hnew hfly hmin hmax (State.roomToFork_here ..), ?_⟩
      rw [State.givePacket_fenced (s := s.tick t) (p := newPacket i site flits site) hf]
      exact (s.tick t).dropped_ghost flits hlen

end Sys2Proof.Machine
end

section
/-! SUPPORT. External memory as its ports see it (chapter 08): bytes that a write stores, tiles that are verified, the
contents of a request's tiles, and what a tile that fails its check leaves. -/

namespace Sys2Proof.Machine

/-! ### Bytes stored -/

theorem memRead_memWrite {m : List Host.Cell} (h : Memory.wf m = true) (a : Nat) (d : List Byte) :
    memRead (memWrite m a d) a d.length = d := by
  refine List.ext_getElem (by simp [memRead]) fun i hi hd => ?_
  simp only [memRead, List.getElem_map, List.getElem_range, memByte_memWrite h]
  rw [if_pos ⟨Nat.le_add_right a i, Nat.add_lt_add_left hd a⟩, Nat.add_sub_cancel_left, List.getD_eq_getElem _ _ hd]

/-- Bytes stand in memory at an address of a port, and every other byte is as it was. -/
def State.Stores (s u : State) (port addr : Nat) (d : List Byte) : Prop :=
  u.readMem port addr d.length = d ∧
    ∀ k, (k < memKey port addr ∨ memKey port addr + d.length ≤ k) → memByte u.mem k = memByte s.mem k

theorem State.stores_of_mem {s u : State} {port addr : Nat} {d : List Byte} (h : Memory.wf s.mem = true)
    (hu : u.mem = memWrite s.mem (memKey port addr) d) : s.Stores u port addr d := by
  refine ⟨by rw [State.readMem, hu, memRead_memWrite h], fun k hk => ?_⟩
  rw [hu, memByte_memWrite h, if_neg (by omega)]

theorem State.stores_storeTiles {s : State} (h : Memory.wf s.mem = true) (port addr : Nat) (d : List Byte) :
    s.Stores (s.storeTiles port addr d) port addr d := State.stores_of_mem h rfl

/-! ### What a record leaves of memory -/

@[simp] theorem State.record_mports (s : State) (code payload : Nat) (src : Source) :
    (s.record code payload src).mports = s.mports := congrArg (·.2.mports) (s.uneventful_record code payload src)

@[simp] theorem State.record_mem (s : State) (code payload : Nat) (src : Source) :
    (s.record code payload src).mem = s.mem := congrArg (·.2.mem) (s.uneventful_record code payload src)

theorem State.inResidence_of_plan {s u : State} (h : u.plan = s.plan) (port tile : Nat) :
    u.inResidence port tile = s.inResidence port tile := by rw [State.inResidence, h, State.inResidence]

/-! ### Tiles of a range -/

theorem partTiles_subset (addr len : Nat) : partTiles addr len ⊆ tilesOf addr len := List.filter_subset_self _

theorem tile_of_singleton {addr len x : Nat} (h : tilesOf addr len = [x]) {i : Nat} (hi : i < len) :
    (addr + i) / 4096 = x := by
  have hcount : (addr + len - 1) / 4096 + 1 - addr / 4096 = 1 := by simpa [tilesOf] using congrArg List.length h
  have hx : addr / 4096 = x := by simpa [tilesOf, hcount] using h
  omega

theorem deliverFrom_nil (addr : Nat) (d : List Byte) : deliverFrom [] addr d = d.map some := by
  refine List.ext_getElem (by simp [deliverFrom]) fun i _ _ => ?_
  simp [deliverFrom]

/-- Nothing is delivered of a range that lies in a tile that is not sound (R231). -/
theorem deliverFrom_singleton {addr len x : Nat} {d : List Byte} (h : tilesOf addr len = [x]) (hd : d.length = len) :
    deliverFrom [x] addr d = d.map fun _ => none := by
  refine List.ext_getElem (by simp [deliverFrom]) fun i hi _ => ?_
  have hlen : i < len := by simpa [deliverFrom, hd] using hi
  simp [deliverFrom, tile_of_singleton h hlen]

/-- A port hands over what was read of a range whose tiles have been verified. -/
def State.deliver (s : State) (bad : List Nat) (port addr : Nat) (d : List Byte) : State :=
  s.onMport port fun m => { m with delivered := deliverFrom bad addr d }

theorem State.mport_deliver {s : State} {port : Nat} (bad : List Nat) (addr : Nat) (d : List Byte)
    (hlen : port < s.mports.length) :
    (s.deliver bad port addr d).mport port = { s.mport port with delivered := deliverFrom bad addr d } :=
  State.mport_onMport _ hlen

/-! ### Tiles that are sound -/

/-- A tile is not poisoned and agrees with its stored check. -/
def State.SoundTile (s : State) (port x : Nat) : Prop := x ∉ (s.mport port).poison ∧ s.tileAgrees port x = true

/-- Every tile of a range is sound. -/
def State.Sound (s : State) (port addr n : Nat) : Prop := ∀ x ∈ tilesOf addr n, s.SoundTile port x

theorem State.tileAgrees_onMport {s : State} {port : Nat} {f : MPort → MPort} (hlen : port < s.mports.length)
    (hf : (f (s.mport port)).checks = (s.mport port).checks) (x : Nat) :
    (s.onMport port f).tileAgrees port x = s.tileAgrees port x := by
  rw [State.tileAgrees, State.mport_onMport f hlen, hf]
  rfl

theorem State.SoundTile.onMport {s : State} {port x : Nat} {f : MPort → MPort} (h : s.SoundTile port x)
    (hlen : port < s.mports.length) (hp : (f (s.mport port)).poison = (s.mport port).poison)
    (hc : (f (s.mport port)).checks = (s.mport port).checks) : (s.onMport port f).SoundTile port x := by
  rw [State.SoundTile, State.mport_onMport f hlen, State.tileAgrees_onMport hlen hc, hp]
  exact h

theorem State.verifyTile_sound {s : State} {port x : Nat} (h : s.SoundTile port x) (scrub : Bool) :
    s.verifyTile port x scrub .ok = (s, true) := by
  obtain ⟨hpoison, hagrees⟩ := h
  simp [State.verifyTile, hpoison, hagrees]

theorem State.verifyTiles_sound {s : State} {port : Nat} {tiles : List Nat} (h : ∀ x ∈ tiles, s.SoundTile port x) :
    s.verifyTiles port [] tiles = (s, []) := by
  induction tiles with
  | nil => rfl
  | cons x tiles ih =>
    obtain ⟨hx, hrest⟩ := List.forall_mem_cons.mp h
    have hfind : findingAt [] port x = .ok := rfl
    rw [State.verifyTiles, hfind, State.verifyTile_sound hx, ih hrest]
    rfl

theorem State.putTiles_sound {s : State} {port addr : Nat} {d : List Byte}
    (h : s.Sound port addr d.length) : s.putTiles port addr d [] = s.storeTiles port addr d := by
  rw [State.putTiles, State.verifyTiles_sound fun x hx => h x (partTiles_subset _ _ hx)]
  rfl

/-! ### Tiles that are not -/

theorem State.verifyTiles_singleton {s u : State} {port x : Nat} (h : s.verifyTile port x false .ok = (u, false)) :
    s.verifyTiles port [] [x] = (u, [x]) := by
  have hfind : findingAt [] port x = .ok := rfl
  rw [State.verifyTiles, hfind, h]
  rfl

/-- A tile of unknown content that no residence holds costs nothing but itself (R307). -/
theorem State.tileDamaged_unheld {s : State} {port x : Nat} (h : s.inResidence port x = false) :
    s.tileDamaged port x 5 = s := by
  simp [State.tileDamaged, h]

theorem State.verifyTile_poisoned {s : State} {port x : Nat} (h : x ∈ (s.mport port).poison)
    (hres : s.inResidence port x = false) :
    s.verifyTile port x false .ok = (s.record 0x5004 (port + x % 2 ^ 40 * 256), false) := by
  have hheld : (s.record 0x5004 (port + x % 2 ^ 40 * 256)).inResidence port x = false :=
    (State.inResidence_of_plan (State.record_plan ..) port x).trans hres
  rw [State.verifyTile, if_pos (by simpa using h)]
  exact congrArg (·, false) (State.tileDamaged_unheld hheld)

/-- A list with room takes the tile. -/
theorem State.poisonTile_room {s : State} {port x : Nat} (h : x ∉ (s.mport port).poison)
    (hfull : (s.mport port).poisonFull = false) (hroom : (s.mport port).poison.length < 255) :
    s.poisonTile port x = s.onMport port fun m => { m with poison := x :: m.poison } := by
  have hlt : (s.mport port).poison.length + 1 < 256 := by omega
  simp [State.poisonTile, h, hfull, hlt]

theorem State.markUncorr_spec (s : State) (port : Nat) : (s.markUncorr port).plan = s.plan ∧
    ∃ b, (s.markUncorr port).mports = s.mports.modify port fun m => { m with uncorrStep := b || m.uncorrStep } := by
  unfold State.markUncorr
  split
  · exact ⟨rfl, false, (List.modify_id ..).symm⟩
  · dsimp only
    generalize (if port % 2 == 0 then port + 1 else port - 1) = other
    split
    · exact ⟨rfl, true, rfl⟩
    · exact ⟨rfl, true, rfl⟩

/-- What is counted of a tile that disagrees with its check, and the record of it (R231). -/
def State.countMismatch (s : State) (port x : Nat) : State :=
  (s.onMport port fun m => { m with
    uncorrectable := satAdd 32 m.uncorrectable 0
    checkFails := satAdd 32 m.checkFails 1 }).record 0x5001 (port + 32 * 0 + x % 2 ^ 40 * 256)

theorem State.badTile_mismatch (s : State) (port x content : Nat) : s.badTile port x false false content =
    (((s.countMismatch port x).poisonTile port x).markUncorr port).tileDamaged port x content := by rfl

/-- A tile that disagrees with its check is counted and poisoned, and no more of its port (R231). -/
theorem State.verifyTile_disagrees {s : State} {port x : Nat} (hlen : port < s.mports.length)
    (h : x ∉ (s.mport port).poison) (hagrees : s.tileAgrees port x = false) (hres : s.inResidence port x = false)
    (hfull : (s.mport port).poisonFull = false) (hroom : (s.mport port).poison.length < 255) :
    ∃ u b, s.verifyTile port x false .ok = (u, false) ∧ u.mports = s.mports.modify port fun m => { m with
      uncorrectable := satAdd 32 m.uncorrectable 0
      checkFails := satAdd 32 m.checkFails 1
      poison := x :: m.poison
      uncorrStep := b || m.uncorrStep } := by
  have hmports : (s.countMismatch port x).mports = s.mports.modify port fun m => { m with
      uncorrectable := satAdd 32 m.uncorrectable 0, checkFails := satAdd 32 m.checkFails 1 } := State.record_mports ..
  have hport : (s.countMismatch port x).mport port = { s.mport port with
      uncorrectable := satAdd 32 (s.mport port).uncorrectable 0
      checkFails := satAdd 32 (s.mport port).checkFails 1 } := by
    rw [State.mport, hmports]
    exact State.mport_onMport _ hlen
  have hpoison := State.poisonTile_room (s := s.countMismatch port x) (port := port) (x := x)
    (by rwa [hport]) (by rwa [hport]) (by rwa [hport])
  obtain ⟨hplan, b, hmark⟩ := ((s.countMismatch port x).poisonTile port x).markUncorr_spec port
  have hunheld : (((s.countMismatch port x).poisonTile port x).markUncorr port).inResidence port x = false := by
    rw [State.inResidence_of_plan hplan, hpoison]
    exact (State.inResidence_of_plan (State.record_plan ..) port x).trans hres
  refine ⟨((s.countMismatch port x).poisonTile port x).markUncorr port, b, ?_, ?_⟩
  · rw [State.verifyTile, if_neg (by simpa using h)]
    simp only [hagrees]
    rw [State.badTile_mismatch, State.tileDamaged_unheld hunheld]
    rfl
  · rw [hmark, hpoison, State.onMport_mports, hmports, List.modify_modify_eq, List.modify_modify_eq]
    rfl

end Sys2Proof.Machine
end

section
/-! O60: the memory ports and the device-memory window. -/

namespace Sys2Proof.Machine

section
variable {t port : Nat} {s : State}

/-! ### Ranges outside the part -/

theorem execMport_no_unit {addr : Nat} {d : List Byte} (h : inPart port addr d.length = false) (id : Nat) :
    exec (.mportRequest t port id true addr 0 d) s = .fault .noSuchUnit ∧
      exec (.freeSlotRequest t port true addr 0 d []) s = .fault .noSuchUnit := by
  have hout : (!inPart port addr d.length) = true := by rw [h]; rfl
  constructor
  · show execMportRequest t port id true addr 0 d s = _
    exact if_pos hout
  · show execFreeSlotRequest t port true addr 0 d [] s = _
    exact if_pos hout

theorem not_outside {addr n : Nat} (h : inPart port addr n = true) : ¬ (!inPart port addr n) = true := by
  rw [h]
  decide

/-! ### Requests -/

/-- A request joins the queue of its port. -/
def MPort.join (m : MPort) (r : MReq) : MPort := { m with queue := enqueue m.queue r }

theorem execMportRequest_write {addr : Nat} {d : List Byte} (h : inPart port addr d.length = true) (id : Nat) :
    exec (.mportRequest t port id true addr 0 d) s =
      s.when t (fun s => s.portActive port && s.planOn && d.length != 0 && inUsable port addr d.length) fun s =>
        s.onMport port (·.join ⟨id, true, addr, d.length, some d, s.ccyc, writeCost addr d.length⟩) := by
  show execMportRequest t port id true addr 0 d s = _
  exact if_neg (not_outside h)

theorem execMportRequest_read {addr n : Nat} (h : inPart port addr n = true) (id : Nat) :
    exec (.mportRequest t port id false addr n []) s =
      s.when t (fun s => s.portActive port && s.planOn && n != 0 && inUsable port addr n) fun s =>
        (s.openReads port addr n).1.onMport port
          (·.join ⟨id, false, addr, n, s.owed port addr n, s.ccyc, (s.openReads port addr n).2⟩) := by
  show execMportRequest t port id false addr n [] s = _
  exact if_neg (not_outside h)

theorem writeRequestRow {addr : Nat} {d : List Byte} (id : Nat) (hact : s.portActive port = true)
    (hlen : port < s.mports.length) (hpart : inPart port addr d.length = true) (hd : d ≠ []) (hplan : s.planOn = true)
    (huse : inUsable port addr d.length = true) :
    ∃ u, exec (.mportRequest t port id true addr 0 d) s = .next u ∧
      u.mport port = (s.mport port).join ⟨id, true, addr, d.length, some d, (s.tick t).ccyc, writeCost addr d.length⟩ ∧
      u = { s.tick t with mports := u.mports } := by
  have hdue : (s.portActive port && s.planOn && d.length != 0 && inUsable port addr d.length) = true := by
    simp [hact, hplan, huse, hd]
  refine ⟨_, (execMportRequest_write hpart id).trans (State.when_due hdue), ?_, rfl⟩
  exact State.mport_onMport (s := s.tick t) _ hlen

theorem writeRefusedRow {addr : Nat} {d : List Byte} (id : Nat) (hpart : inPart port addr d.length = true)
    (huse : inUsable port addr d.length = false) :
    exec (.mportRequest t port id true addr 0 d) s = .next (s.tick t) :=
  (execMportRequest_write hpart id).trans (State.when_not_due (by rw [huse, Bool.and_false]))

theorem State.openReads_singleton {s : State} {addr n x : Nat} (h : tilesOf addr n = [x]) :
    s.openReads port addr n = ((s.openRead port x).1, 0 + (s.openRead port x).2) := by
  rw [State.openReads, h]
  rfl

theorem State.openRead_merged {s : State} {x : Nat} (h : ∃ e ∈ (s.mport port).entries, e.1 = x ∧ s.ccyc ≤ e.2 + 16) :
    s.openRead port x = (s.onMport port fun m => { m with merged := satAdd 48 m.merged 1 }, 0) := by
  have hopen : (s.mport port).entries.any (fun e => e.1 == x && decide (s.ccyc ≤ e.2 + 16)) = true := by simpa using h
  exact if_pos hopen

theorem State.openRead_opens {s : State} {x : Nat} (h : ∀ e ∈ (s.mport port).entries, e.1 = x → e.2 + 16 < s.ccyc)
    (hroom : (s.mport port).entries.length < 64) : s.openRead port x =
      (s.onMport port fun m => { m with
        entries := m.entries ++ [(x, s.ccyc)], maxOpen := max m.maxOpen (m.entries.length + 1) }, 4096) := by
  have hclosed : ¬ (s.mport port).entries.any (fun e => e.1 == x && decide (s.ccyc ≤ e.2 + 16)) = true := by
    intro hany
    obtain ⟨e, he, hopen⟩ := List.any_eq_true.mp hany
    simp only [Bool.and_eq_true, beq_iff_eq, decide_eq_true_eq] at hopen
    exact absurd (h e he hopen.1) (Nat.not_lt.mpr hopen.2)
  exact (if_neg hclosed).trans (if_pos hroom)

/-- A read joins the queue at what opening its tile costs, after that opening's change to the port. -/
theorem readRequestRow {addr n x cost : Nat} {f : MPort → MPort} (id : Nat) (hact : s.portActive port = true)
    (hlen : port < s.mports.length) (hpart : inPart port addr n = true) (huse : inUsable port addr n = true)
    (hn : n ≠ 0) (hplan : s.planOn = true) (hx : tilesOf addr n = [x])
    (hopen : (s.tick t).openRead port x = ((s.tick t).onMport port f, cost)) :
    ∃ u, exec (.mportRequest t port id false addr n []) s = .next u ∧
      u.mport port = (f (s.mport port)).join
        ⟨id, false, addr, n, (s.tick t).owed port addr n, (s.tick t).ccyc, cost⟩ := by
  have hdue : (s.portActive port && s.planOn && n != 0 && inUsable port addr n) = true := by
    simp [hact, hplan, huse, hn]
  refine ⟨_, (execMportRequest_read hpart id).trans (State.when_due hdue), ?_⟩
  have hlen' : port < ((s.tick t).onMport port f).mports.length := hlen.trans_eq (List.length_modify ..).symm
  rw [State.openReads_singleton hx, hopen, Nat.zero_add, State.mport_onMport _ hlen']
  exact congrArg (MPort.join · _) (State.mport_onMport (s := s.tick t) f hlen)

/-! ### Admission -/

theorem execMportAdmit_read {r : MReq} (hact : s.portActive port = true) (hport : port < 32)
    (hr : (s.tick t).admittable port = some r) (hw : r.write = false) :
    exec (.mportAdmit t port []) s = .next (((s.tick t).charge port r).admitRead port r) := by
  have hdue : (s.portActive port && ((s.tick t).admittable port).isSome) = true := by rw [hact, hr]; rfl
  show execMportAdmit t port [] s = _
  rw [execMportAdmit, if_neg (Nat.not_le.mpr hport), State.when_due hdue, hr]
  dsimp only
  rw [hw]

/-- A write of whole tiles has none to verify (R230). -/
theorem execMportAdmit_write {r : MReq} {d : List Byte} (hact : s.portActive port = true) (hport : port < 32)
    (hr : (s.tick t).admittable port = some r) (hw : r.write = true) (hd : r.data = some d)
    (hwhole : partTiles r.addr r.len = []) :
    exec (.mportAdmit t port []) s = .next (((s.tick t).charge port r).admitWrite port r d) := by
  have hdue : (s.portActive port && ((s.tick t).admittable port).isSome) = true := by rw [hact, hr]; rfl
  show execMportAdmit t port [] s = _
  rw [execMportAdmit, if_neg (Nat.not_le.mpr hport), State.when_due hdue, hr]
  dsimp only
  rw [hw, hd, hwhole]
  rfl

theorem State.mport_charge {s : State} (r : MReq) (hlen : port < s.mports.length) :
    (s.charge port r).mport port = { s.mport port with
      account := min (portDepth port)
        ((s.mport port).account + portRate port * (s.ccyc - (s.mport port).accountAt)) - r.cost
      accountAt := s.ccyc
      queue := (s.mport port).queue.drop 1
      delayed := if s.ccyc - r.arrived == 0 then (s.mport port).delayed else satAdd 32 (s.mport port).delayed 1
      maxWait := max (s.mport port).maxWait (min (s.ccyc - r.arrived) (2 ^ 32 - 1)) } := by
  have haccrue : port < (s.accrue port).mports.length := hlen.trans_eq (List.length_modify ..).symm
  rw [State.charge, State.mport_onMport _ haccrue, State.accrue, State.mport_onMport _ hlen]

theorem State.length_charge (s : State) (r : MReq) : (s.charge port r).mports.length = s.mports.length :=
  (List.length_modify ..).trans (List.length_modify ..)

/-- With no write to acknowledge, nothing decides between two contents (R226). -/
theorem State.admitRead_no_writes {s : State} (r : MReq) (h : (s.mport port).writes = []) :
    s.admitRead port r = s.onMport port fun m => { m with reads := m.reads ++ [(r, s.ccyc)] } := by
  rw [State.admitRead, h]
  rfl

theorem readAdmittedRow {r : MReq} (hact : s.portActive port = true) (hport : port < 32) (hlen : port < s.mports.length)
    (hr : (s.tick t).admittable port = some r) (hw : r.write = false) (hnone : (s.mport port).writes = []) :
    ∃ u, exec (.mportAdmit t port []) s = .next u ∧
      (u.mport port).queue = (s.mport port).queue.drop 1 ∧
      (u.mport port).reads = (s.mport port).reads ++ [(r, (s.tick t).ccyc)] ∧
      (u.mport port).account = min (portDepth port) ((s.mport port).account +
        portRate port * ((s.tick t).ccyc - (s.mport port).accountAt)) - r.cost ∧ u.mem = s.mem := by
  have hcharge := State.mport_charge (s := s.tick t) r hlen
  have hlen' : port < ((s.tick t).charge port r).mports.length := hlen.trans_eq ((s.tick t).length_charge r).symm
  have hnone' : (((s.tick t).charge port r).mport port).writes = [] := by rw [hcharge]; exact hnone
  refine ⟨_, execMportAdmit_read hact hport hr hw, ?_⟩
  rw [State.admitRead_no_writes r hnone', State.mport_onMport _ hlen', hcharge]
  exact ⟨rfl, rfl, rfl, rfl⟩

theorem MPort.fold_queue (m : MPort) (addr : Nat) (d : List Byte) : (m.fold addr d).queue = m.queue := by
  unfold MPort.fold
  dsimp only
  split <;> rfl

theorem MPort.fold_writes (m : MPort) (addr : Nat) (d : List Byte) : (m.fold addr d).writes = m.writes := by
  unfold MPort.fold
  dsimp only
  split <;> rfl

theorem State.requests_storeTiles {s : State} (addr : Nat) (d : List Byte) (hlen : port < s.mports.length) :
    ((s.storeTiles port addr d).mport port).queue = (s.mport port).queue ∧
      ((s.storeTiles port addr d).mport port).writes = (s.mport port).writes := by
  have hlen' : port < (s.writeMem port addr d).mports.length := hlen
  rw [State.storeTiles, State.mport_onMport _ hlen']
  exact ⟨rfl, rfl⟩

/-- A write with no read under way or waiting: it stands in memory and is to be acknowledged, and the queue is as it
was. -/
theorem State.admitWrite_alone {s : State} (r : MReq) (d : List Byte) (hlen : port < s.mports.length)
    (hreads : (s.mport port).reads = []) (hqueue : ∀ q ∈ (s.mport port).queue, q.write = true) :
    (s.admitWrite port r d).mem = (s.storeTiles port r.addr d).mem ∧
      ((s.admitWrite port r d).mport port).queue = (s.mport port).queue ∧
      ((s.admitWrite port r d).mport port).writes = (s.mport port).writes ++
        [({ r with data := some (s.readMem port r.addr r.len) }, s.ccyc)] := by
  have hwaiting : (s.mport port).queue.filter (fun q => !q.write && q.arrived == s.ccyc) = [] :=
    List.filter_eq_nil_iff.mpr fun q hq => by simp [hqueue q hq]
  have hstore : port < (s.storeTiles port r.addr d).mports.length := hlen.trans_eq (List.length_modify ..).symm
  obtain ⟨hq, hws⟩ := State.requests_storeTiles r.addr d hlen
  unfold State.admitWrite
  simp only [hreads, hwaiting, List.foldl_nil, List.map_nil, List.find?_nil, Option.getD_none, List.map_id']
  rw [State.mport_onMport _ hstore]
  refine ⟨rfl, ?_, ?_⟩
  · exact (MPort.fold_queue ..).trans hq
  · exact congrArg (· ++ _) ((MPort.fold_writes ..).trans hws)

theorem writeAdmittedRow {r : MReq} {d : List Byte} (hact : s.portActive port = true) (hport : port < 32)
    (hlen : port < s.mports.length) (hwf : Memory.wf s.mem = true) (hr : (s.tick t).admittable port = some r)
    (hw : r.write = true) (hd : r.data = some d) (hwhole : partTiles r.addr r.len = [])
    (hreads : (s.mport port).reads = []) (hqueue : ∀ q ∈ (s.mport port).queue, q.write = true) :
    ∃ u, exec (.mportAdmit t port []) s = .next u ∧ s.Stores u port r.addr d ∧
      (u.mport port).queue = (s.mport port).queue.drop 1 ∧ (u.mport port).writes = (s.mport port).writes ++
        [({ r with data := some (s.readMem port r.addr r.len) }, (s.tick t).ccyc)] := by
  have hcharge := State.mport_charge (s := s.tick t) r hlen
  have hlen' : port < ((s.tick t).charge port r).mports.length := hlen.trans_eq ((s.tick t).length_charge r).symm
  obtain ⟨hmem, hq, hws⟩ := State.admitWrite_alone (s := (s.tick t).charge port r) r d hlen'
    (by rw [hcharge]; exact hreads) (by rw [hcharge]; exact fun q hq => hqueue q (List.mem_of_mem_drop hq))
  refine ⟨_, execMportAdmit_write hact hport hr hw hd hwhole, State.stores_of_mem hwf hmem, hq.trans ?_, hws.trans ?_⟩
  · rw [hcharge]
    rfl
  · rw [hcharge]
    rfl

/-! ### Delivery -/

/-- The bytes that a read is owed, or else those in memory (R225). -/
def State.readBytes (s : State) (port : Nat) (r : MReq) : List Byte := r.data.getD (s.readMem port r.addr r.len)

/-- The oldest read under way is taken, to be verified. -/
def State.takeRead (s : State) (port : Nat) : State := s.onMport port fun m => { m with reads := m.reads.drop 1 }

theorem State.mport_takeRead {s : State} {x : MReq × Nat} {rest : List (MReq × Nat)} (hlen : port < s.mports.length)
    (hr : (s.mport port).reads = x :: rest) : (s.takeRead port).mport port = { s.mport port with reads := rest } := by
  rw [State.takeRead, State.mport_onMport _ hlen, hr]
  rfl

theorem State.length_takeRead (s : State) : (s.takeRead port).mports.length = s.mports.length := List.length_modify ..

section
variable {r : MReq} {a : Nat} {rest : List (MReq × Nat)} (hact : s.portActive port = true) (hport : port < 32)
  (hlen : port < s.mports.length) (hr : (s.mport port).reads = (r, a) :: rest)
  (ha : a + portReadLat port ≤ (s.tick t).ccyc)
include hact hport hr ha

theorem execMportReadDelivery_due : exec (.mportReadDelivery t port []) s = .next
      (let v := ((s.tick t).takeRead port).verifyTiles port [] (tilesOf r.addr r.len)
      v.1.deliver v.2 port r.addr (s.readBytes port r)) := by
  have hr' : ((s.tick t).mport port).reads = (r, a) :: rest := hr
  have hdue : (s.portActive port &&
      (((s.tick t).mport port).reads.head?.any fun r => r.2 + portReadLat port ≤ (s.tick t).ccyc)) = true := by
    rw [hact, hr']
    exact decide_eq_true ha
  show execMportReadDelivery t port [] s = _
  rw [execMportReadDelivery, if_neg (Nat.not_le.mpr hport), State.when_due hdue, hr']
  rfl

/-- Of a read that lies in one tile that is not sound nothing is delivered (R231). -/
theorem execMportReadDelivery_unsound {x : Nat} {w : State} (hx : tilesOf r.addr r.len = [x])
    (hbytes : (s.readBytes port r).length = r.len)
    (hw : ((s.tick t).takeRead port).verifyTile port x false .ok = (w, false)) :
    exec (.mportReadDelivery t port []) s = .next (w.deliver [x] port r.addr (s.readBytes port r)) ∧
      (port < w.mports.length → (w.deliver [x] port r.addr (s.readBytes port r)).mport port =
        { w.mport port with delivered := (s.readBytes port r).map fun _ => none }) := by
  refine ⟨?_, fun hlen => ?_⟩
  · rw [execMportReadDelivery_due hact hport hr ha, hx, State.verifyTiles_singleton hw]
  · rw [State.mport_deliver _ _ _ hlen, deliverFrom_singleton hx hbytes]

include hlen

theorem readDeliveredRow (hsound : s.Sound port r.addr r.len) :
    ∃ u, exec (.mportReadDelivery t port []) s = .next u ∧
      u.mport port = { s.mport port with reads := rest, delivered := (s.readBytes port r).map some } ∧
      u = { s.tick t with mports := u.mports } := by
  have hlen' : port < ((s.tick t).takeRead port).mports.length := hlen.trans_eq (s.tick t).length_takeRead.symm
  have hverify : ((s.tick t).takeRead port).verifyTiles port [] (tilesOf r.addr r.len) =
      ((s.tick t).takeRead port, []) :=
    State.verifyTiles_sound fun x hx => (hsound x hx).onMport (s := s.tick t) hlen rfl rfl
  refine ⟨_, execMportReadDelivery_due hact hport hr ha, ?_⟩
  rw [hverify]
  refine ⟨?_, rfl⟩
  show (State.deliver _ [] port r.addr _).mport port = _
  rw [State.mport_deliver _ _ _ hlen', deliverFrom_nil, State.mport_takeRead (s := s.tick t) hlen hr]
  rfl

theorem readPoisonedRow {x : Nat} (hx : tilesOf r.addr r.len = [x]) (hres : s.inResidence port x = false)
    (hbytes : (s.readBytes port r).length = r.len) (hp : x ∈ (s.mport port).poison) :
    ∃ u w, exec (.mportReadDelivery t port []) s = .next u ∧
      u.mport port = { s.mport port with reads := rest, delivered := (s.readBytes port r).map fun _ => none } ∧
      w = { s.tick t with mports := w.mports } ∧
      u.bel = (State.record w 0x5004 (port + x % 2 ^ 40 * 256)).bel := by
  have htake := State.mport_takeRead (s := s.tick t) hlen hr
  have hw := State.verifyTile_poisoned (s := (s.tick t).takeRead port) (port := port) (x := x)
    (by rw [htake]; exact hp) hres
  have hmports := ((s.tick t).takeRead port).record_mports 0x5004 (port + x % 2 ^ 40 * 256) .die
  have hlen' : port < (((s.tick t).takeRead port).record 0x5004 (port + x % 2 ^ 40 * 256)).mports.length := by
    rw [hmports, State.length_takeRead]
    exact hlen
  obtain ⟨hexec, hdelivered⟩ := execMportReadDelivery_unsound hact hport hr ha hx hbytes hw
  refine ⟨_, (s.tick t).takeRead port, hexec, ?_, rfl, rfl⟩
  rw [hdelivered hlen', State.mport, hmports]
  exact congrArg (fun m : MPort => { m with delivered := (s.readBytes port r).map fun _ => none }) htake

theorem readMismatchRow {x : Nat} (hx : tilesOf r.addr r.len = [x]) (hres : s.inResidence port x = false)
    (hbytes : (s.readBytes port r).length = r.len) (hp : x ∉ (s.mport port).poison)
    (hagrees : s.tileAgrees port x = false) (hfull : (s.mport port).poisonFull = false)
    (hroom : (s.mport port).poison.length < 255) :
    ∃ u, exec (.mportReadDelivery t port []) s = .next u ∧ (u.mport port).reads = rest ∧
      (u.mport port).delivered = ((s.readBytes port r).map fun _ => none) ∧
      (u.mport port).poison = x :: (s.mport port).poison ∧
      (u.mport port).checkFails = satAdd 32 (s.mport port).checkFails 1 := by
  have hlen' : port < ((s.tick t).takeRead port).mports.length := hlen.trans_eq (s.tick t).length_takeRead.symm
  have htake := State.mport_takeRead (s := s.tick t) hlen hr
  obtain ⟨w, b, hw, hmports⟩ := State.verifyTile_disagrees (x := x) hlen' (by rw [htake]; exact hp)
    ((State.tileAgrees_onMport (s := s.tick t) hlen rfl x).trans hagrees) hres (by rw [htake]; exact hfull)
    (by rw [htake]; exact hroom)
  have hlen'' : port < w.mports.length := by
    rw [hmports, List.length_modify]
    exact hlen'
  obtain ⟨hexec, hdelivered⟩ := execMportReadDelivery_unsound hact hport hr ha hx hbytes hw
  have hwport := (congrArg (·.getD port MPort.reset) hmports).trans (State.mport_onMport _ hlen')
  refine ⟨_, hexec, ?_⟩
  rw [hdelivered hlen'', State.mport, hwport, htake]
  exact ⟨rfl, rfl, rfl, rfl⟩

end

/-! ### Acknowledgements, merge entries and the scrubber -/

theorem writeAckRow {w : MReq} {a : Nat} {rest : List (MReq × Nat)} (hact : s.portActive port = true)
    (hport : port < 32) (hlen : port < s.mports.length) (hw : (s.mport port).writes = (w, a) :: rest)
    (ha : a + portAckLat port ≤ (s.tick t).ccyc) :
    ∃ u, exec (.mportWriteAck t port) s = .next u ∧ u.mport port = { s.mport port with writes := rest } ∧
      u = { s.tick t with mports := u.mports } := by
  have hdue : (s.portActive port &&
      ((s.mport port).writes.head?.any fun w => w.2 + portAckLat port ≤ (s.tick t).ccyc)) = true := by
    rw [hact, hw]
    exact decide_eq_true ha
  refine ⟨_, (if_neg (Nat.not_le.mpr hport)).trans (State.when_due hdue), ?_, rfl⟩
  rw [State.mport_onMport (s := s.tick t) _ hlen, State.mport_tick, hw]
  rfl

theorem writeAckWaitsRow {w : MReq} {a : Nat} {rest : List (MReq × Nat)} (hport : port < 32)
    (hw : (s.mport port).writes = (w, a) :: rest) (ha : (s.tick t).ccyc < a + portAckLat port) :
    exec (.mportWriteAck t port) s = .next (s.tick t) := by
  have hdue : (s.portActive port &&
      ((s.mport port).writes.head?.any fun w => w.2 + portAckLat port ≤ (s.tick t).ccyc)) = false := by
    rw [hw, List.head?_cons, Option.any_some, decide_eq_false (Nat.not_le.mpr ha), Bool.and_false]
  exact (if_neg (Nat.not_le.mpr hport)).trans (State.when_not_due hdue)

theorem mergeEntryRow (hact : s.portActive port = true) (hport : port < 32) (hlen : port < s.mports.length) :
    ∃ u, exec (.mergeEntryClose t port) s = .next u ∧
      u.mport port = { s.mport port with
        entries := (s.mport port).entries.filter fun e => (s.tick t).ccyc ≤ e.2 + 16 } ∧
      u = { s.tick t with mports := u.mports } :=
  ⟨_, (if_neg (Nat.not_le.mpr hport)).trans (State.when_due hact), State.mport_onMport (s := s.tick t) _ hlen, rfl⟩

/-- The scrubber goes on from a tile, and at the last one begins another pass (R233). -/
def MPort.scrubTo (port p : Nat) (m : MPort) : MPort :=
  if p + 1 < portTiles port then { m with scrubPos := p + 1 }
  else { m with scrubPos := 0, passes := satAdd 24 m.passes 1 }

theorem scrubRow (hact : s.portActive port = true) (hport : port < 32) (hlen : port < s.mports.length)
    (hanchor : s.stept.anchor.isSome = true) (hwin : (s.tick t).windowOpen wScrub = true)
    (hsound : s.SoundTile port (s.mport port).scrubPos) :
    ∃ u, exec (.scrubRead t port .ok) s = .next u ∧ (u.mport port).scrubPos =
      (if (s.mport port).scrubPos + 1 < portTiles port then (s.mport port).scrubPos + 1 else 0) ∧ u.mem = s.mem := by
  have hdue : (s.portActive port && s.stept.anchor.isSome && (s.tick t).windowOpen wScrub) = true := by
    rw [hact, hanchor, hwin]; rfl
  have hverify : (s.tick t).verifyTile port ((s.tick t).mport port).scrubPos true .ok = (s.tick t, true) :=
    State.verifyTile_sound (s := s.tick t) hsound true
  have hexec : exec (.scrubRead t port .ok) s = .next ((s.tick t).onMport port
      (MPort.scrubTo port (s.mport port).scrubPos)) := by
    refine (if_neg (Nat.not_le.mpr hport)).trans ((State.when_due hdue).trans ?_)
    dsimp only
    rw [hverify]
    rfl
  refine ⟨_, hexec, ?_, rfl⟩
  rw [State.mport_onMport (s := s.tick t) _ hlen, MPort.scrubTo]
  split <;> rfl

/-! ### Adds and free-slot requests -/

theorem atomicAddRow {addr : Nat} {x : W64} (hact : s.portActive port = true) (hwf : Memory.wf s.mem = true)
    (hpart : inPart port addr 8 = true) (hmode : s.slog.throughput = true) (hstep : s.stept.stepOn = true)
    (hsound : s.Sound port addr 8) :
    ∃ u, exec (.atomicAdd t port addr x []) s = .next u ∧
      s.Stores u port addr (natLe (fAdd fp64 (leNat (s.readMem port addr 8)) x.toNat) 8) := by
  have hdue : (s.portActive port && s.slog.throughput && s.stept.stepOn) = true := by rw [hact, hmode, hstep]; rfl
  refine ⟨_, (if_neg (not_outside hpart)).trans (State.when_due hdue), ?_⟩
  rw [State.verifyTiles_sound (s := s.tick t) hsound]
  exact State.stores_storeTiles (s := s.tick t) hwf port addr _

theorem execAtomicAdd_not_due {addr : Nat} {x : W64} (hpart : inPart port addr 8 = true)
    (hmode : s.slog.throughput = false) : exec (.atomicAdd t port addr x []) s = .next (s.tick t) := by
  have hdue : (s.portActive port && s.slog.throughput && s.stept.stepOn) = false := by
    rw [hmode, Bool.and_false, Bool.false_and]
  exact (if_neg (not_outside hpart)).trans (State.when_not_due hdue)

theorem freeSlotWriteRow {addr : Nat} {d : List Byte} (hact : s.portActive port = true) (hwf : Memory.wf s.mem = true)
    (hpart : inPart port addr d.length = true) (hd : d ≠ []) (hsound : s.Sound port addr d.length) :
    ∃ u, exec (.freeSlotRequest t port true addr 0 d []) s = .next u ∧ s.Stores u port addr d := by
  have hdue : (s.portActive port && d.length != 0) = true := by simp [hact, hd]
  refine ⟨(s.tick t).putTiles port addr d [], (if_neg (not_outside hpart)).trans (State.when_due hdue), ?_⟩
  rw [State.putTiles_sound (s := s.tick t) hsound]
  exact State.stores_storeTiles (s := s.tick t) hwf ..

theorem freeSlotReadRow {addr n : Nat} (hact : s.portActive port = true) (hlen : port < s.mports.length)
    (hpart : inPart port addr n = true) (hn : n ≠ 0) (hsound : s.Sound port addr n) :
    ∃ u, exec (.freeSlotRequest t port false addr n [] []) s = .next u ∧ u.mem = s.mem ∧
      u.mport port = { s.mport port with delivered := (s.readMem port addr n).map some } := by
  have hdue : (s.portActive port && n != 0) = true := by simp [hact, hn]
  have hexec : exec (.freeSlotRequest t port false addr n [] []) s =
      .next ((s.tick t).deliver [] port addr (s.readMem port addr n)) := by
    refine (if_neg (not_outside hpart)).trans ((State.when_due hdue).trans ?_)
    show Host.Outcome.next (State.deliver ((s.tick t).verifyTiles port [] (tilesOf addr n)).1
      ((s.tick t).verifyTiles port [] (tilesOf addr n)).2 port addr _) = _
    rw [State.verifyTiles_sound (s := s.tick t) hsound]
    rfl
  refine ⟨_, hexec, rfl, ?_⟩
  rw [State.mport_deliver _ _ _ (s := s.tick t) hlen, deliverFrom_nil]
  rfl

/-! ### The check-value unit -/

/-- A rise of ARM starts the unit afresh, with the polynomial written or the one it had (R235). -/
theorem MPort.cvuWrite_arms {m : MPort} {a : RegAcc} (hm : m.cvuArm = false)
    (ha : accSets a ⟨.MPORT_CVU_CTL, 0, 1⟩ = true) : m.cvuWrite a =
      let p := (accField a ⟨.MPORT_CVU_CTL, 1, 2⟩).getD m.cvuPoly
      { m with cvuArm := true, cvuPoly := p, cvuReg := (crcOfPoly p).init,
               cvuValue := crcOut (crcOfPoly p) (crcOfPoly p).init, cvuBytes := 0 } := by
  have harm : accField a ⟨.MPORT_CVU_CTL, 0, 1⟩ = some 1 := beq_iff_eq.mp ha
  simp [MPort.cvuWrite, harm, hm]

theorem cvuArmRow {a : RegAcc} (hlen : port < s.mports.length) (hreach : s.reach a.port .MPORT_CVU_CTL = true)
    (hsel : s.selMport a.port = port) (hm : (s.mport port).cvuArm = false)
    (ha : accSets a ⟨.MPORT_CVU_CTL, 0, 1⟩ = true) :
    ∃ u p, exec (.cvuArm t a) s = .next u ∧
      u.mport port = { s.mport port with cvuArm := true, cvuPoly := p, cvuReg := (crcOfPoly p).init,
                                         cvuValue := crcOut (crcOfPoly p) (crcOfPoly p).init, cvuBytes := 0 } ∧
      p = (accField a ⟨.MPORT_CVU_CTL, 1, 2⟩).getD (s.mport port).cvuPoly ∧
      u = { s.tick t with mports := u.mports } := by
  subst hsel
  have hexec : exec (.cvuArm t a) s = .next ((s.tick t).onMport (s.selMport a.port) (·.cvuWrite a)) := by
    show execCvuArm t a s = _
    exact State.access_reached hreach
  exact ⟨_, _, hexec, (State.mport_onMport (s := s.tick t) _ hlen).trans (MPort.cvuWrite_arms hm ha), rfl, rfl⟩

/-! ### The device-memory window -/

section
variable {addr a : Nat} {d : List Byte}

theorem State.windowPieces_tick (s : State) (t off len : Nat) :
    (s.tick t).windowPieces off len = s.windowPieces off len := by rfl

theorem execBar2Read_sound {n : Nat} (hup : s.windowUp = true) (hsize : addr + n ≤ s.ports.bar2Size)
    (hpieces : s.windowPieces addr n = [(port, a, n)]) (hsound : s.Sound port a n) :
    exec (.bar2Read t addr n []) s =
      .next ((s.tick t).emit (.readData (leNat (s.readMem port a n)) false)) := by
  have hdue : (s.windowUp && decide (addr + n ≤ s.ports.bar2Size)) = true := by simp [hup, hsize]
  have hv := State.verifyTiles_sound (s := s.tick t) hsound
  show execBar2Read t addr n [] s = _
  rw [execBar2Read, State.when_due hdue, State.windowPieces_tick, hpieces]
  simp [hv, State.readMem]

theorem State.mem_dropBar2 (s : State) : s.dropBar2.mem = s.mem := by
  unfold State.dropBar2
  dsimp only
  split
  · rfl
  · exact State.record_mem ..

theorem State.dropBar2_idle {s : State} (h : s.stept.stepOn = false) :
    s.dropBar2 = (s.incFld Fld.HOST_ERR_BAR2_DROPPED).record 0x7006 1 := by
  unfold State.dropBar2
  dsimp only
  exact if_neg (by rw [State.incFld_stept, h]; decide)

section
variable (hup : s.windowUp = true) (hsize : addr + d.length ≤ s.ports.bar2Size)
  (hpieces : s.windowPieces addr d.length = [(port, a, d.length)])
include hup hsize hpieces

/-- A write that the window takes: what becomes of it turns on the plan, and with one on what it meets. -/
theorem execBar2Write_due : exec (.bar2Write t addr ⟨d, []⟩) s = .next
      (if s.planOn && (tilesOf a d.length).any (s.inResidence port) then (s.tick t).dropBar2
      else if s.planOn then
        if (s.tick t).freshVal.1.getLsbD 0 then (s.tick t).freshVal.2.dropBar2
        else (s.tick t).freshVal.2.putTiles port a d []
      else (s.tick t).putTiles port a d []) := by
  have hdue : (s.windowUp && decide (addr + d.length ≤ s.ports.bar2Size)) = true := by simp [hup, hsize]
  show execBar2Write t addr ⟨d, []⟩ s = _
  rw [execBar2Write, State.when_due hdue]
  dsimp only
  rw [State.windowPieces_tick, hpieces]
  simp only [State.storePieces, List.take_length, List.any_cons, List.any_nil, Bool.or_false]
  rfl

/-- With no plan the write is made. -/
theorem bar2StoredRow (hsound : s.Sound port a d.length) (hwf : Memory.wf s.mem = true) (hplan : s.planOn = false) :
    ∃ u, exec (.bar2Write t addr ⟨d, []⟩) s = .next u ∧ s.Stores u port a d ∧ u.regs = s.regs := by
  refine ⟨(s.tick t).storeTiles port a d, ?_, State.stores_storeTiles (s := s.tick t) hwf port a d, rfl⟩
  rw [execBar2Write_due hup hsize hpieces, hplan, State.putTiles_sound (s := s.tick t) hsound]
  rfl

/-- A write that meets a residence is dropped and recorded (R322). -/
theorem bar2DroppedRow (hplan : s.planOn = true)
    (hheld : ∃ x ∈ tilesOf a d.length, s.inResidence port x = true) (hstep : s.stept.stepOn = false) :
    exec (.bar2Write t addr ⟨d, []⟩) s =
      .next (((s.tick t).incFld Fld.HOST_ERR_BAR2_DROPPED).record 0x7006 1) := by
  rw [execBar2Write_due hup hsize hpieces, hplan, List.any_eq_true.mpr hheld, Bool.and_self, if_pos rfl,
    State.dropBar2_idle (s := s.tick t) hstep]

/-- A write that meets no residence is made, or dropped where it meets a chain's state (log 46). -/
theorem bar2FreeRow (hsound : s.Sound port a d.length) (hwf : Memory.wf s.mem = true) (hplan : s.planOn = true)
    (hfree : ∀ x ∈ tilesOf a d.length, s.inResidence port x = false) :
    ∃ u, exec (.bar2Write t addr ⟨d, []⟩) s = .next u ∧ (s.Stores u port a d ∨ u.mem = s.mem) := by
  have hheld : (tilesOf a d.length).any (s.inResidence port) = false :=
    List.any_eq_false.mpr fun x hx => by rw [hfree x hx]; decide
  refine ⟨_, execBar2Write_due hup hsize hpieces, ?_⟩
  rw [hplan, hheld, Bool.and_false, if_neg (by decide), if_pos rfl]
  split
  · exact .inr (State.mem_dropBar2 _)
  · rw [State.putTiles_sound (s := (s.tick t).freshVal.2) hsound]
    exact .inl (State.stores_storeTiles (s := (s.tick t).freshVal.2) hwf port a d)

end

end

end

/-- Settles O60: each row is what its command leaves of a port's requests, of its tiles, or of the bytes in memory. -/
theorem memoryPorts : Obligations.MemoryPorts := by
  unfold Obligations.MemoryPorts
  intro t port s
  refine ⟨fun id addr d h => execMport_no_unit h id, fun hact hport hlen hwf => ?_,
    fun addr a d hup hsize hpieces hsound hwf => ⟨execBar2Read_sound hup hsize hpieces hsound,
      bar2StoredRow hup hsize hpieces hsound hwf, bar2DroppedRow hup hsize hpieces,
      bar2FreeRow hup hsize hpieces hsound hwf⟩⟩
  refine ⟨fun id addr d hpart hd hplan => ⟨writeRequestRow id hact hlen hpart hd hplan, writeRefusedRow id hpart⟩,
    fun id addr n x hpart huse hn hplan hx => ⟨fun hopen => ?_, fun hclosed hroom => ?_⟩,
    fun r hr => ⟨readAdmittedRow hact hport hlen hr, fun d hw hd _ hwhole hreads hqueue =>
      writeAdmittedRow hact hport hlen hwf hr hw hd hwhole hreads hqueue⟩,
    fun r a rest hr ha => ⟨readDeliveredRow hact hport hlen hr ha, fun x hx hres hbytes =>
      ⟨readPoisonedRow hact hport hlen hr ha hx hres hbytes, readMismatchRow hact hport hlen hr ha hx hres hbytes⟩⟩,
    fun w a rest hw => ⟨writeAckRow hact hport hlen hw, writeAckWaitsRow hport hw⟩,
    mergeEntryRow hact hport hlen,
    fun hanchor hwin hp hagrees => scrubRow hact hport hlen hanchor hwin ⟨hp, hagrees⟩,
    fun addr x hpart => ⟨fun hmode hstep hsound => atomicAddRow hact hwf hpart hmode hstep hsound,
      execAtomicAdd_not_due hpart⟩,
    fun addr d hpart hd hsound => ⟨freeSlotWriteRow hact hwf hpart hd hsound,
      freeSlotReadRow hact hlen hpart (List.length_pos_iff.mpr hd).ne' hsound⟩,
    fun a hreach hsel hm ha => cvuArmRow hlen hreach hsel hm ha⟩
  · exact readRequestRow id hact hlen hpart huse hn hplan hx (State.openRead_merged (s := s.tick t) hopen)
  · exact readRequestRow id hact hlen hpart huse hn hplan hx (State.openRead_opens (s := s.tick t) hclosed hroom)

end Sys2Proof.Machine
end
